-- ==== Sys2Proof/Word.lean ====
section
/-! DEFINITION. Sys2Proof/Word.lean: the sizes of data the spec names (R10, R222) and maps held as plain data. -/
namespace Sys2Proof

/-- A byte of memory (R10). -/
abbrev Byte := BitVec 8
/-- One lane of a vector register, a predicate register (Table 8.5). -/
abbrev Word := BitVec 32
/-- A scalar register, a virtual address (Table 8.5, R22). -/
abbrev DWord := BitVec 64

/-- A finite map with natural-number keys, as plain data: the first entry of a key counts. -/
abbrev AMap (α : Type) := List (Nat × α)

end Sys2Proof
end

