-- ==== Sys2Proof/Config.lean ====
section
/-! DEFINITION. Sys2Proof/Config.lean: the constants of one device (Table 0.1) and the FREE VALUES: constants without a body, one for
each point on which the spec leaves a value open. Nothing can be proved of a free value but what the text around it bounds. -/
namespace Sys2Proof.Config

/-- Cores of one die, harvested ones included (Table 0.1). -/
def coresPerDie : Nat := 36
/-- Bytes of one die's HBM: 192 GiB (Table 1.4). -/
def hbmBytes : Nat := 0x3000000000
/-- Granules of one core's plot store (R60). -/
def plotGranules : Nat := 512
/-- Entries of the context directory (R159). -/
def directoryEntries : Nat := 4096
/-- Unfinished launches in one die's launch table (R205). -/
def launchTableEntries : Nat := 256
/-- Copy engines of one die, and transfers each holds (R324). -/
def enginesPerDie : Nat := 8
/-- Transfers one engine holds (R324). -/
def transfersPerEngine : Nat := 64
/-- Contention-predictor entries of one home slice (R123). -/
def predictorEntries : Nat := 2048
/-- Event records that wait on die (R417). -/
def eventBuffer : Nat := 1024
/-- Lines of one core's L1: 256 KiB of 128-byte lines (Table 0.1). -/
def l1Lines : Nat := 2048
/-- Lines of one core's instruction cache: 128 KiB (Table 0.1). -/
def icacheLines : Nat := 1024
/-- Lines of one slice of a die's L2: 2 MiB of 128-byte lines in each of 64 slices, 128 MiB in all (Table 0.1). -/
def sliceLines : Nat := 16384
/-- Slots of one die's future resolution table (R181). -/
def frtSlots : Nat := 1048576

/-- FREE VALUE (log 4): nanoseconds of TSC that the model's n-th step takes. -/
opaque elapsedNs : Nat → Nat
/-- FREE VALUE (log 4): cycles that the model's n-th step delivers to a core. -/
opaque deliveredCycles : Nat → Nat → Nat
/-- FREE VALUE (log 5, R266): the FP32 result that the part returns for a long-latency function (0 rcp, 1 rsq, 2 exp2, 3 log2,
4 sin of pi a, 5 cos of pi a) of the FP32 operand, taken only when it lies within the bound of Table 10.3. -/
opaque f32Function : Nat → BitVec 32 → BitVec 32
/-- FREE VALUE (log 6, R37, R38): the 64 bytes of an AES-256-XTS key, by its name; no agent can read them. -/
opaque keyBytes : Nat → BitVec 512
/-- FREE VALUE (log 7, R48): whether an access of the model's n-th step to an address finds that a translation walked again has left the cache. -/
opaque walksAgain : Nat → Nat → Bool
/-- FREE VALUE (log 8, R138): which of the cores that have stores on their way to the line of a load the load sees, at the model's n-th step; none beyond them. -/
opaque earlyChoice : Nat → Nat → Nat
/-- FREE VALUE (R120): the Nawalink port that the hash of a node and a block address gives. -/
opaque peerPort : Nat → Nat → Nat
/-- FREE VALUE (log 9, R324): which of a die's engines the device chooses for its n-th transfer. -/
opaque engineChoice : Nat → Nat
/-- FREE VALUE (log 18, R410-R412, R414): whether signed or wrapped bytes read from memory pass the check that the ROM makes. -/
opaque signatureOk : List (BitVec 8) → Bool
/-- FREE VALUE (log 18, R410): the version that a firmware image carries. -/
opaque imageVersion : List (BitVec 8) → Nat
/-- FREE VALUE (log 18, R410, R413): the bytes of component `i` that the ROM measures: 0 ROM, 1 Reeve image, 2 PWC image. -/
opaque componentBytes : Nat → List (BitVec 8)
/-- FREE VALUE (log 17, R412): the key in bytes wrapped under the key of the n-th SPDM session, by its name, or none where it does not unwrap. -/
opaque unwrapKey : Nat → List (BitVec 8) → Option Nat
/-- FREE VALUE (log 18, R414): the present and the next state that a signed token names. -/
opaque tokenStates : List (BitVec 8) → Nat × Nat
/-- FREE VALUE (log 19, R413): what an SPDM request does to the session, given whether one stands: none stands after it, or one does, which is the session
before or (true) a new one. -/
opaque spdmSession : Bool → List (BitVec 8) → Option Bool
/-- FREE VALUE (log 19, R413): the answer to an SPDM request, given the measurements. -/
opaque spdmAnswer : List (BitVec 512) → List (BitVec 8) → List (BitVec 8)
/-- FREE VALUE (log 62, R87): what a column of a garner row gives to an instruction that a LOST yoke never serves, by the place of the instruction. -/
opaque lostGarner : Nat → Nat → BitVec 32
/-- FREE VALUE (log 70, Table 16.7): the die that a PWC watchdog resets, where it is 0 or 1. -/
opaque pwcDie : Nat
/-- FREE VALUE (log 20, R362): cycles that the wave waited on the scoreboard at the model's n-th step. -/
opaque scoreboardCycles : Nat → Nat
/-- FREE VALUE (log 21, R76, R326): whether a byte of a failed copy is written or not, by transfer and byte number. -/
opaque failedByteWritten : Nat → Nat → Bool

end Sys2Proof.Config
end

