-- ==== Sys2Proof/Machine/Bits.lean ====
section
/-! DEFINITION. Sys2Proof/Machine/Bits.lean: plain helpers over bits, bytes, lanes and maps: slices, sign extension, little-endian
bytes (R10), lane tables and masks (R15), and maps held as lists. -/
namespace Sys2Proof.Machine

/-- The table of `f` over the first `n` indices: all lanes at once (R15). -/
def tab {α : Type} (n : Nat) (f : Nat → α) : Vector α n :=
  ⟨⟨(List.range n).map f⟩, by simp⟩

/-- The value a map holds for a key. -/
def lookup {α : Type} (m : AMap α) (k : Nat) : Option α :=
  match m with
  | [] => none
  | (j, a) :: t => if j = k then some a else lookup t k

/-- The map with `k` holding `a`: the first entry of `k` is replaced, or one is added at the end. -/
def put {α : Type} (m : AMap α) (k : Nat) (a : α) : AMap α :=
  match m with
  | [] => [(k, a)]
  | (j, b) :: t => if j = k then (k, a) :: t else (j, b) :: put t k a

/-- The map without `k`. -/
def erase {α : Type} (m : AMap α) (k : Nat) : AMap α :=
  m.filter fun e => !(e.1 == k)

/-- Replace every value of a map by `f` of it. -/
def mapVals {α : Type} (m : AMap α) (f : α → α) : AMap α :=
  m.map fun e => (e.1, f e.2)

/-- The first value of a map that has a property. -/
def findVal {α : Type} (m : AMap α) (p : α → Bool) : Option α :=
  (m.find? fun e => p e.2).map (·.2)

/-- The 32-bit mask whose bit `i` is `f i` (R15: one bit per lane). -/
def maskOf (f : Nat → Bool) : Word :=
  (List.range 32).foldr (fun i acc => if f i then acc ||| (1#32 <<< i) else acc) 0#32

/-- The numbers of the one bits of a mask, ascending. -/
def bitsOf {w : Nat} (x : BitVec w) : List Nat :=
  (List.range w).filter fun i => x.getLsbD i

/-- How many bits are one. -/
def popCount {w : Nat} (x : BitVec w) : Nat := (bitsOf x).length

/-- Leading zeros from the top bit; the width when `x` is zero (R251). -/
def leadingZeros {w : Nat} (x : BitVec w) : Nat :=
  match (bitsOf x).getLast? with
  | none => w
  | some i => w - 1 - i

/-- Trailing zeros from bit 0; the width when `x` is zero (R251). -/
def trailingZeros {w : Nat} (x : BitVec w) : Nat :=
  match (bitsOf x).head? with
  | none => w
  | some i => i

/-- `n` bytes of a number, byte 0 first (R10). -/
def bytesOf (n : Nat) (x : Nat) : List Byte :=
  match n with
  | 0 => []
  | k + 1 => BitVec.ofNat 8 x :: bytesOf k (x / 256)

/-- The number that bytes hold, byte 0 least significant (R10). -/
def natOf (l : List Byte) : Nat :=
  match l with
  | [] => 0
  | b :: t => b.toNat + 256 * natOf t

/-- The bytes at positions `[off, off + n)` of a list, zero beyond its end. -/
def sliceBytes (l : List Byte) (off n : Nat) : List Byte :=
  (List.range n).map fun i => l.getD (off + i) 0#8

/-- The little-endian number in `n` bytes from position `off` of a record. -/
def fieldOf (l : List Byte) (off n : Nat) : Nat := natOf (sliceBytes l off n)

/-- Whether bytes `[off, off + n)` of a record are all zero. -/
def zeroField (l : List Byte) (off n : Nat) : Bool := fieldOf l off n == 0

/-- `n` zero bytes. -/
def zeroBytes (n : Nat) : List Byte := List.replicate n 0#8

/-- Bits `[lo + n - 1 : lo]` of a number. -/
def bitsAt (x lo n : Nat) : Nat := (x >>> lo) % 2 ^ n

/-- A bit pattern of `w` bits read as signed. -/
def signedOf (w x : Nat) : Int :=
  let y := x % 2 ^ w
  if 2 * y < 2 ^ w then (y : Int) else (y : Int) - (2 ^ w : Nat)

/-- An integer modulo `2 ^ w` (R96: a result wraps). -/
def wrapOf (w : Nat) (x : Int) : Nat := (x % ((2 ^ w : Nat) : Int)).toNat

/-- Truncating division (R15: DIV). -/
def ceilDiv (a b : Nat) : Nat := (a + b - 1) / b

/-- The largest of a list of numbers, at least `d`. -/
def maxOf (d : Nat) (l : List Nat) : Nat := l.foldl Nat.max d

end Sys2Proof.Machine
end

