-- ==== Sys2Proof/Machine/Float.lean ====
section
/-! DEFINITION. Sys2Proof/Machine/Float.lean: the floating-point formats of R93, exact values, rounding (Table 3.5), the IEEE operations
behind RESULTF (R259), the conversions of R101, the long-latency functions of Table 10.3 and RNE32 (R16). -/
namespace Sys2Proof.Machine

/-- A floating-point format: exponent and fraction widths (Table 3.4). -/
structure FFmt where
  ebits : Nat
  mbits : Nat
  deriving DecidableEq, Repr

/-- FP32 (Table 3.4). -/
def fF32 : FFmt := ⟨8, 23⟩
/-- FP16 (Table 3.4). -/
def fF16 : FFmt := ⟨5, 10⟩
/-- BF16 (Table 3.4). -/
def fBF16 : FFmt := ⟨8, 7⟩

/-- An exact value: NaN, ±∞, or ± m × 2^e (a zero keeps its sign). -/
inductive FVal where
  | nan
  | inf (neg : Bool)
  | fin (neg : Bool) (m : Nat) (e : Int)
  deriving DecidableEq, Repr

/-- The bias of a format (Table 3.4). -/
def FFmt.bias (f : FFmt) : Nat := 2 ^ (f.ebits - 1) - 1
/-- The exponent of the least subnormal of a format. -/
def FFmt.qmin (f : FFmt) : Int := 1 - (f.bias : Int) - (f.mbits : Int)
/-- The bits of +∞: also the count of finite magnitudes. -/
def FFmt.infBits (f : FFmt) : Nat := (2 ^ f.ebits - 1) * 2 ^ f.mbits
/-- The sign bit's weight. -/
def FFmt.signBit (f : FFmt) : Nat := 2 ^ (f.ebits + f.mbits)
/-- The canonical NaN (R95). -/
def FFmt.nanBits (f : FFmt) : Nat := f.infBits + 2 ^ (f.mbits - 1)

/-- The exact value of a bit pattern (R93). -/
def decodeF (f : FFmt) (x : Nat) : FVal :=
  let neg := x / f.signBit % 2 == 1
  let ef := bitsAt x f.mbits f.ebits
  let fr := x % 2 ^ f.mbits
  if ef = 2 ^ f.ebits - 1 then
    if fr = 0 then .inf neg else .nan
  else if ef = 0 then .fin neg fr f.qmin
  else .fin neg (2 ^ f.mbits + fr) (f.qmin + (ef : Int) - 1)

/-- Whether a bit pattern is subnormal (R100). -/
def isSubnormal (f : FFmt) (x : Nat) : Bool :=
  bitsAt x f.mbits f.ebits == 0 && x % 2 ^ f.mbits != 0

/-- The exact value of an operand under the flush bit (R100, R259). -/
def readF (f : FFmt) (flush : Bool) (x : Nat) : FVal :=
  if flush && isSubnormal f x then .fin (x / f.signBit % 2 == 1) 0 0 else decodeF f x

/-- The number of bits of a natural number. -/
def bitLen (m : Nat) : Nat := if m = 0 then 0 else Nat.log2 m + 1

/-- `m ÷ 2^sh` rounded to an integer under mode `rm` for a value of sign `neg` (Table 3.5). -/
def roundShift (rm : Nat) (neg : Bool) (m sh : Nat) : Nat :=
  if sh = 0 then m
  else
    let q := m >>> sh
    let r := m % 2 ^ sh
    let up := match rm with
      | 0 => decide (2 * r > 2 ^ sh) || (decide (2 * r = 2 ^ sh) && q % 2 == 1)
      | 1 => false
      | 2 => decide (r ≠ 0) && !neg
      | _ => decide (r ≠ 0) && neg
    if up then q + 1 else q

/-- The magnitude bits of `m × 2^e`, m > 0, rounded to a format without an upper limit. -/
def magBits (f : FFmt) (rm : Nat) (neg : Bool) (m : Nat) (e : Int) : Nat :=
  let q := max (e + (bitLen m : Int) - (f.mbits + 1 : Nat)) f.qmin
  let big := if e ≥ q then m <<< (e - q).toNat
    else
      let sh := (q - e).toNat
      if sh > bitLen m + 2 then roundShift rm neg 1 2 else roundShift rm neg m sh
  (q - f.qmin).toNat * 2 ^ f.mbits + big

/-- The magnitude bits that an overflow gives (Table 3.5, R99). -/
def overflowBits (f : FFmt) (rm : Nat) (sat neg : Bool) : Nat :=
  let toMax := sat || rm == 1 || (rm == 2 && neg) || (rm == 3 && !neg)
  if toMax then f.infBits - 1 else f.infBits

/-- RESULTF: an exact value written in a format (R95, R99, R100, R259). -/
def resultF (f : FFmt) (rm : Nat) (sat flush : Bool) (v : FVal) : Nat :=
  match v with
  | .nan => f.nanBits
  | .inf neg => (if neg then f.signBit else 0) + f.infBits
  | .fin neg m e =>
    let sg := if neg then f.signBit else 0
    if m = 0 then sg
    else
      let b := magBits f rm neg m e
      if b ≥ f.infBits then sg + overflowBits f rm sat neg
      else if flush && decide (b < 2 ^ f.mbits) then sg
      else sg + b

/-- The negation of a value. -/
def negV (v : FVal) : FVal :=
  match v with
  | .nan => .nan
  | .inf n => .inf (!n)
  | .fin n m e => .fin (!n) m e

/-- A signed integer times a power of two, with the zero sign of IEEE 754: `zneg` is the sign of a zero. -/
def ofIntV (x : Int) (e : Int) (zneg : Bool) : FVal :=
  if x = 0 then .fin zneg 0 0 else .fin (decide (x < 0)) x.natAbs e

/-- A finite value as an integer at exponent `e0`, not above its own. -/
def intAt (neg : Bool) (m : Nat) (e e0 : Int) : Int :=
  let a : Int := (m <<< (e - e0).toNat : Nat)
  if neg then -a else a

/-- The exact sum (IEEE 754-2019; a zero sum of unlike signs is −0 only under rdn). -/
def addV (rm : Nat) (a b : FVal) : FVal :=
  match a, b with
  | .nan, _ => .nan
  | _, .nan => .nan
  | .inf x, .inf y => if x = y then .inf x else .nan
  | .inf x, .fin .. => .inf x
  | .fin .., .inf y => .inf y
  | .fin s m e, .fin t n g =>
    if m = 0 && n = 0 then .fin (if s = t then s else rm == 3) 0 0
    else if m = 0 then .fin t n g
    else if n = 0 then .fin s m e
    else
      let e0 := min e g
      ofIntV (intAt s m e e0 + intAt t n g e0) e0 (rm == 3)

/-- The exact product. -/
def mulV (a b : FVal) : FVal :=
  match a, b with
  | .nan, _ => .nan
  | _, .nan => .nan
  | .inf x, .inf y => .inf (x != y)
  | .inf x, .fin t n _ => if n = 0 then .nan else .inf (x != t)
  | .fin s m _, .inf y => if m = 0 then .nan else .inf (s != y)
  | .fin s m e, .fin t n g => .fin (s != t) (m * n) (e + g)

/-- The quotient, exact but for a last bit that stands for a non-zero remainder, more than 60 bits below the first. -/
def divV (a b : FVal) : FVal :=
  match a, b with
  | .nan, _ => .nan
  | _, .nan => .nan
  | .inf _, .inf _ => .nan
  | .inf x, .fin t _ _ => .inf (x != t)
  | .fin s _ _, .inf y => .fin (s != y) 0 0
  | .fin s m e, .fin t n g =>
    if n = 0 then (if m = 0 then .nan else .inf (s != t))
    else if m = 0 then .fin (s != t) 0 0
    else
      let k := 64 + bitLen n
      let num := m <<< k
      let q := num / n
      .fin (s != t) (2 * q + (if num % n = 0 then 0 else 1)) (e - g - (k : Int) - 1)

/-- Steps of the integer square root: bit `k - 1` downward. -/
def isqrtLoop (n : Nat) (k : Nat) (r : Nat) : Nat :=
  match k with
  | 0 => r
  | j + 1 =>
    let t := r + 2 ^ j
    isqrtLoop n j (if t * t ≤ n then t else r)

/-- The integer square root. -/
def isqrt (n : Nat) : Nat := isqrtLoop n (bitLen n / 2 + 1) 0

/-- The square root, exact but for a last bit that stands for a remainder (Table 10.3). -/
def sqrtV (a : FVal) : FVal :=
  match a with
  | .nan => .nan
  | .inf n => if n then .nan else .inf false
  | .fin s m e =>
    if m = 0 then .fin s 0 0
    else if s then .nan
    else
      let odd := e % 2 != 0
      let m1 := if odd then 2 * m else m
      let e1 := if odd then e - 1 else e
      let num := m1 <<< 128
      let r := isqrt num
      .fin false (2 * r + (if r * r = num then 0 else 1)) ((e1 - 128) / 2 - 1)

/-- −1, 0 or 1 as a < b, a = b or a > b; none when either is NaN (R228; −0 equals +0). -/
def cmpV (a b : FVal) : Option Int :=
  match a, b with
  | .nan, _ => none
  | _, .nan => none
  | .inf x, .inf y => some (if x = y then 0 else if x then -1 else 1)
  | .inf x, .fin .. => some (if x then -1 else 1)
  | .fin .., .inf y => some (if y then 1 else -1)
  | .fin s m e, .fin t n g =>
    let e0 := min e g
    let d := intAt s m e e0 - intAt t n g e0
    some (if d < 0 then -1 else if d = 0 then 0 else 1)

/-- The sign of a value. -/
def signV (a : FVal) : Bool :=
  match a with
  | .nan => false
  | .inf n => n
  | .fin n _ _ => n

/-- minimumNumber (`mx` false) or maximumNumber (R263). -/
def minMaxV (mx : Bool) (a b : FVal) : FVal :=
  match cmpV a b with
  | none => if a = .nan then b else a
  | some d =>
    if d = 0 then (if signV a = mx then b else a)
    else if decide (d < 0) = mx then b else a

/-- ROUNDINT (R98); ±∞ and NaN give none. -/
def roundIntV (rm : Nat) (v : FVal) : Option Int :=
  match v with
  | .fin neg m e =>
    let a : Nat := if e ≥ 0 then m <<< e.toNat
      else
        let sh := (-e).toNat
        if sh > bitLen m + 2 then (if m = 0 then 0 else roundShift rm neg 1 2) else roundShift rm neg m sh
    some (if neg then -(a : Int) else (a : Int))
  | _ => none

/-- The exact value of an integer. -/
def valOfInt (x : Int) : FVal := ofIntV x 0 false

/-- RNE32(x) (R16). -/
def rne32 (v : FVal) : Nat := resultF fF32 0 false false v

/-- An FP32 pattern's exact value, subnormals kept. -/
def val32 (x : Nat) : FVal := decodeF fF32 x

/-- Fraction bits of the fixed-point series below. -/
def fixP : Nat := 192
/-- ln 2, 192 fraction bits, rounded down. -/
def fixLn2 : Nat := 0xb17217f7d1cf79abc9e3b39803f2f6af40f343267298b62d
/-- π, 192 fraction bits, rounded down. -/
def fixPi : Nat := 0x3243f6a8885a308d313198a2e03707344a4093822299f31d0

/-- Σ t^k ÷ k! from term `k` on, `n` terms, in fixed point; `term` is t^(k−1) ÷ (k−1)!. -/
def expSeries (t : Nat) (n k term : Nat) : Nat :=
  match n with
  | 0 => 0
  | j + 1 =>
    let term' := (term * t) >>> fixP
    let term'' := term' / k
    term'' + expSeries t j (k + 1) term''

/-- Alternating series term × (1 − t²÷((k)(k+1)) + …) for sine and cosine, in fixed point. -/
def altSeries (t2 : Nat) (n k : Nat) (term : Int) : Int :=
  match n with
  | 0 => 0
  | j + 1 => term + altSeries t2 j (k + 2) (-((term * (t2 : Int)) / (2 ^ fixP : Nat) / (k * (k + 1) : Nat)))

/-- 2^a for a finite a: value, and whether it is exact (an integer a for which FP32 has 2^a). -/
def exp2V (neg : Bool) (m : Nat) (e : Int) : FVal × Bool :=
  if m = 0 then (.fin false 1 0, true)
  else if e + (bitLen m : Int) > 20 then (.fin false 1 (if neg then -2000 else 2000), false)
  else
    let x : Int := if e + (fixP : Int) ≥ 0 then intAt neg m e (-(fixP : Int)) else (if neg then -1 else 1)
    let n := x / (2 ^ fixP : Nat)
    let f := (x % ((2 ^ fixP : Nat) : Int)).toNat
    if f = 0 then (.fin false 1 n, decide (-149 ≤ n) && decide (n ≤ 127))
    else
      let t := (f * fixLn2) >>> fixP
      let y := 2 ^ fixP + expSeries t 56 1 (2 ^ fixP)
      (.fin false (2 * y + 1) (n - (fixP : Int) - 1), false)

/-- Binary digits of log2 of y in [1, 2), 256 fraction bits, first digit first. -/
def log2Digits (y : Nat) (n acc : Nat) : Nat :=
  match n with
  | 0 => acc
  | j + 1 =>
    let z := (y * y) >>> 256
    if z ≥ 2 ^ 257 then log2Digits (z >>> 1) j (2 * acc + 1) else log2Digits z j (2 * acc)

/-- log2 of m × 2^e, m > 0. -/
def log2V (m : Nat) (e : Int) : FVal × Bool :=
  let n := e + (bitLen m : Int) - 1
  let y := (m <<< 256) >>> (bitLen m - 1)
  if y = 2 ^ 256 then (ofIntV n 0 false, true)
  else
    let d := log2Digits y 96 0
    let t : Int := 2 * (n * ((2 ^ 96 : Nat) : Int) + (d : Int)) + 1
    (ofIntV t (-97) false, false)

/-- sin(π a) and cos(π a) of a finite a, each with whether it is exact. A value that is not exact lies strictly between −1 and 1. -/
def sincosV (neg : Bool) (m : Nat) (e : Int) : (FVal × Bool) × (FVal × Bool) :=
  if m = 0 then ((.fin neg 0 0, true), (.fin false 1 0, true))
  else if e ≥ 1 then ((.fin neg 0 0, true), (.fin false 1 0, true))
  else
    let one : Int := (2 ^ fixP : Nat)
    let x : Int := if e + (fixP : Int) ≥ 0 then intAt neg m e (-(fixP : Int)) else 0
    let r := x % (2 * one)
    if r % one = 0 then ((.fin neg 0 0, true), (.fin (decide (r ≠ 0)) 1 0, true))
    else if (2 * r) % one = 0 then ((.fin (decide (r > one)) 1 0, true), (.fin false 0 0, true))
    else
      let q := (2 * r + one / 2) / one
      let t := r - q * one / 2
      let a : Int := t * (fixPi : Int) / one
      let a2 := (a * a / one).toNat
      let sn := altSeries a2 32 2 a
      let cs := altSeries a2 32 1 one
      let (ss, cc) := match (q % 4).toNat with
        | 0 => (sn, cs)
        | 1 => (cs, -sn)
        | 2 => (-sn, -cs)
        | _ => (-cs, sn)
      let odd := fun (i : Int) =>
        let up := if i.natAbs ≥ 2 ^ fixP then -1 else 1
        ofIntV (2 * i + (if i < 0 then -up else up)) (-(fixP : Int) - 1) false
      ((odd ss, false), (odd cc, false))

/-- The function numbers of the long-latency functions: 0 rcp, 1 rsq, 2 exp2, 3 log2, 4 sine, 5 cosine of π a. Value, and whether
the result is exact or special, with Table 10.3's special values. -/
def llFunction (fn : Nat) (a : FVal) : FVal × Bool :=
  match a with
  | .nan => (.nan, true)
  | .inf n =>
    match fn with
    | 0 => (.fin n 0 0, true)
    | 1 => (if n then .nan else .fin false 0 0, true)
    | 2 => (if n then .fin false 0 0 else .inf false, true)
    | 3 => (if n then .nan else .inf false, true)
    | _ => (.nan, true)
  | .fin n m e =>
    match fn with
    | 0 => if m = 0 then (.inf n, true) else (divV (.fin false 1 0) a, decide (m = 2 ^ (bitLen m - 1)))
    | 1 =>
      if m = 0 then (.inf n, true)
      else if n then (.nan, true)
      else
        let z := bitLen m - 1
        let pw := decide (m = 2 ^ z) && (e + (z : Int)) % 2 == 0
        if pw then (.fin false 1 (-((e + (z : Int)) / 2)), true)
        else
          let m1 := if e % 2 = 0 then m else 2 * m
          let e1 := if e % 2 = 0 then e else e - 1
          let k := 2 * (bitLen m1 + 64)
          (.fin false (2 * isqrt (2 ^ k / m1) + 1) (-(e1 / 2) - (k / 2 : Nat) - 1), false)
    | 2 => exp2V n m e
    | 3 => if m = 0 then (.inf true, true) else if n then (.nan, true) else log2V m e
    | 4 => (sincosV n m e).1
    | _ => (sincosV n m e).2

/-- Whether an FP32 value lies within `n` ulps of the value `x`, or within 2^−24 when `abs24` is set (Table 10.3). A value that is not exact has an odd last digit, far
below FP32's, and so stands on the side of every bound on which the exact one is. -/
def withinUlps (n : Nat) (abs24 : Bool) (p x : FVal) : Bool :=
  match p, x with
  | .fin s m e, .fin t k g =>
    let q := max (g + (bitLen k : Int) - 24) fF32.qmin
    let e0 := min (min e g) (min q (-24)) - 2
    let d := (intAt s m e e0 - intAt t k g e0).natAbs
    let lim := max (n * 2 ^ (q - e0).toNat) (if abs24 then 2 ^ (-24 - e0).toNat else 0)
    decide (d ≤ lim)
  | _, _ => false

/-- The result of a long-latency function in a format (R266): for FP16 and BF16 the value rounded by RESULTF; for FP32 the exact and special values of Table 10.3,
and else the part's own value (log 5) when it keeps within the bound, or the nearest one. RND does not act on an FP32 result: each input has one. -/
def llResult (f : FFmt) (rm : Nat) (sat flush : Bool) (fn : Nat) (x : Nat) : Nat :=
  let (y, exact) := llFunction fn (readF f flush x)
  let r := resultF f (if f = fF32 then 0 else rm) sat flush y
  if exact || f != fF32 then r
  else
    let own := decodeF fF32 (Config.f32Function fn (BitVec.ofNat 32 x)).toNat
    if withinUlps (if fn ≤ 1 then 1 else 2) (decide (fn ≥ 4)) own y then resultF f rm sat flush own else r

end Sys2Proof.Machine
end

