-- ==== Sys2Proof/Machine/Tilth.lean ====
section
/-! DEFINITION. Sys2Proof/Machine/Tilth.lean: element types (Table 8.9), integer results (R96, R97, R258), reading and converting elements
(R101, R257), and Tilth parcels (R88-R92, R102, R103). -/
namespace Sys2Proof.Machine

/-- Bytes of an element of a standard type (Table 8.9); 0 for the Tilth types. -/
def typeBytes (t : Nat) : Nat :=
  match t with
  | 0 | 1 | 8 => 4
  | 2 | 3 | 9 | 10 => 2
  | 4 | 5 => 1
  | 6 | 7 => 8
  | _ => 0

/-- Whether a type code is an integer type (0-7). -/
def isInt (t : Nat) : Bool := decide (t ≤ 7)
/-- Whether a type code is floating point (8-10). -/
def isFp (t : Nat) : Bool := decide (8 ≤ t) && decide (t ≤ 10)
/-- Whether a type code is a Tilth format (11-13). -/
def isTilth (t : Nat) : Bool := decide (11 ≤ t) && decide (t ≤ 13)
/-- Whether a type code is a signed integer. -/
def isSigned (t : Nat) : Bool := isInt t && t % 2 == 0
/-- Whether elements of a type take a register pair. -/
def isWide (t : Nat) : Bool := t == 6 || t == 7

/-- The format of a floating-point type. -/
def fmtOf (t : Nat) : FFmt := if t = 9 then fF16 else if t = 10 then fBF16 else fF32

/-- Bits of an element. -/
def typeBits (t : Nat) : Nat := 8 * typeBytes t

/-- An integer element's value. -/
def intVal (t x : Nat) : Int :=
  if isSigned t then signedOf (typeBits t) x else ((x % 2 ^ typeBits t : Nat) : Int)

/-- Least value of an integer type. -/
def intMin (t : Nat) : Int := if isSigned t then -((2 ^ (typeBits t - 1) : Nat) : Int) else 0
/-- Greatest value of an integer type. -/
def intMax (t : Nat) : Int :=
  if isSigned t then ((2 ^ (typeBits t - 1) : Nat) : Int) - 1 else ((2 ^ typeBits t : Nat) : Int) - 1

/-- SAT(x, t) for integers (R16). -/
def satInt (t : Nat) (x : Int) : Int := max (intMin t) (min x (intMax t))

/-- An integer result of a type, saturated or wrapped (R96, R258), as the element's bits. -/
def intResult (t : Nat) (sat : Bool) (x : Int) : Nat := wrapOf (typeBits t) (if sat then satInt t x else x)

/-- A 32-bit lane (or a pair) that holds an element (R257): iN extended by sign, everything else by zeros. -/
def extendElem (t x : Nat) : Nat :=
  let w := typeBits t
  let y := x % 2 ^ w
  if isSigned t && decide (w < 32) then wrapOf 32 (signedOf w y) else y

/-- The scalar form of an element (R276). -/
def scalarForm (t x : Nat) : DWord :=
  if isSigned t then BitVec.ofInt 64 (signedOf (typeBits t) x) else BitVec.ofNat 64 (x % 2 ^ typeBits t)

/-- Quotient by R97, at the width of a type. -/
def quotInt (t : Nat) (a b : Int) : Int :=
  if b = 0 then (if isSigned t then -1 else ((2 ^ typeBits t : Nat) : Int) - 1) else a.tdiv b
/-- Remainder by R97. -/
def remInt (a b : Int) : Int := if b = 0 then a else a.tmod b

/-- An element's exact value. -/
def elemVal (t : Nat) (flush : Bool) (x : Nat) : FVal :=
  if isInt t then valOfInt (intVal t x) else readF (fmtOf t) flush (x % 2 ^ typeBits t)

/-- Conversion between standard types (R101), on element bits. Same-type conversions copy (R271), with R95 and flushing. -/
def convert (src dst rm : Nat) (sat flush : Bool) (x : Nat) : Nat :=
  if isInt src then
    if isInt dst then intResult dst sat (intVal src x)
    else resultF (fmtOf dst) rm sat flush (valOfInt (intVal src x))
  else
    let v := elemVal src flush x
    if isInt dst then
      match v with
      | .nan => 0
      | .inf n => wrapOf (typeBits dst) (if n then intMin dst else intMax dst)
      | .fin .. => wrapOf (typeBits dst) (satInt dst ((roundIntV rm v).getD 0))
    else resultF (fmtOf dst) rm sat flush v

/-- Magnitude bits of a Tilth type (Table 3.2). -/
def tilthM (t : Nat) : Nat := if t = 11 then 2 else if t = 12 then 6 else 14
/-- Format code of a Tilth type (R89). -/
def tilthCode (t : Nat) : Nat := if t = 11 then 2 else if t = 12 then 6 else 14
/-- Elements of a parcel (Table 3.2). -/
def tilthN (t : Nat) : Nat := if t = 11 then 128 else if t = 12 then 64 else 32

/-- ROUNDINT(x × 2^k, rm), or a value past every magnitude for ±∞ (R102). -/
def tilthQ (rm : Nat) (x : FVal) (k : Int) : Int :=
  match x with
  | .nan => 0
  | .inf n => if n then -(2 ^ 20 : Nat) else (2 ^ 20 : Nat)
  | .fin n m e => (roundIntV rm (.fin n m (e + k))).getD 0

/-- The element field of a rounded magnitude (R102): sign above the magnitude, saturated, never −0. -/
def tilthField (m : Nat) (q : Int) : Nat :=
  let mag := min q.natAbs (2 ^ m - 1)
  mag + (if decide (q < 0) && decide (mag ≠ 0) then 2 ^ m else 0)

/-- One pair of TILTHENC: its two fields and its micro-exponent (R102). -/
def tilthPair (m e rm : Nat) (x y : FVal) : Nat × Nat × Nat :=
  let k1 : Int := (m : Int) - ((e : Int) - 128)
  let k0 : Int := (m : Int) - ((e : Int) - 127)
  let a := tilthQ rm x k1
  let b := tilthQ rm y k1
  let big := max a.natAbs b.natAbs
  if decide (big ≠ 0) && decide (big ≤ 2 ^ m - 1) then (tilthField m a, tilthField m b, 1)
  else (tilthField m (tilthQ rm x k0), tilthField m (tilthQ rm y k0), 0)

/-- The payload bits of the pairs from pair `j` on: fields and micro-exponents. -/
def tilthPayload (m n e rm : Nat) (xs : List FVal) (j : Nat) : Nat :=
  match xs with
  | x :: y :: t =>
    let (a, b, u) := tilthPair m e rm x y
    a * 2 ^ (2 * j * (m + 1)) + b * 2 ^ ((2 * j + 1) * (m + 1)) + u * 2 ^ (n * (m + 1) + j) + tilthPayload m n e rm t (j + 1)
  | _ => 0

/-- TILTHENC (R102): the 64 bytes of the parcel that encodes values given as FP32 patterns. -/
def tilthEnc (t e rm : Nat) (xs : List Nat) : List Byte :=
  let vals := xs.map fun x => readF fF32 true x
  if e = 255 || vals.any (· == .nan) then
    BitVec.ofNat 8 (tilthCode t) :: 0xFF#8 :: zeroBytes 62
  else
    BitVec.ofNat 8 (tilthCode t) :: BitVec.ofNat 8 e :: bytesOf 62 (tilthPayload (tilthM t) (tilthN t) e rm vals 0)

/-- The exact value of element `i` of a parcel of type `t` (R91, R92, R103). -/
def tilthElem (t : Nat) (parcel : List Byte) (i : Nat) : FVal :=
  let e := (parcel.getD 1 0#8).toNat
  if e = 255 then .nan
  else
    let m := tilthM t
    let pay := natOf (parcel.drop 2)
    let fld := bitsAt pay (i * (m + 1)) (m + 1)
    let u := bitsAt pay (tilthN t * (m + 1) + i / 2) 1
    let mag := fld % 2 ^ m
    .fin (decide (fld ≥ 2 ^ m) && decide (mag ≠ 0)) mag ((e : Int) - 127 - (u : Int) - (m : Int))

/-- The image in which a narrow plot keeps a parcel (R66): reserved payload bits zero and no −0. -/
def tilthClean (t : Nat) (parcel : List Byte) : List Byte :=
  let m := tilthM t
  let n := tilthN t
  let pay := natOf (parcel.drop 2)
  let fields := (List.range n).foldl (fun acc i =>
    let fld := bitsAt pay (i * (m + 1)) (m + 1)
    acc + (if fld % 2 ^ m = 0 then 0 else fld) * 2 ^ (i * (m + 1))) 0
  let us := bitsAt pay (n * (m + 1)) (n / 2)
  parcel.take 2 ++ bytesOf 62 (fields + us * 2 ^ (n * (m + 1)))

end Sys2Proof.Machine
end

