-- ==== Sys2Proof/Machine/Flags.lean ====
section
/-! DEFINITION. Sys2Proof/Machine/Flags.lean: compare conditions (R228) and every flag computation (R242, R244). -/
namespace Sys2Proof.Machine

/-- The three flags of a wave. -/
structure FlagSet where
  c : Bool
  z : Bool
  v : Bool
  deriving DecidableEq, Repr

/-- A compare condition from the order of two operands; `none` when an operand is NaN (Table 8.9, R228). -/
def condOf (cc : Nat) (d : Option Int) : Bool :=
  match d with
  | none => cc == 1 || cc == 6
  | some x =>
    match cc with
    | 0 => x == 0
    | 1 => x != 0
    | 2 => decide (x < 0)
    | 3 => decide (x ≤ 0)
    | 4 => decide (x > 0)
    | 5 => decide (x ≥ 0)
    | 6 => false
    | _ => true

/-- A condition on integers. -/
def condInt (cc : Nat) (a b : Int) : Bool := condOf cc (some (a - b))

/-- A condition on elements of a type (R228, R269). DESIGN CHOICE (log 66): FLUSH acts on the operands of VCMP and VCMPI, as R100 and R259 state of every
operand, though R269 does not name it. -/
def condElem (ty : Nat) (flush : Bool) (cc a b : Nat) : Bool :=
  if isInt ty then condInt cc (intVal ty a) (intVal ty b)
  else condOf cc (cmpV (elemVal ty flush a) (elemVal ty flush b))

/-- A 64-bit operand read as i64 or as n64. -/
def scalarInt (unsigned : Bool) (x : DWord) : Int := if unsigned then (x.toNat : Int) else x.toInt

/-- Flags of SCMP and SCMPI (R242). -/
def cmpFlags (cc : Nat) (unsigned : Bool) (a b : DWord) : FlagSet :=
  ⟨condInt cc (scalarInt unsigned a) (scalarInt unsigned b), a == b, false⟩

/-- Whether an exact integer lies outside i64. -/
def outside64 (x : Int) : Bool := decide (x < -(2 ^ 63 : Nat)) || decide (x > (2 ^ 63 - 1 : Nat))

/-- Flags of SADD.f (R244). -/
def addFlags (a b : DWord) : FlagSet :=
  ⟨decide (a.toNat + b.toNat ≥ 2 ^ 64), a + b == 0#64, outside64 (a.toInt + b.toInt)⟩

/-- Flags of SSUB.f (R244). -/
def subFlags (a b : DWord) : FlagSet :=
  ⟨decide (a.toNat < b.toNat), a - b == 0#64, outside64 (a.toInt - b.toInt)⟩

end Sys2Proof.Machine
end

