-- ==== Sys2Proof/Machine/Shake.lean ====
section
/-! DEFINITION. Sys2Proof/Machine/Shake.lean: SHAKE256 with 64 bytes of output, the digest of the ROM's measurements (R410, R413; the function is that of
FIPS 202, log 18). -/
namespace Sys2Proof.Machine

/-- The state of Keccak-f[1600]: lane `x` of row `y` is element `x + 5 * y`. -/
abbrev Lanes := List (BitVec 64)

/-- Lane `x` of row `y`, both modulo 5. -/
def laneAt (a : Lanes) (x y : Nat) : BitVec 64 := a.getD (x % 5 + 5 * (y % 5)) 0#64
/-- A state whose lane `x` of row `y` is `f x y`. -/
def lanesOf (f : Nat → Nat → BitVec 64) : Lanes := (List.range 25).map fun i => f (i % 5) (i / 5)

/-- The step theta: each lane takes the parities of two neighbouring columns. -/
def thetaStep (a : Lanes) : Lanes :=
  let c := (List.range 5).map fun x => laneAt a x 0 ^^^ laneAt a x 1 ^^^ laneAt a x 2 ^^^ laneAt a x 3 ^^^ laneAt a x 4
  let col := fun x => c.getD (x % 5) 0#64
  lanesOf fun x y => laneAt a x y ^^^ col (x + 4) ^^^ (col (x + 1)).rotateLeft 1

/-- The amounts by which rho turns the lanes, in the order of `Lanes`. -/
def rhoTurns : List Nat := [0, 1, 62, 28, 27, 36, 44, 6, 55, 20, 3, 10, 43, 25, 39, 41, 45, 15, 21, 8, 18, 2, 61, 56, 14]

/-- The steps rho and pi: lane `(x, y)` of the result is the turned lane `(x + 3 * y, x)`. -/
def rhoPiSteps (a : Lanes) : Lanes :=
  lanesOf fun x y => (laneAt a (x + 3 * y) x).rotateLeft (rhoTurns.getD ((x + 3 * y) % 5 + 5 * x) 0)

/-- The step chi. -/
def chiStep (a : Lanes) : Lanes := lanesOf fun x y => laneAt a x y ^^^ (~~~(laneAt a (x + 1) y) &&& laneAt a (x + 2) y)

/-- The round constants of the step iota. -/
def iotaWords : List (BitVec 64) :=
  [0x0000000000000001#64, 0x0000000000008082#64, 0x800000000000808A#64, 0x8000000080008000#64, 0x000000000000808B#64, 0x0000000080000001#64,
    0x8000000080008081#64, 0x8000000000008009#64] ++
  [0x000000000000008A#64, 0x0000000000000088#64, 0x0000000080008009#64, 0x000000008000000A#64, 0x000000008000808B#64, 0x800000000000008B#64,
    0x8000000000008089#64, 0x8000000000008003#64] ++
  [0x8000000000008002#64, 0x8000000000000080#64, 0x000000000000800A#64, 0x800000008000000A#64, 0x8000000080008081#64, 0x8000000000008080#64,
    0x0000000080000001#64, 0x8000000080008008#64]

/-- One round of the permutation, with its constant. -/
def keccakRound (a : Lanes) (k : BitVec 64) : Lanes :=
  match chiStep (rhoPiSteps (thetaStep a)) with
  | [] => []
  | h :: t => (h ^^^ k) :: t

/-- Keccak-f[1600]: its 24 rounds. -/
def keccak (a : Lanes) : Lanes := iotaWords.foldl keccakRound a

/-- The rate of SHAKE256, in bytes. -/
def shakeRate : Nat := 136

/-- A block of at most 136 bytes added to the state. -/
def absorbInto (a : Lanes) (block : List Byte) : Lanes :=
  lanesOf fun x y => laneAt a x y ^^^ BitVec.ofNat 64 (natOf ((block.drop (8 * (x + 5 * y))).take 8))

/-- The last block of a message: the bytes 1F at its end and 80 at the block's end, added where they meet. -/
def shakePad (b : List Byte) : List Byte :=
  let n := shakeRate - 1 - b.length
  if n = 0 then b ++ [0x9F#8] else b ++ [0x1F#8] ++ List.replicate (n - 1) 0#8 ++ [0x80#8]

/-- A message absorbed block by block; `n` bounds the number of whole blocks. -/
def absorbAll (n : Nat) (a : Lanes) (b : List Byte) : Lanes :=
  match n with
  | 0 => keccak (absorbInto a (shakePad b))
  | k + 1 => if b.length < shakeRate then keccak (absorbInto a (shakePad b)) else absorbAll k (keccak (absorbInto a (b.take shakeRate))) (b.drop shakeRate)

/-- The first 64 bytes of SHAKE256 of a message. -/
def shake256 (b : List Byte) : List Byte :=
  ((absorbAll (b.length / shakeRate) (List.replicate 25 0#64) b).take 8).flatMap fun w => bytesOf 8 w.toNat

/-- A measurement extended by a component (R413): M := SHAKE256(M ‖ digest), cut to 64 bytes, where the digest is the 64-byte SHAKE256 digest of R410. Byte 0
of M is its least significant byte. -/
def measure (m : BitVec 512) (b : List Byte) : BitVec 512 := BitVec.ofNat 512 (natOf (shake256 (bytesOf 64 m.toNat ++ shake256 b)))

end Sys2Proof.Machine
end

