-- ==== Sys2Proof/Syntax.lean ====
section
/-! DEFINITION. Sys2Proof/Syntax.lean: the instruction set. One constructor per row of spec/opcode_table.json. The 186 rows with
an encoding carry their operand fields as the spec's tables of encodings name them (R213, Tables 8.2, 9.1, 10.1, 11.1, 12.1, 13.1),
`nx` being the next-address selector of R216. The 97 rows without an encoding are whole steps of the device's other agents
(spec/95_what_each_step_holds.md); their arguments name the object the step is about, or carry what comes from outside the device. -/
namespace Sys2Proof

/-- An incoming Nawalink request of R419: what it does to one aligned 64-byte block of this device. -/
inductive PeerReq where
  | read (die : Nat) (off : Nat) (n : Nat)
  /-- The bytes of `data` whose place in `mask` is true; an empty `mask` means every byte. -/
  | write (die : Nat) (off : Nat) (data : List (BitVec 8)) (mask : List Bool)
  /-- One atomic operation on each word of `words`: its offset, its operand and what it is compared with, in order. -/
  | atomic (die : Nat) (op : BitVec 4) (ty : BitVec 3) (words : List (Nat × BitVec 64 × BitVec 64))
  | other
  deriving DecidableEq, Repr

/-- What a future's home on another device answers (R179, R349): a state of the future, or a refusal of the task. -/
inductive FutureAnswer where
  | pending
  | complete (value : BitVec 64)
  | broken (cause : BitVec 64)
  | stale
  deriving DecidableEq, Repr

/-- A message from a peer device about lane tasks homed here (R349, R350, R352, R422). -/
inductive PeerTask where
  | task (die : Nat) (entry : BitVec 64) (argp : BitVec 64) (slot : Nat) (tag : BitVec 12)
  | forward (target : BitVec 64) (entry : BitVec 64) (argp : BitVec 64) (slot : Nat) (tag : BitVec 12)
  | drop (target : BitVec 64)
  | grant (die : Nat)
  deriving DecidableEq, Repr

/-- What power-on finds in the fuses (R405, R415), and the part of the ageing margin that the plan has used up (R390). -/
structure Fuses where
  step : BitVec 4
  bin : Bool
  hmap0 : BitVec 36
  hmap1 : BitVec 36
  lcstate : BitVec 3
  margin : BitVec 8
  deriving DecidableEq, Repr

/-- One of a core's paths to the slices (R110): the core, and the slice of its die that the path leads to. -/
structure SlicePath where
  core : Nat
  slice : Nat
  deriving DecidableEq, Repr

/-- Whose translation cache a walk fills (R44): that of a die, or of one of its cores. -/
structure Walker where
  die : Nat
  core : Option Nat
  deriving DecidableEq, Repr

/-- A line as a cache holds it: the L1 of a core, or the L2 where there is none (R110, R116). -/
structure CachedLine where
  core : Option Nat
  line : Nat
  deriving DecidableEq, Repr

/-- What the sensors of a die read, in °C (R398). -/
structure DieSensors where
  die : Nat
  temps : List Nat
  deriving DecidableEq, Repr

/-- A fall of a core's supply, in mV (R395). -/
structure SupplyDrop where
  core : Nat
  drop : Nat
  deriving DecidableEq, Repr

/-- The instructions and operations of the Apzar N2, one constructor per row of spec/opcode_table.json. -/
inductive Instr where
  /-- NOP. Does nothing except apply its next-address selector. (R236) -/
  | nop (nx : BitVec 2)
  /-- SETBT. Writes BT as PC plus four times the signed 16-bit immediate. (R238) -/
  | setbt (nx : BitVec 2) (i : BitVec 16)
  /-- SETBTS. Writes BT from s[A], with bits [1:0] cleared. (R238) -/
  | setbts (nx : BitVec 2) (a : BitVec 6)
  /-- SETLT. Writes LT as PC plus four times the signed 16-bit immediate. (R238) -/
  | setlt (nx : BitVec 2) (i : BitVec 16)
  /-- SETLC. Writes LC as the smaller of s[A], read unsigned, and 2^32 − 1. (R239) -/
  | setlc (nx : BitVec 2) (a : BitVec 6)
  /-- SAVEPC. Writes PC + 4, BT, LT or LC into s[D], as SUB selects. (R240) -/
  | savepc (nx : BitVec 2) (d : BitVec 6) (s : BitVec 2)
  /-- SETMODE. Writes MODE from s[A][11:0]; it raises MODE_INVALID for TYPE 14 or 15. (R241) -/
  | setmode (nx : BitVec 2) (a : BitVec 6)
  /-- GETMODE. Writes MODE, zero-extended, into s[D]. (R241) -/
  | getmode (nx : BitVec 2) (d : BitVec 6)
  /-- SCMP. Compares s[A] with s[B] as i64 or n64 and sets C, Z and V. (R242) -/
  | scmp (nx : BitVec 2) (t : BitVec 1) (a : BitVec 6) (b : BitVec 6) (c : BitVec 3)
  /-- SCMPI. Compares s[A] with the sign-extended IMM10 and sets C, Z and V. (R242) -/
  | scmpi (nx : BitVec 2) (u : BitVec 1) (c : BitVec 3) (a : BitVec 6) (i : BitVec 10)
  /-- READSR. Reads the special register that IMM16 names into s[D]. (R245) -/
  | readsr (nx : BitVec 2) (d : BitVec 6) (i : BitVec 16)
  /-- SSEL. Selects s[A] or s[B] by flag C, Z or V. (R243) -/
  | ssel (nx : BitVec 2) (d : BitVec 6) (a : BitVec 6) (b : BitVec 6) (f : BitVec 2)
  /-- SMOVI. Writes the sign-extended IMM16 into s[D]. (R247) -/
  | smovi (nx : BitVec 2) (d : BitVec 6) (i : BitVec 16)
  /-- SMOVK1. Replaces bits [31:16] of s[D] with IMM16. (R247) -/
  | smovk1 (nx : BitVec 2) (d : BitVec 6) (i : BitVec 16)
  /-- SADD. Adds two scalars; with .f it also sets the flags by R244. (R248) -/
  | sadd (nx : BitVec 2) (d : BitVec 6) (a : BitVec 6) (b : BitVec 6) (f : BitVec 1)
  /-- SSUB. Subtracts two scalars; with .f it also sets the flags by R244. (R248) -/
  | ssub (nx : BitVec 2) (d : BitVec 6) (a : BitVec 6) (b : BitVec 6) (f : BitVec 1)
  /-- SMUL. Writes the low 64 bits of the product of two scalars. (R248) -/
  | smul (nx : BitVec 2) (d : BitVec 6) (a : BitVec 6) (b : BitVec 6)
  /-- SMULH. Writes the high 64 bits of the signed or unsigned product. (R248) -/
  | smulh (nx : BitVec 2) (d : BitVec 6) (a : BitVec 6) (b : BitVec 6) (u : BitVec 1)
  /-- SDIV. Writes the signed or unsigned 64-bit quotient; it never traps. (R249) -/
  | sdiv (nx : BitVec 2) (d : BitVec 6) (a : BitVec 6) (b : BitVec 6) (u : BitVec 1)
  /-- SREM. Writes the signed or unsigned 64-bit remainder; it never traps. (R249) -/
  | srem (nx : BitVec 2) (d : BitVec 6) (a : BitVec 6) (b : BitVec 6) (u : BitVec 1)
  /-- SAND. Writes the bitwise AND of two scalars. (R248) -/
  | sand (nx : BitVec 2) (d : BitVec 6) (a : BitVec 6) (b : BitVec 6)
  /-- SOR. Writes the bitwise OR of two scalars. (R248) -/
  | sor (nx : BitVec 2) (d : BitVec 6) (a : BitVec 6) (b : BitVec 6)
  /-- SXOR. Writes the bitwise XOR of two scalars. (R248) -/
  | sxor (nx : BitVec 2) (d : BitVec 6) (a : BitVec 6) (b : BitVec 6)
  /-- SSHL. Shifts s[A] left by s[B][5:0]. (R248) -/
  | sshl (nx : BitVec 2) (d : BitVec 6) (a : BitVec 6) (b : BitVec 6)
  /-- SSHR. Shifts s[A] right by s[B][5:0], shifting in zeros. (R248) -/
  | sshr (nx : BitVec 2) (d : BitVec 6) (a : BitVec 6) (b : BitVec 6)
  /-- SSRA. Shifts s[A] right arithmetically by s[B][5:0]. (R248) -/
  | ssra (nx : BitVec 2) (d : BitVec 6) (a : BitVec 6) (b : BitVec 6)
  /-- SMIN. Writes the signed or unsigned minimum of two scalars. (R248) -/
  | smin (nx : BitVec 2) (d : BitVec 6) (a : BitVec 6) (b : BitVec 6) (u : BitVec 1)
  /-- SMAX. Writes the signed or unsigned maximum of two scalars. (R248) -/
  | smax (nx : BitVec 2) (d : BitVec 6) (a : BitVec 6) (b : BitVec 6) (u : BitVec 1)
  /-- SLD. Loads 8 bytes at s[A] + s[B] into s[D], with a lookahead window. (R254) -/
  | sld (nx : BitVec 2) (d : BitVec 6) (a : BitVec 6) (b : BitVec 6) (l : BitVec 4)
  /-- SLDI. Loads 1, 2, 4 or 8 bytes at a scaled immediate offset, with zero or sign extension. (R255) -/
  | sldi (nx : BitVec 2) (d : BitVec 6) (a : BitVec 6) (w : BitVec 3) (i : BitVec 7)
  /-- SST. Stores s[D] as 8 bytes at s[A] + s[B], with a lookahead window. (R254) -/
  | sst (nx : BitVec 2) (d : BitVec 6) (a : BitVec 6) (b : BitVec 6) (l : BitVec 4)
  /-- SSTI. Stores 1, 2, 4 or 8 bytes of s[D] at a scaled immediate offset. (R255) -/
  | ssti (nx : BitVec 2) (d : BitVec 6) (a : BitVec 6) (w : BitVec 3) (i : BitVec 7)
  /-- SATOM. Performs one relaxed 8-byte integer atomic at s[A] with the given scope. (R256) -/
  | satom (nx : BitVec 2) (d : BitVec 6) (a : BitVec 6) (p : BitVec 3) (o : BitVec 3)
  /-- SCNT. Counts the one bits, leading zeros or trailing zeros of s[A]. (R251) -/
  | scnt (nx : BitVec 2) (d : BitVec 6) (a : BitVec 6) (c : BitVec 2)
  /-- SADDI. Adds the sign-extended IMM10 to s[A]. (R250) -/
  | saddi (nx : BitVec 2) (d : BitVec 6) (a : BitVec 6) (i : BitVec 10)
  /-- SANDI. ANDs s[A] with the sign-extended IMM10. (R250) -/
  | sandi (nx : BitVec 2) (d : BitVec 6) (a : BitVec 6) (i : BitVec 10)
  /-- SORI. ORs s[A] with the sign-extended IMM10. (R250) -/
  | sori (nx : BitVec 2) (d : BitVec 6) (a : BitVec 6) (i : BitVec 10)
  /-- SSHLI. Shifts s[A] left by IMM10[5:0]. (R250) -/
  | sshli (nx : BitVec 2) (d : BitVec 6) (a : BitVec 6) (i : BitVec 6)
  /-- SSHRI. Shifts s[A] right logically by IMM10[5:0]. (R250) -/
  | sshri (nx : BitVec 2) (d : BitVec 6) (a : BitVec 6) (i : BitVec 6)
  /-- SSRAI. Shifts s[A] right arithmetically by IMM10[5:0]. (R250) -/
  | ssrai (nx : BitVec 2) (d : BitVec 6) (a : BitVec 6) (i : BitVec 6)
  /-- SMULI. Writes the low 64 bits of s[A] times the sign-extended IMM10. (R250) -/
  | smuli (nx : BitVec 2) (d : BitVec 6) (a : BitVec 6) (i : BitVec 10)
  /-- SEXT. Sign-extends or zero-extends the low 8, 16 or 32 bits of s[A]. (R252) -/
  | sext (nx : BitVec 2) (d : BitVec 6) (a : BitVec 6) (w : BitVec 3)
  /-- SMOVK2. Replaces bits [47:32] of s[D] with IMM16. (R247) -/
  | smovk2 (nx : BitVec 2) (d : BitVec 6) (i : BitVec 16)
  /-- SMOVK3. Replaces bits [63:48] of s[D] with IMM16. (R247) -/
  | smovk3 (nx : BitVec 2) (d : BitVec 6) (i : BitVec 16)
  /-- VADD. Adds two vectors element by element. (R262) -/
  | vadd (nx : BitVec 2) (d : BitVec 6) (a : BitVec 6) (b : BitVec 6)
  /-- VSUB. Subtracts two vectors element by element. (R262) -/
  | vsub (nx : BitVec 2) (d : BitVec 6) (a : BitVec 6) (b : BitVec 6)
  /-- VMUL. Multiplies two vectors element by element. (R262) -/
  | vmul (nx : BitVec 2) (d : BitVec 6) (a : BitVec 6) (b : BitVec 6)
  /-- VMAD. Computes the fused a × b + d, or d − a × b with .neg, in each lane. (R262) -/
  | vmad (nx : BitVec 2) (d : BitVec 6) (a : BitVec 6) (b : BitVec 6) (g : BitVec 1)
  /-- VMIN. Writes the element-wise minimum, using minimumNumber for floating point. (R263) -/
  | vmin (nx : BitVec 2) (d : BitVec 6) (a : BitVec 6) (b : BitVec 6)
  /-- VMAX. Writes the element-wise maximum, using maximumNumber for floating point. (R263) -/
  | vmax (nx : BitVec 2) (d : BitVec 6) (a : BitVec 6) (b : BitVec 6)
  /-- VABS. Writes the absolute value of each element. (R262) -/
  | vabs (nx : BitVec 2) (d : BitVec 6) (a : BitVec 6)
  /-- VNEG. Writes the negation of each element. (R262) -/
  | vneg (nx : BitVec 2) (d : BitVec 6) (a : BitVec 6)
  /-- VDIV. Divides element by element as a long-latency instruction. (R264) -/
  | vdiv (nx : BitVec 2) (d : BitVec 6) (a : BitVec 6) (b : BitVec 6) (l : BitVec 4)
  /-- VREM. Writes the integer remainder of each element pair. (R264) -/
  | vrem (nx : BitVec 2) (d : BitVec 6) (a : BitVec 6) (b : BitVec 6)
  /-- VSQRT. Computes the square root of each element as a long-latency instruction. (R266) -/
  | vsqrt (nx : BitVec 2) (d : BitVec 6) (a : BitVec 6) (l : BitVec 4)
  /-- VRCP. Computes the reciprocal of each element as a long-latency instruction. (R266) -/
  | vrcp (nx : BitVec 2) (d : BitVec 6) (a : BitVec 6) (l : BitVec 4)
  /-- VRSQ. Computes the reciprocal square root of each element as a long-latency instruction. (R266) -/
  | vrsq (nx : BitVec 2) (d : BitVec 6) (a : BitVec 6) (l : BitVec 4)
  /-- VEXP2. Computes 2^a for each element as a long-latency instruction. (R266) -/
  | vexp2 (nx : BitVec 2) (d : BitVec 6) (a : BitVec 6) (l : BitVec 4)
  /-- VLOG2. Computes log2 a for each element as a long-latency instruction. (R266) -/
  | vlog2 (nx : BitVec 2) (d : BitVec 6) (a : BitVec 6) (l : BitVec 4)
  /-- VSINCOS. Writes sin(πa) and cos(πa) into an even/odd pair as a long-latency instruction. (R266) -/
  | vsincos (nx : BitVec 2) (d : BitVec 6) (a : BitVec 6) (l : BitVec 4)
  /-- VAND. ANDs the raw bits of each lane. (R267) -/
  | vand (nx : BitVec 2) (d : BitVec 6) (a : BitVec 6) (b : BitVec 6)
  /-- VOR. ORs the raw bits of each lane. (R267) -/
  | vor (nx : BitVec 2) (d : BitVec 6) (a : BitVec 6) (b : BitVec 6)
  /-- VXOR. XORs the raw bits of each lane. (R267) -/
  | vxor (nx : BitVec 2) (d : BitVec 6) (a : BitVec 6) (b : BitVec 6)
  /-- VNOT. Inverts the raw bits of each lane. (R267) -/
  | vnot (nx : BitVec 2) (d : BitVec 6) (a : BitVec 6)
  /-- VSHL. Shifts each element left by a per-lane count. (R267) -/
  | vshl (nx : BitVec 2) (d : BitVec 6) (a : BitVec 6) (b : BitVec 6)
  /-- VSHR. Shifts each element right logically by a per-lane count. (R267) -/
  | vshr (nx : BitVec 2) (d : BitVec 6) (a : BitVec 6) (b : BitVec 6)
  /-- VSRA. Shifts each element right arithmetically by a per-lane count. (R267) -/
  | vsra (nx : BitVec 2) (d : BitVec 6) (a : BitVec 6) (b : BitVec 6)
  /-- VMULH. Writes the high half of each exact integer product. (R262) -/
  | vmulh (nx : BitVec 2) (d : BitVec 6) (a : BitVec 6) (b : BitVec 6)
  /-- VCMP. Compares two vectors into a predicate; inactive lanes get 0. (R269) -/
  | vcmp (nx : BitVec 2) (d : BitVec 3) (a : BitVec 6) (b : BitVec 6) (c : BitVec 3)
  /-- VSEL. Selects per lane between v[A] and v[B] by predicate p[K]. (R270) -/
  | vsel (nx : BitVec 2) (d : BitVec 6) (a : BitVec 6) (b : BitVec 6) (k : BitVec 3)
  /-- VCVT. Converts each element from the source type to TYPE. (R271) -/
  | vcvt (nx : BitVec 2) (d : BitVec 6) (a : BitVec 6) (t : BitVec 4) (x : BitVec 1) (r : BitVec 2)
  /-- VCLASS. Writes a one-hot floating-point class mask for each lane. (R272) -/
  | vclass (nx : BitVec 2) (d : BitVec 6) (a : BitVec 6)
  /-- VADDI. Adds the sign-extended IMM10 to each element. (R262) -/
  | vaddi (nx : BitVec 2) (d : BitVec 6) (a : BitVec 6) (i : BitVec 10)
  /-- VMOVS. Broadcasts s[A] into every active lane. (R274) -/
  | vmovs (nx : BitVec 2) (d : BitVec 6) (a : BitVec 6)
  /-- VMOVI. Broadcasts the immediate, converted to TYPE, into every active lane. (R274) -/
  | vmovi (nx : BitVec 2) (d : BitVec 6) (i : BitVec 16)
  /-- VMOV. Copies a vector register. (R274) -/
  | vmov (nx : BitVec 2) (d : BitVec 6) (a : BitVec 6)
  /-- VLANE. Writes each lane's number into the lane. (R274) -/
  | vlane (nx : BitVec 2) (d : BitVec 6)
  /-- VPERM. Permutes lanes by per-lane indices. (R275) -/
  | vperm (nx : BitVec 2) (d : BitVec 6) (a : BitVec 6) (b : BitVec 6)
  /-- VSHFL. Shuffles lanes by xor, up, down or rotate with a constant k. (R275) -/
  | vshfl (nx : BitVec 2) (d : BitVec 6) (a : BitVec 6) (k : BitVec 5) (s : BitVec 2)
  /-- VRED. Reduces the active lanes into a scalar with a fixed tree. (R278) -/
  | vred (nx : BitVec 2) (d : BitVec 6) (a : BitVec 6) (o : BitVec 3)
  /-- VSCAN. Computes an inclusive or exclusive scan over the active lanes in lane order. (R279) -/
  | vscan (nx : BitVec 2) (d : BitVec 6) (a : BitVec 6) (x : BitVec 1) (o : BitVec 3)
  /-- VEXTR. Extracts one lane's element into a scalar. (R276) -/
  | vextr (nx : BitVec 2) (d : BitVec 6) (a : BitVec 6) (b : BitVec 6)
  /-- VINSR. Inserts a scalar element into one lane. (R276) -/
  | vinsr (nx : BitVec 2) (d : BitVec 6) (a : BitVec 6) (b : BitVec 6)
  /-- VVOTE. Writes a ballot, an any vote or an all vote of the active non-zero lanes into a scalar. (R280) -/
  | vvote (nx : BitVec 2) (d : BitVec 6) (a : BitVec 6) (s : BitVec 2)
  /-- VVOTE_PBALLOT. Writes the ballot of the active non-zero lanes into a predicate. (R280) -/
  | vvotePballot (nx : BitVec 2) (d : BitVec 3) (a : BitVec 6)
  /-- VPACK. Writes a narrow element into one slot of each lane. (R277) -/
  | vpack (nx : BitVec 2) (d : BitVec 6) (a : BitVec 6) (t : BitVec 1) (s : BitVec 2)
  /-- VUNPK. Extracts a narrow element from one slot of each lane. (R277) -/
  | vunpk (nx : BitVec 2) (d : BitVec 6) (a : BitVec 6) (s : BitVec 2)
  /-- VCMPI. Compares a vector with an immediate into a predicate. (R269) -/
  | vcmpi (nx : BitVec 2) (c : BitVec 3) (p : BitVec 3) (a : BitVec 6) (i : BitVec 10)
  /-- VDOT4. Accumulates a four-way 8-bit dot product in each lane. (R281) -/
  | vdot4 (nx : BitVec 2) (d : BitVec 6) (a : BitVec 6) (b : BitVec 6)
  /-- VDOT2. Accumulates a two-way 16-bit dot product in each lane. (R281) -/
  | vdot2 (nx : BitVec 2) (d : BitVec 6) (a : BitVec 6) (b : BitVec 6)
  /-- VBFE. Extracts a bit field, unsigned or signed, in each lane. (R268) -/
  | vbfe (nx : BitVec 2) (d : BitVec 6) (a : BitVec 6) (b : BitVec 6) (g : BitVec 1)
  /-- VBFI. Inserts a bit field in each lane. (R268) -/
  | vbfi (nx : BitVec 2) (d : BitVec 6) (a : BitVec 6) (b : BitVec 6)
  /-- VCNT. Counts the one bits, leading zeros or trailing zeros of each lane. (R268) -/
  | vcnt (nx : BitVec 2) (d : BitVec 6) (a : BitVec 6) (s : BitVec 2)
  /-- VTILTH. Encodes one Tilth parcel from up to four source registers with scale s[B]. (R282) -/
  | vtilth (nx : BitVec 2) (d : BitVec 6) (a : BitVec 6) (b : BitVec 6)
  /-- VUNTILTH. Decodes a Tilth parcel into FP32 lanes, or raises PARCEL_FORMAT. (R283) -/
  | vuntilth (nx : BitVec 2) (d : BitVec 6) (a : BitVec 6)
  /-- VEXPO. Writes the unbiased exponent of each element. (R273) -/
  | vexpo (nx : BitVec 2) (d : BitVec 6) (a : BitVec 6)
  /-- VLDEXP. Scales each element by 2^n. (R273) -/
  | vldexp (nx : BitVec 2) (d : BitVec 6) (a : BitVec 6) (b : BitVec 6)
  /-- PAND. ANDs two predicates, optionally with the second inverted. (R284) -/
  | pand (nx : BitVec 2) (d : BitVec 3) (a : BitVec 3) (b : BitVec 3) (s : BitVec 1)
  /-- POR. ORs two predicates, optionally with the second inverted. (R284) -/
  | por (nx : BitVec 2) (d : BitVec 3) (a : BitVec 3) (b : BitVec 3) (s : BitVec 1)
  /-- PXOR. XORs two predicates, optionally with the second inverted. (R284) -/
  | pxor (nx : BitVec 2) (d : BitVec 3) (a : BitVec 3) (b : BitVec 3) (s : BitVec 1)
  /-- PNOT. Inverts a predicate. (R284) -/
  | pnot (nx : BitVec 2) (d : BitVec 3) (a : BitVec 3)
  /-- PMOV. Copies one predicate to another. (R284) -/
  | pmov (nx : BitVec 2) (d : BitVec 3) (a : BitVec 3)
  /-- PMOV_FS. Writes a predicate from s[A][31:0]. (R284) -/
  | pmovFs (nx : BitVec 2) (d : BitVec 3) (a : BitVec 6)
  /-- PMOV_TS. Writes a predicate, zero-extended, into a scalar. (R284) -/
  | pmovTs (nx : BitVec 2) (d : BitVec 6) (a : BitVec 3)
  /-- PCNT. Counts the set bits of a predicate into a scalar. (R284) -/
  | pcnt (nx : BitVec 2) (d : BitVec 6) (a : BitVec 3)
  /-- PFIRST. Writes the index of the lowest or highest set bit of a predicate. (R284) -/
  | pfirst (nx : BitVec 2) (d : BitVec 6) (a : BitVec 3) (h : BitVec 1)
  /-- PSETI. Sets the low or high n bits of a predicate and clears the rest. (R284) -/
  | pseti (nx : BitVec 2) (d : BitVec 3) (h : BitVec 1) (c : BitVec 6)
  /-- PLANES. Writes LIVE or the active-lane mask into a predicate. (R284) -/
  | planes (nx : BitVec 2) (d : BitVec 3) (s : BitVec 1)
  /-- VLD. Gathers one element per active lane from s[A] plus a per-lane offset. (R288) -/
  | vld (nx : BitVec 2) (d : BitVec 6) (a : BitVec 6) (b : BitVec 6) (l : BitVec 4)
  /-- VST. Scatters one element per active lane to s[A] plus a per-lane offset. (R288) -/
  | vst (nx : BitVec 2) (d : BitVec 6) (a : BitVec 6) (b : BitVec 6) (l : BitVec 4)
  /-- VLDS. Loads one element per active lane at a stride. (R288) -/
  | vlds (nx : BitVec 2) (d : BitVec 6) (a : BitVec 6) (b : BitVec 6) (l : BitVec 4)
  /-- VSTS. Stores one element per active lane at a stride. (R288) -/
  | vsts (nx : BitVec 2) (d : BitVec 6) (a : BitVec 6) (b : BitVec 6) (l : BitVec 4)
  /-- VLDB. Loads one value and broadcasts it to every active lane. (R289) -/
  | vldb (nx : BitVec 2) (d : BitVec 6) (a : BitVec 6) (b : BitVec 6) (l : BitVec 4)
  /-- VATOM. Performs one relaxed atomic per active lane, in ascending lane order. (R291) -/
  | vatom (nx : BitVec 2) (d : BitVec 6) (a : BitVec 6) (p : BitVec 3) (k : BitVec 3) (o : BitVec 4)
  /-- SATOMF. Performs one relaxed scalar atomic of a given type, floating point included. (R292) -/
  | satomf (nx : BitVec 2) (d : BitVec 6) (a : BitVec 6) (t : BitVec 3) (p : BitVec 3) (o : BitVec 4)
  /-- FENCE. Orders the wave's accesses at a scope as acquire, release, acqrel or sc, with the cache actions of R111. (R294) -/
  | fence (nx : BitVec 2) (p : BitVec 3) (k : BitVec 2)
  /-- PREFETCH. Fetches a line into the L2 or the L1, and never faults. (R295) -/
  | prefetch (nx : BitVec 2) (a : BitVec 6) (b : BitVec 6) (s : BitVec 1)
  /-- CFLUSH. Invalidates, writes back, or writes back and invalidates the cache lines of a range, and stalls the wave until done. (R296) -/
  | cflush (nx : BitVec 2) (a : BitVec 6) (b : BitVec 6) (s : BitVec 2)
  /-- LOCQ. Writes the locality word of a virtual address. (R297) -/
  | locq (nx : BitVec 2) (d : BitVec 6) (a : BitVec 6)
  /-- PALLOC. Allocates a core- or cluster-level plot by first fit and sets or clears C. (R320) -/
  | palloc (nx : BitVec 2) (v : BitVec 1) (a : BitVec 6) (b : BitVec 6) (t : BitVec 4)
  /-- PFREE. Frees a plot and its granules. (R321) -/
  | pfree (nx : BitVec 2) (a : BitVec 6)
  /-- PARM. Arms a plot with a byte quota, moving it to FILLING, FULL or DRAINING. (R321) -/
  | parm (nx : BitVec 2) (a : BitVec 6) (b : BitVec 6)
  /-- PLD. Reads a plot window into a vector register. (R323) -/
  | pld (nx : BitVec 2) (d : BitVec 6) (a : BitVec 6) (l : BitVec 4)
  /-- PST. Writes a vector register into a plot window, with credit. (R323) -/
  | pst (nx : BitVec 2) (d : BitVec 6) (a : BitVec 6) (l : BitVec 4)
  /-- PSTATE. Reports a plot's state, validity, error, pending arm and level. (R322) -/
  | pstate (nx : BitVec 2) (d : BitVec 6) (a : BitVec 6)
  /-- PWAIT. Parks the wave while the plot is FILLING. (R322) -/
  | pwait (nx : BitVec 2) (a : BitVec 6)
  /-- CPY. Queues a copy from per-lane memory rows into a plot window. (R325) -/
  | cpy (nx : BitVec 2) (d : BitVec 6) (a : BitVec 6) (b : BitVec 6) (c : BitVec 1)
  /-- CPYT. Queues a transposing copy from memory into a plot window. (R325) -/
  | cpyt (nx : BitVec 2) (d : BitVec 6) (a : BitVec 6) (b : BitVec 6) (c : BitVec 1)
  /-- CPYIM. Queues an image-style copy with row pitch and dilation into a plot window. (R325) -/
  | cpyim (nx : BitVec 2) (d : BitVec 6) (a : BitVec 6) (b : BitVec 6) (c : BitVec 1)
  /-- CPYM. Queues one copy from memory into the plots of the selected yoke positions. (R326) -/
  | cpym (nx : BitVec 2) (d : BitVec 6) (a : BitVec 6) (b : BitVec 6) (c : BitVec 1)
  /-- CPYOUT. Queues a copy from a plot window to memory, optionally with release. (R325) -/
  | cpyout (nx : BitVec 2) (d : BitVec 6) (a : BitVec 6) (b : BitVec 6) (c : BitVec 1) (r : BitVec 1)
  /-- PUBLISH. Publishes the SHADOW pages of a range at one publish point. (R331) -/
  | publish (nx : BitVec 2) (a : BitVec 6) (b : BitVec 6)
  /-- XENG. Reads a copy-engine command record and hands it to an engine. (R332) -/
  | xeng (nx : BitVec 2) (d : BitVec 6) (a : BitVec 6)
  /-- CPYBAR. Reads and clears COPYERR, then sets CBAR. (R330) -/
  | cpybar (nx : BitVec 2) (d : BitVec 6) (a : BitVec 6)
  /-- PINFO. Reads one 64-bit word of a plot-table entry. (R322) -/
  | pinfo (nx : BitVec 2) (d : BitVec 6) (a : BitVec 6) (k : BitVec 2)
  /-- YACQ. Joins the gang's yoke formation and parks until every group has joined or the formation fails. (R338) -/
  | yacq (nx : BitVec 2) (a : BitVec 6)
  /-- YREL. Ends or marks the end of this group's yoke lease, parking until the release order lets it end. (R338) -/
  | yrel (nx : BitVec 2)
  /-- YSTAT. Reports the yoke state, HELD, position, shape, progress and OUTERR, and clears OUTERR. (R338) -/
  | ystat (nx : BitVec 2) (d : BitVec 6)
  /-- MLOADB. Loads stationary B into every core of the yoke with packing Qb. (R340) -/
  | mloadb (nx : BitVec 2) (d : BitVec 6) (q : BitVec 2) (r : BitVec 1)
  /-- MRUN. Queues a matrix run of A rows into the garner. (R341) -/
  | mrun (nx : BitVec 2) (d : BitVec 6) (a : BitVec 6) (r : BitVec 1)
  /-- MZERO. Invalidates a range of garner rows so that they read +0.0. (R342) -/
  | mzero (nx : BitVec 2) (a : BitVec 6)
  /-- MREADG. Reads one garner row segment into a vector register. (R342) -/
  | mreadg (nx : BitVec 2) (d : BitVec 6) (a : BitVec 6)
  /-- MHALT. Stops injection, returns INJ and moves a RUNNING yoke to HALTED. (R344) -/
  | mhalt (nx : BitVec 2) (d : BitVec 6)
  /-- MDRAIN. Clears HELD and stalls the wave until no row is in flight. (R344) -/
  | mdrain (nx : BitVec 2)
  /-- MSAVE. Writes every bottom-row garner to memory. (R344) -/
  | msave (nx : BitVec 2) (a : BitVec 6)
  /-- MREST. Reads the garner image from memory and makes every row valid. (R344) -/
  | mrest (nx : BitVec 2) (a : BitVec 6)
  /-- MBANDS. Sets the yoke's enabled bands and clears every cell's B. (R339) -/
  | mbands (nx : BitVec 2) (a : BitVec 6)
  /-- MCADR. Starts a matrix output transfer of garner rows to memory. (R343) -/
  | mcadr (nx : BitVec 2) (d : BitVec 6) (a : BitVec 6) (b : BitVec 6) (c : BitVec 1) (t : BitVec 2)
  /-- MACCG. Adds a vector into one garner row segment. (R342) -/
  | maccg (nx : BitVec 2) (d : BitVec 6) (a : BitVec 6)
  /-- BARRIVE. Adds arrivals to a barrier phase and returns GEN. (R301) -/
  | barrive (nx : BitVec 2) (d : BitVec 6) (a : BitVec 6) (b : BitVec 6)
  /-- BWAIT. Parks until a barrier phase is complete. (R303) -/
  | bwait (nx : BitVec 2) (a : BitVec 6) (b : BitVec 6)
  /-- BJOIN. Adds the wave to a barrier's expected count and membership list. (R304) -/
  | bjoin (nx : BitVec 2) (d : BitVec 6) (a : BitVec 6)
  /-- BLEAVE. Removes the wave from a barrier's expected count and applies the completion check. (R304) -/
  | bleave (nx : BitVec 2) (d : BitVec 6) (a : BitVec 6)
  /-- BINIT. Initialises a barrier object with EXPECT and a scope. (R300) -/
  | binit (nx : BitVec 2) (a : BitVec 6) (b : BitVec 6) (p : BitVec 3)
  /-- EVBIND. Binds an event slot to a kind and source. (R308) -/
  | evbind (nx : BitVec 2) (k : BitVec 3) (a : BitVec 6) (b : BitVec 6) (t : BitVec 4)
  /-- EVUNB. Unbinds an event slot and clears its pending bit. (R308) -/
  | evunb (nx : BitVec 2) (k : BitVec 3)
  /-- EVMASK. Writes, sets or clears bits of EVM. (R309) -/
  | evmask (nx : BitVec 2) (a : BitVec 6) (s : BitVec 2)
  /-- EVPEND. Reads PEV into a scalar. (R309) -/
  | evpend (nx : BitVec 2) (d : BitVec 6)
  /-- EVCLR. Clears PEV bits and reposts any mailbox slot whose mailbox still holds a message. (R309) -/
  | evclr (nx : BitVec 2) (a : BitVec 6)
  /-- WAITANY. Chooses the lowest pending unmasked slot, parking until one posts, and jumps to its dispatch entry. (R310) -/
  | waitany (d : BitVec 6) (a : BitVec 6)
  /-- MBSEND. Sends a 64-bit message to a wave of the group and writes a status. (R311) -/
  | mbsend (nx : BitVec 2) (d : BitVec 6) (a : BitVec 6) (b : BitVec 6) (t : BitVec 1)
  /-- MBRECV. Takes the oldest mailbox message, or reports an empty mailbox. (R312) -/
  | mbrecv (nx : BitVec 2) (d : BitVec 6) (a : BitVec 6)
  /-- SLEEP. Parks the wave for a number of nanoseconds of TSC. (R313) -/
  | sleep (nx : BitVec 2) (a : BitVec 6)
  /-- SLEEP_EV. Parks the wave until a deadline or until a bound, unmasked slot is pending. (R313) -/
  | sleepEv (nx : BitVec 2) (d : BitVec 6) (a : BitVec 6)
  /-- GBAR. Parks until every unretired wave of the group has reached the group barrier. (R305) -/
  | gbar (nx : BitVec 2)
  /-- INVOKE. Creates one lane task per active lane and returns its future. (R349) -/
  | invoke (nx : BitVec 2) (d : BitVec 6) (a : BitVec 6) (b : BitVec 6)
  /-- INVOKEF. Sends one forward per active lane on its target future and returns new futures. (R350) -/
  | invokef (nx : BitVec 2) (d : BitVec 6) (a : BitVec 6) (b : BitVec 6)
  /-- FGET. Parks until no active lane's future is PENDING, then reports values and statuses. (R351) -/
  | fget (nx : BitVec 2) (d : BitVec 6) (a : BitVec 6) (b : BitVec 6)
  /-- FPOLL. Reports each active lane's future status at once. (R351) -/
  | fpoll (nx : BitVec 2) (d : BitVec 6) (a : BitVec 6) (b : BitVec 6)
  /-- FDROP. Sends a drop for each active lane's future. (R352) -/
  | fdrop (nx : BitVec 2) (a : BitVec 6)
  /-- TASKARG. Reads each lane task's ARGP or VAL. (R353) -/
  | taskarg (nx : BitVec 2) (d : BitVec 6) (s : BitVec 1)
  /-- TASKRET. Completes each active lane's task with a result and removes the lane from LIVE. (R354) -/
  | taskret (nx : BitVec 2) (a : BitVec 6)
  /-- TASKBRK. Breaks each active lane's task with kind USER and removes the lane from LIVE. (R354) -/
  | taskbrk (nx : BitVec 2) (a : BitVec 6)
  /-- LAUNCH. Writes a launch record into a dependence-table entry with a predecessor count. (R355) -/
  | launch (nx : BitVec 2) (d : BitVec 6) (a : BitVec 6) (b : BitVec 6)
  /-- DEPSIG. Decrements a dependence entry's predecessor count and fires it at zero. (R356) -/
  | depsig (nx : BitVec 2) (d : BitVec 6) (a : BitVec 6)
  /-- REGROUP. Parks for the partner wave, then fuses the two waves' active lanes into the receiver. (R357) -/
  | regroup (nx : BitVec 2) (a : BitVec 6) (b : BitVec 6)
  /-- TRAP. Raises BREAKPOINT with reason SERVICE and a code. (R358) -/
  | trap (i : BitVec 16)
  /-- TRET. Leaves the handler, restores the trap shadow and replays or resumes. (R359) -/
  | tret (s : BitVec 1)
  /-- CTLR. Reads a control register into s[D]. (R360) -/
  | ctlr (nx : BitVec 2) (d : BitVec 6) (i : BitVec 16)
  /-- CTLW. Writes a control register from s[D], binding an event slot for EVSLOTn and trapping for a read-only register. (R360) -/
  | ctlw (nx : BitVec 2) (d : BitVec 6) (i : BitVec 16)
  /-- TLBINV. Fences, then invalidates a range of the context's translations on both dies. (R361) -/
  | tlbinv (nx : BitVec 2) (a : BitVec 6) (b : BitVec 6)
  /-- TLBINV_ALL. Fences, then invalidates every translation of the context on both dies. (R361) -/
  | tlbinvAll (nx : BitVec 2)
  /-- BRK. Raises BREAKPOINT with reason BRKPT for a debugger. (R358) -/
  | brk (i : BitVec 16)
  /-- PERFR. Reads one of the wave's performance counters. (R362) -/
  | perfr (nx : BitVec 2) (d : BitVec 6) (c : BitVec 3)
  /-- YIELD. Holds the wave's next issue until the other ready waves of its core have issued, or 64 cycles have passed. (R363) -/
  | yield (nx : BitVec 2)
  /-- LL_RESULT_WRITE. A long-latency result (load data or function value) returns and is written to its watched registers. (R290) -/
  | llResultWrite (w : Nat)
  /-- WRITE_THROUGH_PERFORM. A write-through or L1 atomic result reaches its slice and is applied, or is discarded after a counting write. (R122) -/
  | writeThroughPerform (path : SlicePath)
  /-- SLICE_ATOMIC_PERFORM. An atomic arriving at its home slice, or at a peer's slice, is performed, and its old value is returned. (R121) -/
  | sliceAtomicPerform (path : SlicePath)
  /-- BARRIER_UNIT_OPERATION. A barrier operation or counted-copy registration reaches the barrier unit of the object's home die and is applied. (R298) -/
  | barrierUnitOperation (die : Nat)
  /-- TRANSFER_BLOCK. A copy engine, collective or matrix output path moves one 64-byte block to memory or to a plot. (R146) -/
  | transferBlock (x : Nat)
  /-- PLOT_ACCESS_END. A plot access in flight ends, and a DRAINING plot with no remaining access completes its drain. (R70) -/
  | plotAccessEnd (g : Nat) (h : Nat)
  /-- PUBLISH_POINT. Once earlier transfers into the range have ended, the range is invalidated and SPHASE is inverted at the publish point. (R151) -/
  | publishPoint (x : Nat)
  /-- ROW_INJECTION. At its cadence step, the headland injects the next A row of the current run. (R341) -/
  | rowInjection (y : Nat)
  /-- ROW_GARNER_UPDATE. An A row reaches the bottom of the yoke and updates its garner row; the last row returns the yoke to IDLE. (R108) -/
  | rowGarnerUpdate (y : Nat)
  /-- BAND_UP. A newly switched band finishes powering up, letting a forming yoke become IDLE or MBANDS complete. (R394) -/
  | bandUp (y : Nat)
  /-- LEASE_END. In release order, a yoke lease ends, its parked YREL completes and the yoke reaches NONE after the last. (R338) -/
  | leaseEnd (y : Nat)
  /-- TASK_ARRIVAL. A lane task or forward reaches its die's sheaf former and takes a lane; a full sheaf is released. (R172) -/
  | taskArrival (die : Nat)
  /-- SHEAF_TIMEOUT. 2 µs after a sheaf's first task arrived, the sheaf is released as a one-wave group. (R172) -/
  | sheafTimeout (die : Nat) (k : Nat)
  /-- POOL_GRANT. A slot grant from a future home arrives, or FULL is answered, and a parked INVOKE or INVOKEF continues. (R176) -/
  | poolGrant (home : Nat) (slots : List (BitVec 32))
  /-- FRT_TASK_END. A task's completion or break reaches its FRT slot, and queued forwards start or break. (R177) -/
  | frtTaskEnd (die : Nat)
  /-- FORWARD_ARRIVAL. An INVOKEF forward reaches its target's home and is queued, started or broken. (R177) -/
  | forwardArrival (die : Nat)
  /-- DROP_ARRIVAL. A drop reaches its home, sets DROPPED and may free the slot. (R177) -/
  | dropArrival (die : Nat)
  /-- RECORD_TAKE. A queue's leader takes the next written launch record by compare-and-swap and checks it. (R196) -/
  | recordTake (ctag : Nat) (q : Nat)
  /-- TASK_RECORD_TAKE. A queue's leader takes a task record, checks it and creates its task. (R199) -/
  | taskRecordTake (ctag : Nat) (q : Nat)
  /-- OVERFLOW_MOVE. An overflow record is moved into the ring once the context is resident and the ring has room. (R203) -/
  | overflowMove (ctag : Nat) (qt : Bool) (q : Nat)
  /-- LEADERSHIP_MOVE. A MOVING queue passes leadership to the other die and increments LEPOCH. (R200) -/
  | leadershipMove (ctag : Nat) (qt : Bool) (q : Nat)
  /-- GROUP_BIND. A Reeve picks the next bindable group and writes its bind record, making the entry STAGED. (R207) -/
  | groupBind (die : Nat)
  /-- GROUP_RESIDENT. A STAGED entry, or a whole gang, becomes RESIDENT once its slots and granules are free, and its waves start. (R205) -/
  | groupResident (g : Nat)
  /-- GANG_WAIT_TIMEOUT. A gang at the head of its level has waited GANGWAIT µs, and the firmware reserves a placement for it. (R208) -/
  | gangWaitTimeout (die : Nat)
  /-- FIRED_ENTRY_TAKE. A fired dependence entry is taken once its die's launch table has room. (R205) -/
  | firedEntryTake (die : Nat)
  /-- FREEZE_BEGIN. A moving group reaches its boundary and is frozen; caches act and its plots begin relocating. (R400) -/
  | freezeBegin (g : Nat)
  /-- FREEZE_END. Relocation is done: CORE, CLUS and PLACE change, the freeze ends and paused transfers resume. (R400) -/
  | freezeEnd (g : Nat)
  /-- STRETCH_END. A droop stretch ends, and halved issue begins for 64 delivered cycles. (R395) -/
  | stretchEnd (core : Nat)
  /-- HALVED_ISSUE_END. 64 delivered cycles of halved issue have passed, and full issue resumes. (R395) -/
  | halvedIssueEnd (core : Nat)
  /-- AGEING_REPLAN. Every 30 days of powered TSC the PWC re-plans the voltage margins and updates AGESTAT. (R402) -/
  | ageingReplan (margin : BitVec 8) (done : Bool)
  /-- EVENT_TIMER_EXPIRY. TSC reaches a timer slot's deadline, and the slot is posted. (R307) -/
  | eventTimerExpiry (w : Nat) (slot : Nat)
  /-- SLEEP_EXPIRY. TSC reaches a sleeping wave's deadline, and the wave resumes. (R313) -/
  | sleepExpiry (w : Nat)
  /-- PREEMPT_D1_EXPIRY. The drain deadline expires; the context enters TRAPPING, PREEMPT is delivered and the yokes are HELD. (R373) -/
  | preemptD1Expiry (ctag : Nat)
  /-- PREEMPT_D2_EXPIRY. The handler deadline expires before SAVED, and the context is reset by force. (R378) -/
  | preemptD2Expiry (ctag : Nat)
  /-- AUTO_SURRENDER. For a stopped group still holding a lease, the device performs its part of the surrender. (R377) -/
  | autoSurrender (g : Nat)
  /-- CONTEXT_SAVE_COMPLETE. Settling finishes, the image header is written, and the context becomes SAVED and frees its CTX. (R380) -/
  | contextSaveComplete (ctag : Nat)
  /-- RESTORE_BIND. A saved group, gang or share set is bound where room exists, its state is written back and its waves become ready. (R385) -/
  | restoreBind (ctag : Nat)
  /-- CTX_LOAD. Management command that makes a context resident from its descriptor and returns its CTX. (R158) -/
  | ctxLoad (desc : BitVec 64) (cpla : BitVec 64)
  /-- CTX_DESTROY. Management command that kills every group of a context, frees its CTX and answers its fault records. (R164) -/
  | ctxDestroy (ctx : BitVec 64) (cpla : BitVec 64)
  /-- PREEMPT. Management command that starts pre-emption of a context with deadlines D1 and D2. (R373) -/
  | preempt (ctx : BitVec 64) (d1 : BitVec 64) (d2 : BitVec 64) (cpla : BitVec 64)
  /-- RESTORE. Management command that makes a saved context resident from its image, or refuses with BAD_IMAGE. (R385) -/
  | restore (desc : BitVec 64) (image : BitVec 64) (cpla : BitVec 64)
  /-- KILL_REGION. Management command that kills the subtree of a fault-domain root. (R164) -/
  | killRegion (ctx : BitVec 64) (rcb : BitVec 64) (cpla : BitVec 64)
  /-- TLBINV_COMMAND. Management command that invalidates a range, or all, of a context's translations. (R46) -/
  | tlbinvCommand (ctx : BitVec 64) (base : BitVec 64) (len : BitVec 64) (cpla : BitVec 64)
  /-- SUMMARY. Management command that writes a header and context, queue and group entries into a host buffer. (R409) -/
  | summary (buf : BitVec 64) (len : BitVec 64) (cpla : BitVec 64)
  /-- DIE_DRAIN. Management command that takes a die offline and evacuates it. (R387) -/
  | dieDrain (die : BitVec 64) (cpla : BitVec 64)
  /-- DIE_ONLINE. Management command that returns a die to the online set. (R201) -/
  | dieOnline (die : BitVec 64) (cpla : BitVec 64)
  /-- KEY_LOAD. Management command that unwraps a key into a key slot. (R412) -/
  | keyLoad (slot : BitVec 64) (addr : BitVec 64) (cpla : BitVec 64)
  /-- KEY_EMPTY. Management command that empties a key slot without flushing its lines. (R38) -/
  | keyEmpty (slot : BitVec 64) (cpla : BitVec 64)
  /-- DEBUG_ATTACH. Management command that attaches a debug session to a context. (R372) -/
  | debugAttach (ctx : BitVec 64) (cpla : BitVec 64)
  /-- DEBUG_DETACH. Management command that detaches the debug session and resumes every held wave. (R372) -/
  | debugDetach (ctx : BitVec 64) (cpla : BitVec 64)
  /-- DEBUG_RESUME. Management command that resumes one held wave as TRET would, or into its handler. (R372) -/
  | debugResume (ctx : BitVec 64) (core : BitVec 64) (wslot : BitVec 64) (mode : BitVec 64) (cpla : BitVec 64)
  /-- PEER_WINDOW. Management command that sets one of the 16 peer access windows. (R421) -/
  | peerWindow (idx : BitVec 64) (node : BitVec 64) (die : BitVec 64) (base : BitVec 64) (len : BitVec 64) (perm : BitVec 64) (cpla : BitVec 64)
  /-- PEER_BIND. Management command that binds or unbinds a peer context to a local context. (R422) -/
  | peerBind (node : BitVec 64) (peerCtx : BitVec 64) (localCtx : BitVec 64) (cpla : BitVec 64)
  /-- FW_UPDATE. Management command that verifies and stages a PWC or Reeve firmware image. (R411) -/
  | fwUpdate (addr : BitVec 64) (len : BitVec 64) (target : BitVec 64) (cpla : BitVec 64)
  /-- LC_CHANGE. Management command that moves the life-cycle state with a signed token after wiping the device. (R414) -/
  | lcChange (token : BitVec 64) (cpla : BitVec 64)
  /-- MGMT_BAD_RECORD. A management record with an unlisted OPC or a non-zero reserved byte completes with BAD_ARG. (R407) -/
  | mgmtBadRecord (cpla : BitVec 64)
  /-- MSAVE_MREST_COMPLETE. The 4 MiB garner save or restore finishes in memory, and the stalled wave resumes. (R344) -/
  | msaveMrestComplete (w : Nat)
  /-- CFLUSH_COMPLETE. Every line of a CFLUSH range has been invalidated or written back on both dies, and the stalled wave resumes. (R296) -/
  | cflushComplete (w : Nat)
  /-- LINE_EVICTION. An L2 line is evicted and, if dirty, is encrypted and written back to HBM through its home slice. (R116) -/
  | lineEviction (copy : CachedLine)
  /-- HALT. Waits for outstanding long-latency results, then retires the wave: it leaves its barriers, returns its PSLOT and ends the group when it is the group's last wave. (R237) -/
  | halt
  /-- TRANSLATION_WALK. A page-table walk finishes, with a translation or with a recoverable or fatal failure for the requester. (R44) -/
  | translationWalk (walker : Walker) (ctx : Nat) (va : BitVec 64)
  /-- FAULT_RESPONSE. The device observes a host RESP of RETRY or KILL, and the waves and transfers parked on the record replay or fail. (R56) -/
  | faultResponse (idx : Nat) (resp : BitVec 32)
  /-- FAULT_QUEUE_HEAD_UPDATE. The host advances HEAD of the fault queue, freeing slots for parked faults to post. (R55) -/
  | faultQueueHeadUpdate (head : BitVec 32)
  /-- FQCFG_WRITE. The host writes FQCFG, which enables or disables fault posting. (R52) -/
  | fqcfgWrite (v : BitVec 64)
  /-- HOST_SNOOP. A CXL.cache snoop from the host is answered after the proxy and OWNED copies are recalled. (R119) -/
  | hostSnoop (addr : Nat) (data : List (BitVec 8))
  /-- HOST_MEM_ACCESS. A host CXL.mem access to device HBM enters at the line's home slice. (R119) -/
  | hostMemAccess (wr : Bool) (addr : Nat) (n : Nat) (data : List (BitVec 8))
  /-- RDMA_WRITE. An inbound RoCE v2 write to device HBM enters at the home slice as a host access. (R423) -/
  | rdmaWrite (addr : Nat) (data : List (BitVec 8))
  /-- PEER_REQUEST. An incoming Nawalink read, write or atomic is checked against the access windows, then performed or refused. (R421) -/
  | peerRequest (node : BitVec 12) (req : PeerReq)
  /-- PEER_RESPONSE. The answer or acknowledgement of a PEER transaction returns to the requester. (R120) -/
  | peerResponse (id : Nat) (ok : Bool) (data : List (BitVec 8))
  /-- FUTURE_ANSWER_ARRIVAL. A future's state or a refusal from another home arrives at the waiting wave's die. (R179) -/
  | futureAnswerArrival (handle : BitVec 64) (ans : FutureAnswer)
  /-- PEER_TASK_MESSAGE. A task or forward message from a peer arrives and runs in the bound context, or is broken with LOST. (R422) -/
  | peerTaskMessage (node : BitVec 12) (peerCtx : Nat) (msg : PeerTask)
  /-- FABRIC_ENQUEUE. A fabric packet enqueues a record into a queue's ring or overflow area, or returns QUEUE_STALE or QUEUE_FULL. (R203) -/
  | fabricEnqueue (handle : BitVec 64) (bytes : List (BitVec 8))
  /-- TELEMETRY_SAMPLE. Each millisecond the PWC samples power and temperature and steps ICAD per die. (R391) -/
  | telemetrySample (rails : List Nat) (bands0 : List Nat) (bands1 : List Nat) (temps : List Nat) (quads : List Nat)
  /-- THERMAL_TRIP. A sensor reads 105 °C or more; every core of the die goes to ICAD 255 and the die enters emergency. (R398) -/
  | thermalTrip (sensors : DieSensors)
  /-- THERMAL_TRIP_RELEASE. Every sensor of a tripped die reads below 95 °C, and the trip releases ICAD. (R398) -/
  | thermalTripRelease (sensors : DieSensors)
  /-- DROOP_TRIP. A core's droop detector trips and stretches its clock for 6 cycle periods. (R395) -/
  | droopTrip (fall : SupplyDrop)
  /-- REEVE_WATCHDOG_EXPIRY. A Reeve watchdog expires and its die is reset. (R415) -/
  | reeveWatchdogExpiry (die : Nat)
  /-- EVENT_QUEUE_HEAD_UPDATE. The host advances HEAD of the event queue, and buffered records can be written. (R417) -/
  | eventQueueHeadUpdate (head : BitVec 32)
  /-- FRTBASE_WRITE. A write to FRTBASE0 or FRTBASE1 places a die's FRT, and is ignored while a context is loaded. (R406) -/
  | frtbaseWrite (die : Nat) (v : BitVec 64)
  /-- NODEID_WRITE. A write to NODEID takes effect when the Nawalink ports next train. (R405) -/
  | nodeidWrite (v : BitVec 64)
  /-- ROTCFG_WRITE. A write to ROTCFG sets the rotation period and DELTA, and a PERIOD of 5–7 is ignored. (R390) -/
  | rotcfgWrite (v : BitVec 64)
  /-- REGISTER_WRITE. A host write to a management register that has no row of its own stores, clears or is ignored by its access code. (R12) -/
  | registerWrite (off : Nat) (v : BitVec 64)
  /-- COLD_RESET. Power-on wipes every state, loads the fuses and verifies the firmware before any core runs. (R415) -/
  | coldReset (fuses : Fuses)
  /-- DIE_LOSS. A die is lost; contexts on it are killed and its futures report LOST. (R388) -/
  | dieLoss (die : Nat)
  /-- LINK_UP. A Nawalink port trains and authenticates its far end, and a link-state event is posted. (R418) -/
  | linkUp (port : Nat) (auth : Bool)
  /-- LINK_DOWN. A Nawalink or Ethernet port goes down, and a link-state event is posted. (R418) -/
  | linkDown (port : Nat)
  /-- SPDM_REQUEST. An SPDM 1.3 request over PCIe DOE is answered, including signed measurements. (R413) -/
  | spdmRequest (req : List (BitVec 8))
  /-- QUEUE_DESCRIPTOR_EN_WRITE. System software sets or clears EN in a queue descriptor, moving the queue from IDLE to LED or from LED or HELD to IDLE. (R200) -/
  | queueDescriptorEnWrite (ctag : Nat) (qt : Bool) (q : Nat) (en : Bool)
  /-- PREDICTOR_DECAY. Every 64 µs of TSC, each contention-predictor counter is halved. (R123) -/
  | predictorDecay
  /-- PEER_TIMEOUT. A PEER transaction unanswered after 50 ms ends as refused with PEER_REFUSED. (R120) -/
  | peerTimeout
  /-- LEADER_THROTTLE_TIMEOUT. A leader die's throttle level has exceeded QLTHR for 1 ms, and its queues start moving. (R200) -/
  | leaderThrottleTimeout
  /-- ROTATION_TICK. At each rotation period, each online die's Reeve pairs hot and cool cores and plans the exchanges. (R399) -/
  | rotationTick
  /-- EMERGENCY_EXIT. After 100 ms below TEMERG − 15 °C, a die leaves emergency and rejoins the online set. (R396) -/
  | emergencyExit
  /-- PWC_WATCHDOG_EXPIRY. The PWC watchdog expires: FIRED is set, every ICAD is set to 4 and held. (R397) -/
  | pwcWatchdogExpiry
  /-- DIE_RESET_DONE. A reset die's slices return and waiting requests for lines homed there proceed. (R415) -/
  | dieResetDone
  /-- WARM_RESET. Management command, or PCIe hot reset, that wipes the device while keeping TSC, NODEID and the queue registers. (R415) -/
  | warmReset
  /-- EVENT_RECORD_WRITE. An event record is written into the host event queue no earlier than 10 µs after its time, or a drop count is recorded. (R417) -/
  | eventRecordWrite
  /-- AGESTAT_DAYS_INCREMENT. Each whole day of powered TSC time, AGESTAT.DAYS increments, and an AGESTAT-changed event can be posted. (R390) -/
  | agestatDaysIncrement
  deriving DecidableEq, Repr

end Sys2Proof
end

