-- ==== Sys2Proof/Machine/State.lean ====
section
/-! DEFINITION. Sys2Proof/Machine/State.lean: the state of one Apzar N2 package as plain data, its reset, and the reasons for which a
step can stop. Objects that the device makes while it runs (waves, groups, launches, contexts, transfers, yokes) are held in maps
keyed by a number the model gives them; everything else has a field of its own. INVENTORY.md lists each with its rule. -/
namespace Sys2Proof.Machine

/-- A register that an instruction names (R218, R220): class and number. -/
inductive RegName where
  | s (n : Nat)
  | v (n : Nat)
  | p (n : Nat)
  deriving DecidableEq, Repr

/-- A register write that waits for its result: a scalar, or the chosen lanes of a vector. -/
inductive RegWrite where
  | s (n : Nat) (x : DWord)
  | v (n : Nat) (lanes : Word) (x : Vector Word 32)
  deriving DecidableEq, Repr

/-- An outstanding result of a long-latency instruction, or of an atomic at a slice (R219, R221, R291). `ready` says that the value is
known and only its write remains. -/
structure Pending where
  id : Nat
  regs : List RegName
  writes : List RegWrite
  ready : Bool
  deriving DecidableEq, Repr

/-- How the bytes of a load become register writes (R254, R255, R288, R289): into a scalar register, one element for each lane, or one element for
all lanes. -/
inductive LoadForm where
  | scalar (d : Nat) (n : Nat) (signed : Bool)
  | lanes (ty d : Nat) (mask : Word)
  | one (ty d : Nat) (mask : Word)
  deriving DecidableEq, Repr

/-- One piece of a load: the lane that asked for it, and its bytes once they have returned. -/
structure LoadPart where
  lane : Nat
  bytes : Option (List Byte)
  deriving DecidableEq, Repr

/-- A load with pieces on their way (R110, R290): the outstanding result that it will give, by its number. -/
structure LoadWait where
  id : Nat
  form : LoadForm
  parts : List LoadPart
  deriving DecidableEq, Repr

/-- An open lookahead window (R219): places left, watched registers, PC of the instruction that opened it. -/
structure Window where
  left : Nat
  regs : List RegName
  pc : DWord
  deriving DecidableEq, Repr

/-- An event slot (Table 11.6) with the GEN recorded at a barrier binding and the physical place of that object. -/
structure EvSlot where
  kind : BitVec 4 := 0
  bound : Bool := false
  src : BitVec 56 := 0
  gen : Word := 0
  obj : Nat := 0
  deriving DecidableEq, Repr

/-- The trap registers (Table 14.1). -/
structure TrapRegs where
  tpc : DWord := 0
  tcause : DWord := 0
  tinfo : DWord := 0
  tmask : DWord := 0
  deriving DecidableEq, Repr

/-- What trap entry copies aside and TRET restores (R366). -/
structure Shadow where
  mode : BitVec 12 := 0
  c : Bool := false
  z : Bool := false
  vf : Bool := false
  bt : DWord := 0
  lt : DWord := 0
  lc : Word := 0
  deriving DecidableEq, Repr

/-- A place an access reaches: LOC (Table 1.4), the key of the byte (or the peer address), the name of its encryption key, the leaf. -/
structure Place where
  loc : Nat
  key : Nat
  kid : Nat
  leaf : DWord
  deriving DecidableEq, Repr

/-- One lane access: lane number, address, bytes. -/
structure LaneAcc where
  lane : Nat
  va : Nat
  n : Nat
  deriving DecidableEq, Repr

/-- A barrier object as an agent reaches it (R298): its place, and the key of the page through which it is reached (R32). -/
structure BarObj where
  key : Nat
  kid : Nat
  deriving DecidableEq, Repr

/-- The barrier object at a place. -/
def Place.obj (p : Place) : BarObj := ⟨p.key, p.kid⟩

/-- A lane task held by a lane of a sheaf wave (R171). -/
structure LaneTask where
  argp : DWord
  val : DWord
  future : DWord
  deriving DecidableEq, Repr

/-- What a sheaf wave carries beside its registers (R171-R174). -/
structure SheafInfo where
  entry : DWord
  region : DWord
  tasks : AMap LaneTask
  deriving DecidableEq, Repr

/-- Why a wave is PARKED (Table 6.5), with what its completion needs. A wave parked on faults waits on records, each with the lanes that it serves
and the lowest one's address, and has met the KILLs of `dead`. `first` of a WAITANY is the TSC nanosecond of the first posting, whose others are still to be
taken together (R310). `held` of a BWAIT says that its object has an entry of the barrier cache (R303). -/
inductive Park where
  | waitany (d a : BitVec 6) (first : Option Nat)
  | pwait (nx : BitVec 2) (h : Nat)
  | bwait (nx : BitVec 2) (obj : BarObj) (phase : Word) (held : Bool)
  | gbar (nx : BitVec 2)
  | fget (nx : BitVec 2) (d a b : BitVec 6)
  | sleep (nx : BitVec 2) (deadline : Nat) (ev : Option (BitVec 6))
  | yacq (nx : BitVec 2) (shape : Word)
  | yrel (nx : BitVec 2)
  | regroup (nx : BitVec 2) (partner : Nat) (mask : DWord)
  | grant (homes : List (Nat × Nat)) (full : List Nat)
  | fault (waits : List (Nat × Word × DWord)) (dead : List (Word × DWord)) (va : DWord) (kind : Byte)
  | debug
  deriving DecidableEq, Repr

/-- The wave states of Table 6.5 but FROZEN, which is `Group.frozen` of the wave's group: a frozen wave issues nothing, and what ends its park
meanwhile leaves it ready for the freeze's end. -/
inductive Status where
  | ready
  | parked (p : Park)
  | stopped
  | retired
  deriving DecidableEq, Repr

/-- Why a READY wave issues nothing until something ends (R170, R331, R333, R344, R361, R363). A YIELD waits for other waves, and has `left` cycles to
wait at most; a SNAP waits until its transfer `x` at engine `e` has its snap point; MSAVE and MREST have the place `i` in the order of issue (R87). -/
inductive Stall where
  | publish (nx : BitVec 2) (x : Nat)
  | mdrain (nx : BitVec 2)
  | msave (nx : BitVec 2) (a : DWord) (i : Nat)
  | mrest (nx : BitVec 2) (a : DWord) (i : Nat)
  | mbands (nx : BitVec 2)
  | cflush (nx : BitVec 2) (a : DWord) (n : Nat) (k : Nat)
  | yield (waves : List Nat) (left : Nat)
  | snap (nx : BitVec 2) (x e : Nat)
  deriving DecidableEq, Repr

/-- One Nawalink transaction of a wave or a transfer (R120): what was sent and when, for a transfer the virtual address of its access, and the answer when it
has come. -/
structure PeerTx where
  id : Nat
  key : Nat
  kind : Nat
  sent : Nat
  answer : Option (Bool × List Byte)
  va : Nat := 0
  deriving DecidableEq, Repr

/-- The eight performance counters of a wave (Table 13.5). -/
structure Counters where
  instr : DWord := 0
  parkcyc : DWord := 0
  l1miss : DWord := 0
  faratom : DWord := 0
  sbwait : DWord := 0
  copyb : DWord := 0
  mrows : DWord := 0
  droops : DWord := 0
  deriving DecidableEq, Repr

/-- A PREEMPT that waits to be delivered (R369, R370, R374). -/
structure PreemptReq where
  reason : Byte
  deadline : Nat
  deriving DecidableEq, Repr

/-- What a READSR of CORE or PLACE leaves for the READSR of the other that may follow (R246): which of them it read, and both as they were at that
instant. -/
structure ReadPair where
  half : Nat
  core : Nat
  place : Word
  deriving DecidableEq, Repr

/-- One wave: the registers of Table 8.5 and all that travels with it (Table 6.4, Table 14.8). `group` and `ctag` name its group and
context; `placed` is where the accesses of an instruction that waits for peers go, as they were translated when its requests left (R48). -/
structure Wave where
  ctag : Nat := 0
  group : Nat := 0
  wslot : Nat := 0
  waveId : Nat := 0
  s : Vector DWord 64 := Vector.replicate 64 0#64
  v : Vector (Vector Word 32) 64 := Vector.replicate 64 (Vector.replicate 32 0#32)
  p : Vector Word 8 := Vector.replicate 8 0#32
  c : Bool := false
  z : Bool := false
  vf : Bool := false
  pc : DWord := 0
  bt : DWord := 0
  lt : DWord := 0
  lc : Word := 0
  mode : BitVec 12 := 0
  live : Word := 0xFFFFFFFF#32
  pev : BitVec 8 := 0
  evm : BitVec 8 := 0
  slots : Vector EvSlot 8 := Vector.replicate 8 ({ } : EvSlot)
  cyc : DWord := 0
  cbar : DWord := 0
  copyErr : Byte := 0
  trap : TrapRegs := { }
  shadow : Shadow := { }
  handler : Bool := false
  preemptEntry : Bool := false
  preempt : Option PreemptReq := none
  stepArmed : Bool := false
  stepDone : Option (Byte × Nat) := none
  replay : Bool := false
  debugHold : Bool := false
  pslot : Nat := 0
  mailbox : List (DWord × BitVec 4) := []
  members : List (DWord × Nat) := []
  ctr : Counters := { }
  status : Status := .ready
  stall : Option Stall := none
  windows : List Window := []
  pending : List Pending := []
  loads : List LoadWait := []
  peer : List PeerTx := []
  placed : List (LaneAcc × List (Place × Nat)) := []
  sheaf : Option SheafInfo := none
  pair : Option ReadPair := none
  lastFault : Option (DWord × Byte × Nat) := none
  deriving DecidableEq, Repr

/-- Who reads or writes a plot, from acceptance to end (R70). -/
inductive Access where
  | pld
  | loadb (y : Nat) (id : Nat)
  | run (y : Nat) (id : Nat)
  | xfer (x : Nat)
  deriving DecidableEq, Repr

/-- One plot: the entry of Table 2.2 and the bytes of its granules, held sparsely. `armErr` is the failure held with a pending arm (R76). -/
structure Plot where
  level : Bool
  state : BitVec 2
  err : BitVec 2
  fmt : BitVec 4
  rows : Nat
  cols : Nat
  base : Nat
  quota : Nat
  issued : Nat
  arrived : Nat
  ngran : Nat
  armpend : Bool
  pendq : Nat
  armErr : BitVec 2
  data : List Host.Cell
  access : List Access
  deriving DecidableEq, Repr

/-- A granule run still being read after its plot was freed (R62). -/
structure Zombie where
  base : Nat
  ngran : Nat
  access : List Access
  deriving DecidableEq, Repr

/-- The four states of a slot-table entry (Table 7.6) that stands for a group. -/
inductive GState where
  | staged
  | resident
  | ending
  | saved
  deriving DecidableEq, Repr

/-- Where a moving group goes (R399); `fixed` once the exchange has started. -/
structure Move where
  core : Nat
  gslot : Nat
  wmask : BitVec 16
  pbase : Nat
  fixed : Bool
  deriving DecidableEq, Repr

/-- One group: its slot-table entry (Table 7.6), its place and its plots; `nwave` is the NWAVE of its launch (R167), and NWAVEM1 of the entry is one less
than the wave slots of `wmask`; `pass` and `lastWave` are the model's record of its issue slots (log 15). -/
structure Group where
  ctag : Nat := 0
  launch : Nat := 0
  state : GState := .staged
  core : Nat := 0
  gslot : Nat := 0
  nwave : Nat := 1
  wmask : BitVec 16 := 1
  pbase : Nat := 0
  pngran : Nat := 0
  grpid : Nat := 0
  launchId : Word := 0
  lslot : Nat := 0
  prio : Nat := 0
  share : Nat := 16
  ypos : Nat := 0
  gang : Nat := 0
  region : DWord := 0
  place : Word := 0
  plots : AMap Plot := []
  zombies : List Zombie := []
  gbar : BitVec 16 := 0
  shareTag : Nat := 0
  moving : Option Move := none
  frozen : Bool := false
  sheaf : Option SheafInfo := none
  evac : Bool := false
  garnerCopy : List Byte := []
  hadLease : Bool := false
  xferRecs : List (List Byte) := []
  pass : Nat := 0
  lastWave : Nat := 0
  deriving DecidableEq, Repr

/-- A launch from take to completion (R165, R195-R197, R205). `queue` is the queue it came from, `dep` its dependence-table entry, `seen` the cores that
have had a group of it (R112), and `tslot` its entry in the launch table of `die` (Table 7.6). -/
structure Launch where
  ctag : Nat
  launchId : Word
  die : Nat
  waves : Nat
  yoke : Bool
  shape : Word
  serial : Bool
  daff : Byte
  entry : DWord
  argp : DWord
  gx : Nat
  gy : Nat
  gz : Nat
  region : DWord
  plotb : Nat
  cpla : DWord
  queue : Option (Bool × Nat)
  index : Nat
  dep : Option Nat
  next : Nat
  ended : Nat
  faults : Nat
  killed : Bool
  restored : Bool
  headSince : Option Nat
  seen : List Nat := []
  tslot : Nat := 0
  deriving DecidableEq, Repr

/-- The pre-emption states of a context (Table 14.4). -/
inductive CState where
  | resident
  | draining
  | trapping
  | settling
  | saved
  | restoring
  | forced
  deriving DecidableEq, Repr

/-- The leader states of Table 7.5; `bad` is the code 0xFF of R193. -/
inductive LState where
  | idle
  | led
  | moving
  | held
  | bad
  deriving DecidableEq, Repr

/-- What a leader keeps of one queue. `waitFault` is the fault record its next read waits on (R194). -/
structure Leader where
  state : LState
  die : Nat
  epoch : Nat
  waitFault : Option Nat
  kill : Bool
  deriving DecidableEq, Repr

/-- A context known to the directory (R158, R159): its descriptor's fields, its queue-set header and its pre-emption state. `fired` holds its fired
dependence entries as (order, die, entry), `firedWait` those whose record could not be read, each with the fault that its read waits on, none once
that was answered with KILL (R194, R210), `drain` the deadline D1 of a drain that an evacuation holds up (R387), and `places` the PLACE of each group
that is saved, by the lowest private slot of its waves (R184, log 69); `young`, `armErrs` and `pairs` are what else the image has no place for: the copies that
credit a fill to come (R72), the failures held with pending arms (R76), and the READSR pairs that a save falls into (R246, log 36). -/
structure Context where
  desc : DWord := 0
  ptbase : DWord := 0
  privbase : DWord := 0
  privcfg : DWord := 0
  tbase : DWord := 0
  rootrcb : DWord := 0
  qset : DWord := 0
  savearea : DWord := 0
  savekey : Byte := 0
  ctx : Option Nat := none
  cstate : CState := .resident
  deadline : Option Nat := none
  d2 : Nat := 0
  tscchg : Nat := 0
  nhq : Nat := 0
  hqd : DWord := 0
  ntq : Nat := 0
  tqd : DWord := 0
  ndep : Nat := 0
  depbase : DWord := 0
  queues : List (Bool × Nat × Leader) := []
  nextLaunch : Word := 0
  fired : List (Nat × Nat × Nat) := []
  firedWait : List (Nat × Option Nat) := []
  debug : Bool := false
  noticeAt : Option Nat := none
  notice : Bool := false
  rcbs : AMap (List Byte) := []
  image : DWord := 0
  toBind : List Nat := []
  evac : Option Nat := none
  shareTags : Nat := 1
  saveWait : Option Nat := none
  drain : Option Nat := none
  places : AMap Word := []
  young : List (Nat × Nat × Nat) := []
  armErrs : List (Nat × Nat × BitVec 2) := []
  pairs : AMap ReadPair := []
  deriving DecidableEq, Repr

/-- A SHARED line of an L1 (R110): its bytes, the words written at the slice since the fill by writes that count (R115, R122), the key of the
page through which it was filled (R32, R39), and which 64-byte halves it holds (R125). -/
structure L1Line where
  bytes : List Byte
  counted : BitVec 16
  kid : Nat
  halves : BitVec 2
  deriving DecidableEq, Repr

/-- What lies on a core's paths to the slices (R110): a load that missed the L1, a store, the write-through of an atomic made in the L1 on a SHARED
copy, or an atomic to be performed at the slice. `wave` is the issuing wave; `key` the physical place; `kid` the key of its page. A load names
the outstanding result `id` that waits for it and which `part` of that result it brings. -/
inductive PathEntry where
  | load (wave : Nat) (key kid : Nat) (n : Nat) (id : Nat) (part : Nat)
  | store (wave : Nat) (key kid : Nat) (bytes : List Byte)
  | l1atomic (wave : Nat) (key kid : Nat) (bytes : List Byte) (lost : Bool)
  | atomic (wave : Nat) (key kid : Nat) (n : Nat) (op : BitVec 4) (ty : BitVec 4) (d c : DWord) (id : Nat) (dst : RegName) (lane : Nat)
  deriving DecidableEq, Repr

/-- One core: its ICAD, caches (a line of code with its context and the key of its page, R32), paths to the slices, droop state and sensor; `vtime` is
the model's measure of the issue slots given out by SHARE (log 15), `slots` counts all of them, `lastNotice` is the wave that had the last one kept for a
throttle notice (R209), `lastTurn` the wave slot that had the last one kept for READY waves in turn (R187), and `kept` says that the current one is of these two kinds. `early` names for a line the core whose stores to it this one has seen before they
performed (R138, log 8). -/
structure Core where
  icad : Byte := 4
  l1 : AMap L1Line := []
  owned : List Nat := []
  icache : AMap (Nat × Nat × List Byte) := []
  path : List PathEntry := []
  early : AMap Nat := []
  stretch : Bool := false
  halved : Bool := false
  temp : Nat := 25
  bands : BitVec 4 := 0
  vtime : Nat := 0
  slots : Nat := 0
  lastNotice : Nat := 0
  lastTurn : Nat := 0
  kept : Bool := false
  deriving DecidableEq, Repr

/-- One slot of a die's future resolution table, as Table 6.8a lays it out (R177, R181), with the RESA of a
task record (R199) and the peer that created its task (R422). `granted` marks a slot in a pool (R176), and `waits` a forward that is in the FIFO of its
target's slot. -/
structure FrtSlot where
  state : BitVec 2 := 0
  dropped : Bool := false
  started : Bool := false
  fwd : Bool := false
  ctag : Nat := 0
  tag : BitVec 12 := 1
  value : DWord := 0
  entry : DWord := 0
  argp : DWord := 0
  val : DWord := 0
  region : DWord := 0
  fifo : List Nat := []
  target : Option Nat := none
  waits : Bool := false
  granted : Bool := false
  resa : DWord := 0
  peer : Option Nat := none
  deriving DecidableEq, Repr

/-- A message to a die about tasks and futures, in order of arrival (R172, R176-R178). -/
inductive Msg where
  | task (slot : Nat)
  | forward (target : DWord) (slot : Nat)
  | drop (handle : DWord)
  | finish (slot : Nat) (tag : BitVec 12) (ctag : Nat) (broken : Bool) (value : DWord)
  | grantReq (fromDie : Nat)
  deriving DecidableEq, Repr

/-- An open sheaf of a die's former (R172). -/
structure OpenSheaf where
  ctag : Nat
  region : DWord
  entry : DWord
  tasks : List LaneTask
  since : Nat
  deriving DecidableEq, Repr

/-- The state of a die with respect to the online set (R201, R396, R387, R388, R415). -/
inductive DieState where
  | online
  | drained
  | emergency
  | lost
  | reset
  deriving DecidableEq, Repr

/-- One die: its place in the online set, thermal history, future table, sheaf former, messages in flight and firmware state. `emerg` says that a thermal
emergency has begun and not ended, also while the die waits for the other's evacuation (R396), and `reserve` the cores kept for each waiting gang (R208). -/
structure Die where
  state : DieState := .online
  arrayPower : Nat := 0
  bandPower : List Nat := []
  quads : List Nat := [25, 25, 25, 25]
  hotSamples : Nat := 0
  emerg : Bool := false
  coolSince : Option Nat := none
  trip : Bool := false
  frt : AMap FrtSlot := []
  tasks : List Msg := []
  forwards : List Msg := []
  drops : List Msg := []
  ends : List Msg := []
  grantReqs : List Nat := []
  pools : AMap (List Nat) := []
  former : List OpenSheaf := []
  ready : List (Nat × Nat × SheafInfo) := []
  pickLast : AMap Nat := []
  pickDef : AMap Nat := []
  barrierQ : List (BarObj × Nat × Nat × Option (Nat × Nat)) := []
  hotThrottle : Option Nat := none
  reserve : List (Nat × List Nat) := []
  lastTick : Nat := 0
  deriving DecidableEq, Repr

/-- What a transfer is (R325, R333, R343). -/
inductive XferOp where
  | cpy
  | cpyt
  | cpyim
  | cpym
  | cpyout
  | xeng
  | mcadr (y : Nat) (g0 rows : Nat) (ty : BitVec 2)
  deriving DecidableEq, Repr

/-- A transfer of a copy engine or of a matrix output path, kept as it was issued (R324-R334, R343, R447). `plots` are the plots it
reads or writes as (group, handle), `image` the source bytes taken at acceptance for a read of a plot, `done` the bytes moved. `taken` are the rows of
an MCADR that its output path has taken from the garner (R87, R343), `blocks` the 64-byte blocks of its source that it has read, each as one
access (R128), and `answered` the address of a fault answered with KILL while the transfer is paused (R401). -/
structure Transfer where
  op : XferOp
  engine : Nat
  ctag : Nat
  wave : Nat
  group : Nat
  launch : Nat
  sub : BitVec 4
  lanes : Word
  base : DWord
  ref0 : DWord
  ref1 : DWord
  opnd : DWord
  rowoff : List Word
  cmd : List Byte
  bara : DWord
  plots : List (Nat × Nat)
  fmt : BitVec 4
  rows : Nat
  rowBytes : Nat
  image : List Byte
  done : Nat
  parked : Option Nat
  pause : Bool
  region : DWord
  peer : List PeerTx
  taken : List Nat := []
  blocks : AMap (List Byte) := []
  answered : Option Nat := none
  deriving DecidableEq, Repr

/-- A PUBLISH that waits for the transfers into its range (R151, R331). -/
structure Publish where
  wave : Nat
  ctag : Nat
  base : DWord
  len : Nat
  waits : List Nat
  deriving DecidableEq, Repr

/-- The mark of a line of a snapshot's range that no translation reaches. -/
def noLine : Nat := 2 ^ 60

/-- One line of a snapshot's range (R155): its physical line, `noLine` where it has none yet, the key of its page, its part of the aside area as places,
keys and lengths, and its imaged contents once they are copied aside. -/
structure SnapLine where
  line : Nat
  kid : Nat
  area : List (Nat × Nat × Nat)
  aside : Option (List Byte) := none
  deriving DecidableEq, Repr

/-- A snapshot being streamed (R154, R155): the lines of its range in order. `far` are the lines that lie on pages of peers, whose contents the requests of
the transfer bring, two 64-byte blocks for each. `saved` names the transfer record of an image that goes on with it: the lowest private slot of its
group's waves, and its place among the group's records (R447). -/
structure Snap where
  xfer : Nat
  ctag : Nat
  lines : List SnapLine
  far : List Nat := []
  saved : Option (Nat × Nat) := none
  deriving DecidableEq, Repr

/-- The yoke states of Table 12.6. -/
inductive YState where
  | forming
  | idle
  | running
  | halted
  | releasing
  | lost
  deriving DecidableEq, Repr

/-- One member of a yoke: its group, its YACQ while forming, whether it holds a lease and whether that lease is marked to end, and the core that it lends. -/
structure Member where
  group : Nat
  acq : Option Word
  lease : Bool
  marked : Bool
  released : Bool
  core : Nat := 0
  deriving DecidableEq, Repr

/-- The stationary B of one yoke position, as taken at the controller (R340). -/
structure BLoad where
  fmt : BitVec 4
  nrows : Nat
  ncols : Nat
  bytes : List Byte
  deriving DecidableEq, Repr

/-- The A operand of one core row of a run (R341). -/
structure ALoad where
  fmt : BitVec 4
  bytes : List Byte
  group : Nat
  handle : Nat
  deriving DecidableEq, Repr

/-- An accepted MRUN (R341): A per core row, B per position as loaded for it, and how far it has come: rows injected,
rows done, and those that were past it when a core of the yoke was stretched (R395). -/
structure Run where
  id : Nat
  wave : Nat
  a : List ALoad
  b : List (Option BLoad)
  mr : Nat
  kw : Nat
  g0 : Nat
  prec : Nat
  qb : Nat
  bands : BitVec 4
  inj : Nat
  done : Nat
  past : Nat := 0
  deriving DecidableEq, Repr

/-- A garner instruction's part on one row, waiting for the runs issued before it (R87): MZERO, MACCG with its lanes' values, MREADG with the result
that it gives, and a row of an MCADR. -/
inductive GarnerOp where
  | zero (row : Nat)
  | acc (row col : Nat) (lanes : Word) (x : Vector Word 32)
  | read (row col : Nat) (wave id d : Nat) (mask : Word)
  | out (row : Nat) (xfer i : Nat)
  deriving DecidableEq, Repr

/-- A yoke (R335-R345). Position `i` is entry `i` of `members`. `garner` holds the valid rows (R86), 256 × columns values each. `last` is
the run of which `inj` and `done` speak (R338), and `ops` the garner instructions that wait, each with its place in the order of issue (R87). -/
structure Yoke where
  ctag : Nat
  launch : Nat
  gang : Nat
  state : YState
  held : Bool
  shape : Word
  ashape : BitVec 4
  members : List Member
  qb : Nat
  b : List (Option BLoad)
  runs : List Run
  inj : Nat
  done : Nat
  outerr : Bool
  garner : AMap (List Word)
  last : Nat := 0
  ops : List (Nat × GarnerOp) := []
  deriving DecidableEq, Repr

/-- An outstanding recoverable fault (R52-R56): its key, its record's place in the ring once posted, and who waits on it: waves, transfers, queues,
fired dependence entries (R210), and the write of the context's save image (R384). -/
structure FaultRec where
  token : Nat
  ctag : Nat
  page : Nat
  wr : Bool
  va : DWord
  kind : Byte
  src : Byte
  posted : Option Nat
  waves : List Nat
  xfers : List Nat
  queues : List (Bool × Nat)
  entries : List Nat
  save : Bool
  deriving DecidableEq, Repr

/-- Who asks for a translation (R44): a core, which has a cache of its own before its die's, or another agent of a die. -/
inductive Asker where
  | core (c : Nat)
  | die (d : Nat)
  deriving DecidableEq, Repr

/-- A cached translation (R44): whose cache holds it, context, the page's base and size, and the leaf word. `loose` says that the page has been
walked again since, so that an access uses either this entry or the tables (R48, log 7). -/
structure TlbEntry where
  holder : Asker
  ctag : Nat
  base : Nat
  size : Nat
  leaf : DWord
  loose : Bool
  deriving DecidableEq, Repr

/-- An event record (R416). -/
structure EventRec where
  tsc : Nat
  source : Nat
  kind : Nat
  data : List Byte
  deriving DecidableEq, Repr

/-- An access window for peers (R421). -/
structure PeerWindow where
  node : Nat
  die : Nat
  base : Nat
  len : Nat
  perm : Nat
  deriving DecidableEq, Repr

/-- A packet sent to another device (R120, R349, R350, R352), an output of the machine. -/
inductive Packet where
  | read (id node die off n : Nat)
  | write (id node die off : Nat) (bytes : List Byte) (mask : List Bool)
  | atomic (id node die : Nat) (n : Nat) (op ty : BitVec 4) (words : List (Nat × DWord × DWord))
  | task (node die ctx : Nat) (handle entry argp : DWord)
  | forward (node ctx : Nat) (target handle entry argp : DWord)
  | drop (node : Nat) (handle : DWord)
  | grantReq (node die ctx : Nat)
  | grant (node die : Nat) (slots : List Nat)
  | query (handle : DWord)
  | answer (node : Nat) (ok : Bool) (bytes : List Byte)
  | future (node : Nat) (slot : Nat) (tag : BitVec 12) (ans : FutureAnswer)
  | queueReply (stale full : Bool)
  | hostData (addr : Nat) (bytes : List Byte)
  | spdm (bytes : List Byte)
  deriving DecidableEq, Repr

/-- What is known here of a future homed on another device (R179, R349). -/
structure RemoteFuture where
  handle : DWord
  ans : FutureAnswer
  deriving DecidableEq, Repr

/-- The registers of BAR0 (Table 16.1) that the host writes and reads. -/
structure Bar0 where
  devid : DWord := 0x0A02#64
  nodeid : DWord := 0xFFF#64
  nodeidNext : DWord := 0xFFF#64
  hmap0 : BitVec 36 := 0xFFFFFFFFF#36
  hmap1 : BitVec 36 := 0xFFFFFFFFF#36
  lcstate : BitVec 3 := 2
  recovery : Bool := false
  fqbase : DWord := 0
  fqcfg : DWord := 0
  eqbase : DWord := 0
  eqcfg : DWord := 0
  frtbase0 : DWord := 0
  frtbase1 : DWord := 0
  mqbase : DWord := 0
  mqcfg : DWord := 0
  mqtail : Word := 0
  mqhead : Word := 0
  schedcfg : DWord := 0x6408#64
  pwrcfg : DWord := 0x4BBB8#64
  thermcfg : DWord := 0x645F#64
  rotcfg : DWord := 0x603#64
  droopcfg0 : DWord := 12
  droopcfg1 : DWord := 12
  wdstat : DWord := 0
  agestat : DWord := 0
  deriving DecidableEq, Repr

/-- Security state (R38, R410-R413): key slots by name of the key held, rollback counter, staged firmware, measurements, the SPDM session that is open (by
its number) and how many there have been, and the images of the Reeve and the PWC that FW_UPDATE has made the current ones, empty for those the device
shipped with. -/
structure Security where
  keys : AMap Nat := [(0, 0)]
  nextKey : Nat := 1
  rollback : Nat := 0
  staged : List Byte := []
  measurements : List (BitVec 512) := [0, 0, 0, 0, 0]
  session : Option Nat := none
  sessions : Nat := 0
  reeve : List Byte := []
  pwc : List Byte := []
  deriving DecidableEq, Repr

/-- The state of one package. `agenda`, `cur`, `turnCore`, `devTurn`, `stepNo` and `uid` are the model's own (logs 3, 4, 15): what happens next, which
wave issues next and on which core, whose turn it is, the index of the free values, and the next unused number. `tagBase` is the key of the lines that `tags`
does not list (R37, R414), and `aged` says that the ageing margin has once been used up (R402). -/
structure State where
  tsc : DWord := 0
  stepNo : Nat := 0
  agenda : List Instr := []
  cur : Nat := 0
  turnCore : Nat := 0
  devTurn : Bool := false
  uid : Nat := 1
  waves : AMap Wave := []
  groups : AMap Group := []
  launches : AMap Launch := []
  contexts : AMap Context := []
  cores : AMap Core := []
  dies : AMap Die := []
  mem : List Host.Cell := []
  l2 : List Host.Cell := []
  remote : AMap Bool := []
  granted : AMap Bool := []
  decays : Nat := 0
  tags : AMap Nat := []
  tagBase : Nat := 0
  tlb : List TlbEntry := []
  predictor : List (Nat × Nat × Nat) := []
  packets : List Packet := []
  windows : AMap PeerWindow := []
  binds : List (Nat × Nat × Nat) := []
  remotes : List RemoteFuture := []
  ports : AMap Bool := []
  transfers : AMap Transfer := []
  publishes : AMap Publish := []
  snaps : List Snap := []
  yokes : AMap Yoke := []
  faults : List FaultRec := []
  faultRoom : Nat := 1024
  events : List EventRec := []
  dropped : Nat := 0
  dropSource : Nat := 0
  bar : Bar0 := { }
  sec : Security := { }
  power : Nat := 0
  rails : List Nat := []
  draining : Option Nat := none
  planTsc : Nat := 0
  aged : Bool := false
  deriving DecidableEq, Repr

/-- The reasons for which a step stops. -/
inductive Fault where
  /-- Raised by every wave instruction that `exec` is asked to run while no wave is current: the device has no such moment, so the
  machine stops. Safe: a claim about a wave's instruction has a current wave among its hypotheses. -/
  | noWave
  deriving DecidableEq, Repr

/-- The reasons for which the model gives no meaning. -/
inductive Refusal where
  /-- Raised by an arm of `exec` whose instruction has no meaning in the model yet; `mnemonic` is its row in the opcode table. Safe:
  nothing can be proved about what follows. -/
  | notModelled (mnemonic : String)
  deriving DecidableEq, Repr

/-- The machine right after a cold reset (R415, Table 16.7): nothing is resident, every register has its reset value, memory lists
nothing, key slot 0 is LOADED and slots 1-255 are EMPTY. Values that the spec leaves to fuses are those of logs 1 and 2. -/
def State.reset : State := { }

end Sys2Proof.Machine
end

