-- ==== Sys2Proof/Machine/Xts.lean ====
section
/-! DEFINITION. Sys2Proof/Machine/Xts.lean: AES-256-XTS over one 128-byte line (R37; the cipher is that of FIPS 197 and IEEE 1619, log 6). -/
namespace Sys2Proof.Machine

/-- A byte turned left by `n` bits. -/
def rotByte (b : Byte) (n : Nat) : Byte := (b <<< n) ||| (b >>> (8 - n))

/-- Twice a byte of the field of AES. -/
def xtime (b : Byte) : Byte := (b <<< 1) ^^^ (if b.msb then 0x1B#8 else 0#8)

/-- The product of two bytes of the field of AES. -/
def gmul (a b : Byte) : Byte :=
  ((List.range 8).foldl (fun (acc : Byte × Byte) i => (if b.getLsbD i then acc.1 ^^^ acc.2 else acc.1, xtime acc.2)) (0#8, a)).1

/-- The inverse of a byte of the field, 0 for 0: its 254th power. -/
def ginv (a : Byte) : Byte :=
  let a2 := gmul a a
  let a4 := gmul a2 a2
  let a8 := gmul a4 a4
  let a16 := gmul a8 a8
  let a32 := gmul a16 a16
  let a64 := gmul a32 a32
  gmul (gmul a64 a64) (gmul a64 (gmul a32 (gmul a16 (gmul a8 (gmul a4 a2)))))

/-- SubBytes of one byte. -/
def subByte (b : Byte) : Byte :=
  let i := ginv b
  i ^^^ rotByte i 1 ^^^ rotByte i 2 ^^^ rotByte i 3 ^^^ rotByte i 4 ^^^ 0x63#8
/-- InvSubBytes of one byte. -/
def unsubByte (b : Byte) : Byte := ginv (rotByte b 1 ^^^ rotByte b 3 ^^^ rotByte b 6 ^^^ 0x05#8)

/-- The exclusive or of two byte lists of one length. -/
def xorBytes (a b : List Byte) : List Byte := List.zipWith (· ^^^ ·) a b

/-- A block whose byte of row `r` and column `c` is `f r c`; byte `4 * c + r` of a block is that byte. -/
def blockOf (f : Nat → Nat → Byte) : List Byte := (List.range 16).map fun i => f (i % 4) (i / 4)
/-- The byte of a block in a row and a column. -/
def cellOf (b : List Byte) (r c : Nat) : Byte := b.getD (4 * (c % 4) + r % 4) 0#8

/-- ShiftRows. -/
def shiftRows (b : List Byte) : List Byte := blockOf fun r c => cellOf b r (c + r)
/-- InvShiftRows. -/
def unshiftRows (b : List Byte) : List Byte := blockOf fun r c => cellOf b r (c + 4 - r)
/-- MixColumns with the four factors of a row. -/
def mixWith (k0 k1 k2 k3 : Byte) (b : List Byte) : List Byte := blockOf fun r c =>
  gmul k0 (cellOf b r c) ^^^ gmul k1 (cellOf b (r + 1) c) ^^^ gmul k2 (cellOf b (r + 2) c) ^^^ gmul k3 (cellOf b (r + 3) c)

/-- The words of the key schedule of AES-256, the last one first: `n` more after those given. -/
def expandKey (n i : Nat) (rcon : Byte) (l : List (List Byte)) : List (List Byte) :=
  match n with
  | 0 => l
  | k + 1 =>
    let t := l.getD 0 []
    let u := if i % 8 = 0 then xorBytes ((t.drop 1 ++ t.take 1).map subByte) [rcon, 0#8, 0#8, 0#8]
      else if i % 8 = 4 then t.map subByte else t
    expandKey k (i + 1) (if i % 8 = 0 then xtime rcon else rcon) (xorBytes (l.getD 7 []) u :: l)

/-- The 15 round keys of a 32-byte key. -/
def roundKeys (key : List Byte) : List (List Byte) :=
  let first := (List.range 8).map fun i => sliceBytes key (4 * i) 4
  let ws := (expandKey 52 8 1#8 first.reverse).reverse
  (List.range 15).map fun i => ((ws.drop (4 * i)).take 4).flatten

/-- AES-256 encryption of one block under its round keys. -/
def aesEncrypt (ks : List (List Byte)) (b : List Byte) : List Byte :=
  let rounds := (List.range 13).foldl (fun x i =>
    xorBytes (mixWith 2#8 3#8 1#8 1#8 (shiftRows (x.map subByte))) (ks.getD (i + 1) [])) (xorBytes b (ks.getD 0 []))
  xorBytes (shiftRows (rounds.map subByte)) (ks.getD 14 [])

/-- AES-256 decryption of one block under its round keys. -/
def aesDecrypt (ks : List (List Byte)) (b : List Byte) : List Byte :=
  let first := (unshiftRows (xorBytes b (ks.getD 14 []))).map unsubByte
  let rounds := (List.range 13).foldl (fun x i =>
    (unshiftRows (mixWith 14#8 11#8 13#8 9#8 (xorBytes x (ks.getD (13 - i) [])))).map unsubByte) first
  xorBytes rounds (ks.getD 0 [])

/-- The next tweak: twice the number in 16 bytes, in the field of XTS. -/
def nextTweak (t : List Byte) : List Byte :=
  let x := 2 * natOf t
  bytesOf 16 (if x < 2 ^ 128 then x else (x - 2 ^ 128) ^^^ 0x87)

/-- XTS over whole blocks: each is masked by its tweak before and after the block cipher. -/
def xtsBlocks (f : List Byte → List Byte) (n : Nat) (t : List Byte) (l : List Byte) : List Byte :=
  match n with
  | 0 => []
  | k + 1 => xorBytes (f (xorBytes (l.take 16) t)) t ++ xtsBlocks f k (nextTweak t) (l.drop 16)

/-- The 64 bytes of a key's two AES-256 keys. -/
def xtsKey (kid : Nat) : List Byte := bytesOf 64 (Config.keyBytes kid).toNat

/-- XTS of one line under 64 key bytes; the tweak is the line's number (R37: local address bits [51:7], then the die bit). -/
def xtsLine (dec : Bool) (key : List Byte) (line : Nat) (l : List Byte) : List Byte :=
  let k1 := roundKeys (key.take 32)
  let t := aesEncrypt (roundKeys (key.drop 32)) (bytesOf 16 line)
  xtsBlocks (if dec then aesDecrypt k1 else aesEncrypt k1) 8 t l

/-- What a line's bytes become when it is written back under one key and read again under another (R39). -/
def rekeyLine (old new line : Nat) (l : List Byte) : List Byte := xtsLine true (xtsKey new) line (xtsLine false (xtsKey old) line l)

end Sys2Proof.Machine
end

