-- ==== Sys2Proof/Machine/Memory.lean ====
section
/-! DEFINITION. Sys2Proof/Machine/Memory.lean: physical memory. Bytes of local HBM and of the host under one key space (R28, R35), what an
L2 holds and HBM does not yet (R116), the key under which each line stands (R37, R39), the L1s, the ordered paths of the cores and the
places where atomics are performed (R110-R123). -/
namespace Sys2Proof.Machine

/-- The byte listed at an address, if any. -/
def cellGet (m : List Host.Cell) (a : Nat) : Option Byte :=
  match m with
  | [] => none
  | (k, b) :: t => if k = a then some b else cellGet t a

/-- The list with `b` at `a`, kept in rising order. -/
def cellPut (m : List Host.Cell) (a : Nat) (b : Byte) : List Host.Cell :=
  match m with
  | [] => [(a, b)]
  | (k, c) :: t => if a < k then (a, b) :: (k, c) :: t else if k = a then (a, b) :: t else (k, c) :: cellPut t a b

/-- The list without `a`. -/
def cellDel (m : List Host.Cell) (a : Nat) : List Host.Cell :=
  match m with
  | [] => []
  | (k, c) :: t => if k = a then t else (k, c) :: cellDel t a

/-- A write to a memory whose unlisted bytes read zero: writing zero unlists the byte (log 2). -/
def cellSet (m : List Host.Cell) (a : Nat) (b : Byte) : List Host.Cell :=
  if b = 0#8 then cellDel m a else cellPut m a b

/-- Every key of a list is above `lo`, and the keys rise strictly. -/
def risingFrom (lo : Option Nat) (m : List Host.Cell) : Bool :=
  match m with
  | [] => true
  | (k, _) :: t => (match lo with | none => true | some l => decide (l < k)) && risingFrom (some k) t

/-- The canonical form of memory: addresses strictly rising, and no entry that an unlisted address would read as. -/
def Memory.wf (m : List Host.Cell) : Bool := risingFrom none m && m.all fun c => c.2 != 0#8

/-- The key of byte `off` of a die's HBM (R28). -/
def localKey (die off : Nat) : Nat := die * 2 ^ 52 + off
/-- The key of a byte of host memory (R28). -/
def hostKey (pa : Nat) : Nat := 2 ^ 53 + pa % 2 ^ 52
/-- Whether a key lies in host memory. -/
def isHostKey (k : Nat) : Bool := decide (k ≥ 2 ^ 53)
/-- The die of a key's home slice; host lines are homed on die 0 (R114). -/
def homeOf (k : Nat) : Nat := if isHostKey k then 0 else k / 2 ^ 52
/-- The 128-byte line of a key. -/
def lineOf (k : Nat) : Nat := k / 128

/-- The home slice of a physical address (R114). -/
def sliceOf (pa : Nat) : Nat :=
  (List.range 8).foldl (fun h j => h ^^^ ((pa >>> (7 + 6 * j)) % 64)) 0
/-- The HBM stack of a local address (R117). -/
def stackOf (pa : Nat) : Nat := bitsAt pa 8 2 ^^^ bitsAt pa 20 2

/-- One byte of physical memory, as every slice sees it (R115). -/
def physByte (s : State) (k : Nat) : Byte :=
  match cellGet s.l2 k with
  | some b => b
  | none => (cellGet s.mem k).getD 0#8

/-- `n` bytes of physical memory. -/
def physBytes (s : State) (k n : Nat) : List Byte :=
  match n with
  | 0 => []
  | j + 1 => physByte s k :: physBytes s (k + 1) j

/-- Bytes written into the L2 (R116: write-back). -/
def l2Write (s : State) (k : Nat) (l : List Byte) : State :=
  match l with
  | [] => s
  | b :: t => l2Write { s with l2 := cellPut s.l2 k b } (k + 1) t

/-- Bytes written into HBM or host memory. -/
def memPut (m : List Host.Cell) (k : Nat) (l : List Byte) : List Host.Cell :=
  match l with
  | [] => m
  | b :: t => memPut (cellSet m k b) (k + 1) t

/-- The lines of an extent. -/
def linesOf (k n : Nat) : List Nat := if n = 0 then [] else (List.range (lineOf (k + n - 1) + 1 - lineOf k)).map (· + lineOf k)

/-- A line's dirty bytes go to HBM or to the host (R116), and the line stays valid: a proxy slice that held it MODIFIED returns it home and keeps a SHARED
copy. -/
def cleanLine (s : State) (line : Nat) : State :=
  let mine := s.l2.filter fun c => lineOf c.1 == line
  { s with
    mem := mine.foldl (fun m c => cellSet m c.1 c.2) s.mem
    l2 := s.l2.filter fun c => !(lineOf c.1 == line)
    remote := if lookup s.remote line = some true then put s.remote line false else s.remote }

/-- A line leaves the L2s (R116): what the proxy slice of the other die holds of it returns home, its dirty bytes go to HBM or to the host, and nothing
that the host has granted of it is held. -/
def evictLine (s : State) (line : Nat) : State :=
  let s := cleanLine s line
  { s with remote := erase s.remote line, granted := erase s.granted line }

/-- Bytes as a read under key `kid` sees them, without moving a line (R39). -/
def viewBytes (s : State) (kid k n : Nat) : List Byte :=
  let line := lineOf k
  if isHostKey k || (lookup s.tags line).getD s.tagBase = kid then physBytes s k n
  else
    sliceBytes (rekeyLine ((lookup s.tags line).getD s.tagBase) kid line (physBytes s (line * 128) 128)) (k % 128) n

/-- Bring a local line under the key `kid` (R37, R39): written back under its tag, then read again under the other key. -/
def retag (s : State) (line kid : Nat) : State :=
  if isHostKey (line * 128) then s
  else
    let old := (lookup s.tags line).getD s.tagBase
    if old = kid then s
    else
      let s1 := evictLine s line
      { s1 with
        mem := memPut s1.mem (line * 128) (rekeyLine old kid line (physBytes s1 (line * 128) 128))
        tags := put s1.tags line kid }

/-- Retag `n` lines from `line` on. -/
def retagMany (s : State) (line n kid : Nat) : State :=
  match n with
  | 0 => s
  | j + 1 => retagMany (retag s line kid) (line + 1) j kid

/-- Bring every line of an extent under a key. -/
def touch (s : State) (kid k n : Nat) : State :=
  if n = 0 then s else retagMany s (lineOf k) (lineOf (k + n - 1) + 1 - lineOf k) kid

/-- A core's record; a core never named holds the reset record. -/
def coreOf (s : State) (c : Nat) : Core := (lookup s.cores c).getD { }
/-- Replace a core's record. -/
def setCore (s : State) (c : Nat) (x : Core) : State := { s with cores := put s.cores c x }
/-- A die's record. -/
def dieOf (s : State) (d : Nat) : Die := (lookup s.dies d).getD { }
/-- Replace a die's record. -/
def setDie (s : State) (d : Nat) (x : Die) : State := { s with dies := put s.dies d x }

/-- The contention counter of a line (R123). -/
def predCount (s : State) (line : Nat) : Nat :=
  match s.predictor.find? fun e => e.1 == line with
  | some e => e.2.1
  | none => 0

/-- Increment a line's counter; the list is kept with the least recently incremented entry first, at most 2,048 per slice (R123). -/
def predBump (s : State) (line : Nat) : State :=
  let sl := sliceOf (line * 128 % 2 ^ 52) + 64 * homeOf (line * 128)
  let c := min (predCount s line + 1) 3
  let rest := s.predictor.filter fun e => !(e.1 == line)
  let same := rest.filter fun e => e.2.2 == sl
  let rest' := if same.length ≥ Config.predictorEntries then
      match same.head? with
      | some v => rest.filter fun e => !(e.1 == v.1)
      | none => rest
    else rest
  { s with predictor := rest' ++ [(line, c, sl)] }

/-- The slice of a core's own die through which a place is reached: the home slice, or the proxy slice of the same number (R114). -/
def wayOf (k : Nat) : Nat := sliceOf (k % 2 ^ 52)

/-- Whether a place is homed across the seam from a core (R114). -/
def acrossSeam (c k : Nat) : Bool := c / Config.coresPerDie != homeOf k

/-- What the host has granted of a line of its memory: a copy to read, or to write as well (R119). -/
def grantHost (s : State) (line : Nat) (wr : Bool) : State :=
  if !isHostKey (line * 128) || (lookup s.granted line).any (fun m => m || !wr) then s
  else { s with granted := put s.granted line wr }

/-- A request of `n` bytes of a line that enters at a slice of `die` (R115): from the other die a write leaves the proxy slice MODIFIED, a read of more
than 64 bytes leaves a SHARED copy where there was none, and a small read leaves none (R125); at home a write invalidates the proxy's copy and a read
recalls a MODIFIED one. A line of the host is first granted (R119). -/
def seekLine (s : State) (die line : Nat) (wr : Bool) (n : Nat) : State :=
  let s := grantHost s line wr
  let held := lookup s.remote line
  if die = homeOf (line * 128) then
    if (wr && held.isSome) || held == some true then { s with remote := erase s.remote line } else s
  else if wr then (if held = some true then s else { s with remote := put s.remote line true })
  else if n > 64 && held.isNone then { s with remote := put s.remote line false } else s

/-- The die at whose slice a core's request enters; any other agent's enters at home. -/
def entryDie (src : Option Nat) (k : Nat) : Nat :=
  match src with
  | some c => c / Config.coresPerDie
  | none => homeOf k

/-- The die in whose L2 a line's bytes stand (R115): the other die's while its proxy slice holds the line MODIFIED, else the home die's. -/
def holderOf (s : State) (line : Nat) : Nat :=
  let home := homeOf (line * 128)
  if lookup s.remote line = some true then 1 - home else home

/-- The lines that the L2 of a die holds: those with bytes that HBM or the host lacks, and the SHARED copies of its proxy slices. -/
def l2Lines (s : State) (die : Nat) : List Nat :=
  ((s.l2.map fun c => lineOf c.1).dedup.filter fun l => holderOf s l == die)
    ++ (s.remote.filter fun e => !e.2 && homeOf (e.1 * 128) != die).map (·.1)

/-- A line leaves the L2 of one die: a SHARED copy of a proxy slice is dropped, any other line is evicted (R116). -/
def leaveSlice (s : State) (die line : Nat) : State :=
  if holderOf s line = die then evictLine s line else { s with remote := erase s.remote line }

/-- The lines for which the slices of a die have no room (Table 0.1): of each slice the first ones, as many as it holds too many (log 54). -/
def excessLines (s : State) (die : Nat) : List Nat :=
  let l := l2Lines s die
  (List.range 64).flatMap fun i =>
    let here := l.filter fun x => wayOf (x * 128) == i
    here.take (here.length - Config.sliceLines)

/-- Each slice of the L2s holds the lines for which it has room (Table 0.1): at the end of a step those beyond leave it (log 54). -/
def trimSlices (s : State) : State :=
  if s.l2.length + s.remote.length ≤ Config.sliceLines then s
  else [0, 1].foldl (fun s d => (excessLines s d).foldl (fun s l => leaveSlice s d l) s) s

/-- The core that holds a line OWNED (R115). -/
def ownerOf (s : State) (line : Nat) : Option Nat :=
  (s.cores.find? fun e => e.2.owned.contains line).map (·.1)

/-- Recall a line's OWNED copy from any L1 but `keep`'s; taking it counts in the predictor (R123). -/
def recallOwned (s : State) (line : Nat) (keep : Option Nat) : State :=
  match ownerOf s line with
  | none => s
  | some c =>
    if keep = some c then s
    else
      let k := coreOf s c
      predBump (setCore s c { k with owned := k.owned.filter (· != line) }) line

/-- Mark a counting write of words of a line in every L1 copy and in every waiting write-through of other cores (R115, R122). -/
def markCounted (s : State) (src : Option Nat) (k n : Nat) : State :=
  let line := lineOf k
  let w0 := k % 128 / 8
  let w1 := (k + n - 1) % 128 / 8
  let hit := fun (i : Nat) => decide (w0 ≤ i) && decide (i ≤ w1)
  let mask : BitVec 16 := (List.range 16).foldl (fun acc i => if hit i then acc ||| (1#16 <<< i) else acc) 0#16
  { s with cores := s.cores.map fun e =>
      if src = some e.1 then e
      else
        (e.1, { e.2 with
          l1 := e.2.l1.map fun p => if p.1 = line then (p.1, { p.2 with counted := p.2.counted ||| mask }) else p
          path := e.2.path.map fun q =>
            match q with
            | .l1atomic w key kid b lost => .l1atomic w key kid b (lost || (lineOf key == line && hit (key % 128 / 8)))
            | x => x }) }

/-- Whether a line of a snapshot's range has still to be copied aside before physical line `line` is written (R155). -/
def SnapLine.needs (x : SnapLine) (line : Nat) : Bool := x.line == line && x.aside.isNone

/-- The imaged contents of a line, as its page's key shows them (R32). -/
def SnapLine.image (s : State) (x : SnapLine) : List Byte := viewBytes s x.kid (x.line * 128) 128

/-- The lines of snapshots that are to be copied aside before a write to a physical line, or before their places are no longer theirs (R47). -/
def asideDue (s : State) (line : Nat) : List SnapLine := (s.snaps.flatMap (·.lines)).filter (·.needs line)

/-- What is written when a line is copied aside: its contents into its part of the aside area, as keys, places and bytes (R155, log 23). -/
def SnapLine.copies (s : State) (x : SnapLine) : List (Nat × Nat × List Byte) :=
  (x.area.foldl (fun acc e => (acc.1 ++ [(e.2.1, e.1, acc.2.take e.2.2)], acc.2.drop e.2.2)) (([] : List (Nat × Nat × List Byte)), x.image s)).1

/-- The snapshots hold the contents of a physical line that is about to be written (R155). -/
def noteAside (s : State) (line : Nat) : State :=
  { s with snaps := s.snaps.map fun p => { p with lines := p.lines.map fun x => if x.needs line then { x with aside := some (x.image s) } else x } }

/-- A write of an aligned piece of one line that enters at a slice of `die` for core `src`, or for another agent (R115, R122). Before the first write to
an imaged line after a snap point its contents are copied aside (R155), which is a write in its turn; `fuel` bounds how many follow from one another. -/
def performWrite (fuel : Nat) (s : State) (die : Nat) (src : Option Nat) (kid k : Nat) (l : List Byte) : State :=
  match fuel with
  | 0 => s
  | f + 1 =>
    if l.isEmpty then s
    else
      let s := seekLine (touch s kid k l.length) die (lineOf k) true l.length
      let s := recallOwned s (lineOf k) src
      let s := ((asideDue s (lineOf k)).flatMap fun x => x.copies s).foldl (fun t e => performWrite f t (homeOf e.2.1) none e.1 e.2.1 e.2.2)
        (noteAside s (lineOf k))
      markCounted (l2Write s k l) src k l.length

/-- How many writes can follow from one another: one for each line that snapshots have still to copy aside, and the one that began. -/
def asideFuel (s : State) : Nat := (s.snaps.map fun p => p.lines.length).sum + 2

/-- The imaged contents of a physical line are copied aside now, for every snapshot that has still to do so (R155). -/
def holdAside (s : State) (line : Nat) : State :=
  ((asideDue s line).flatMap fun x => x.copies s).foldl (fun t e => performWrite (asideFuel s) t (homeOf e.2.1) none e.1 e.2.1 e.2.2) (noteAside s line)

/-- The snapshots of a context read no more through the translations of their snap points: what they have still to stream is copied aside (R47, log 23). -/
def holdSnaps (s : State) (ctag : Nat) : State :=
  (((s.snaps.filter fun p => p.ctag == ctag).flatMap (·.lines)).filter fun x => x.aside.isNone && x.line != noLine).foldl (fun t x => holdAside t x.line) s

/-- A write of an aligned piece of one line by core `src`, which enters at a slice of the core's die (R114), or by another agent. -/
def sliceWrite (s : State) (src : Option Nat) (kid k : Nat) (l : List Byte) : State := performWrite (asideFuel s) s (entryDie src k) src kid k l

/-- A write performed at the home slice itself: of an SC page, an atomic, or an OWNED line. -/
def homeWrite (s : State) (src : Option Nat) (kid k : Nat) (l : List Byte) : State := performWrite (asideFuel s) s (homeOf k) src kid k l

/-- A read that enters at a slice of `die`. -/
def performRead (s : State) (die : Nat) (src : Option Nat) (kid k n : Nat) : State × List Byte :=
  let s := recallOwned (seekLine (touch s kid k n) die (lineOf k) false n) (lineOf k) src
  (s, physBytes s k n)

/-- A read by core `src`, which enters at a slice of the core's die (R114), or by another agent. -/
def sliceRead (s : State) (src : Option Nat) (kid k n : Nat) : State × List Byte := performRead s (entryDie src k) src kid k n

/-- A read performed at the home slice itself. -/
def homeRead (s : State) (src : Option Nat) (kid k n : Nat) : State × List Byte := performRead s (homeOf k) src kid k n

/-- Split an extent at 64-byte boundaries: pairs of start and bytes. -/
def splitBlocks (fuel k : Nat) (l : List Byte) : List (Nat × List Byte) :=
  match fuel with
  | 0 => []
  | f + 1 =>
    if l.isEmpty then []
    else
      let n := 64 - k % 64
      (k, l.take n) :: splitBlocks f (k + n) (l.drop n)

/-- A write of any extent by an agent that is no core: blocks in ascending order (R128). -/
def agentWrite (s : State) (kid k : Nat) (l : List Byte) : State :=
  (splitBlocks (l.length / 64 + 2) k l).foldl (fun s e => sliceWrite s none kid e.1 e.2) s

/-- A read of any extent by an agent that is no core. -/
def agentRead (s : State) (kid k n : Nat) : State × List Byte :=
  let s := touch s kid k n
  let s := (linesOf k n).foldl (fun s i => recallOwned (seekLine s (homeOf k) i false 64) i none) s
  (s, physBytes s k n)

/-- The slices that an engine of a die goes through for an extent (R115): its accesses of whole blocks are bulk, and the proxy slices hold their lines. -/
def viaDie (s : State) (die k n : Nat) (wr : Bool) : State :=
  (linesOf k n).foldl (fun s i => seekLine s die i wr 128) s

/-- The name of the key in a slot, if LOADED (R38). -/
def keyId (s : State) (slot : Nat) : Option Nat := lookup s.sec.keys slot

/-- The name of the key of slot 0, under which host accesses to HBM pass (R403, log 17). DESIGN CHOICE (log 64): page tables, for which the spec gives no
KEY, are read under it too. -/
def key0 (s : State) : Nat := (keyId s 0).getD 0

/-- ATOMOP on element bits (Table 11.2): the new value, and whether it is written. -/
def atomOp (op ty : Nat) (old d c : Nat) : Nat × Bool :=
  let w := typeBits ty
  let i := fun (x : Nat) => intVal ty x
  match op with
  | 0 => (wrapOf w (i old + i d), true)
  | 1 => (if i d < i old then d else old, true)
  | 2 => (if i old < i d then d else old, true)
  | 3 => (old &&& d, true)
  | 4 => (old ||| d, true)
  | 5 => (old ^^^ d, true)
  | 6 => (d, true)
  | 7 => (d, decide (old = c))
  | 8 => (rne32 (addV 0 (val32 old) (val32 d)), true)
  | _ => (rne32 (minMaxV true (val32 old) (val32 d)), true)

/-- An atomic performed on memory at the home slice, or in an L1 that owns the line (Table 4.2): the state and the old value. Whether or not it writes, the
line has no copy at the other die, and a line of the host is owned from the host. -/
def atomicAt (s : State) (src : Option Nat) (kid k n op ty d c : Nat) : State × Nat :=
  let (s1, b) := homeRead (seekLine (touch s kid k n) (homeOf k) (lineOf k) true n) src kid k n
  let old := natOf b
  let (new, wr) := atomOp op ty old d c
  (if wr then homeWrite s1 src kid k (bytesOf n new) else s1, old)

/-- Lane `i` of a vector replaced. -/
def setLane (v : Vector Word 32) (i : Nat) (x : Word) : Vector Word 32 := v.setIfInBounds i x

/-- A scalar register of a wave; s0 reads zero (R222). -/
def Wave.sreg (w : Wave) (n : Nat) : DWord := if n = 0 then 0#64 else w.s.toList.getD n 0#64
/-- Write a scalar register; a write to s0 is discarded (R222). -/
def Wave.setS (w : Wave) (n : Nat) (x : DWord) : Wave := if n = 0 then w else { w with s := w.s.setIfInBounds n x }
/-- A vector register. -/
def Wave.vreg (w : Wave) (n : Nat) : Vector Word 32 := w.v.toList.getD n (Vector.replicate 32 0#32)
/-- Write a vector register. -/
def Wave.setV (w : Wave) (n : Nat) (x : Vector Word 32) : Wave := { w with v := w.v.setIfInBounds n x }
/-- One lane of a vector register. -/
def Wave.lane (w : Wave) (n i : Nat) : Word := (w.vreg n).toList.getD i 0#32
/-- A predicate register; p0 reads all ones (R222). -/
def Wave.preg (w : Wave) (n : Nat) : Word := if n = 0 then 0xFFFFFFFF#32 else w.p.toList.getD n 0#32
/-- Write a predicate register; a write to p0 is discarded (R222). -/
def Wave.setP (w : Wave) (n : Nat) (x : Word) : Wave := if n = 0 then w else { w with p := w.p.setIfInBounds n x }
/-- A lane pair as one 64-bit value (R214). -/
def Wave.pair64 (w : Wave) (n i : Nat) : DWord := (w.lane (n + 1) i) ++ (w.lane n i)
/-- Write the chosen lanes of a vector register. -/
def Wave.setLanes (w : Wave) (n : Nat) (mask : Word) (f : Nat → Word) : Wave :=
  w.setV n (tab 32 fun i => if mask.getLsbD i then f i else w.lane n i)

/-- Write one lane of a destination: a 32-bit lane, a lane pair when `n` is 8, or a scalar extended by its type (R256, R291, R292). -/
def Wave.setAtomicDst (w : Wave) (dst : RegName) (n ty lane old : Nat) : Wave :=
  match dst with
  | .s d => w.setS d (scalarForm ty old)
  | .v d =>
    let w1 := w.setV d (setLane (w.vreg d) lane (BitVec.ofNat 32 old))
    if n = 8 then w1.setV (d + 1) (setLane (w1.vreg (d + 1)) lane (BitVec.ofNat 32 (old >>> 32))) else w1
  | .p _ => w

/-- Whether a core's path still holds an atomic of the pending result `id`. -/
def atomicWaits (path : List PathEntry) (id : Nat) : Bool :=
  path.any fun e => match e with
    | .atomic _ _ _ _ _ _ _ _ i _ _ => i == id
    | _ => false

/-- The physical place of an entry of a core's path. -/
def PathEntry.key (e : PathEntry) : Nat :=
  match e with
  | .load _ k _ _ _ _ => k
  | .store _ k _ _ => k
  | .l1atomic _ k _ _ _ => k
  | .atomic _ k _ _ _ _ _ _ _ _ _ => k

/-- The outstanding result that an entry of a core's path serves. -/
def PathEntry.result (e : PathEntry) : Option Nat :=
  match e with
  | .load _ _ _ _ id _ => some id
  | .atomic _ _ _ _ _ _ _ _ id _ _ => some id
  | _ => none

/-- The slice that an entry goes to. -/
def PathEntry.way (e : PathEntry) : Nat := wayOf e.key

/-- The oldest entry of a core's path to a slice, and the path without it (R110: one slice is reached in order, the slices in any). -/
def takeWay (path : List PathEntry) (way : Nat) : Option (PathEntry × List PathEntry) :=
  match path with
  | [] => none
  | e :: t => if e.way = way then some (e, t) else (takeWay t way).map fun r => (r.1, e :: r.2)

/-- The bytes of an L1 copy replaced from position `off`. -/
def patch (l : List Byte) (off : Nat) (b : List Byte) : List Byte := l.take off ++ b ++ l.drop (off + b.length)

/-- Whether a copy serves an access: it was filled under the access's own key (R32, R39) and holds its half of the line (R125). -/
def L1Line.holds (ln : L1Line) (kid k : Nat) : Bool := (isHostKey k || ln.kid == kid) && ln.halves.getLsbD (k % 128 / 64)

/-- The 8-byte word of an L1 copy that holds a slice atomic's result, written when it returns (R122): the copy has read the word anew (log 8). -/
def refreshWord (s : State) (ln : L1Line) (k : Nat) : L1Line :=
  { ln with
    bytes := patch ln.bytes (k % 128 / 8 * 8) (physBytes s (k / 8 * 8) 8)
    counted := ln.counted &&& ~~~(1#16 <<< (k % 128 / 8)) }

/-- An L1 with a place for a line: where all are taken (Table 0.1), the copy filled first makes room, or the line owned longest where there is no copy
(log 54). -/
def roomFor (x : Core) (line : Nat) : Core :=
  if (lookup x.l1 line).isSome || x.owned.contains line || decide (x.l1.length + x.owned.length < Config.l1Lines) then x
  else if x.l1.isEmpty then { x with owned := x.owned.dropLast }
  else { x with l1 := x.l1.drop 1 }

/-- The L1's copy of a line is the one given. -/
def putLine (x : Core) (line : Nat) (ln : L1Line) : Core :=
  let x := roomFor x line
  { x with l1 := put x.l1 line ln }

/-- The writes that wait on a core's path to a line: place, key of the page, and bytes. -/
def waitingWrites (path : List PathEntry) (line : Nat) : List (Nat × Nat × List Byte) :=
  path.filterMap fun e => match e with
    | .store _ k kid x => if lineOf k = line then some (k, kid, x) else none
    | .l1atomic _ k kid x _ => if lineOf k = line then some (k, kid, x) else none
    | _ => none

/-- The bytes that a core's waiting writes will give a line: a fill merges the stores issued before it returns (R110). -/
def mergeWaiting (path : List PathEntry) (line : Nat) (b : List Byte) : List Byte :=
  (waitingWrites path line).foldl (fun b e => patch b (e.1 % 128) e.2.2) b

/-- A fill of a core's L1 (R110): the line SHARED, or, from across the seam, the 64-byte half that holds the bytes asked for (R125), beside the other
half where the copy had it already. While a write to the line under another key waits on the core's path, the L1 takes no copy: what the write leaves cannot
be told from the bytes before it (R39). -/
def fillLine (s : State) (c kid k : Nat) : State :=
  let line := lineOf k
  let half := k % 128 / 64
  let far := acrossSeam c k
  let s := (sliceRead s (some c) kid (if far then k / 64 * 64 else line * 128) (if far then 64 else 128)).1
  let x := coreOf s c
  let other := !isHostKey k && (waitingWrites x.path line).any fun e => e.2.1 != kid
  let b := mergeWaiting x.path line (physBytes s (line * 128) 128)
  let ln : L1Line := match lookup x.l1 line with
    | some old =>
      if far && old.kid == kid then
        ⟨patch old.bytes (64 * half) (sliceBytes b (64 * half) 64), old.counted &&& ~~~(0xFF#16 <<< (8 * half)), kid, old.halves ||| (1#2 <<< half)⟩
      else ⟨b, 0, kid, if far then 1#2 <<< half else 3#2⟩
    | none => ⟨b, 0, kid, if far then 1#2 <<< half else 3#2⟩
  setCore s c (if other then { x with l1 := erase x.l1 line } else putLine x line ln)

/-- The writes of elements into the chosen lanes, to be made later (R257): extended to the lane, or as a pair. -/
def elemWrites (ty r : Nat) (mask : Word) (f : Nat → Nat) : List RegWrite :=
  if isWide ty then
    [.v r mask (tab 32 fun i => BitVec.ofNat 32 (f i)), .v (r + 1) mask (tab 32 fun i => BitVec.ofNat 32 (f i / 2 ^ 32))]
  else [.v r mask (tab 32 fun i => BitVec.ofNat 32 (extendElem ty (f i)))]

/-- The register writes of a load whose pieces have all returned. -/
def LoadForm.writes (f : LoadForm) (parts : List LoadPart) : List RegWrite :=
  let value := fun (l : List LoadPart) => natOf (l.flatMap fun p => p.bytes.getD [])
  match f with
  | .scalar d n signed => [.s d (if signed then BitVec.ofInt 64 (signedOf (8 * n) (value parts)) else BitVec.ofNat 64 (value parts % 2 ^ (8 * n)))]
  | .lanes ty d mask => elemWrites ty d mask fun i => value (parts.filter fun p => p.lane == i)
  | .one ty d mask => elemWrites ty d mask fun _ => value parts

/-- A piece of a load has returned: with the last one, the result is known and only its write remains (R290). -/
def Wave.gotPart (w : Wave) (id part : Nat) (b : List Byte) : Wave :=
  match w.loads.find? fun l => l.id == id with
  | none => w
  | some l =>
    let parts := match l.parts[part]? with
      | some p => l.parts.set part { p with bytes := some b }
      | none => l.parts
    if parts.all fun p => p.bytes.isSome then
      { w with
        loads := w.loads.filter fun x => x.id != id
        pending := w.pending.map fun p => if p.id = id then { p with writes := l.form.writes parts, ready := true } else p }
    else { w with loads := w.loads.map fun x => if x.id = id then { x with parts } else x }

/-- A wave's record changed, where the wave is there. -/
def onWaveRec (s : State) (u : Nat) (f : Wave → Wave) : State :=
  match lookup s.waves u with
  | none => s
  | some w => { s with waves := put s.waves u (f w) }

/-- Whether all that a core's path holds for a line are stores through pages of one key, and whether there are any. -/
def storesOnly (path : List PathEntry) (kid line : Nat) : Bool :=
  let here := path.filter fun e => lineOf e.key == line
  !here.isEmpty && here.all fun e => match e with
    | .store _ k x _ => isHostKey k || x == kid
    | _ => false

/-- The core whose waiting stores a load of a core sees before they have performed at their slice (R138, log 8): the one of which it has seen stores to the line
before, or a free choice among those that have sent any there, while the core itself has nothing on its way to the line. -/
def earlyFrom (s : State) (c kid key : Nat) : Option Nat :=
  let x := coreOf s c
  match lookup x.early (lineOf key) with
  | some a => some a
  | none =>
    if x.path.any fun e => lineOf e.key == lineOf key then none
    else ((s.cores.filter fun e => e.1 != c && storesOnly e.2.path kid (lineOf key)).map (·.1))[Config.earlyChoice s.stepNo key]?

/-- A load that sees the stores that another core has sent to its line (R138): it takes its bytes with theirs, and its core keeps no copy of the line. From then
on the core's accesses to the line follow them (R132). -/
def readEarly (s : State) (c a kid key n : Nat) : State × List Byte :=
  let line := lineOf key
  let s := (sliceRead s (some c) kid key n).1
  let x := coreOf s c
  let b := mergeWaiting (coreOf s a).path line (physBytes s (line * 128) 128)
  (setCore s c { x with l1 := erase x.l1 line, early := put x.early line a }, sliceBytes b (key % 128) n)

/-- An entry that has left a core's path performs at its slice (R110, R122): a load, a store, an L1 atomic's result or its discard, or an atomic. -/
def performEntry (s : State) (c : Nat) (e : PathEntry) : State :=
  match e with
  | .load w key kid n id part =>
    match earlyFrom s c kid key with
    | some a =>
      let (s, b) := readEarly s c a kid key n
      onWaveRec s w fun x => x.gotPart id part b
    | none =>
      let s := fillLine s c kid key
      onWaveRec s w fun x => x.gotPart id part (physBytes s key n)
  | .store _ key kid b => sliceWrite s (some c) kid key b
  | .l1atomic _ key kid b lost =>
    if lost then
      let k' := coreOf s c
      setCore s c { k' with l1 := erase k'.l1 (lineOf key) }
    else sliceWrite s (some c) kid key b
  | .atomic w key kid n op ty d cc id dst lane =>
    let (s1, old) := atomicAt (recallOwned s (lineOf key) none) (some c) kid key n op.toNat ty.toNat d.toNat cc.toNat
    let k1 := coreOf s1 c
    let s2 := match lookup k1.l1 (lineOf key) with
      | none => s1
      | some ln => setCore s1 c { k1 with l1 := if ln.holds kid key then put k1.l1 (lineOf key) (refreshWord s1 ln key) else erase k1.l1 (lineOf key) }
    onWaveRec s2 w fun wv =>
      let wv1 := wv.setAtomicDst dst n ty.toNat lane old
      if atomicWaits k1.path id then wv1 else { wv1 with pending := wv1.pending.filter fun p => p.id != id }

/-- The oldest entry of a core's path to a slice performs there. -/
def performWay (s : State) (c way : Nat) : State :=
  let k := coreOf s c
  match takeWay k.path way with
  | none => s
  | some (e, rest) => performEntry (setCore s c { k with path := rest }) c e

/-- The oldest entry of a core's path performs at its slice. -/
def performHead (s : State) (c : Nat) : State :=
  match (coreOf s c).path with
  | [] => s
  | e :: _ => performWay s c e.way

/-- Apply `n` entries of a core's path. -/
def performMany (s : State) (c n : Nat) : State :=
  match n with
  | 0 => s
  | j + 1 => performMany (performHead s c) c j

/-- Apply `n` entries of a core's path to one slice. -/
def performWayMany (s : State) (c way n : Nat) : State :=
  match n with
  | 0 => s
  | j + 1 => performWayMany (performWay s c way) c way j

/-- Apply all that a core has sent to one slice: what comes after it there follows it (R110). -/
def drainWay (s : State) (c way : Nat) : State := performWayMany s c way ((coreOf s c).path.filter fun e => e.way == way).length

/-- The stores of other cores to a line that a core has seen early perform (R132). -/
def settleEarly (s : State) (c line : Nat) : State :=
  match lookup (coreOf s c).early line with
  | none => s
  | some a =>
    let s := drainWay s a (wayOf (line * 128))
    setCore s c { coreOf s c with early := erase (coreOf s c).early line }

/-- Every store that a core has seen early performs. -/
def settleSeen (s : State) (c : Nat) : State := ((coreOf s c).early.map (·.1)).foldl (fun t l => settleEarly t c l) s

/-- Apply all that a core's path holds, and what the core has seen of other cores' stores: what a FENCE of release waits for (R111, R139). -/
def drainPath (s : State) (c : Nat) : State := settleSeen (performMany s c (coreOf s c).path.length) c

/-- Apply what a core has sent to the slices at which results of the given numbers wait. -/
def drainFor (s : State) (c : Nat) (ids : List Nat) : State :=
  (((coreOf s c).path.filter fun e => e.result.any ids.contains).map (·.way)).dedup.foldl (fun t way => drainWay t c way) s

/-- Whether a core's path holds an atomic on a line. -/
def atomicOn (path : List PathEntry) (line : Nat) : Bool :=
  path.any fun e => match e with
    | .atomic _ key .. => lineOf key == line
    | _ => false

/-- Whether a core's path holds a load of a line: its fill is outstanding. -/
def loadOn (path : List PathEntry) (line : Nat) : Bool :=
  path.any fun e => match e with
    | .load _ key .. => lineOf key == line
    | _ => false

/-- While a core has an atomic outstanding at the slice of a line, its next access to the line waits until the atomic has returned: no access of the
core overtakes it (R122, R132). What it has seen of the line early has performed before (R132). -/
def settleLine (s : State) (c line : Nat) : State :=
  let s := settleEarly s c line
  if atomicOn (coreOf s c).path line then drainWay s c (wayOf (line * 128)) else s

/-- The copy of a line in a core's L1 that serves an access at once (R110): none where the line is not there, stands under another key, lacks the half,
or has a fill outstanding, behind which an access must follow (R132). -/
def hitLine (x : Core) (kid k : Nat) : Option L1Line :=
  match lookup x.l1 (lineOf k) with
  | none => none
  | some ln => if ln.holds kid k && !loadOn x.path (lineOf k) then some ln else none

/-- A load of up to 64 bytes through a core's L1 that takes its value at once (R110): hits read the copy; a miss follows what the core has sent to the
slice, then fills the line SHARED. The last component says whether it missed. -/
def coreRead (s : State) (c kid k n : Nat) : State × List Byte × Bool :=
  let core := coreOf s c
  match hitLine core kid k with
  | some ln => (s, sliceBytes ln.bytes (k % 128) n, false)
  | none =>
    if core.owned.contains (lineOf k) then
      let (s, b) := homeRead s (some c) kid k n
      (s, b, false)
    else
      let s := fillLine (drainWay s c (wayOf k)) c kid k
      (s, physBytes s k n, true)

/-- A load of up to 8 bytes through a core's L1 (R110): a hit gives its bytes, and a miss sends the load to the slice, to bring piece `part` of result
`id`. -/
def coreLoad (s : State) (c u kid k n id part : Nat) : State × Option (List Byte) :=
  let core := coreOf s c
  match hitLine core kid k with
  | some ln => (s, some (sliceBytes ln.bytes (k % 128) n))
  | none =>
    if core.owned.contains (lineOf k) then
      let (s, b) := homeRead s (some c) kid k n
      (s, some b)
    else (setCore s c { core with path := core.path ++ [.load u k kid n id part] }, none)

/-- A store through a core's L1 (R110): it updates the copy and enters the path; on an OWNED line it performs in order. A copy that stands under another
key leaves the L1 (R39). -/
def coreWrite (s : State) (c w kid k : Nat) (b : List Byte) : State :=
  let core := coreOf s c
  if core.owned.contains (lineOf k) then homeWrite (drainWay s c (wayOf k)) (some c) kid k b
  else
    let l1 := match lookup core.l1 (lineOf k) with
      | some ln => if isHostKey k || ln.kid == kid then put core.l1 (lineOf k) { ln with bytes := patch ln.bytes (k % 128) b } else erase core.l1 (lineOf k)
      | none => core.l1
    setCore s c { core with l1 := l1, path := core.path ++ [.store w k kid b] }

/-- An SC-page or ordered access performs at the home slice after all that the core has sent there before (R110, R140); it orders nothing else (R141). -/
def orderedWrite (s : State) (c kid k : Nat) (b : List Byte) : State := homeWrite (drainWay s c (wayOf k)) (some c) kid k b
/-- The read of the same. -/
def orderedRead (s : State) (c kid k n : Nat) : State × List Byte := homeRead (drainWay s c (wayOf k)) (some c) kid k n

/-- The copy of a line in a core's L1 is dropped, if there is one. -/
def dropLine (s : State) (c line : Nat) : State :=
  match lookup (coreOf s c).l1 line with
  | none => s
  | some _ => setCore s c { coreOf s c with l1 := erase (coreOf s c).l1 line }

/-- What another unit does for a wave at a place follows what the wave's core has sent there, and the core keeps no copy of the line that the unit may
change (R132). -/
def reachLine (s : State) (c k : Nat) : State := dropLine (drainWay (settleEarly s c (lineOf k)) c (wayOf k)) c (lineOf k)

/-- What an atomic asks for: its wave, pending-result number, destination and lane. -/
structure AtomReq where
  wave : Nat
  id : Nat
  dst : RegName
  lane : Nat
  n : Nat
  op : Nat
  ty : Nat
  d : Nat
  c : Nat

/-- The result of placing an atomic: the state, and the old value when it was performed at once; else it is on the core's path. -/
abbrev AtomOut := State × Option Nat

/-- Put an atomic on a core's path to its slice. -/
def queueAtomic (s : State) (c kid k : Nat) (r : AtomReq) : AtomOut :=
  let core := coreOf s c
  (setCore s c { core with path := core.path ++
    [.atomic r.wave k kid r.n (BitVec.ofNat 4 r.op) (BitVec.ofNat 4 r.ty) (BitVec.ofNat 64 r.d) (BitVec.ofNat 64 r.c) r.id r.dst r.lane] },
    none)

/-- Place and perform an atomic on a cacheable line (R121-R123): `sc` for an SC page, `scope` its scope operand. DESIGN CHOICE (log 67): a core of either
die may hold a line OWNED, not only one of the line's home die. -/
def coreAtomic (s : State) (c kid k : Nat) (sc : Bool) (scope : Nat) (r : AtomReq) : AtomOut :=
  if sc then
    let (s, old) := atomicAt (drainWay s c (wayOf k)) (some c) kid k r.n r.op r.ty r.d r.c
    (s, some old)
  else if isHostKey k then queueAtomic s c kid k r
  else
    let line := lineOf k
    let s := settleLine s c line
    let core := coreOf s c
    let owned := core.owned.contains line
    match (if scope ≤ 1 then hitLine core kid k else none) with
    | some ln =>
      let old := natOf (sliceBytes ln.bytes (k % 128) r.n)
      let (new, wr) := atomOp r.op r.ty old r.d r.c
      if wr then
        let b := bytesOf r.n new
        let lost := ln.counted.getLsbD (k % 128 / 8)
        (setCore s c { core with
          l1 := put core.l1 line { ln with bytes := patch ln.bytes (k % 128) b }
          path := core.path ++ [.l1atomic r.wave k kid b lost] }, some old)
      else (s, some old)
    | none =>
      let quiet := fun (s : State) => (decide (scope ≤ 1) && owned) || decide (predCount s line ≤ 1)
      let s := if quiet s then drainWay s c (wayOf k) else s
      if quiet s then
        let s := recallOwned (seekLine s (homeOf k) line true r.n) line (some c)
        let core := roomFor (coreOf s c) line
        let s := setCore s c { core with
          l1 := erase core.l1 line, owned := if core.owned.contains line then core.owned else line :: core.owned }
        let (s, old) := atomicAt s (some c) kid k r.n r.op r.ty r.d r.c
        (s, some old)
      else queueAtomic s c kid k r

/-- Drop every SHARED line of a core's L1 (R111). -/
def dropShared (s : State) (c : Nat) : State :=
  let k := coreOf s c
  setCore s c { k with l1 := [] }

end Sys2Proof.Machine
end

