-- ==== Sys2Proof/Machine/Translation.lean ====
section
/-! DEFINITION. Sys2Proof/Machine/Translation.lean: virtual addresses, page-table walks, page attributes, private windows, and the reads and
writes that the device makes through a context's tables without posting faults (R22-R48, R445, R446). -/
namespace Sys2Proof.Machine

/-- Why a translation fails (Table 1.7): recoverably (not present, or a write to W = 0), or fatally with a reason code. -/
inductive XFail where
  | recoverable (noWrite : Bool)
  | fatal (reason : Nat)
  deriving DecidableEq, Repr

/-- What an access wants (Table 1.9): 0 read, 1 write, 2 fetch, 3 atomic. -/
abbrev AccKind := Nat

/-- The kinds of the write class (R54). -/
def isWriteKind (k : AccKind) : Bool := k == 1 || k == 3

/-- The level-5 to level-1 shifts and index widths of Table 1.1. -/
def walkLevels : List (Nat × Nat × Nat) := [(5, 48, 7), (4, 39, 9), (3, 30, 9), (2, 21, 9), (1, 16, 5)]

/-- Leaf fields (Table 1.3). -/
def leafBit (l : DWord) (i : Nat) : Bool := l.getLsbD i
/-- LOC of a leaf. -/
def leafLoc (l : DWord) : Nat := bitsAt l.toNat 7 2
/-- HOME of a leaf. -/
def leafHome (l : DWord) : Nat := bitsAt l.toNat 9 1
/-- The physical address of a leaf's frame. -/
def leafFrame (l : DWord) : Nat := bitsAt l.toNat 16 36 * 2 ^ 16
/-- KEY of a leaf. -/
def leafKey (l : DWord) : Nat := bitsAt l.toNat 52 8
/-- W, X, SC, PARCEL, SHADOW and SPHASE of a leaf. -/
def leafW (l : DWord) : Bool := leafBit l 2
def leafX (l : DWord) : Bool := leafBit l 3
def leafSC (l : DWord) : Bool := leafBit l 4
def leafParcel (l : DWord) : Bool := leafBit l 5
def leafShadow (l : DWord) : Bool := leafBit l 6
def leafSphase (l : DWord) : Bool := leafBit l 10

/-- The illegal combinations of Table 1.6. -/
def leafIllegal (l : DWord) : Bool :=
  let loc := leafLoc l
  (leafX l && (leafParcel l || leafShadow l || loc == 2))
  || (leafSC l && (leafShadow l || loc == 2))
  || (leafShadow l && loc != 0)
  || (leafSphase l && !leafShadow l)
  || (leafKey l != 0 && loc != 0)
  || (leafHome l != 0 && loc != 0)

/-- The other ways a leaf of a page of `2^k` bytes is malformed (R29, R33). -/
def leafMalformed (l : DWord) (k : Nat) : Bool :=
  let x := l.toNat
  let loc := leafLoc l
  bitsAt x 11 5 != 0 || bitsAt x 60 4 != 0 || loc == 3
  || leafFrame l % 2 ^ k != 0
  || (loc == 0 && decide (leafFrame l ≥ Config.hbmBytes))
  || (loc == 2 && (decide (bitsAt (leafFrame l) 0 38 ≥ Config.hbmBytes) || bitsAt (leafFrame l) 39 1 != 0))
  || (leafShadow l && bitsAt (leafFrame l) k 1 != 0)

/-- A non-leaf entry above a table of level `next` is malformed (R29). -/
def nodeMalformed (l : DWord) (next : Nat) : Bool :=
  let x := l.toNat
  bitsAt x 3 5 != 0 || bitsAt x 52 12 != 0 || (decide (next ≥ 2) && bitsAt x 8 4 != 0)
  || decide (bitsAt x 8 44 * 256 ≥ Config.hbmBytes)

/-- Whether a die's memory is lost (R36). -/
def isLost (s : State) (die : Nat) : Bool := (dieOf s die).state == .lost

/-- Why a walk is refused at its root (log 64, DESIGN CHOICE): R29 calls an entry malformed that holds an address at or above 192 GiB, and PTBASE is no
entry; the model gives MALFORMED for its BASE too. -/
def baseOutside (base : Nat) : Bool := decide (base ≥ Config.hbmBytes)

/-- The words of the walk: index bits of Table 1.1 applied to each level in turn (R25-R31). The result is the leaf and the page's size. -/
def walkFrom (s : State) (levels : List (Nat × Nat × Nat)) (die base va : Nat) : Except XFail (DWord × Nat) :=
  match levels with
  | [] => .error (.fatal 3)
  | (lv, sh, n) :: rest =>
    if isLost s die then .error (.fatal 11)
    else if baseOutside base then .error (.fatal 3)
    else
      let e : DWord := BitVec.ofNat 64 (natOf (viewBytes s (key0 s) (localKey die (base + 8 * bitsAt va sh n)) 8))
      if !leafBit e 0 then .error (.recoverable false)
      else if leafBit e 1 then
        if lv ≥ 4 || leafMalformed e sh then .error (.fatal 3)
        else if leafIllegal e then .error (.fatal 4)
        else .ok (e, 2 ^ sh)
      else if lv = 1 || nodeMalformed e (lv - 1) then .error (.fatal 3)
      else walkFrom s rest (bitsAt e.toNat 2 1) (bitsAt e.toNat 8 44 * 256) va

/-- The places of the entries that a walk reads, from its root down to where it ends. -/
def walkPlaces (s : State) (levels : List (Nat × Nat × Nat)) (die base va : Nat) : List Nat :=
  match levels with
  | [] => []
  | (_, sh, n) :: rest =>
    if isLost s die || baseOutside base then []
    else
      let k := localKey die (base + 8 * bitsAt va sh n)
      let e : DWord := BitVec.ofNat 64 (natOf (viewBytes s (key0 s) k 8))
      if leafBit e 0 && !leafBit e 1 then k :: walkPlaces s rest (bitsAt e.toNat 2 1) (bitsAt e.toNat 8 44 * 256) va else [k]

/-- A context's record. -/
def ctxOf (s : State) (ctag : Nat) : Context := (lookup s.contexts ctag).getD { }
/-- Replace a context's record. -/
def setCtx (s : State) (ctag : Nat) (c : Context) : State := { s with contexts := put s.contexts ctag c }

/-- A walk from a context's PTBASE (R25, Table 1.5). -/
def walk (s : State) (ctag va : Nat) : Except XFail (DWord × Nat) :=
  let pt := (ctxOf s ctag).ptbase.toNat
  walkFrom s walkLevels (bitsAt pt 0 1) (bitsAt pt 10 42 * 1024) va

/-- A walk's reads of the tables, which are coherent through the L2 (R44): each recalls what an L1 holds OWNED or a proxy slice MODIFIED of the entry's line
(R115, R123). -/
def walkRecalls (s : State) (ctag va : Nat) : State :=
  let pt := (ctxOf s ctag).ptbase.toNat
  (walkPlaces s walkLevels (bitsAt pt 0 1) (bitsAt pt 10 42 * 1024) va).foldl
    (fun s k => recallOwned (seekLine s (homeOf k) (lineOf k) false 8) (lineOf k) none) s

/-- The die of an asker (R44). -/
def Asker.dieNo (a : Asker) : Nat :=
  match a with
  | .core c => c / Config.coresPerDie
  | .die d => d

/-- The entry of one cache for a page (R44). -/
def tlbEntry (s : State) (holder : Asker) (ctag va : Nat) : Option TlbEntry :=
  s.tlb.find? fun e => e.holder == holder && e.ctag == ctag && decide (e.base ≤ va) && decide (va < e.base + e.size)

/-- The cached translation that an asker finds for a page (R44): in its core's own cache, else in its die's. -/
def tlbHit (s : State) (a : Asker) (ctag va : Nat) : Option TlbEntry :=
  match tlbEntry s a ctag va with
  | some e => some e
  | none => tlbEntry s (.die a.dieNo) ctag va

/-- The leaf for a translated-half address: cached, else walked (R44). Where the page has been walked again since it was cached, each access uses the
cached leaf or the one of the tables as they stand, and nothing says which (R48). -/
def leafFor (s : State) (a : Asker) (ctag va : Nat) : Except XFail (DWord × Nat) :=
  match tlbHit s a ctag va with
  | some e => if e.loose && Config.walksAgain s.stepNo va then walk s ctag va else .ok (e.leaf, e.size)
  | none => walk s ctag va

/-- Bits [63:55] equal (R22). -/
def canonical (va : Nat) : Bool := bitsAt va 55 9 == 0 || bitsAt va 55 9 == 511
/-- The private half (R23). -/
def isPrivate (va : Nat) : Bool := bitsAt va 55 9 == 511

/-- Permission and reach of a leaf for an access: fatal conditions first (R38, R36, Table 1.7), then W. A page of the host is out of reach when die 0, its
home, is lost (R114, R118). DESIGN CHOICE (log 64): of two fatal reasons KEY_ABSENT comes before NOEXEC, and NOEXEC before LOST_MEMORY. -/
def checkLeaf (s : State) (leaf : DWord) (kind : AccKind) : Except XFail Nat :=
  let loc := leafLoc leaf
  match keyId s (leafKey leaf) with
  | none => .error (.fatal 6)
  | some kid =>
    if kind = 2 && !leafX leaf then .error (.fatal 5)
    else if (loc = 0 && isLost s (leafHome leaf)) || (loc = 1 && isLost s 0) then .error (.fatal 11)
    else if isWriteKind kind && !leafW leaf then .error (.recoverable true)
    else .ok kid

/-- The place of a translated-half address, given its leaf: the live frame, or the shadow frame for an engine's write (R33, R150). -/
def placeOf (leaf : DWord) (size kid va : Nat) (engineWrite : Bool) : Place :=
  let shadowFrame := leafShadow leaf && (leafSphase leaf != engineWrite)
  let pa := leafFrame leaf + va % size + (if shadowFrame then size else 0)
  match leafLoc leaf with
  | 0 => ⟨0, localKey (leafHome leaf) pa, kid, leaf⟩
  | 1 => ⟨1, hostKey pa, kid, leaf⟩
  | _ => ⟨2, pa, kid, leaf⟩

/-- Translate and check one address of the translated half for a requester. DESIGN CHOICE (log 64): a fetch from the private half fails with
PRIV_ENGINE, as every agent but a lane's access does. -/
def translate (s : State) (a : Asker) (ctag va : Nat) (kind : AccKind) (engineWrite : Bool) : Except XFail Place :=
  if !canonical va then .error (.fatal 1)
  else if isPrivate va then .error (.fatal 9)
  else
    match leafFor s a ctag va with
    | .error e => .error e
    | .ok (leaf, size) =>
      match checkLeaf s leaf kind with
      | .error e => .error e
      | .ok kid => .ok (placeOf leaf size kid va engineWrite)

/-- The group of a wave, its core and its die. -/
def groupOf (s : State) (g : Nat) : Group := (lookup s.groups g).getD { }
/-- Replace a group's record. -/
def setGroup (s : State) (g : Nat) (x : Group) : State := { s with groups := put s.groups g x }
/-- The core of a wave (R167). -/
def coreNo (s : State) (w : Wave) : Nat := (groupOf s w.group).core
/-- The die of a core number (R188). -/
def dieNo (core : Nat) : Nat := core / Config.coresPerDie

/-- A failure with the address that reports it (Table 14.2, Table 1.9). -/
abbrev LaneFail := XFail × DWord

/-- Who asks for a wave's translations: its core (R44). -/
def askerOf (s : State) (w : Wave) : Asker := .core (coreNo s w)

/-- The backing address of a byte of the private window (R42). -/
def privAddr (s : State) (w : Wave) (lane q : Nat) : Nat :=
  let c := ctxOf s w.ctag
  bitsAt c.privbase.toNat 7 57 * 128 + w.pslot * bitsAt c.privcfg.toNat 0 8 * 32768 + (q / 4) * 128 + lane * 4 + q % 4

/-- One piece of a private access (R42): outside the translated half, or on a PARCEL or SHADOW page, PRIV_BACKING; then translation and permission.
DESIGN CHOICE (log 64): PRIV_BACKING of a page comes before every other failure that its leaf could give. -/
def privPiece (s : State) (w : Wave) (kind : AccKind) (b : Nat) : Except LaneFail Place :=
  let at64 : DWord := BitVec.ofNat 64 b
  if b ≥ 2 ^ 55 then .error (.fatal 8, at64)
  else
    match leafFor s (askerOf s w) w.ctag b with
    | .error e => .error (e, at64)
    | .ok (leaf, size) =>
      if leafParcel leaf || leafShadow leaf then .error (.fatal 8, at64)
      else
        match checkLeaf s leaf kind with
        | .error e => .error (e, at64)
        | .ok kid => .ok (placeOf leaf size kid b false)

/-- The translated pieces of an access of `n` bytes at `va` by a lane (R42, R49): one piece, or 4-byte pieces of the private window, one after another;
or why they fail, each piece that does. -/
def lanePlaces (s : State) (w : Wave) (kind : AccKind) (lane va n : Nat) : Except (List LaneFail) (List (Place × Nat)) :=
  let at64 := BitVec.ofNat 64
  if !isPrivate va then
    match translate s (askerOf s w) w.ctag va kind false with
    | .error e => .error [(e, at64 va)]
    | .ok p => .ok [(p, n)]
  else
    let psize := bitsAt (ctxOf s w.ctag).privcfg.toNat 0 8
    let o := va % 2 ^ 55
    if psize = 0 || decide (o + n > psize * 1024) then .error [(.fatal 2, at64 va)]
    else if kind = 3 && decide (n = 8) then .error [(.fatal 12, at64 va)]
    else
      let m := min n 4
      let res := (List.range (n / m)).map fun i => privPiece s w kind (privAddr s w lane (o + m * i))
      let fails := res.filterMap fun r => match r with
        | .error e => some e
        | .ok _ => none
      if fails.isEmpty then
        .ok (res.filterMap fun r => match r with
          | .error _ => none
          | .ok p => some (p, m))
      else .error fails

/-- Cut an extent of virtual addresses at 64 KiB boundaries, the least page (R24). -/
def pageChunks (fuel va n : Nat) : List (Nat × Nat) :=
  match fuel with
  | 0 => []
  | f + 1 =>
    if n = 0 then []
    else
      let m := min n (65536 - va % 65536)
      (va, m) :: pageChunks f (va + m) (n - m)

/-- The chunks of an extent. -/
def chunksOf (va n : Nat) : List (Nat × Nat) := pageChunks (n / 65536 + 2) va n

/-- A read of the device through a context's tables that posts no fault (R445): none when any byte cannot be read. -/
def ctxRead (s : State) (ctag va n : Nat) : Option (List Byte) :=
  (chunksOf va n).foldl (fun acc e =>
    match acc with
    | none => none
    | some l =>
      match translate s (.die 0) ctag e.1 0 false with
      | .error _ => none
      | .ok p =>
        if p.loc = 2 then none
        else some (l ++ ((List.range (e.2 / 128 + 2)).flatMap fun i =>
          let a := if i = 0 then p.key else (lineOf p.key + i) * 128
          let z := min (p.key + e.2) ((lineOf p.key + i + 1) * 128)
          if a < z then viewBytes s p.kid a (z - a) else []))) (some [])

/-- A write of the device through a context's tables that posts no fault (R446): none when any byte cannot be written. -/
def ctxWrite (s : State) (ctag va : Nat) (l : List Byte) (engine : Bool) : Option State :=
  (chunksOf va l.length).foldl (fun acc e =>
    match acc with
    | none => none
    | some t =>
      match translate t (.die 0) ctag e.1 1 engine with
      | .error _ => none
      | .ok p =>
        let b := (l.drop (e.1 - va)).take e.2
        if p.loc = 2 then
          some { t with packets := t.packets ++ [.write 0 (p.key / 2 ^ 40) (bitsAt p.key 38 1) (bitsAt p.key 0 38) b (b.map fun _ => true)] }
        else some (agentWrite t p.kid p.key b)) (some s)

/-- Whether a read through a context's tables meets LOST_MEMORY (R36, R388). -/
def meetsLoss (s : State) (ctag va n : Nat) : Bool :=
  [0, 1].any (fun d => (dieOf s d).state == .lost) && (chunksOf va n).any fun e => match translate s (.die 0) ctag e.1 0 false with
    | .error (.fatal 11) => true
    | _ => false

/-- A record written as R446 states: not at all when it cannot be. -/
def ctxRecord (s : State) (ctag va : Nat) (l : List Byte) : State := (ctxWrite s ctag va l false).getD s

/-- A number read through a context's tables. -/
def ctxNum (s : State) (ctag va n : Nat) : Option Nat := (ctxRead s ctag va n).map natOf

/-- The locality word of an address for a requester (R58, Table 1.10). -/
def localityWord (s : State) (w : Wave) (va : Nat) : DWord :=
  let die := dieNo (coreNo s w)
  let bad : DWord := BitVec.ofNat 64 (2 ^ 34)
  let word := fun (va : Nat) (priv : Nat) =>
    match leafFor s (askerOf s w) w.ctag va with
    | .error (.recoverable _) => 0#64
    | .error (.fatal _) => BitVec.ofNat 64 (2 ^ 34 + 2 * priv)
    | .ok (l, size) =>
      let b := fun (x : Bool) (i : Nat) => if x then 2 ^ i else 0
      let loc := leafLoc l
      let sz := if size = 2 ^ 16 then 0 else if size = 2 ^ 21 then 1 else 2
      BitVec.ofNat 64 (1 + 2 * priv + 4 * loc + b (loc == 0 && leafHome l == 1) 4 + b (loc == 0 && leafHome l == die) 5 + 2 ^ 6 * sz
        + b (leafW l) 8 + b (leafX l) 9 + b (leafSC l) 10 + b (leafParcel l) 11 + b (leafShadow l) 12 + b (leafSphase l) 13
        + 2 ^ 14 * leafKey l + (if loc = 2 then 2 ^ 22 * (leafFrame l / 2 ^ 40) else 0))
  if !canonical va then bad
  else if isPrivate va then
    let psize := bitsAt (ctxOf s w.ctag).privcfg.toNat 0 8
    let o := va % 2 ^ 55
    if psize = 0 || decide (o ≥ psize * 1024) then bad
    else
      let b := privAddr s w 0 o
      if b ≥ 2 ^ 55 then BitVec.ofNat 64 (2 ^ 34 + 2) else word b 1
  else word va 0

end Sys2Proof.Machine
end

