-- ==== Sys2Proof/Machine/Parks.lean ====
section
/-! DEFINITION. Sys2Proof/Machine/Parks.lean: the control thread's next address (R216), what an instruction's completion does to its wave,
event slots (R306-R310), what futures report (R175, R179), and when a parked wave resumes (Table 6.5). -/
namespace Sys2Proof.Machine

/-- The next PC by NX (Table 8.3); LC never wraps below 0. -/
def Wave.next (w : Wave) (nx : BitVec 2) : Wave :=
  match nx.toNat with
  | 0 => { w with pc := w.pc + 4#64 }
  | 1 => { w with pc := if w.c then w.bt else w.pc + 4#64 }
  | 2 =>
    let lc := if w.lc = 0#32 then 0#32 else w.lc - 1#32
    { w with lc := lc, pc := if lc = 0#32 then w.pc + 4#64 else w.lt }
  | _ => { w with pc := w.bt }

/-- The instruction counts as completed (Table 13.5), and a single step in progress has its report (R371). -/
def Wave.complete (w : Wave) (kind : Byte) (val : Nat) : Wave :=
  { w with
    ctr := { w.ctr with instr := w.ctr.instr + 1#64 }
    stepDone := if w.stepArmed then some (kind, val) else w.stepDone
    stepArmed := false
    replay := false
    pair := none }

/-- Completion with NX and the plain step report (R216, Table 14.3). -/
def Wave.finish (w : Wave) (nx : BitVec 2) : Wave := (w.next nx).complete 0#8 0

/-- The guard field of MODE (Table 8.6). -/
def Wave.guard (w : Wave) : Nat := bitsAt w.mode.toNat 0 3
/-- TYPE of MODE. -/
def Wave.ty (w : Wave) : Nat := bitsAt w.mode.toNat 4 4
/-- RND of MODE. -/
def Wave.rnd (w : Wave) : Nat := bitsAt w.mode.toNat 8 2
/-- SAT of MODE. -/
def Wave.sat (w : Wave) : Bool := w.mode.getLsbD 10
/-- FLUSH of MODE. -/
def Wave.flush (w : Wave) : Bool := w.mode.getLsbD 11
/-- The mask of ACTIVE lanes (R169, R224). -/
def Wave.active (w : Wave) : Word := w.preg w.guard &&& w.live

/-- One event slot of a wave. -/
def Wave.slot (w : Wave) (i : Nat) : EvSlot := w.slots.toList.getD i { }
/-- Replace an event slot. -/
def Wave.setSlot (w : Wave) (i : Nat) (e : EvSlot) : Wave := { w with slots := w.slots.setIfInBounds i e }
/-- Bit `i` of an 8-bit register set or cleared. -/
def setBit8 (x : BitVec 8) (i : Nat) (b : Bool) : BitVec 8 := if b then x ||| (1#8 <<< i) else x &&& ~~~(1#8 <<< i)

/-- The slots that are bound and unmasked (R310). -/
def Wave.openSlots (w : Wave) : List Nat := (List.range 8).filter fun i => (w.slot i).bound && !w.evm.getLsbD i
/-- The slots that WAITANY can choose: posted, bound and unmasked (R310). -/
def Wave.posted (w : Wave) : List Nat := w.openSlots.filter fun i => w.pev.getLsbD i

/-- Latch a posting in every bound slot with a property (R306, R308: postings to unbound slots are lost). -/
def Wave.latch (w : Wave) (p : EvSlot → Bool) : Wave :=
  { w with pev := (List.range 8).foldl (fun x i => if (w.slot i).bound && p (w.slot i) then setBit8 x i true else x) w.pev }

/-- WAITANY takes the lowest posted slot (R310): the slot's number goes to s[D] and the PC into the dispatch block. -/
def Wave.takeSlot (w : Wave) (d a : BitVec 6) (k : Nat) : Wave :=
  let base := w.sreg a.toNat &&& ~~~3#64
  ({ w.setS d.toNat (BitVec.ofNat 64 k) with
    pev := setBit8 w.pev k false, pc := base + BitVec.ofNat 64 (16 * k), status := .ready }).complete 4#8 k

/-- The choice of a parked WAITANY (R310): once the nanosecond of the first posting is over, of all that was posted in it the lowest slot is taken. A frozen
group's wave waits for the end of the freeze (R314). -/
def settleChoice (s : State) (now : Nat) (w : Wave) : Wave :=
  match w.status with
  | .parked (.waitany d a (some t)) =>
    if decide (t < now) && !(groupOf s w.group).frozen then
      match w.posted with
      | [] => { w with status := .parked (.waitany d a none) }
      | k :: _ => w.takeSlot d a k
    else w
  | _ => w

/-- The choices that are made before an instant. -/
def settleChoices (s : State) (now : Nat) : State := { s with waves := mapVals s.waves (settleChoice s now) }

/-- Table 2.2's address of a wave's plot: the group and handle under which a handle of a group lives: its own plot, or a cluster-level plot
of the same launch on the same cluster (R78). DESIGN CHOICE (log 65): where a group has come by rotation or restore onto a cluster with a cluster-level plot
under a handle of its own, its own plot is named. -/
def findPlot (s : State) (g h : Nat) : Option (Nat × Plot) :=
  let gr := groupOf s g
  match lookup gr.plots h with
  | some p => some (g, p)
  | none =>
    (s.groups.find? fun e =>
      e.1 != g && e.2.launch == gr.launch && gr.launch != 0 && e.2.core / 4 == gr.core / 4 && (e.2.state == .resident || e.2.state == .ending)
        && (match lookup e.2.plots h with | some p => p.level | none => false)).bind fun e =>
      (lookup e.2.plots h).map fun p => (e.1, p)

/-- Handle fields (Table 6.6). -/
def handleTag (h : DWord) : BitVec 12 := h.extractLsb' 0 12
/-- Slot of a handle. -/
def handleSlot (h : DWord) : Nat := bitsAt h.toNat 12 20
/-- Die of a handle or home word. -/
def handleDie (h : DWord) : Nat := bitsAt h.toNat 32 1
/-- Node of a handle or home word. -/
def handleNode (h : DWord) : Nat := bitsAt h.toNat 33 12
/-- The handle of a slot of this device under a node number. -/
def mkHandle (node die slot : Nat) (tag : BitVec 12) : DWord :=
  BitVec.ofNat 64 (tag.toNat + slot * 2 ^ 12 + die * 2 ^ 32 + node * 2 ^ 33)
/-- The device's own node number; 0xFFF for none (R405). -/
def nodeId (s : State) : Nat := bitsAt s.bar.nodeid.toNat 0 12
/-- Whether a NODE field names this device (R348). -/
def ownNode (s : State) (n : Nat) : Bool := n == 0xFFF || n == nodeId s
/-- The cause of Table 6.8. -/
def brokenCause (kind detail : Nat) : DWord := BitVec.ofNat 64 (kind + 256 * (detail % 256))
/-- Where a slot's line lies in its die's HBM, once FRTBASE is set (R181, R406). -/
def frtPlace (s : State) (die slot : Nat) : Option Nat :=
  let b := if die = 0 then s.bar.frtbase0 else s.bar.frtbase1
  if b.getLsbD 0 then some (localKey die (bitsAt b.toNat 27 11 * 2 ^ 27 + 128 * slot)) else none

/-- The TAG that a slot's line holds under key slot 0, as a FREE slot's does (R181); one that holds none, or has no line, starts at 1 (log 10). -/
def frtLineTag (s : State) (die slot : Nat) : BitVec 12 :=
  match frtPlace s die slot with
  | none => 1#12
  | some k =>
    let t := BitVec.ofNat 12 (natOf (viewBytes s (key0 s) (k + 4) 2))
    if t = 0#12 then 1#12 else t

/-- A slot of a die's FRT; one that has no record is FREE under the TAG of its line. -/
def frtOf (s : State) (die slot : Nat) : FrtSlot :=
  match lookup (dieOf s die).frt slot with
  | some x => x
  | none => { tag := frtLineTag s die slot }

/-- The slot that follows another in a FIFO. -/
def nextIn (fifo : List Nat) (slot : Nat) : Option Nat := (fifo.dropWhile (· != slot))[1]?

/-- The line of a slot (Table 6.8a). DESIGN CHOICE (log 74): FTAIL of an empty FIFO is 0xFFFF_FFFF, as the table says of FHEAD. -/
def frtLine (s : State) (die slot : Nat) : List Byte :=
  let x := frtOf s die slot
  let b := fun (c : Bool) (i : Nat) => if c then 2 ^ i else 0
  let link := fun (n : Option Nat) => bytesOf 4 (n.getD 0xFFFFFFFF)
  let next := (if x.waits then x.target else none).bind fun t => nextIn (frtOf s die t).fifo slot
  bytesOf 2 (x.state.toNat + b x.dropped 2 + b x.started 3 + b x.fwd 4) ++ bytesOf 2 x.ctag ++ bytesOf 4 x.tag.toNat ++ bytesOf 8 x.fifo.length
    ++ bytesOf 8 x.value.toNat ++ bytesOf 8 x.entry.toNat ++ bytesOf 8 x.argp.toNat ++ bytesOf 8 x.val.toNat ++ bytesOf 8 x.region.toNat
    ++ link x.fifo.head? ++ link x.fifo.getLast? ++ link next ++ link x.target ++ zeroBytes 56

/-- A slot's line written to its place (R181), under the SAVEKEY of the context that holds the slot, or under key slot 0 while it is FREE (R180). -/
def writeFrtLine (s : State) (die slot : Nat) : State :=
  let x := frtOf s die slot
  match frtPlace s die slot, keyId s (if x.state = 0#2 then 0 else (ctxOf s x.ctag).savekey.toNat) with
  | some k, some kid => if isLost s die then s else agentWrite s kid k (frtLine s die slot)
  | _, _ => s

/-- Replace an FRT slot: its record, its line, and the lines of the forwards in its FIFO, which hold the links (R181). -/
def setFrt (s : State) (die slot : Nat) (x : FrtSlot) : State :=
  (slot :: x.fifo).foldl (fun t k => writeFrtLine t die k) (setDie s die { dieOf s die with frt := put (dieOf s die).frt slot x })

/-- What a handle reports to a context (R175, R179, R351). -/
def futureState (s : State) (ctag : Nat) (h : DWord) : FutureAnswer :=
  if bitsAt h.toNat 45 19 != 0 || handleTag h == 0#12 then .stale
  else if !ownNode s (handleNode h) then
    if nodeId s = 0xFFF then .stale
    else match s.remotes.find? fun r => r.handle == h with
      | some r => r.ans
      | none => .pending
  else if isLost s (handleDie h) then .broken (brokenCause 5 0)
  else
    let f := frtOf s (handleDie h) (handleSlot h)
    if f.tag != handleTag h || f.ctag != ctag then .stale
    else match f.state.toNat with
      | 0 => .stale
      | 1 => .pending
      | 2 => .complete f.value
      | _ => .broken f.value

/-- Queries for futures of other devices of which nothing is known here yet (R179). -/
def askRemotes (s : State) (w : Wave) (hs : List DWord) : State :=
  let far := (hs.filter fun h => !ownNode s (handleNode h) && futureState s w.ctag h == .pending).dedup
  { s with packets := s.packets ++ far.map Packet.query }

/-- Status and value of Table 13.2. -/
def answerStatus (a : FutureAnswer) : Nat × DWord :=
  match a with
  | .pending => (0, 0)
  | .complete v => (1, v)
  | .broken c => (2, c)
  | .stale => (3, 0)

/-- The report of FGET and FPOLL into D and B (R351): the value first, then the status. -/
def reportFutures (s : State) (w : Wave) (d a b : Nat) : Wave :=
  let m := w.active
  let ans := fun i => answerStatus (futureState s w.ctag (w.pair64 a i))
  let w1 := w.setLanes d m fun i => (ans i).2.extractLsb' 0 32
  let w2 := w1.setLanes (d + 1) m fun i => (ans i).2.extractLsb' 32 32
  w2.setLanes b m fun i => BitVec.ofNat 32 (ans i).1

/-- A field of a barrier object (Table 11.3), as the key of the page through which it is reached shows it (R32). -/
def barField (s : State) (o : BarObj) (off n : Nat) : Nat := natOf (viewBytes s o.kid (o.key + off) n)

/-- Whether a phase is complete (R303). -/
def phaseDone (s : State) (obj : BarObj) (phase : Word) : Bool :=
  decide ((BitVec.ofNat 32 (barField s obj 0 4) - phase - 1#32).toNat < 2 ^ 31)

/-- Whether a plot that a PWAIT names has left FILLING (Table 2.5). -/
def plotSettled (s : State) (g h : Nat) : Bool :=
  match findPlot s g h with
  | none => true
  | some (_, p) => p.state != 1#2

/-- Whether a reported status releases a wait for it as an acquire at system scope (R351): complete, or broken by TASKBRK. -/
def futureAcquires (a : FutureAnswer) : Bool :=
  match a with
  | .complete _ => true
  | .broken c => c.extractLsb' 0 8 == 2#8
  | _ => false

/-- Resume a parked wave whose condition holds, completing its instruction with NX (R217); others are left. The conditions that other
agents decide alone (yokes, partners, grants, faults, GBAR, debug) are completed where those agents act. A frozen group's waves wait for the end
of the freeze (R314). `now` is the instant of what happened: the earlier of an event and the end of a SLEEP decides (R313), and a WAITANY notes the
nanosecond of its first posting (R310). DESIGN CHOICE (log 74): a SLEEP.ev whose event came in a freeze and whose end has passed too when the freeze ends is ended by
time. -/
def recheckAt (s : State) (u now : Nat) : State :=
  match (lookup s.waves u).filter fun w => !(groupOf s w.group).frozen with
  | none => s
  | some w =>
    match w.status with
    | .parked (.waitany d a none) =>
      if w.posted.isEmpty then s else { s with waves := put s.waves u { w with status := .parked (.waitany d a (some now)) } }
    | .parked (.pwait nx h) =>
      if plotSettled s w.group h then { s with waves := put s.waves u ({ w with status := .ready }.finish nx) } else s
    | .parked (.bwait nx obj ph true) =>
      if phaseDone s obj ph then { s with waves := put s.waves u ({ w with status := .ready }.finish nx) } else s
    | .parked (.fget nx d a b) =>
      let ans := (bitsOf w.active).map fun i => futureState s w.ctag (w.pair64 a.toNat i)
      if ans.all (· != .pending) then
        let s := if ans.any futureAcquires then dropShared s (coreNo s w) else s
        { s with waves := put s.waves u ({ reportFutures s w d.toNat a.toNat b.toNat with status := .ready }.finish nx) }
      else s
    | .parked (.sleep nx deadline ev) =>
      let byEv := ev.isSome && !w.posted.isEmpty && decide (now ≤ deadline)
      if byEv || decide (deadline ≤ now) then
        let w1 := match ev with
          | some d => w.setS d.toNat (if byEv then 1#64 else 0#64)
          | none => w
        { s with waves := put s.waves u ({ w1 with status := .ready }.finish nx) }
      else s
    | _ => s

/-- Look again at a parked wave now. -/
def recheck (s : State) (u : Nat) : State := recheckAt s u s.tsc.toNat

/-- Recheck every wave. -/
def recheckAll (s : State) : State := s.waves.foldl (fun t e => recheck t e.1) s

/-- Post to every bound slot with a property, then resume whoever waited (R307, R310); choices of earlier nanoseconds are made first. -/
def post (s : State) (p : Nat → Wave → EvSlot → Bool) : State :=
  let s := settleChoices s s.tsc.toNat
  recheckAll { s with waves := s.waves.map fun e => (e.1, e.2.latch (p e.1 e.2)) }

/-- Whether a wave's group shares a plot: it is the group's own, or cluster-level for its launch and cluster (R79). -/
def sharesPlot (s : State) (g holder h : Nat) : Bool :=
  match findPlot s g h with
  | some (x, _) => x == holder
  | none => false

/-- EVENT(plot-full, handle) (Table 2.4, R79). -/
def postPlotFull (s : State) (holder h : Nat) : State :=
  post s fun _ w e => e.kind == 0#4 && e.src.toNat % 64 == h && sharesPlot s w.group holder h

/-- The future-ready posting of a handle that is no longer PENDING (Table 11.7): an acquire at system scope (Table 5.4). -/
def postFutures (s : State) : State :=
  let due := fun (w : Wave) (e : EvSlot) =>
    e.kind == 3#4 && e.gen == 0#32 && futureState s w.ctag (BitVec.ofNat 64 (e.src.toNat % 2 ^ 45)) != .pending
  let cores := (s.waves.filter fun x => (List.range 8).any fun i => (x.2.slot i).bound && due x.2 (x.2.slot i)).map fun x => coreNo s x.2
  let s := settleChoices ((cores.filter fun c => decide (c < 72)).foldl dropShared s) s.tsc.toNat
  let s := { s with waves := s.waves.map fun x =>
    (x.1, { x.2.latch (due x.2) with slots := tab 8 fun i =>
      let e := x.2.slot i
      (if e.bound && due x.2 e then ({ e with gen := 1#32 } : EvSlot) else e) }) }
  recheckAll s

/-- An event record (R416), to be written no earlier than 10 µs later; past the 1,024 that wait, the newest are dropped (R417). -/
def postEvent (s : State) (source kind : Nat) (data : List Byte) : State :=
  if s.events.length ≥ Config.eventBuffer then
    { s with dropped := min (s.dropped + 1) (2 ^ 32 - 1), dropSource := if s.dropped = 0 then source else s.dropSource }
  else { s with events := s.events ++ [⟨s.tsc.toNat, source, kind, sliceBytes data 0 16⟩] }

end Sys2Proof.Machine
end

