-- ==== Sys2Proof/Machine/Futures.lean ====
section
/-! DEFINITION. Sys2Proof/Machine/Futures.lean: the future resolution table (R175-R181): taking and freeing slots, completion and break with their
propagation along chains (Table 6.7), forwards and drops. -/
namespace Sys2Proof.Machine

/-- The next incarnation of a slot (Table 6.7): TAG + 1, wrapping from 4,095 to 1. -/
def nextTag (t : BitVec 12) : BitVec 12 := if t = 4095#12 then 1#12 else t + 1#12

/-- Append a task message for a die's sheaf former. -/
def sendTask (s : State) (die slot : Nat) : State :=
  setDie s die { dieOf s die with tasks := (dieOf s die).tasks ++ [.task slot] }

/-- Whether a message speaks of the task or the forward of a slot. -/
def Msg.about (m : Msg) (slot : Nat) : Bool :=
  match m with
  | .task k => k == slot
  | .forward _ k => k == slot
  | _ => false

/-- A slot becomes FREE under its next TAG; messages about its task are dropped. -/
def freeSlot (s : State) (die slot : Nat) : State :=
  let f := frtOf s die slot
  let s := setFrt s die slot { tag := nextTag f.tag }
  let d := dieOf s die
  setDie s die { d with tasks := d.tasks.filter fun m => !m.about slot, forwards := d.forwards.filter fun m => !m.about slot }

/-- COMPLETE or BROKEN, DROPPED, and no pending forward: the slot becomes FREE (Table 6.7). -/
def tryFree (s : State) (die slot : Nat) : State :=
  let f := frtOf s die slot
  if (f.state == 2#2 || f.state == 3#2) && f.dropped && f.fifo.isEmpty then freeSlot s die slot else s

/-- A forward starts with VAL := the result of its target and goes to the sheaf former (R177, R178). -/
def startForward (s : State) (die slot : Nat) (val : DWord) : State :=
  let f := frtOf s die slot
  if f.state = 1#2 then sendTask (setFrt s die slot { f with val, waits := false }) die slot else s

/-- The 16 bytes written at RESA when a task record's future ends (R199), as R446 states. -/
def resultBytes (broken : Bool) (value : DWord) : List Byte :=
  if broken then bytesOf 8 0 ++ bytesOf 8 value.toNat else bytesOf 8 value.toNat ++ bytesOf 8 0

/-- What follows the end of a future: the result of a task record is written and the future dropped (R199); a peer is answered. -/
def reportEnd (s : State) (die slot : Nat) : State :=
  let f := frtOf s die slot
  let broken := f.state == 3#2
  let s := match f.peer with
    | none => s
    | some n => { s with packets := s.packets ++ [.future n slot f.tag (if broken then .broken f.value else .complete f.value)] }
  if f.resa = 0#64 then s
  else
    let s := ctxRecord s f.ctag f.resa.toNat (resultBytes broken f.value)
    setFrt s die slot { frtOf s die slot with dropped := true }

/-- A forward that has ended waits no more in its target's FIFO (R177). -/
def leaveFifo (s : State) (die slot : Nat) (target : Option Nat) : State :=
  match target with
  | none => s
  | some t => setFrt s die t { frtOf s die t with fifo := (frtOf s die t).fifo.filter (· != slot) }

/-- One PENDING slot ends (Table 6.7): queued forwards start when it completes; when it breaks they are the answer, to be broken next. -/
def endSlot (s : State) (die slot : Nat) (broken : Bool) (value : DWord) : State × List Nat :=
  let f := frtOf s die slot
  if f.state ≠ 1#2 then (s, [])
  else
    let s := setFrt s die slot { f with state := if broken then 3#2 else 2#2, value, fifo := [], waits := false }
    let s := reportEnd (leaveFifo s die slot (if f.waits then f.target else none)) die slot
    let s := if broken then s else f.fifo.foldl (fun t k => startForward t die k value) s
    (tryFree s die slot, if broken then f.fifo else [])

/-- Break a list of slots with one cause, and every future queued on them in turn (R177). -/
def breakSlots (fuel : Nat) (s : State) (die : Nat) (work : List Nat) (cause : DWord) : State :=
  match fuel, work with
  | 0, _ => s
  | _, [] => s
  | n + 1, k :: rest =>
    let (s, more) := endSlot s die k true cause
    breakSlots n s die (rest ++ more) cause

/-- A break of one slot of a die: each slot of the table can be broken once. -/
def breakSlot (s : State) (die slot : Nat) (cause : DWord) : State :=
  breakSlots ((dieOf s die).frt.length + 1) s die [slot] cause

/-- A task's completion or break at its slot (R177), when the slot still carries that incarnation and the task's own context holds it: for another
context the handle is STALE (R5, R175). -/
def finishSlot (s : State) (die slot : Nat) (tag : BitVec 12) (ctag : Nat) (broken : Bool) (value : DWord) : State :=
  if (frtOf s die slot).tag ≠ tag || (frtOf s die slot).ctag ≠ ctag then s
  else if broken then breakSlot s die slot value
  else (endSlot s die slot false value).1

/-- Send the end of a lane task of a context to its future's home (R173, R354). -/
def sendEnd (s : State) (ctag : Nat) (handle : DWord) (broken : Bool) (value : DWord) : State :=
  let d := handleDie handle
  setDie s d { dieOf s d with ends := (dieOf s d).ends ++ [.finish (handleSlot handle) (handleTag handle) ctag broken value] }

/-- The tasks of a sheaf wave's lanes, broken with one cause; the lanes leave the sheaf (R173, R174). -/
def breakLanes (s : State) (u : Nat) (lanes : Word) (cause : DWord) : State :=
  match lookup s.waves u with
  | none => s
  | some w =>
    match w.sheaf with
    | none => s
    | some sh =>
      let mine := sh.tasks.filter fun e => lanes.getLsbD e.1
      let s := mine.foldl (fun t e => sendEnd t w.ctag e.2.future true cause) s
      { s with waves := put s.waves u { w with sheaf := some { sh with tasks := sh.tasks.filter fun e => !lanes.getLsbD e.1 } } }

/-- A forward at its target's home (R177, R350): queued, started, broken with the target's cause, or ABANDONED when the tag is stale. -/
def arriveForward (s : State) (die : Nat) (target : DWord) (slot : Nat) : State :=
  let f := frtOf s die slot
  if f.state ≠ 1#2 then s
  else
    let t := frtOf s die (handleSlot target)
    if t.tag ≠ handleTag target || t.state = 0#2 || t.ctag ≠ f.ctag then breakSlot s die slot (brokenCause 4 0)
    else match t.state.toNat with
      | 1 => setFrt (setFrt s die slot { f with target := some (handleSlot target), waits := true }) die (handleSlot target) { t with fifo := t.fifo ++ [slot] }
      | 2 => startForward s die slot t.value
      | _ => breakSlot s die slot t.value

/-- A drop at its home (R177, R352): DROPPED := 1 on a slot that is not FREE and carries the handle's incarnation. -/
def arriveDrop (s : State) (handle : DWord) : State :=
  let d := handleDie handle
  let f := frtOf s d (handleSlot handle)
  if f.tag ≠ handleTag handle || f.state = 0#2 then s
  else tryFree (setFrt s d (handleSlot handle) { f with dropped := true }) d (handleSlot handle)

/-- Slots of a die that are FREE and in no pool, in ascending order, at most `n` of them (R176). -/
def freeSlots (fuel : Nat) (s : State) (die k n : Nat) : List Nat :=
  match fuel, n with
  | 0, _ => []
  | _, 0 => []
  | f + 1, m + 1 =>
    if k ≥ Config.frtSlots then []
    else
      let x := frtOf s die k
      if x.state = 0#2 && !x.granted then k :: freeSlots f s die (k + 1) m else freeSlots f s die (k + 1) (m + 1)

/-- The next slots that a home can grant: enough looks to pass every slot in use. -/
def grantable (s : State) (die n : Nat) : List Nat := freeSlots ((dieOf s die).frt.length + n) s die 0 n

/-- A granted slot is taken for a task, or for a forward to the slot `target` (Table 6.7). -/
def takeFrt (s : State) (die slot ctag : Nat) (target : Option Nat) (entry argp region : DWord) : State :=
  let f := frtOf s die slot
  setFrt s die slot { state := 1#2, fwd := target.isSome, ctag, tag := f.tag, entry, argp, region, target }

/-- Every future of a context whose task's region satisfies `p` becomes BROKEN (R164). -/
def breakRegion (s : State) (ctag : Nat) (p : DWord → Bool) (cause : DWord) : State :=
  [0, 1].foldl (fun t die =>
    let hit := (dieOf t die).frt.filterMap fun e =>
      if e.2.state = 1#2 && e.2.ctag = ctag && p e.2.region then some e.1 else none
    breakSlots ((dieOf t die).frt.length + hit.length + 1) t die hit cause) s

/-- Every slot that a context holds becomes FREE (R159). -/
def freeContextSlots (s : State) (ctag : Nat) : State :=
  [0, 1].foldl (fun t die =>
    ((dieOf t die).frt.filter fun e => e.2.state != 0#2 && e.2.ctag == ctag).foldl (fun t e => freeSlot t die e.1) t) s

end Sys2Proof.Machine
end

