-- ==== Sys2Proof/Machine/Plots.lean ====
section
/-! DEFINITION. Sys2Proof/Machine/Plots.lean: plots: shapes and sizes (Table 2.1), contents (R61, R65-R67), the table entry (Table 2.2), the
state machine of Table 2.4 with its events, quotas (R72), errors (R76, R77) and windows (R68, R318, R319). -/
namespace Sys2Proof.Machine

/-- Elements of a narrow format per parcel slot (Table 2.1). -/
def epp (fmt : Nat) : Nat := tilthN fmt

/-- Bytes from one plot row to the next (Table 2.1). -/
def plotStride (fmt cols : Nat) : Nat :=
  if isTilth fmt then cols / epp fmt * 64 else ceilDiv (typeBytes fmt * cols) 64 * 64

/-- Bytes of a plot (Table 2.1). -/
def plotBytes (fmt rows cols : Nat) : Nat := rows * plotStride fmt cols

/-- Bytes of one window row of `cols` columns (R319). -/
def windowRow (fmt cols : Nat) : Nat := if isTilth fmt then cols / epp fmt * 64 else typeBytes fmt * cols

/-- A byte of a plot never written reads zero, but for the format code of a narrow plot's slots (R61). -/
def plotByte (p : Plot) (a : Nat) : Byte :=
  match cellGet p.data a with
  | some b => b
  | none => if isTilth p.fmt.toNat && a % 64 == 0 then BitVec.ofNat 8 (tilthCode p.fmt.toNat) else 0#8

/-- `n` bytes of a plot from byte `a`. -/
def plotSlice (p : Plot) (a n : Nat) : List Byte := (List.range n).map fun i => plotByte p (a + i)

/-- Bytes written into a plot. -/
def plotPut (p : Plot) (a : Nat) (l : List Byte) : Plot :=
  { p with data := (l.zip (List.range l.length)).foldl (fun d e => cellPut d (a + e.2) e.1) p.data }

/-- The place of byte `b` of window row `r` in a plot (R319): the columns start at `col0`. -/
def windowByte (p : Plot) (row0 col0 r b : Nat) : Nat :=
  (row0 + r) * plotStride p.fmt.toNat p.cols + windowRow p.fmt.toNat col0 + b

/-- A window's rows as bytes, row after row (R319). -/
def windowBytes (p : Plot) (row0 col0 rows cols : Nat) : List Byte :=
  (List.range rows).flatMap fun r => plotSlice p (windowByte p row0 col0 r 0) (windowRow p.fmt.toNat cols)

/-- A reference pair (Table 12.2). -/
structure PlotRef where
  row0 : Nat
  col0 : Nat
  handle : Nat
  nrows : Nat
  ncols : Nat
  deriving DecidableEq, Repr

/-- The reference in two words (Table 12.2). -/
def plotRef (r0 r1 : DWord) : PlotRef :=
  ⟨bitsAt r0.toNat 0 16, bitsAt r0.toNat 16 16, bitsAt r0.toNat 32 32, bitsAt r1.toNat 0 32, bitsAt r1.toNat 32 32⟩

/-- A plot trap: cause (5 PLOT_BOUNDS, 6 PLOT_STATE, 7 PARCEL_FORMAT) and reason (Table 2.3). -/
abbrev PlotTrap := Nat × Nat

/-- The bounds of a window (R68): one of no rows or no columns passes. -/
def checkBounds (p : Plot) (r : PlotRef) : Except PlotTrap Unit :=
  if r.nrows = 0 || r.ncols = 0 then .ok ()
  else if r.row0 + r.nrows > p.rows || r.col0 + r.ncols > p.cols then .error (5, 1)
  else if isTilth p.fmt.toNat && (r.col0 % epp p.fmt.toNat != 0 || r.ncols % epp p.fmt.toNat != 0) then .error (5, 2)
  else .ok ()

/-- The plot that a handle operand names for a group (R59): none names no plot. -/
def plotFor (s : State) (g h : Nat) : Except PlotTrap (Nat × Plot) :=
  if h > 63 then .error (6, 1)
  else match findPlot s g h with
    | none => .error (6, 2)
    | some e => .ok e

/-- The state rule for a read (Table 2.5) with the errors of R71. -/
def checkRead (p : Plot) : Except PlotTrap Unit :=
  if p.state = 1#2 || p.state = 3#2 then .error (6, 5)
  else if p.err = 1#2 then .error (7, 1)
  else if p.err = 2#2 then .error (6, 7)
  else .ok ()

/-- The state rule for a copy into a plot (Table 2.5). -/
def checkCopyIn (p : Plot) : Except PlotTrap Unit :=
  if p.state = 1#2 || (p.state = 3#2 && p.armpend) then .ok () else .error (6, 5)

/-- The quota rule (R72) for `n` bytes. -/
def checkQuota (p : Plot) (n : Nat) : Except PlotTrap Unit :=
  if p.issued + n > (if p.state = 3#2 then p.pendq else p.quota) then .error (6, 6) else .ok ()

/-- Store a plot back. -/
def setPlot (s : State) (g h : Nat) (p : Plot) : State :=
  let gr := groupOf s g
  setGroup s g { gr with plots := put gr.plots h p }

/-- Whether a transfer is still to deliver into a plot. -/
def copyInFlight (s : State) (g h : Nat) : Bool :=
  s.transfers.any fun e => match e.2.op with
    | .cpy | .cpyt | .cpyim | .cpym => e.2.plots.contains (g, h)
    | _ => false

/-- The accesses that hold a DRAINING plot: those accepted before it drained (R70), and the copies still in flight into a plot that
carried an error (R77). -/
def drainHeld (p : Plot) : Bool := !p.access.isEmpty

/-- End of a drain when no access in flight remains (Table 2.4): FREE, FILLING, or FULL with the held failure. -/
def drainEnd (s : State) (g h : Nat) : State :=
  match lookup (groupOf s g).plots h with
  | none => s
  | some p =>
    if p.state = 3#2 && !drainHeld p then
      if !p.armpend then setPlot s g h { p with state := 0#2 }
      else if p.armErr ≠ 0#2 then
        postPlotFull (setPlot s g h { p with state := 2#2, quota := p.pendq, arrived := 0, err := p.armErr, armpend := false, armErr := 0#2 }) g h
      else if p.pendq = 0 then
        postPlotFull (setPlot s g h { p with state := 2#2, quota := 0, arrived := 0, err := 0#2, armpend := false }) g h
      else recheckAll (setPlot s g h { p with state := 1#2, quota := p.pendq, arrived := 0, err := 0#2, armpend := false })
    else s

/-- Record an access in flight (R70). -/
def addAccess (s : State) (g h : Nat) (a : Access) : State :=
  match lookup (groupOf s g).plots h with
  | none => s
  | some p => setPlot s g h { p with access := p.access ++ [a] }

/-- End an access in flight; the last one completes a drain (R70), and granules kept for it are returned (R62). -/
def endAccess (s : State) (g h : Nat) (a : Access) : State :=
  let gr := groupOf s g
  let s := setGroup s g { gr with zombies := (gr.zombies.map fun z => { z with access := z.access.erase a }).filter fun z => !z.access.isEmpty }
  match lookup (groupOf s g).plots h with
  | none => s
  | some p => drainEnd (setPlot s g h { p with access := p.access.erase a }) g h

/-- An accepted read, with or without release (Table 2.5): FULL goes to DRAINING, and the access is in flight. -/
def acceptRead (s : State) (g h : Nat) (rel : Bool) (a : Access) : State :=
  match lookup (groupOf s g).plots h with
  | none => s
  | some p => setPlot s g h { p with state := if rel && p.state = 2#2 then 3#2 else p.state, access := p.access ++ [a] }

/-- Credit an accepted write (R72). -/
def creditPlot (s : State) (g h n : Nat) : State :=
  match lookup (groupOf s g).plots h with
  | none => s
  | some p => setPlot s g h { p with issued := p.issued + n }

/-- A delivery of `n` credited bytes: ARRIVED grows and the quota can seal the plot (Table 2.4, R73). -/
def deliver (s : State) (g h n : Nat) : State :=
  match lookup (groupOf s g).plots h with
  | none => s
  | some p =>
    if p.state ≠ 1#2 then s
    else
      let p := { p with arrived := p.arrived + n }
      if p.arrived = p.quota then postPlotFull (setPlot s g h { p with state := 2#2 }) g h else setPlot s g h p

/-- A failed delivery (R76): the plot enters FULL with ERR, or the failure is held with the pending arm. -/
def failPlot (s : State) (g h : Nat) (code : BitVec 2) : State :=
  match lookup (groupOf s g).plots h with
  | none => s
  | some p =>
    if p.state = 1#2 then postPlotFull (setPlot s g h { p with state := 2#2, err := if p.err = 0#2 then code else p.err }) g h
    else if p.state = 3#2 && p.armpend then setPlot s g h { p with armErr := if p.armErr = 0#2 then code else p.armErr }
    else s

/-- PARM with quota `q` (Table 2.4, R77): into FILLING, FULL or DRAINING with the arm pending. -/
def armPlot (s : State) (g h q : Nat) (p : Plot) : State :=
  if p.state = 0#2 then
    let p := { p with quota := q, issued := 0, arrived := 0, err := 0#2 }
    if q = 0 then postPlotFull (setPlot s g h { p with state := 2#2 }) g h
    else recheckAll (setPlot s g h { p with state := 1#2 })
  else
    let late := if p.state = 2#2 && p.err ≠ 0#2 then
        s.transfers.filterMap fun e => match e.2.op with
          | .cpy | .cpyt | .cpyim | .cpym => if e.2.plots.contains (g, h) then some (Access.xfer e.1) else none
          | _ => none
      else []
    let s := setPlot s g h { p with
      state := 3#2, armpend := true, pendq := q, issued := 0, armErr := 0#2
      access := p.access ++ late.filter fun a => !p.access.contains a }
    drainEnd s g h

/-- Whether granules `[b, b + n)` are free in a group's region (R61). -/
def runFree (gr : Group) (b n : Nat) : Bool :=
  gr.plots.all fun e => decide (b + n ≤ e.2.base) || decide (e.2.base + e.2.ngran ≤ b)

/-- First fit (R61): the lowest run of `n` granules of a region of `total`. -/
def firstFit (gr : Group) (n : Nat) : Option Nat :=
  (List.range (gr.pngran + 1 - n)).find? fun b => decide (b + n ≤ gr.pngran) && runFree gr b n

/-- Whether a run is still being read by the accesses of a freed plot (R62). -/
def runHeld (gr : Group) (b n : Nat) : Bool :=
  gr.zombies.any fun z => !(decide (b + n ≤ z.base) || decide (z.base + z.ngran ≤ b))

/-- A newly allocated plot (R61, Table 2.4). -/
def newPlot (level : Bool) (fmt rows cols base ngran : Nat) : Plot :=
  { level, state := 0#2, err := 0#2, fmt := BitVec.ofNat 4 fmt, rows, cols, base, quota := 0, issued := 0, arrived := 0, ngran, armpend := false,
    pendq := 0, armErr := 0#2, data := [], access := [] }

/-- The 256 bits of a plot's table entry (Table 2.2) as seen from its group. DESIGN CHOICE (log 65): once the allocating group of a cluster-level plot has
left its group slot, GSLOT reads 0. -/
def tableEntry (gr : Group) (h : Nat) (p : Plot) : Nat :=
  1 + (if p.level then 2 else 0) + gr.gslot % 4 * 2 ^ 2 + h * 2 ^ 4 + (if p.level then gr.core % 4 else 0) * 2 ^ 10 + p.state.toNat * 2 ^ 12
    + p.err.toNat * 2 ^ 14 + p.fmt.toNat * 2 ^ 16 + (p.rows - 1) * 2 ^ 20 + (p.cols - 1) * 2 ^ 36 + p.base * 2 ^ 52 + p.quota * 2 ^ 64
    + p.issued % 2 ^ 32 * 2 ^ 96 + p.arrived % 2 ^ 32 * 2 ^ 128 + p.ngran * 2 ^ 160 + (if p.armpend then 2 ^ 170 else 0) + p.pendq * 2 ^ 192

/-- PSTATE's word (R322). -/
def plotStateWord (p : Plot) : Nat :=
  p.state.toNat + 4 + 8 * p.err.toNat + (if p.armpend then 32 else 0) + (if p.level then 64 else 0)

/-- No plot: a transfer's target of that handle has been freed. -/
def noPlot : Nat := 64

/-- Whether a transfer delivers into plots. -/
def XferOp.intoPlot (o : XferOp) : Bool :=
  match o with
  | .cpy => true
  | .cpyt => true
  | .cpyim => true
  | .cpym => true
  | _ => false

/-- PFREE (R62): the handle is unallocated at once; granules still being read are kept until those reads end, and copies still in flight into
the plot have it no longer. -/
def freePlot (s : State) (g h : Nat) : State :=
  let gr := groupOf s g
  match lookup gr.plots h with
  | none => s
  | some p =>
    let s := { s with transfers := mapVals s.transfers fun t =>
      if t.op.intoPlot then { t with plots := t.plots.map fun q => if q = (g, h) then (g, noPlot) else q } else t }
    recheckAll (setGroup s g { gr with
      plots := erase gr.plots h
      zombies := if p.access.isEmpty then gr.zombies else gr.zombies ++ [⟨p.base, p.ngran, p.access⟩] })

/-- An element of a plot as an exact value for the matrix array (R104): Tilth, bf16, f16 or f32. -/
def elemOf (fmt : Nat) (row : List Byte) (col : Nat) : FVal :=
  if isTilth fmt then tilthElem fmt (sliceBytes row (col / epp fmt * 64) 64) (col % epp fmt)
  else decodeF (fmtOf fmt) (fieldOf row (col * typeBytes fmt) (typeBytes fmt))

end Sys2Proof.Machine
end

