-- ==== Sys2Proof/Machine/Faults.lean ====
section
/-! DEFINITION. Sys2Proof/Machine/Faults.lean: what a failed check answers, recoverable faults, their coalescing and the host fault queue
(R49-R57), and barrier objects (R298-R305). -/
namespace Sys2Proof.Machine

/-- A trap to be raised: cause (Table 14.2), reason and argument of TINFO, and the lanes that failed, where the failure names lanes. -/
structure Trap where
  cause : Nat
  reason : Nat
  arg : Nat
  lanes : Word := 0
  deriving DecidableEq, Repr

/-- A recoverable failure: address, access kind, whether the page was there but not writable (Table 1.9), and the lanes that an instruction of
R174 names. -/
structure Recov where
  va : DWord
  kind : AccKind
  nw : Bool
  lanes : Word := 0
  deriving DecidableEq, Repr

/-- KIND of a fault record (Table 1.9). -/
def Recov.kindByte (f : Recov) : Byte := BitVec.ofNat 8 (f.kind + (if f.nw then 4 else 0))

/-- Why an instruction's checks stop it: a trap, a park on recoverable faults (R49), or a wait at issue (R170). -/
inductive Stop where
  | trap (t : Trap)
  | park (f : List Recov)
  | wait
  deriving DecidableEq, Repr

/-- The result of an instruction's checks. -/
abbrev Check (α : Type) := Except Stop α

/-- Bits [55:0] of an address (R367). -/
def argAddr (va : Nat) : Nat := va % 2 ^ 56

/-- PAGE_FAULT_FATAL (Table 1.7, Table 14.2). -/
def fatalTrap (reason va : Nat) : Trap := ⟨9, reason, argAddr va, 0#32⟩
/-- MISALIGN (Table 14.2). -/
def misalign (va : Nat) : Stop := .trap ⟨11, 0, argAddr va, 0#32⟩
/-- PROTECTION with a reason of Tables 11.4 and 13.3. -/
def protection (reason arg : Nat) : Stop := .trap ⟨10, reason, arg, 0#32⟩
/-- A plot trap naming its handle (Table 14.2). DESIGN CHOICE (log 65): a handle above 63, which does not fit its field of 6 bits, is named modulo 64. -/
def plotStop (h : Nat) (t : PlotTrap) : Stop := .trap ⟨t.1, t.2, h % 64, 0#32⟩

/-- The mask of lanes in a list. -/
def laneMask (l : List Nat) : Word := maskOf fun i => l.contains i

/-- Alignment of every lane's access (R253, R288): MISALIGN names the lowest failing lane. -/
def checkAligned (l : List LaneAcc) : Check Unit :=
  match l.filter fun a => a.va % a.n != 0 with
  | [] => .ok ()
  | a :: rest => .error (.trap ⟨11, 0, argAddr a.va, laneMask ((a :: rest).map (·.lane))⟩)

/-- Where one access of an instruction goes: where it went when the instruction sent its requests to peers, so that its local part uses the same translation
(R48), else by its translation now. -/
def placesOf (s : State) (w : Wave) (kind : AccKind) (a : LaneAcc) : Except (List LaneFail) (List (Place × Nat)) :=
  match w.placed.find? fun e => e.1 == a with
  | some e => .ok e.2
  | none => lanePlaces s w kind a.lane a.va a.n

/-- Translation and permission of every lane before any performs (R49): a fatal failure traps for the lowest lane, else recoverable ones
park. The failing lanes are kept for R174. -/
def checkLanes (s : State) (w : Wave) (kind : AccKind) (l : List LaneAcc) : Check (List (LaneAcc × List (Place × Nat))) :=
  let res := l.map fun a => (a, placesOf s w kind a)
  let fails := res.flatMap fun e => match e.2 with
    | .error fs => fs.map fun f => (e.1.lane, f)
    | .ok _ => []
  let fatal := fails.filterMap fun e => match e.2 with
    | (.fatal r, va) => some (e.1, r, va)
    | _ => none
  match fatal with
  | (ln, r, va) :: rest => .error (.trap ⟨9, r, argAddr va.toNat, laneMask (ln :: rest.map (·.1))⟩)
  | [] =>
    if fails.isEmpty then
      .ok (res.filterMap fun e => match e.2 with
        | .ok p => some (e.1, p)
        | .error _ => none)
    else
      .error (.park (fails.filterMap fun e => match e.2 with
        | (.recoverable nw, va) => some { va, kind, nw, lanes := laneMask [e.1] }
        | _ => none))

/-- A plain extent read or written by one instruction for the wave (a record, a range): each 64 KiB chunk checked as lane 0 (R24, R49). -/
def checkExtent (s : State) (w : Wave) (kind : AccKind) (va n : Nat) : Check (List (LaneAcc × List (Place × Nat))) :=
  checkLanes s w kind ((chunksOf va n).map fun e => ⟨0, e.1, e.2⟩)

/-- The record of a coalescing key (R54). -/
def findKey (s : State) (ctag page : Nat) (wr : Bool) : Option FaultRec :=
  s.faults.find? fun f => f.ctag == ctag && f.page == page && f.wr == wr

/-- Register values of a fault queue register pair (Table 1.8): base, log2 of the records, enabled. -/
def ringBase (base : DWord) : Nat := hostKey (bitsAt base.toNat 12 40 * 4096)
/-- LOG2N of a queue's configuration. -/
def ringLog (cfg : DWord) : Nat := bitsAt cfg.toNat 0 5
/-- EN of a queue's configuration. -/
def ringOn (cfg : DWord) : Bool := cfg.getLsbD 8

/-- A 4-byte word of host memory. -/
def hostWord (s : State) (k : Nat) : Nat := natOf (physBytes s k 4)

/-- Fault records (Table 1.9). -/
def faultBytes (s : State) (f : FaultRec) : List Byte :=
  let c := ctxOf s f.ctag
  bytesOf 8 f.va.toNat ++ bytesOf 2 (c.ctx.getD 0) ++ [f.kind, f.src] ++ bytesOf 4 f.token ++ bytesOf 8 s.tsc.toNat
    ++ bytesOf 4 (f.waves.length + f.xfers.length + f.queues.length + f.entries.length + (if f.save then 1 else 0)) ++ bytesOf 4 0

/-- Post one waiting record if the queue can take it (R52, R55): the record in full, then TAIL. DESIGN CHOICE (log 73): TAIL counts on from the word that stands at
FQBASE, for which R52 gives no first value. -/
def postFault (s : State) (token : Nat) : State :=
  match s.faults.find? fun f => f.token == token && f.posted.isNone with
  | none => s
  | some f =>
    let lg := ringLog s.bar.fqcfg
    if !ringOn s.bar.fqcfg || lg < 4 || lg > 20 then s
    else
      let b := ringBase s.bar.fqbase
      let tail := hostWord s b
      let head := hostWord s (b + 64)
      let slot := tail % 2 ^ lg
      if (tail + 2 ^ 32 - head) % 2 ^ 32 < 2 ^ lg && s.faults.all (fun g => g.posted != some slot) then
        let s1 := agentWrite s 0 (b + 128 + 32 * slot) (faultBytes s f)
        let s2 := agentWrite s1 0 b (bytesOf 4 ((tail + 1) % 2 ^ 32))
        { s2 with faults := s2.faults.map fun g => if g.token = token then { g with posted := some slot } else g }
      else s

/-- The die on which a record's fault was found (SRC, Table 1.9). -/
def FaultRec.die (f : FaultRec) : Nat := f.src.toNat % 2

/-- Whether a die's key table has an entry for a record (R54): it holds the die's oldest records, as many as it has room for, and who waits on a younger one
waits for an entry to free. -/
def keyTracked (s : State) (f : FaultRec) : Bool := decide (((s.faults.filter fun g => g.die == f.die).findIdx (·.token == f.token)) < s.faultRoom)

/-- Post every record that waits and has an entry of its die's key table, oldest first (R52, R54). -/
def postFaults (s : State) : State := (s.faults.filter fun f => f.posted.isNone && keyTracked s f).foldl (fun t f => postFault t f.token) s

/-- Who waits on a recoverable fault: a wave, a transfer, a queue of a context, a fired dependence entry, or the write of its save image. -/
inductive Waiter where
  | wave (u : Nat)
  | xfer (x : Nat)
  | queue (qt : Bool) (q : Nat)
  | entry (i : Nat)
  | save
  deriving DecidableEq, Repr

/-- Add a waiter to a record. -/
def FaultRec.join (f : FaultRec) (w : Waiter) : FaultRec :=
  match w with
  | .wave u => { f with waves := if f.waves.contains u then f.waves else f.waves ++ [u] }
  | .xfer x => { f with xfers := f.xfers ++ [x] }
  | .queue t q => { f with queues := f.queues ++ [(t, q)] }
  | .entry i => { f with entries := f.entries ++ [i] }
  | .save => { f with save := true }

/-- Raise one recoverable fault for a waiter (R49, R51, R54): it joins the record of its key or starts one. The token is the answer. -/
def raiseFault (s : State) (ctag die : Nat) (who : Waiter) (f : Recov) : State × Nat :=
  let page := f.va.toNat / 65536
  let wr := isWriteKind f.kind
  match findKey s ctag page wr with
  | some r => ({ s with faults := s.faults.map fun g => if g.token = r.token then g.join who else g }, r.token)
  | none =>
    let engine := match who with
      | .wave _ => 0
      | _ => 2
    let r : FaultRec := ⟨s.uid, ctag, page, wr, f.va, f.kindByte, BitVec.ofNat 8 (die % 2 + engine), none, [], [], [], [], false⟩
    ({ s with uid := s.uid + 1, faults := s.faults ++ [r.join who] }, s.uid)

/-- Write a field of a barrier object by its unit (R298), under the key of the page through which it is reached (R32). -/
def barPut (s : State) (o : BarObj) (off n v : Nat) : State := sliceWrite s none o.kid (o.key + off) (bytesOf n v)

/-- COMPLETE when ARRIVED > 0 and ARRIVED ≥ EXPECT + ASYNC (R301): the next phase, waiters resumed, bound slots posted. -/
def barCheck (s : State) (o : BarObj) : State :=
  let arrived := barField s o 4 4
  if decide (arrived > 0) && decide (arrived ≥ barField s o 8 4 + barField s o 16 4) then
    let s := barPut s o 0 4 ((barField s o 0 4 + 1) % 2 ^ 32)
    let s := barPut s o 4 4 0
    let s := barPut s o 16 4 0
    post s fun _ _ e => e.kind == 1#4 && e.obj == o.key
  else s

/-- An arrival of `n` (R301). -/
def barArrive (s : State) (o : BarObj) (n : Nat) : State :=
  barCheck (barPut s o 4 4 ((barField s o 4 4 + n) % 2 ^ 32)) o

/-- A counted copy registers in the current phase (R302). -/
def barRegister (s : State) (o : BarObj) : State := barPut s o 16 4 ((barField s o 16 4 + 1) % 2 ^ 32)

/-- Apply one operation of a barrier unit's queue: (object, 0 arrive or 1 register, count, result's wave and pending number). The wave that arrived reads no
older copy of the object's line (R132). -/
def barApply (s : State) (e : BarObj × Nat × Nat × Option (Nat × Nat)) : State :=
  let (o, op, n, dst) := e
  let gen := barField s o 0 4
  let s := if op = 0 then barArrive s o n else barRegister s o
  match dst with
  | none => s
  | some (u, id) =>
    match lookup s.waves u with
    | none => s
    | some w =>
      let w1 := (w.pending.filter fun p => p.id == id).foldl (fun w p => p.regs.foldl (fun w r => match r with
        | .s d => w.setS d (BitVec.ofNat 64 gen)
        | _ => w) w) w
      dropLine { s with waves := put s.waves u { w1 with pending := w1.pending.filter fun p => p.id != id } } (coreNo s w) (lineOf o.key)

/-- Apply the oldest operation at a die's barrier unit (R298). -/
def barStep (s : State) (die : Nat) : State :=
  match (dieOf s die).barrierQ with
  | [] => s
  | e :: rest => barApply (setDie s die { dieOf s die with barrierQ := rest }) e

/-- Apply `n` operations of a barrier unit. -/
def barSteps (s : State) (die n : Nat) : State :=
  match n with
  | 0 => s
  | j + 1 => barSteps (barStep s die) die j

/-- Apply all that waits at the unit of an object, so that a later operation follows it (R298: in order of arrival). -/
def barFlush (s : State) (key : Nat) : State := barSteps s (homeOf key) (dieOf s (homeOf key)).barrierQ.length

/-- A core's operation at the unit of an object that is performed in the step: after what waits at the unit (R298) and after what the core has sent to the
object itself (R132). -/
def barOrder (s : State) (c key : Nat) : State := barFlush (reachLine s c key) key

/-- Send an operation to the unit of an object's home die. -/
def barSend (s : State) (o : BarObj) (op n : Nat) (dst : Option (Nat × Nat)) : State :=
  let d := homeOf o.key
  setDie s d { dieOf s d with barrierQ := (dieOf s d).barrierQ ++ [(o, op, n, dst)] }

/-- Write results to a wave's registers. -/
def applyWrites (w : Wave) (l : List RegWrite) : Wave :=
  l.foldl (fun w r => match r with
    | .s n x => w.setS n x
    | .v n m x => w.setLanes n m fun i => x.toList.getD i 0#32) w

/-- What a wave's outstanding results still need is performed: loads and atomics on its core's paths, then arrivals that wait at barrier units. -/
def completeResults (s : State) (u : Nat) (p : Pending → Bool) : State :=
  let late := fun (t : State) => match lookup t.waves u with
    | some w => w.pending.any fun e => p e && !e.ready
    | none => false
  if !late s then s
  else
    let s := match lookup s.waves u with
      | some w => drainFor s (coreNo s w) ((w.pending.filter fun e => p e && !e.ready).map (·.id))
      | none => s
    if !late s then s else barSteps (barSteps s 0 (dieOf s 0).barrierQ.length) 1 (dieOf s 1).barrierQ.length

/-- Whether a wave has a result outstanding. -/
def outstanding (s : State) (u : Nat) : Bool := (lookup s.waves u).any fun w => !w.pending.isEmpty

/-- Settle all that a wave has outstanding (R221): every result is written and every window closes. A result that a yoke's runs still owe (R87) cannot
be waited for in the step, and leaves all as it was: the wave goes on waiting. -/
def settleWave (s : State) (u : Nat) : State :=
  let s := completeResults s u fun _ => true
  match lookup s.waves u with
  | none => s
  | some w =>
    if (w.pending.isEmpty && w.windows.isEmpty) || w.pending.any (fun p => !p.ready) then s
    else { s with waves := put s.waves u { w.pending.foldl (fun w p => applyWrites w p.writes) w with pending := [], windows := [] } }

/-- Whether a wave is parked on faults of the fetch of its instruction (Table 1.9). -/
def Park.atFetch (p : Park) : Bool :=
  match p with
  | .fault _ _ _ kind => kind == 2#8
  | _ => false

/-- Park a wave at its instruction (R217): outstanding results are written and windows close (R221); until they are, it waits. The next
instruction whose fetch has failed can still be the second of a READSR pair (R246). -/
def parkWave (s : State) (u : Nat) (p : Park) : State :=
  let s := settleWave s u
  match lookup s.waves u with
  | none => s
  | some w => if outstanding s u then s else { s with waves := put s.waves u { w with status := .parked p, pair := if p.atFetch then w.pair else none } }

/-- Note a failure's record among those that a wave waits on: lanes of one record join, and the first address stands. -/
def noteFault (l : List (Nat × Word × DWord)) (token : Nat) (f : Recov) : List (Nat × Word × DWord) :=
  if l.any fun e => e.1 == token then l.map fun e => if e.1 = token then (e.1, e.2.1 ||| f.lanes, e.2.2) else e
  else l ++ [(token, f.lanes, f.va)]

/-- Park a wave on its recoverable faults, one record for each distinct key (R49, R56). -/
def parkFaults (s : State) (u : Nat) (fs : List Recov) : State :=
  match lookup s.waves u, fs with
  | some w, f :: _ =>
    let (s, waits) := fs.foldl (fun acc f =>
      let (t, k) := raiseFault acc.1 w.ctag (dieNo (coreNo s w)) (.wave u) f
      (t, noteFault acc.2 k f)) (s, ([] : List (Nat × Word × DWord)))
    postFaults (parkWave s u (.fault waits [] f.va f.kindByte))
  | _, _ => s

/-- The checks of R299, in order: 64-byte alignment, translation as a write, the page rule of R298, BSTATE as it is after what the wave's core has sent to
the object (R132). The answer is the object's place. -/
def checkBarrier (s : State) (w : Wave) (va : Nat) (live : Bool) : Check Place :=
  if va % 64 != 0 then .error (misalign va)
  else
    match checkLanes s w 1 [⟨0, va, 4⟩] with
    | .error e => .error e
    | .ok l =>
      match l with
      | [(_, [(p, _)])] =>
        if isPrivate va || p.loc != 0 || leafSC p.leaf || leafParcel p.leaf || leafShadow p.leaf then .error (protection 0x10 (argAddr va))
        else if live && barField (reachLine s (coreNo s w) p.key) p.obj 13 1 != 1 then .error (protection 0x11 (argAddr va))
        else .ok p
      | _ => .error (protection 0x10 (argAddr va))

/-- Waves parked in BWAIT on an object. -/
def barWaiters (s : State) (key : Nat) : Bool :=
  s.waves.any fun e => match e.2.status with
    | .parked (.bwait _ o _ _) => o.key == key
    | _ => false

/-- Event slots bound to an object, across the device (R308). -/
def barSlots (s : State) (key : Nat) : Nat :=
  (s.waves.map fun e => ((List.range 8).filter fun i => (e.2.slot i).bound && (e.2.slot i).kind == 1#4 && (e.2.slot i).obj == key).length).sum

/-- Distinct barrier objects held in a die's barrier cache by parked waits and bound slots (R303, R308). -/
def barHeld (s : State) (die : Nat) : Nat :=
  let objs := s.waves.flatMap fun e =>
    ((List.range 8).filterMap fun i => let x := e.2.slot i; if x.bound && x.kind == 1#4 then some x.obj else none)
    ++ (match e.2.status with
        | .parked (.bwait _ o _ true) => [o.key]
        | _ => [])
  ((objs.filter fun o => homeOf o == die).dedup).length

/-- Whether an object is held in its die's barrier cache, or there is room for it (R303, R308). DESIGN CHOICE (log 74): an
object that a full cache holds already needs no entry, and is let in. -/
def cacheRoom (s : State) (key : Nat) : Bool :=
  decide (barHeld s (homeOf key) < 512) || decide (barSlots s key > 0) || s.waves.any fun e => match e.2.status with
    | .parked (.bwait _ o _ true) => o.key == key
    | _ => false

/-- A BWAIT that parked because its die's barrier cache was held in full takes the entry that has freed (R303): it completes when its phase is complete,
else it holds its object. -/
def admitWait (s : State) (u : Nat) : State :=
  match (lookup s.waves u).filter fun w => !(groupOf s w.group).frozen with
  | none => s
  | some w =>
    match w.status with
    | .parked (.bwait nx obj ph false) =>
      if !cacheRoom s obj.key then s
      else if phaseDone s obj ph then { s with waves := put s.waves u ({ w with status := .ready }.finish nx) }
      else { s with waves := put s.waves u { w with status := .parked (.bwait nx obj ph true) } }
    | _ => s

/-- Whether a wave is parked in a BWAIT without an entry of the barrier cache. -/
def Wave.waitsRoom (w : Wave) : Bool :=
  match w.status with
  | .parked (.bwait _ _ _ false) => true
  | _ => false

/-- Every BWAIT that waits for an entry looks for one. -/
def admitWaits (s : State) : State := ((s.waves.filter fun e => e.2.waitsRoom).map (·.1)).foldl admitWait s

/-- Leave one held barrier as BLEAVE does (R304): EXPECT falls by one and the completion check is applied. -/
def barLeave (s : State) (o : BarObj) : State :=
  let s := barFlush s o.key
  barCheck (barPut s o 8 4 ((barField s o 8 4 + 2 ^ 32 - 1) % 2 ^ 32)) o

/-- The barrier object that a context's address names when an agent reaches it again, without an instruction of its own: to arrive for a counted transfer
(R148), or to leave a barrier (R237). It goes by the translation of that moment (R47). DESIGN CHOICE (log 71): where that gives no local page that can be
written, no object is reached and nothing is done. -/
def objectAt (s : State) (a : Asker) (ctag va : Nat) : Option BarObj :=
  match translate s a ctag va 1 false with
  | .ok p => if p.loc = 0 then some p.obj else none
  | .error _ => none

/-- A wave leaves every barrier it joined (R237, R164, R183). -/
def leaveBarriers (s : State) (u : Nat) : State :=
  match lookup s.waves u with
  | none => s
  | some w => w.members.foldl (fun t m => match objectAt t (askerOf t w) w.ctag m.1.toNat with
      | some o => barLeave t o
      | none => t) { s with waves := put s.waves u { w with members := [] } }

end Sys2Proof.Machine
end

