-- ==== Sys2Proof/Machine/Yokes.lean ====
section
/-! DEFINITION. Sys2Proof/Machine/Yokes.lean: yokes: shapes (R335), places, states and leases (Table 12.6, R338), runs and the arithmetic of a
row (R104-R108, R341), the garner (R84-R87). -/
namespace Sys2Proof.Machine

/-- Core rows of a shape word (Table 12.5). -/
def shapeRows (w : Nat) : Nat := bitsAt w 0 1 + 1
/-- Core columns of a shape word. -/
def shapeCols (w : Nat) : Nat := match bitsAt w 1 2 with
  | 0 => 1
  | 1 => 2
  | _ => 4
/-- Band mask of a shape word. -/
def shapeBands (w : Nat) : Nat := bitsAt w 3 4
/-- SEAM of a shape word. -/
def shapeSeam (w : Nat) : Bool := bitsAt w 7 1 == 1
/-- Cores of a shape. -/
def shapeCores (w : Nat) : Nat := shapeRows w * shapeCols w

/-- The legal shapes of R335. -/
def legalShape (w : Nat) : Bool :=
  w >>> 8 == 0 && bitsAt w 1 2 != 3 && shapeBands w != 0
  && (if shapeSeam w then shapeRows w == 2 && shapeCols w == 4 else shapeRows w == 1 || decide (shapeCols w ≤ 2))

/-- The core at position `i` of a yoke whose headland core is `head`, when that placement exists (R188, R335): its number. -/
def placeCore (shape head i : Nat) : Option Nat :=
  let die := head / 36
  let cl := head % 36 / 4
  let pos := head % 4
  let cols := shapeCols shape
  let r := i / cols
  let c := i % cols
  if shapeSeam shape then
    if die != 0 || cl % 3 != 2 || pos != 0 then none
    else if c < 2 then some (cl * 4 + r * 2 + c)
    else some (36 + (cl - 2) * 4 + r * 2 + (c - 2))
  else if cols = 4 then
    if pos != 0 || cl % 3 == 2 then none
    else some (die * 36 + (if c < 2 then cl else cl + 1) * 4 + c % 2)
  else
    if pos / 2 + r ≥ 2 || pos % 2 + c ≥ 2 then none
    else some (die * 36 + cl * 4 + (pos / 2 + r) * 2 + pos % 2 + c)

/-- The yoke of a group's gang, if it is not NONE. -/
def yokeOf (s : State) (g : Nat) : Option (Nat × Yoke) :=
  let gr := groupOf s g
  if gr.gang = 0 then none else s.yokes.find? fun e => e.2.launch == gr.launch && e.2.gang == gr.gang

/-- Replace a yoke. -/
def setYoke (s : State) (y : Nat) (x : Yoke) : State := { s with yokes := put s.yokes y x }

/-- A member of a yoke by its group. -/
def memberOf (y : Yoke) (g : Nat) : Option Member := y.members.find? fun m => m.group == g
/-- Replace a member. -/
def setMember (y : Yoke) (m : Member) : Yoke := { y with members := y.members.map fun x => if x.group = m.group then m else x }
/-- Whether a group holds a formed lease (R337, Table 12.7). -/
def holdsLease (y : Yoke) (g : Nat) : Bool := (memberOf y g).any (·.lease)

/-- The groups of a gang of a launch, in position order. -/
def gangGroups (s : State) (launch gang : Nat) : List Nat :=
  let l := s.groups.filter fun e => e.2.launch == launch && e.2.gang == gang
  (List.range 8).filterMap fun i => (l.find? fun e => e.2.ypos == i).map (·.1)

/-- Complete every parked instruction of a list of groups that `sel` picks, C as given. -/
def completeParks (s : State) (groups : List Nat) (sel : Park → Option (BitVec 2)) (c : Option Bool) : State :=
  { s with waves := s.waves.map fun e =>
      if groups.contains e.2.group then
        match e.2.status with
        | .parked p =>
          match sel p with
          | some nx => (e.1, { e.2 with status := .ready, c := c.getD e.2.c }.finish nx)
          | none => e
        | _ => e
      else e }

/-- The NX of a parked YACQ. -/
def yacqPark (p : Park) : Option (BitVec 2) :=
  match p with
  | .yacq nx _ => some nx
  | _ => none
/-- The NX of a parked YREL. -/
def yrelPark (p : Park) : Option (BitVec 2) :=
  match p with
  | .yrel nx => some nx
  | _ => none

/-- Close the switches of exactly these bands of the cores that a yoke's members lend (R394). -/
def powerBands (s : State) (k : Yoke) (bands : BitVec 4) : State :=
  k.members.foldl (fun t m => setCore t m.core { coreOf t m.core with bands := bands }) s

/-- Whether a yoke holds a core (R394): it has formed and is not LOST, and the member's lease has not ended. -/
def yokeHolds (s : State) (core : Nat) : Bool :=
  s.yokes.any fun e => e.2.state != .forming && e.2.state != .lost && e.2.members.any fun m => m.lease && m.core == core

/-- A yoke reaches NONE: its bands' switches open, but on a core that a later yoke has come to hold (R394), and its garner is discarded (Table 12.6). One that never
formed has no band on. -/
def dropYoke (s : State) (y : Nat) : State :=
  match lookup s.yokes y with
  | none => s
  | some k =>
    let s := { s with yokes := erase s.yokes y }
    if k.state = .forming then s else powerBands s { k with members := k.members.filter fun m => !yokeHolds s m.core } 0#4

/-- A formation fails (R338): every parked YACQ ends with C := 0 and the yoke is NONE. -/
def failFormation (s : State) (y : Nat) : State :=
  match lookup s.yokes y with
  | none => s
  | some k => completeParks (dropYoke s y) (k.members.map (·.group)) yacqPark (some false)

/-- End the plot accesses of a run (R70). -/
def endRun (s : State) (y : Nat) (r : Run) : State :=
  r.a.foldl (fun t a => endAccess t a.group a.handle (.run y r.id)) s

/-- Rows injected that have not reached the garner. -/
def inFlight (k : Yoke) : Nat := (k.runs.map fun r => r.inj - r.done).sum

/-- Whether an ending group may leave its slot: no transfer into or out of its plots, and no lease (R237, R338). -/
def groupHeld (s : State) (g : Nat) : Bool :=
  (s.transfers.any fun e => e.2.plots.any fun p => p.1 == g) || (match yokeOf s g with
    | none => false
    | some (_, k) => holdsLease k g)

/-- The next lease to end (R338): of the non-headland positions that hold one, a marked one of the highest core column; the headland's last. -/
def nextLease (k : Yoke) : Option Nat :=
  let cols := shapeCols k.shape.toNat
  let held := ((List.range k.members.length).zip k.members).filter fun e => e.2.lease
  let others := held.filter fun e => e.1 != 0
  let top := maxOf 0 (others.map fun e => e.1 % cols)
  if others.isEmpty then (held.head?).map (·.2.group) else (others.find? fun e => e.1 % cols == top && e.2.marked).map (·.2.group)

/-- Set HELD of a yoke that is RUNNING or HALTED (R336). -/
def holdYoke (s : State) (g : Nat) : State :=
  match yokeOf s g with
  | none => s
  | some (y, k) => if k.state = .running || k.state = .halted then setYoke s y { k with held := true } else s

/-- Clear HELD. -/
def unholdYoke (s : State) (y : Nat) : State :=
  match lookup s.yokes y with
  | none => s
  | some k => setYoke s y { k with held := false }

/-- A LOST yoke whose surviving members have all released or ended becomes NONE (Table 12.6). -/
def lostDone (s : State) (y : Nat) : State :=
  match lookup s.yokes y with
  | none => s
  | some k =>
    let alive := fun (g : Nat) => match lookup s.groups g with
      | some gr => gr.state == .resident
      | none => false
    if k.state = .lost && k.members.all (fun m => m.released || !alive m.group) then dropYoke s y else s

/-- A garner row: its values, or +0.0 where it is not valid (R86). -/
def garnerRow (k : Yoke) (r : Nat) : List Word :=
  (lookup k.garner r).getD (List.replicate (256 * shapeCols k.shape.toNat) 0#32)

/-- An element of the matrix output path (R343). -/
def outElem (ty : Nat) (x : Word) : List Byte :=
  match ty with
  | 0 => bytesOf 4 x.toNat
  | 1 => bytesOf 2 (resultF fBF16 0 false false (val32 x.toNat))
  | _ => bytesOf 2 (resultF fF16 0 false false (val32 x.toNat))

/-- The row of a garner operation. -/
def GarnerOp.row (o : GarnerOp) : Nat :=
  match o with
  | .zero r => r
  | .acc r _ _ _ => r
  | .read r _ _ _ _ _ => r
  | .out r _ _ => r

/-- MACCG on a row's values (R342). -/
def accRow (g : List Word) (col : Nat) (lanes : Word) (x : Vector Word 32) : List Word :=
  ((List.range g.length).zip g).map fun c =>
    let lane := c.1 - col
    if col ≤ c.1 && lane < 32 && lanes.getLsbD lane then BitVec.ofNat 32 (rne32 (addV 0 (val32 c.2.toNat) (val32 (x.toList.getD lane 0#32).toNat)))
    else c.2

/-- The lanes that MREADG writes from a row (R342): 0 beyond the yoke's columns. -/
def readRow (g : List Word) (col : Nat) : Vector Word 32 := tab 32 fun i => g.getD (col + i) 0#32

/-- A result of a wave is known: only its write remains. -/
def Wave.gotResult (w : Wave) (id : Nat) (writes : List RegWrite) : Wave :=
  { w with pending := w.pending.map fun p => if p.id = id then { p with writes, ready := true } else p }

/-- Row `i` of an MCADR taken by its output path (R343, R87). -/
def takeRow (s : State) (x i : Nat) (g : List Word) : State :=
  match lookup s.transfers x with
  | none => s
  | some t =>
    let ty := match t.op with
      | .mcadr _ _ _ ty => ty.toNat
      | _ => 0
    { s with transfers := put s.transfers x { t with image := patch t.image (i * t.rowBytes) (g.flatMap (outElem ty)), taken := t.taken ++ [i] } }

/-- A garner operation takes effect on its row, which reads as `g` (R87, R342, R343): the state, and the row as the operation leaves it: none where it
leaves it alone. -/
def garnerEffect (s : State) (o : GarnerOp) (g : List Word) : State × Option (Option (List Word)) :=
  match o with
  | .zero _ => (s, some none)
  | .acc _ col lanes x => (s, some (some (accRow g col lanes x)))
  | .read _ col u id d mask => (onWaveRec s u fun w => w.gotResult id [.v d mask (readRow g col)], none)
  | .out _ x i => (takeRow s x i g, none)

/-- The garner with a row as an operation leaves it. -/
def setRow (m : AMap (List Word)) (row : Nat) (e : Option (Option (List Word))) : AMap (List Word) :=
  match e with
  | none => m
  | some none => erase m row
  | some (some g) => put m row g

/-- Whether a run that was issued before place `i` of the order is still to update a row (R87). -/
def runOwes (k : Yoke) (i row : Nat) : Bool := k.runs.any fun r => decide (r.id < i) && decide (r.g0 + r.done ≤ row) && decide (row < r.g0 + r.mr)

/-- The place in the order of issue of the MSAVE or MREST in which a wave is stalled (R344). -/
def Wave.garnerImage (w : Wave) : Option Nat :=
  match w.stall with
  | some (.msave _ _ i) => some i
  | some (.mrest _ _ i) => some i
  | _ => none

/-- Whether an MSAVE or MREST that was issued before place `i` of the order has still to act, which it does on every row (R87). -/
def imageOwes (s : State) (k : Yoke) (i : Nat) : Bool :=
  s.waves.any fun e => (k.members.any fun m => m.group == e.2.group) && e.2.garnerImage.any fun j => decide (j < i)

/-- The garner operations that wait, in order of issue: each takes effect once nothing issued before it is still to act on its row (R87). `held` are the
rows on which an earlier one still waits. -/
def garnerPass (s : State) (y : Nat) (work : List (Nat × GarnerOp)) (held : List Nat) : State :=
  match work with
  | [] => s
  | (i, o) :: rest =>
    match lookup s.yokes y with
    | none => s
    | some k =>
      if held.contains o.row || runOwes k i o.row || imageOwes s k i then garnerPass s y rest (o.row :: held)
      else
        let (s, e) := garnerEffect s o (garnerRow k o.row)
        garnerPass (setYoke s y { k with garner := setRow k.garner o.row e, ops := k.ops.filter fun x => x != (i, o) }) y rest held

/-- Every garner operation that can take effect does. -/
def garnerSettle (s : State) (y : Nat) : State :=
  match lookup s.yokes y with
  | none => s
  | some k => garnerPass s y k.ops []

/-- What a LOST yoke still owed (log 62): its rows are never updated, so what the operations that waited on them give is a free value. -/
def garnerLost (s : State) (k : Yoke) : State :=
  k.ops.foldl (fun t e => (garnerEffect t e.2 ((List.range (256 * shapeCols k.shape.toNat)).map fun c => Config.lostGarner e.1 c)).1) s

/-- A yoke becomes LOST (Table 12.6): runs abandoned, leases void, and the waits on it end. -/
def loseYoke (s : State) (y : Nat) : State :=
  match lookup s.yokes y with
  | none => s
  | some k =>
    let s := garnerLost s k
    let k := { k with ops := [] }
    let s := k.runs.foldl (fun t r => endRun t y r) s
    let gs := k.members.map (·.group)
    let k := { k with state := .lost, runs := [], held := false, members := k.members.map fun m => { m with acq := none } }
    let s := completeParks (setYoke s y k) gs yacqPark (some false)
    let parked := s.waves.filterMap fun e => match e.2.status with
      | .parked (.yrel _) => if gs.contains e.2.group then some e.2.group else none
      | _ => none
    let k := { k with members := k.members.map fun m => if parked.contains m.group then { m with released := true } else m }
    lostDone (completeParks (setYoke s y k) gs yrelPark none) y

/-- What YREL does to a yoke by a member (R338), also when a member group ends: the state, and whether the wave waits for its lease to end. -/
def releaseLease (s : State) (g : Nat) : State × Bool :=
  match yokeOf s g with
  | none => (s, false)
  | some (y, k) =>
    match k.state with
    | .forming => (failFormation s y, false)
    | .lost =>
      match memberOf k g with
      | none => (s, false)
      | some m => (lostDone (setYoke s y (setMember k { m with released := true })) y, false)
    | _ =>
      if !holdsLease k g then (s, false)
      else if (k.members.head?).any (fun m => m.group == g) then (setYoke s y { k with state := .releasing }, true)
      else match memberOf k g with
        | none => (s, false)
        | some m => (setYoke s y (setMember k { m with marked := true }), true)

/-- Whether a pending run, a garner instruction that waits, or a stalled MSAVE or MREST is still to act on a row of a range (R87). -/
def rowPending (s : State) (k : Yoke) (lo n : Nat) : Bool :=
  imageOwes s k s.uid || (k.runs.any fun r => decide (r.g0 + r.done < lo + n) && decide (lo < r.g0 + r.mr))
    || k.ops.any fun e => decide (lo ≤ e.2.row) && decide (e.2.row < lo + n)

/-- A garner instruction joins those that wait; its parts on rows that nothing owes take effect at once (R87). -/
def garnerQueue (s : State) (y : Nat) (k : Yoke) (i : Nat) (l : List GarnerOp) : State :=
  garnerSettle (setYoke s y { k with ops := k.ops ++ l.map fun o => (i, o) }) y

/-- Native planes of A and width of B by type (Table 3.8); none where the type is not allowed. -/
def planesA (fmt : Nat) : Option Nat :=
  match fmt with
  | 11 => some 2
  | 12 => some 6
  | 13 => some 14
  | 10 => some 8
  | 9 => some 11
  | 8 => some 24
  | _ => none
/-- Width of B in bits (Table 3.8). -/
def widthB (fmt : Nat) : Option Nat :=
  match fmt with
  | 11 => some 3
  | 12 => some 7
  | 13 => some 15
  | 10 => some 16
  | 9 => some 16
  | _ => none
/-- The packing limit of a B format (R340). -/
def qmaxB (fmt : Nat) : Nat := if fmt = 11 then 4 else if fmt = 12 then 2 else 1
/-- The packing limit of a run (R106). -/
def qlim (peff wb : Nat) : Nat := if peff ≤ 2 ∧ wb ≤ 3 then 4 else if peff ≤ 4 ∧ wb ≤ 7 then 2 else 1
/-- P clamped to 2–24 (R341). -/
def clampP (p : Nat) : Nat := max 2 (min p 24)
/-- Peff (R105). -/
def peffOf (p fmt : Nat) : Nat := min p ((planesA fmt).getD 24)
/-- Passes of one A row (R106). -/
def passesOf (peff q : Nat) : Nat := if q = 1 then ceilDiv peff 8 else 1
/-- Depth of one core (R106). -/
def depthKC (bands q : Nat) : Nat := 64 * popCount (BitVec.ofNat 4 bands) * q

/-- TRUNCPLANES (R16, R105). -/
def truncPlanes (planes p : Nat) (v : FVal) : FVal :=
  match v with
  | .fin n m e => .fin n ((m >>> (planes - p)) <<< (planes - p)) e
  | x => x

/-- The B element at local depth `kappa` and column `col` of a position (R340). -/
def elemB (b : Option BLoad) (kappa col : Nat) : FVal :=
  match b with
  | none => .fin false 0 0
  | some l =>
    if kappa < l.nrows ∧ col < l.ncols then
      let rb := windowRow l.fmt.toNat l.ncols
      elemOf l.fmt.toNat (sliceBytes l.bytes (kappa * rb) rb) col
    else .fin false 0 0

/-- The A element of row `mi` and depth `k` (R105, R341), truncated to its core row's effective precision. -/
def elemA (a : Option ALoad) (prec kw mi k : Nat) : FVal :=
  match a with
  | none => .fin false 0 0
  | some l =>
    let f := l.fmt.toNat
    let rb := windowRow f kw
    truncPlanes ((planesA f).getD 24) (peffOf prec f) (elemOf f (sliceBytes l.bytes (mi * rb) rb) k)

/-- One column of one A row (R108): exact products, one rounding each, in ascending k. DESIGN CHOICE (log 66): a negative product too small for FP32 added to
+0 rounds to -0.0, as RNE32 rounds, though the last sentence of R108 has no such sum; the garner's own addition makes +0.0 of it. -/
def columnSum (r : Run) (cols mi n : Nat) : Nat :=
  let kc := depthKC r.bands.toNat r.qb
  (List.range r.kw).foldl (fun psum k =>
    let cr := k / kc
    let a := elemA (r.a[cr]?) r.prec r.kw mi k
    let b := elemB ((r.b[cr * cols + n / 256]?).getD none) (k % kc) (n % 256)
    rne32 (addV 0 (val32 psum) (mulV a b))) 0

/-- The garner row after an A row's sums arrive (R108). -/
def updateRow (r : Run) (cols mi : Nat) (old : List Word) : List Word :=
  (List.range (256 * cols)).map fun n =>
    BitVec.ofNat 32 (rne32 (addV 0 (val32 (old.getD n 0#32).toNat) (val32 (columnSum r cols mi n))))

/-- After rows move: a finished run leaves, its plots' reads end, and RUNNING becomes IDLE after the last (Table 12.6). A wave stalled in
MDRAIN resumes when no row is in flight (R344). -/
def yokeSettle (s : State) (y : Nat) : State :=
  match lookup s.yokes y with
  | none => s
  | some k =>
    let fin := k.runs.filter fun r => r.done == r.mr
    let k0 := match fin.getLast? with
      | some r => if r.id > k.last then { k with inj := r.inj, done := r.done, last := r.id } else k
      | none => k
    let k1 := { k0 with runs := k0.runs.filter fun r => r.done != r.mr }
    let s := fin.foldl (fun t r => endRun t y r) s
    let k2 := if k1.runs.isEmpty && k1.state = .running then { k1 with state := .idle } else k1
    let drained := inFlight k2 == 0 && (k2.state != .running)
    let waits := s.waves.any fun e => (k2.members.map (·.group)).contains e.2.group && (match e.2.stall with
      | some (.mdrain _) => true
      | _ => false)
    if drained && waits then
      let k3 := if k2.state = .halted then { k2 with state := .idle } else k2
      let s := garnerSettle (setYoke s y k3) y
      { s with waves := s.waves.map fun e =>
          if (k2.members.map (·.group)).contains e.2.group then
            match e.2.stall with
            | some (.mdrain nx) => (e.1, { e.2 with stall := none }.finish nx)
            | _ => e
          else e }
    else garnerSettle (setYoke s y k2) y

end Sys2Proof.Machine
end

