-- ==== Sys2Proof/Machine/Groups.lean ====
section
/-! DEFINITION. Sys2Proof/Machine/Groups.lean: how waves retire and groups end (R167, R237, R205), GBAR (R305), partners of REGROUP (R182), and
the completion of launches (R197). -/
namespace Sys2Proof.Machine

/-- The waves of a group, by their keys. -/
def wavesOf (s : State) (g : Nat) : List Nat := (s.waves.filter fun e => e.2.group == g).map (·.1)

/-- Whether every wave of a group has retired. -/
def allRetired (s : State) (g : Nat) : Bool :=
  s.waves.all fun e => e.2.group != g || e.2.status == .retired

/-- GBAR completes when every wave of the group that has not retired has executed it (R305). -/
def checkGbar (s : State) (g : Nat) : State :=
  let gr := groupOf s g
  let live := s.waves.filter fun e => e.2.group == g && e.2.status != .retired
  if !live.isEmpty && live.all fun e => gr.gbar.getLsbD e.2.waveId then
    let s := setGroup s g { gr with gbar := 0#16 }
    { s with waves := s.waves.map fun e =>
        if e.2.group = g then
          match e.2.status with
          | .parked (.gbar nx) => (e.1, { e.2 with status := .ready }.finish nx)
          | _ => e
        else e }
  else s

/-- A parked REGROUP ends with C cleared when its partner retires (R182). -/
def releasePartners (s : State) (g waveId : Nat) : State :=
  { s with waves := s.waves.map fun e =>
      if e.2.group = g then
        match e.2.status with
        | .parked (.regroup nx p _) => if p = waveId then (e.1, { e.2 with status := .ready, c := false }.finish nx) else e
        | _ => e
      else e }

/-- Whether groups of a launch share a cluster with a group (R78, R80). -/
def clusterShared (s : State) (g : Nat) : Bool :=
  let gr := groupOf s g
  gr.launch != 0 && s.groups.any fun e => e.1 != g && e.2.launch == gr.launch && e.2.core / 4 == gr.core / 4 && e.2.state == .resident

/-- Bytes of a launch's completion record (R197). -/
def completionBytes (s : State) (status : Nat) (launchId : Word) (faults : Nat) : List Byte :=
  bytesOf 4 status ++ bytesOf 4 launchId.toNat ++ bytesOf 8 s.tsc.toNat ++ bytesOf 4 (min faults (2 ^ 32 - 1)) ++ zeroBytes 12

/-- What lies on every core's path performs: the release at system scope that covers a launch (R197). -/
def drainAll (s : State) : State := s.cores.foldl (fun t e => drainPath t e.1) s

/-- What a core's L1 does before a group issues elsewhere (R113, R156): its write-throughs and L1 atomics perform, and its OWNED lines go to their slices. -/
def leaveCore (s : State) (core : Nat) : State :=
  let s := drainPath s core
  setCore s core { coreOf s core with owned := [] }

/-- Everything that is on its way to a slice or waits at a barrier unit performs. -/
def performAll (s : State) : State :=
  let s := drainAll s
  barSteps (barSteps s 0 (dieOf s 0).barrierQ.length) 1 (dieOf s 1).barrierQ.length

/-- A completion record written at CPLA, when it names one (R196, R197, R446). -/
def writeCompletion (s : State) (ctag : Nat) (cpla : DWord) (status : Nat) (launchId : Word) (faults : Nat) : State :=
  if cpla = 0#64 then s else ctxRecord (drainAll s) ctag cpla.toNat (completionBytes s status launchId faults)

/-- A dependence-table entry returns to FREE (R210). -/
def freeEntry (s : State) (ctag : Nat) (dep : Option Nat) : State :=
  match dep with
  | none => s
  | some i => ctxRecord s ctag ((ctxOf s ctag).depbase.toNat + 128 * i + 68) [0#8]

/-- Groups of a launch's grid. -/
def Launch.total (l : Launch) : Nat := l.gx * l.gy * l.gz

/-- Whether a launch has nothing left to run: its groups have ended, or can no longer start, and their transfers have ended (R197). -/
def launchOver (s : State) (k : Nat) (l : Launch) : Bool :=
  (decide (l.ended ≥ l.next) && (l.killed || decide (l.next ≥ l.total)))
    && !(s.transfers.any fun e => e.2.launch == k)

/-- Complete a launch that is over: record, dependence entry, and its place in the launch table (R197, R210). -/
def checkLaunch (s : State) (k : Nat) : State :=
  match lookup s.launches k with
  | none => s
  | some l =>
    if launchOver s k l then
      let s := if l.restored then s else writeCompletion s l.ctag l.cpla (if l.killed then 5 else 0) l.launchId l.faults
      let s := freeEntry s l.ctag l.dep
      { s with launches := erase s.launches k }
    else s

/-- Whether any plot of a group that others of its launch share is still alive (R80). -/
def keepsShared (s : State) (g : Nat) : Bool :=
  (groupOf s g).plots.any (fun e => e.2.level) && clusterShared s g

/-- A group leaves the core: its remaining plots and waves go, its entry becomes EMPTY and its launch counts it (R167, R205). -/
def removeGroup (s : State) (g : Nat) : State :=
  let gr := groupOf s g
  let s := { s with groups := erase s.groups g, waves := s.waves.filter fun e => e.2.group != g }
  let s := match lookup s.launches gr.launch with
    | none => s
    | some l => { s with launches := put s.launches gr.launch { l with ended := l.ended + 1 } }
  checkLaunch s gr.launch

/-- An ENDING group leaves its slot once no transfer into or out of its plots and no lease keeps it (R237, R338); a shared cluster-level
plot keeps its region, without the slot (R80: slot number 4 stands for none). -/
def checkEnding (s : State) (g : Nat) : State :=
  let gr := groupOf s g
  if gr.state = .ending && !groupHeld s g then
    if keepsShared s g then
      if gr.gslot = 4 then s else setGroup s g { gr with gslot := 4, wmask := 0#16, plots := gr.plots.filter fun e => e.2.level }
    else removeGroup s g
  else s

/-- Recheck every ENDING group, the last to end first freeing what it shared. -/
def checkEndings (s : State) : State :=
  let pass := fun (s : State) => (s.groups.map (·.1)).foldl (fun t g => match lookup t.groups g with
    | some _ => checkEnding t g
    | none => t) s
  pass (pass s)

/-- Recheck every launch. -/
def checkLaunches (s : State) : State := (s.launches.map (·.1)).foldl checkLaunch s

/-- The end of a group (R167, R237): its plots are freed, its yoke is released as YREL does, and its entry is ENDING. -/
def endGroup (s : State) (g : Nat) : State :=
  let gr := groupOf s g
  let s := setGroup s g { gr with state := .ending, moving := none }
  let s := (releaseLease s g).1
  let shared := clusterShared s g
  let gr := groupOf s g
  let s := gr.plots.foldl (fun t e => if e.2.level && shared then t else freePlot t g e.1) s
  checkEndings s

/-- A wave retires (R237): tasks of lanes still LIVE break with `cause`, barriers are left, bindings and PSLOT go, partners and GBAR see it,
and the group's last wave ends the group. Outstanding results have been written before. -/
def retireWave (s : State) (u : Nat) (cause : DWord) : State :=
  let s := match lookup s.waves u with
    | none => s
    | some w => breakLanes s u (if w.sheaf.isSome then 0xFFFFFFFF#32 else 0#32) cause
  let s := leaveBarriers s u
  match lookup s.waves u with
  | none => s
  | some w =>
    let s := { s with waves := put s.waves u { w with
      status := .retired, stall := none, pev := 0#8, slots := tab 8 fun _ => ({ } : EvSlot), mailbox := [], windows := [], pending := [], loads := []
      peer := [], placed := [], preempt := none, handler := false } }
    let s := releasePartners s w.group w.waveId
    let s := checkGbar s w.group
    if allRetired s w.group && (groupOf s w.group).state = .resident then endGroup s w.group else s

end Sys2Proof.Machine
end

