-- ==== Sys2Proof/Machine/Kill.lean ====
section
/-! DEFINITION. Sys2Proof/Machine/Kill.lean: region control blocks (R160-R162, R445), the log of fatal faults (R163), and kills (R164). -/
namespace Sys2Proof.Machine

/-- The bytes of a region control block, none when it cannot be read (R445). -/
def rcbRead (s : State) (ctag : Nat) (addr : Nat) : Option (List Byte) := ctxRead s ctag addr 64

/-- A bound on the blocks of a tree: each block with a non-zero field has a listed byte. -/
def treeFuel (s : State) : Nat := s.mem.length + s.l2.length + 2

/-- PARENT of a block. -/
def rcbParent (b : List Byte) : Nat := fieldOf b 0 8
/-- An override bit of OVR. -/
def rcbOvr (b : List Byte) (i : Nat) : Bool := bitsAt (fieldOf b 24 1) i 1 == 1

/-- The blocks from a region up to its root, nearest first; none when one of them cannot be read. -/
def ancestry (fuel : Nat) (s : State) (ctag addr : Nat) : Option (List (Nat × List Byte)) :=
  match fuel with
  | 0 => none
  | n + 1 =>
    match rcbRead s ctag addr with
    | none => none
    | some b =>
      if rcbParent b = 0 then some [(addr, b)]
      else (ancestry n s ctag (rcbParent b)).map fun l => (addr, b) :: l

/-- The fault domain of a region (R162, R445): the nearest block whose OVR[4] is 1, else the root; the context's root when a block cannot
be read. -/
def faultDomain (fuel : Nat) (s : State) (ctag addr : Nat) : Nat :=
  match fuel with
  | 0 => (ctxOf s ctag).rootrcb.toNat
  | n + 1 =>
    match rcbRead s ctag addr with
    | none => (ctxOf s ctag).rootrcb.toNat
    | some b => if rcbOvr b 4 || rcbParent b = 0 then addr else faultDomain n s ctag (rcbParent b)

/-- The fault domain of a region of a context. -/
def domainOf (s : State) (ctag : Nat) (region : DWord) : Nat := faultDomain (treeFuel s) s ctag region.toNat

/-- Log a fatal fault in a domain's block (R163, Table 6.2): FCOUNT saturates, and the other words are written for the first. -/
def logFault (s : State) (ctag : Nat) (region : DWord) (cause : Nat) (info : DWord) : State :=
  let d := domainOf s ctag region
  match rcbRead s ctag d with
  | none => s
  | some b =>
    let n := fieldOf b 34 2
    let s1 := ctxRecord s ctag (d + 34) (bytesOf 2 (min (n + 1) 65535))
    if n = 0 then ctxRecord s1 ctag (d + 36) (bytesOf 4 (cause % 256) ++ bytesOf 8 info.toNat ++ bytesOf 8 s.tsc.toNat) else s1

/-- Count a fatal fault of a launch's group (R197). -/
def countFault (s : State) (launch : Nat) : State :=
  match lookup s.launches launch with
  | none => s
  | some l => { s with launches := put s.launches launch { l with faults := l.faults + 1 } }

/-- A fatal fault of a wave: logged in its fault domain, and counted in its launch (R163, R197). -/
def waveFault (s : State) (u : Nat) (cause : Nat) (info : DWord) : State :=
  match lookup s.waves u with
  | none => s
  | some w =>
    let region := match w.sheaf with
      | some sh => sh.region
      | none => (groupOf s w.group).region
    countFault (logFault s w.ctag region cause info) (groupOf s w.group).launch

/-- A block as it is now, else as it was last read (R445). -/
def rcbCached (s : State) (ctag addr : Nat) : Option (List Byte) :=
  match rcbRead s ctag addr with
  | some b => some b
  | none => lookup (ctxOf s ctag).rcbs addr

/-- The chain of blocks of a region as the firmware sees it at a binding (R445). -/
def chainOf (fuel : Nat) (s : State) (ctag addr : Nat) : List (Nat × List Byte) :=
  match fuel with
  | 0 => []
  | n + 1 =>
    match rcbCached s ctag addr with
    | none => []
    | some b => (addr, b) :: (if rcbParent b = 0 then [] else chainOf n s ctag (rcbParent b))

/-- The chain of a region, bounded by the blocks there are. -/
def regionChain (s : State) (ctag : Nat) (region : DWord) : List (Nat × List Byte) :=
  chainOf (treeFuel s + (ctxOf s ctag).rcbs.length) s ctag region.toNat

/-- The blocks of a subtree, first to last (Table 6.2): children and their siblings. A block that cannot be read is taken as it was last read (R445), and
one that never was ends its branch. -/
def subtree (fuel : Nat) (s : State) (ctag : Nat) (work seen : List Nat) : List Nat :=
  match fuel, work with
  | 0, _ => seen
  | _, [] => seen
  | n + 1, a :: rest =>
    if a = 0 || seen.contains a then subtree n s ctag rest seen
    else match rcbCached s ctag a with
      | none => subtree n s ctag rest (seen ++ [a])
      | some b => subtree n s ctag (fieldOf b 8 8 :: (if seen.isEmpty then rest else fieldOf b 16 8 :: rest)) (seen ++ [a])

/-- The regions of the subtree of a domain root. -/
def regionsOf (s : State) (ctag root : Nat) : List Nat := subtree (3 * (treeFuel s + (ctxOf s ctag).rcbs.length)) s ctag [root] []

/-- TINFO of a logged transfer failure (R163): reason and address. -/
def failInfo (reason : Nat) (va : Nat) : DWord := BitVec.ofNat 64 (reason % 256 + va % 2 ^ 56 * 256)

/-- A failure of a copy into memory (R163, R327, R334, R343): COPYERR of the issuing wave, at most 255, the log of its fault domain, and its launch's
count. -/
def transferFault (s : State) (t : Transfer) (reason va : Nat) : State :=
  let s := match lookup s.waves t.wave with
    | none => s
    | some w => { s with waves := put s.waves t.wave { w with copyErr := if w.copyErr = 255#8 then w.copyErr else w.copyErr + 1#8 } }
  countFault (logFault s t.ctag t.region 9 (failInfo reason va)) t.launch

/-- The completion record of an XENG command (R334): 0 DONE, 1 BAD_COMMAND, 2 FAULT, 3 KILLED. -/
def commandRecord (s : State) (t : Transfer) (status reason : Nat) : State :=
  let cpla := fieldOf t.cmd 56 8
  if t.op = .xeng && cpla != 0 then
    ctxRecord s t.ctag cpla (bytesOf 4 status ++ bytesOf 4 reason ++ bytesOf 8 s.tsc.toNat ++ bytesOf 8 t.done ++ zeroBytes 8)
  else s

/-- The targets of a transfer that its failure still touches: those that do not wait for it to drain (R76, R77). -/
def liveTargets (s : State) (x : Nat) (t : Transfer) : List (Nat × Nat) :=
  t.plots.filter fun q => match lookup (groupOf s q.1).plots q.2 with
    | none => false
    | some p => !p.access.contains (.xfer x)

/-- What a transfer's end does to where it was going (R76, R327, R334, R343). -/
def endOutcome (s : State) (x : Nat) (t : Transfer) (status reason va : Nat) : State :=
  let fails := status == 2 || (status == 3 && t.op == .xeng)
  let s := match t.op with
    | .mcadr y _ _ _ =>
      if fails then match lookup s.yokes y with
        | none => s
        | some k => setYoke s y { k with outerr := true }
      else s
    | _ => s
  if t.op.intoPlot then (if status = 2 then (liveTargets s x t).foldl (fun s q => failPlot s q.1 q.2 2#2) s else s)
  else if fails then transferFault s t reason va else s

/-- The die of a transfer's engine or output path. -/
def engineDie (t : Transfer) : Nat := if t.engine < 16 then t.engine / 8 else t.engine - 16

/-- A counted transfer arrives in the current phase of its barrier object (R148), as the engine reaches it now (R47). Its writes are released to every member of
the barrier: where the object has group scope, whose acquire drops no copies (R111), every L1 gives up its SHARED lines. -/
def arrive (s : State) (t : Transfer) : State :=
  match objectAt s (.die (engineDie t)) t.ctag t.bara.toNat with
  | none => s
  | some o =>
    let s := if barField s o 12 1 ≤ 1 then { s with cores := mapVals s.cores fun c => { c with l1 := [] } } else s
    barArrive (barFlush s o.key) o 1

/-- A transfer leaves its engine: its plot reads end, its completion record is written, and it arrives; whoever waited for it is looked at again. -/
def leaveEngine (s : State) (x : Nat) (t : Transfer) (status reason : Nat) : State :=
  let s := { s with
    transfers := erase s.transfers x
    faults := s.faults.map fun f => { f with xfers := f.xfers.filter fun k => k != x }
    snaps := s.snaps.filter fun p => p.xfer != x
    publishes := mapVals s.publishes fun p => { p with waits := p.waits.filter fun k => k != x } }
  let s := t.plots.foldl (fun s q => endAccess s q.1 q.2 (.xfer x)) s
  let s := commandRecord s t status reason
  let s := if t.bara = 0#64 then s else arrive s t
  checkLaunch (checkEndings s) t.launch

/-- The end of a transfer (R148, R327, R334, R343): its outcome where it was going, then its leave of the engine. -/
def endTransfer (s : State) (x status reason va : Nat) : State :=
  match lookup s.transfers x with
  | none => s
  | some t => leaveEngine (endOutcome s x t status reason va) x t status reason

/-- A transfer stopped by a kill (R164, R334): its arrival is made all the same (log 24). -/
def cancelTransfer (s : State) (x : Nat) : State := endTransfer s x 3 0 0

/-- A transfer stopped by a forced reset (R378): as by a kill, but no fault is logged. -/
def resetTransfer (s : State) (x : Nat) : State :=
  match lookup s.transfers x with
  | none => s
  | some t => leaveEngine s x t 3 0

/-- Transfers go on once none of their plots belongs to a frozen group (R81); one whose fault was answered with KILL meanwhile fails then (R401). -/
def releaseTransfers (s : State) : State :=
  let s := { s with transfers := mapVals s.transfers fun t => if t.plots.any fun q => (groupOf s q.1).frozen then t else { t with pause := false } }
  (s.transfers.map (·.1)).foldl (fun s x => match lookup s.transfers x with
    | none => s
    | some t => match t.answered with
      | some va => if t.pause then s else endTransfer s x 2 7 va
      | none => s) s

/-- Stop a group (R164): no handler; waves retire, its yoke is LOST, plots and leases go. A group not yet resident just leaves its entry. -/
def killGroup (s : State) (g : Nat) : State :=
  match lookup s.groups g with
  | none => s
  | some gr =>
    let s := match yokeOf s g with
      | some (y, k) => if k.state = .lost then s else loseYoke s y
      | none => s
    let s := setGroup s g { gr with frozen := false, moving := none }
    let s := if gr.frozen then releaseTransfers s else s
    if gr.state = .staged || gr.state = .saved then removeGroup s g
    else
      let us := wavesOf s g
      let s := us.foldl (fun t u => settleWave t u) s
      let s := { s with faults := s.faults.map fun f => { f with waves := f.waves.filter fun u => !us.contains u } }
      let s := us.foldl (fun t u => match lookup t.waves u with
        | some w => if w.status = .retired then t else retireWave t u (brokenCause 3 0)
        | none => t) s
      checkEndings s

/-- The steps of R164 on the groups, launches, transfers, tasks and futures of a context whose region satisfies `p`; `stop` ends a transfer. -/
def killWhere (s : State) (ctag : Nat) (stop : State → Nat → State) (p : DWord → Bool) : State :=
  let s := { s with launches := mapVals s.launches fun l => if l.ctag = ctag && p l.region then { l with killed := true } else l }
  let gs := (s.groups.filter fun e => e.2.ctag == ctag && p e.2.region).map (·.1)
  let xs := (s.transfers.filter fun e => e.2.ctag == ctag && p e.2.region).map (·.1)
  let s := xs.foldl stop s
  let s := breakRegion s ctag p (brokenCause 3 0)
  let s := { s with dies := mapVals s.dies fun d => { d with
    former := d.former.filter fun o => !(o.ctag == ctag && p o.region)
    ready := d.ready.filter fun r => !(r.2.1 == ctag && p r.2.2.region) } }
  let s := gs.foldl killGroup s
  postFutures (checkLaunches (checkEndings s))

/-- Whether a region belongs to the domain of `root`, whose blocks are `rs` (R164, R445): every region of a context belongs to its root's. -/
def inDomain (s : State) (ctag root : Nat) (rs : List Nat) (r : DWord) : Bool :=
  root == (ctxOf s ctag).rootrcb.toNat || rs.contains r.toNat || (regionChain s ctag r).any fun e => e.1 == root

/-- A kill of domain root `root` (R164): STATE := KILLED in every block of the subtree, then everything of these regions stops. -/
def killDomain (s : State) (ctag root : Nat) : State :=
  let rs := regionsOf s ctag root
  let t := rs.foldl (fun t a => ctxRecord t ctag (a + 32) [1#8]) s
  killWhere t ctag cancelTransfer fun r => inDomain s ctag root rs r

/-- A kill of the whole context tree (R164, R378, R388); `stop` ends a transfer. -/
def killTree (s : State) (ctag : Nat) (stop : State → Nat → State) : State :=
  let rs := regionsOf s ctag (ctxOf s ctag).rootrcb.toNat
  let s := rs.foldl (fun t a => ctxRecord t ctag (a + 32) [1#8]) s
  killWhere s ctag stop fun _ => true

/-- A kill of the whole context tree (R164, R388). -/
def killContext (s : State) (ctag : Nat) : State := killTree s ctag cancelTransfer

end Sys2Proof.Machine
end

