-- ==== Sys2Proof/Machine/Ops.lean ====
section
/-! DEFINITION. Sys2Proof/Machine/Ops.lean: the named operations that every meaning is written over: acting on the current wave, answering a
failed check, TAKING A TRAP (R366, with R163, R174, R370, R372) and returning from one (R359, R371, R375), and fences (R111). -/
namespace Sys2Proof.Machine

/-- What a step answers. -/
abbrev Out := Host.Outcome State Fault Refusal

/-- Store a wave back. -/
def setWave (s : State) (u : Nat) (w : Wave) : State := { s with waves := put s.waves u w }

/-- A wave by its key; one that does not exist reads as a new record. -/
def waveOf (s : State) (u : Nat) : Wave := (lookup s.waves u).getD { }

/-- Act on the current wave. -/
def onWave (s : State) (f : Nat → Wave → State) : Out :=
  match lookup s.waves s.cur with
  | none => .fault .noWave
  | some w => .next (f s.cur w)

/-- A meaning that changes only the current wave: `f` gives its new registers, and the instruction ends with NX (R216). -/
def regOp (s : State) (nx : BitVec 2) (f : Wave → Wave) : Out :=
  onWave s fun u w => setWave s u ((f w).finish nx)

/-- TINFO from reason and argument (Table 14.1). -/
def tinfoOf (reason arg : Nat) : DWord := BitVec.ofNat 64 (reason % 256 + arg % 2 ^ 56 * 256)

/-- Whether a cause is a fatal fault (R163): class Sync other than BREAKPOINT. -/
def isFatal (cause : Nat) : Bool := cause != 14 && cause != 15 && cause != 16

/-- REPLAY (Table 14.1): the instruction at TPC did not perform. BREAKPOINT is what TRAP and BRK perform. -/
def replayOf (cause : Nat) : Bool := isFatal cause

/-- The trap registers and the shadow as R366 writes them in its first two steps, with the resume PC. -/
def recordTrap (w : Wave) (t : Trap) (replay : Bool) : Wave :=
  { w with
    trap := ⟨w.pc, BitVec.ofNat 64 (t.cause + (if replay then 512 else 0)), tinfoOf t.reason t.arg, w.live.setWidth 64⟩
    shadow := ⟨w.mode, w.c, w.z, w.vf, w.bt, w.lt, w.lc⟩
    stepArmed := false
    stepDone := none
    replay := false
    pair := none
    windows := [] }

/-- The rest of trap entry (R366): MODE := 0, LIVE := all ones, handler mode, PC := TBASE. -/
def enterHandler (w : Wave) (tbase : DWord) (preempt : Bool) : Wave :=
  { w with
    mode := 0#12, live := 0xFFFFFFFF#32, handler := true, preemptEntry := preempt, pc := tbase, status := .ready,
    debugHold := false, preempt := if preempt then none else w.preempt }

/-- Hold a wave for a debug session (R372): its trap registers are written and no handler starts. One that has a PREEMPT pending becomes STOPPED at
once (Table 14.5). -/
def holdWave (s : State) (u : Nat) (w : Wave) (t : Trap) : State :=
  let s1 := setWave s u { recordTrap w t false with
    status := if w.preempt.isSome then .stopped else .parked .debug, debugHold := true, preempt := none }
  let c := ctxOf s w.ctag
  if c.debug then s1
  else
    let gr := groupOf s w.group
    postEvent s1 (1 + dieNo gr.core) 8 ([BitVec.ofNat 8 (c.ctx.getD 0), BitVec.ofNat 8 gr.core, BitVec.ofNat 8 w.wslot, BitVec.ofNat 8 t.cause]
      ++ zeroBytes 4 ++ bytesOf 8 w.pc.toNat)

/-- The lane-wise faults of a sheaf wave (R174): the tasks of the failing lanes break and the lanes leave LIVE; the rest replay, and an empty
LIVE retires the wave. -/
def breakSheafLanes (s : State) (u : Nat) (t : Trap) : State :=
  let s := breakLanes s u t.lanes (brokenCause 1 t.cause)
  match lookup s.waves u with
  | none => s
  | some w =>
    let live := w.live &&& ~~~t.lanes
    let s := setWave s u { w with live }
    if live = 0#32 then retireWave s u (brokenCause 4 0) else s

/-- Taking a trap: one step of the wave (R366), once its outstanding results are written (R221). `replay` is TCAUSE.REPLAY; `laneWise` says that the instruction is one of the five of R174.
Sheaf waves break tasks (R174), in a nested trap too, which kills nothing (R163, log 35); a nested trap of any other wave, or one without a handler, kills the fault domain (R163, R370); BREAKPOINT of BRK and
SINGLE_STEP go to an attached session, or hold the wave when there is no handler (R372); LOST_MEMORY is the die-loss path (R36, R388). -/
def takeTrap (s : State) (u : Nat) (t : Trap) (replay laneWise : Bool) : State :=
  let s := settleWave s u
  match (lookup s.waves u).filter fun _ => !outstanding s u with
  | none => s
  | some w =>
    let c := ctxOf s w.ctag
    let s := if isFatal t.cause then waveFault s u t.cause (tinfoOf t.reason t.arg) else s
    if t.cause = 9 && t.reason = 11 then killContext s w.ctag
    else if isFatal t.cause && w.sheaf.isSome then
      if laneWise && (t.cause == 9 || t.cause == 11) && t.lanes != 0#32 then breakSheafLanes s u t
      else retireWave (breakLanes s u w.live (brokenCause 1 t.cause)) u (brokenCause 4 0)
    else if w.handler && w.sheaf.isSome then retireWave (breakLanes s u w.live (brokenCause 1 t.cause)) u (brokenCause 4 0)
    else if w.handler then
      killDomain s w.ctag (domainOf s w.ctag (groupOf s w.group).region)
    else if c.tbase = 0#64 then
      if isFatal t.cause then killDomain s w.ctag (domainOf s w.ctag (groupOf s w.group).region)
      else if t.cause = 16 then setWave s u { w with status := .stopped, windows := [], preempt := none }
      else holdWave s u w t
    else if c.debug && (t.cause == 15 || (t.cause == 14 && t.reason == 1)) then holdWave s u w t
    else
      let s := setWave s u (enterHandler (recordTrap w t replay) c.tbase (t.cause == 16))
      if t.cause = 16 then holdYoke s w.group else s

/-- The answer to a failed check: the trap is taken, the wave parks on its recoverable faults (R49), or it waits at issue and nothing changes
(R170). -/
def stopWave (s : State) (u : Nat) (e : Stop) (laneWise : Bool) : State :=
  match e with
  | .trap t => takeTrap s u t (replayOf t.cause) laneWise
  | .park f => parkFaults s u (if laneWise then f else f.map fun (x : Recov) => { x with lanes := 0#32 })
  | .wait => s

/-- Raise a trap of an instruction. -/
def raise (s : State) (u : Nat) (cause reason arg : Nat) : State := takeTrap s u ⟨cause, reason, arg, 0#32⟩ (replayOf cause) false

/-- Act on the current wave after its checks: a failed one is answered as `stopWave` states. -/
def checked {α : Type} (s : State) (c : Nat → Wave → Check α) (f : Nat → Wave → α → State) : Out :=
  onWave s fun u w =>
    match c u w with
    | .error e => stopWave s u e false
    | .ok a => f u w a

/-- The word of the instruction that a wave is at, for ILLEGAL_OP, ILLEGAL_ENC and MODE_INVALID (Table 14.2). -/
def wordArg (s : State) (w : Wave) : Nat :=
  match translate s (askerOf s w) w.ctag w.pc.toNat 2 false with
  | .error _ => 0
  | .ok p =>
    match lookup (coreOf s (coreNo s w)).icache (lineOf p.key) with
    | some (_, _, b) => fieldOf b (p.key % 128) 4
    | none => natOf (viewBytes s p.kid p.key 4)

/-- MODE_INVALID (R223), naming the word. -/
def modeInvalid (s : State) (w : Wave) : Stop := .trap ⟨3, 0, wordArg s w, 0#32⟩
/-- ILLEGAL_ENC raised by an instruction's own checks (R215), naming the word. -/
def illegalEnc (s : State) (w : Wave) : Stop := .trap ⟨2, 0, wordArg s w, 0#32⟩

/-- Restore what trap entry copied aside (R366). -/
def restoreShadow (w : Wave) : Wave :=
  { w with mode := w.shadow.mode, c := w.shadow.c, z := w.shadow.z, vf := w.shadow.vf, bt := w.shadow.bt, lt := w.shadow.lt, lc := w.shadow.lc }

/-- Return from a trap (R359, R366, R371, R375): LIVE := LIVE AND TMASK, handler mode ends, the shadow is restored, and PC := TPC + 4 × `next`.
An empty LIVE retires; the handler of PREEMPT stops the wave; a held PREEMPT discards STEP (R370). -/
def returnTrap (s : State) (u : Nat) (next : Nat) : State :=
  match lookup s.waves u with
  | none => s
  | some w =>
    let live := w.live &&& w.trap.tmask.extractLsb' 0 32
    let s := if w.sheaf.isSome then breakLanes s u (~~~live) (brokenCause 4 0) else s
    let s := match yokeOf s w.group with
      | some (y, k) => if (k.members.head?).any (fun m => m.group == w.group) then unholdYoke s y else s
      | none => s
    match lookup s.waves u with
    | none => s
    | some w =>
      let w1 := restoreShadow { w with live, handler := false, debugHold := false }
      let pc := (w.trap.tpc &&& ~~~3#64) + BitVec.ofNat 64 (4 * next)
      let w2 := { w1 with pc, status := if w.preemptEntry then .stopped else .ready, preemptEntry := false }
      if live = 0#32 then retireWave (setWave s u w2) u (brokenCause 4 0)
      else setWave s u { w2 with stepArmed := w.trap.tcause.getLsbD 8 && w.preempt.isNone && !w.preemptEntry }

/-- Every outstanding result of a wave is written but those of the garner, which no fence orders; its windows stay open (R294). -/
def flushResults (s : State) (u : Nat) : State :=
  let s := completeResults s u fun _ => true
  match lookup s.waves u with
  | none => s
  | some w =>
    let (ready, late) := w.pending.partition (·.ready)
    if ready.isEmpty then s else setWave s u { ready.foldl (fun w p => applyWrites w p.writes) w with pending := late }

/-- FENCE of release at a scope (R111): the core's path performs at cluster, device or system scope. -/
def fenceRelease (s : State) (c scope : Nat) : State := if scope ≥ 2 then drainPath s c else s
/-- FENCE of acquire at a scope (R111): SHARED lines are dropped at cluster, device or system scope. -/
def fenceAcquire (s : State) (c scope : Nat) : State := if scope ≥ 2 then dropShared s c else s

/-- Every instruction-cache line of a context leaves a core (R112). -/
def dropCode (s : State) (c ctag : Nat) : State :=
  let k := coreOf s c
  setCore s c { k with icache := k.icache.filter fun e => e.2.1 != ctag }

/-- PC, BT and LT hold word addresses: every write to one of them ignores bits [1:0] (R212). -/
def alignControl (w : Wave) : Wave :=
  { w with pc := w.pc &&& ~~~3#64, bt := w.bt &&& ~~~3#64, lt := w.lt &&& ~~~3#64 }

end Sys2Proof.Machine
end

