-- ==== Sys2Proof/WellFormed.lean ====
section
/-! DEFINITION. Sys2Proof/WellFormed.lean: which decoded words are well formed: the codes and pairs that R214 and the entries fix whatever
MODE holds. The checks that need MODE.TYPE stand in Machine/Issue.lean (R257). -/
namespace Sys2Proof

/-- A register field that names an even/odd pair (R214). -/
def even (r : BitVec 6) : Bool := r.toNat % 2 == 0

/-- The element type that SATOMF's type code names (R292). -/
def satomfType (t : Nat) : Nat :=
  match t with
  | 0 => 0
  | 1 => 1
  | 2 => 6
  | 3 => 7
  | _ => 8

/-- Whether Table 11.2 gives an atomic operation for a type: add, min and max for integers, fadd and fmax for f32, the rest for both. -/
def atomAllowed (ty op : Nat) : Bool :=
  if op ≤ 2 then ty != 8 else if op ≤ 7 then true else ty == 8

/-- The control-register indices of Table 8.8. -/
def ctlIndex (i : Nat) : Bool :=
  decide (i ≤ 3) || decide (0x10 ≤ i ∧ i ≤ 0x11) || decide (0x18 ≤ i ∧ i ≤ 0x20) || i == 0x28 || decide (0x40 ≤ i ∧ i ≤ 0x47)
    || decide (0x50 ≤ i ∧ i ≤ 0x53)

/-- Whether a decoded word is well formed (R214, R217 and the entries of Tables 9.1 to 13.1). -/
def wellFormed (i : Instr) : Bool :=
  match i with
  | .nop _ => true
  | .halt => true
  | .setbt _ _ => true
  | .setbts _ _ => true
  | .setlt _ _ => true
  | .setlc _ _ => true
  | .savepc _ _ _ => true
  | .setmode _ _ => true
  | .getmode _ _ => true
  | .scmp _ _ _ _ _ => true
  | .scmpi _ _ _ _ _ => true
  | .readsr _ _ i => decide (i.toNat ≤ 13)
  | .ssel _ _ _ _ f => decide (f.toNat ≤ 2)
  | .smovi _ _ _ => true
  | .smovk1 _ _ _ => true
  | .sadd _ _ _ _ _ => true
  | .ssub _ _ _ _ _ => true
  | .smul _ _ _ _ => true
  | .smulh _ _ _ _ _ => true
  | .sdiv _ _ _ _ _ => true
  | .srem _ _ _ _ _ => true
  | .sand _ _ _ _ => true
  | .sor _ _ _ _ => true
  | .sxor _ _ _ _ => true
  | .sshl _ _ _ _ => true
  | .sshr _ _ _ _ => true
  | .ssra _ _ _ _ => true
  | .smin _ _ _ _ _ => true
  | .smax _ _ _ _ _ => true
  | .sld _ _ _ _ _ => true
  | .sldi _ _ _ w _ => decide (w.toNat ≠ 7)
  | .sst _ _ _ _ _ => true
  | .ssti _ _ _ w _ => w.toNat % 2 == 0
  | .satom _ d _ p o => decide (p.toNat ≤ 4) && !(o.toNat == 7 && d.toNat == 63)
  | .scnt _ _ _ c => decide (c.toNat ≤ 2)
  | .saddi _ _ _ _ => true
  | .sandi _ _ _ _ => true
  | .sori _ _ _ _ => true
  | .sshli _ _ _ _ => true
  | .sshri _ _ _ _ => true
  | .ssrai _ _ _ _ => true
  | .smuli _ _ _ _ => true
  | .sext _ _ _ w => decide (w.toNat ≤ 6) && decide (w.toNat ≠ 3)
  | .smovk2 _ _ _ => true
  | .smovk3 _ _ _ => true
  | .vadd _ _ _ _ => true
  | .vsub _ _ _ _ => true
  | .vmul _ _ _ _ => true
  | .vmad _ _ _ _ _ => true
  | .vmin _ _ _ _ => true
  | .vmax _ _ _ _ => true
  | .vabs _ _ _ => true
  | .vneg _ _ _ => true
  | .vdiv _ _ _ _ _ => true
  | .vrem _ _ _ _ => true
  | .vsqrt _ _ _ _ => true
  | .vrcp _ _ _ _ => true
  | .vrsq _ _ _ _ => true
  | .vexp2 _ _ _ _ => true
  | .vlog2 _ _ _ _ => true
  | .vsincos _ d _ _ => even d
  | .vand _ _ _ _ => true
  | .vor _ _ _ _ => true
  | .vxor _ _ _ _ => true
  | .vnot _ _ _ => true
  | .vshl _ _ _ _ => true
  | .vshr _ _ _ _ => true
  | .vsra _ _ _ _ => true
  | .vmulh _ _ _ _ => true
  | .vcmp _ _ _ _ _ => true
  | .vsel _ _ _ _ _ => true
  | .vcvt _ _ _ t _ _ => decide (t.toNat ≤ 10)
  | .vclass _ _ _ => true
  | .vaddi _ _ _ _ => true
  | .vmovs _ _ _ => true
  | .vmovi _ _ _ => true
  | .vmov _ _ _ => true
  | .vlane _ _ => true
  | .vperm _ _ _ _ => true
  | .vshfl _ _ _ _ _ => true
  | .vred _ _ _ o => decide (o.toNat ≤ 5)
  | .vscan _ _ _ _ o => decide (o.toNat ≤ 5)
  | .vextr _ _ _ _ => true
  | .vinsr _ _ _ _ => true
  | .vvote _ _ _ s => decide (s.toNat ≤ 2)
  | .vvotePballot _ _ _ => true
  | .vpack _ _ _ _ _ => true
  | .vunpk _ _ _ _ => true
  | .vcmpi _ _ _ _ _ => true
  | .vdot4 _ _ _ _ => true
  | .vdot2 _ _ _ _ => true
  | .vbfe _ _ _ _ _ => true
  | .vbfi _ _ _ _ => true
  | .vcnt _ _ _ s => decide (s.toNat ≤ 2)
  | .vtilth _ _ _ _ => true
  | .vuntilth _ _ _ => true
  | .vexpo _ _ _ => true
  | .vldexp _ _ _ _ => true
  | .pand _ _ _ _ _ => true
  | .por _ _ _ _ _ => true
  | .pxor _ _ _ _ _ => true
  | .pnot _ _ _ => true
  | .pmov _ _ _ => true
  | .pmovFs _ _ _ => true
  | .pmovTs _ _ _ => true
  | .pcnt _ _ _ => true
  | .pfirst _ _ _ _ => true
  | .pseti _ _ _ c => decide (c.toNat ≤ 32)
  | .planes _ _ _ => true
  | .vld _ _ _ _ _ => true
  | .vst _ _ _ _ _ => true
  | .vlds _ _ _ _ _ => true
  | .vsts _ _ _ _ _ => true
  | .vldb _ _ _ _ _ => true
  | .vatom _ _ _ p _ o => decide (p.toNat ≤ 4) && decide (o.toNat ≤ 9)
  | .satomf _ d _ t p o => decide (p.toNat ≤ 4) && decide (o.toNat ≤ 9) && decide (t.toNat ≤ 4) && atomAllowed (satomfType t.toNat) o.toNat && !(o.toNat == 7 && d.toNat == 63)
  | .fence _ p _ => decide (p.toNat ≤ 4)
  | .prefetch _ _ _ _ => true
  | .cflush _ _ _ _ => true
  | .locq _ _ _ => true
  | .palloc _ _ _ _ _ => true
  | .pfree _ _ => true
  | .parm _ _ _ => true
  | .pld _ _ a _ => even a
  | .pst _ _ a _ => even a
  | .pstate _ _ _ => true
  | .pwait _ _ => true
  | .cpy _ d _ _ _ => even d
  | .cpyt _ d _ _ _ => even d
  | .cpyim _ d _ _ _ => even d
  | .cpym _ d _ _ _ => even d
  | .cpyout _ d _ _ _ _ => even d
  | .publish _ _ _ => true
  | .xeng _ _ _ => true
  | .cpybar _ _ _ => true
  | .pinfo _ _ _ _ => true
  | .yacq _ _ => true
  | .yrel _ => true
  | .ystat _ _ => true
  | .mloadb _ d q _ => even d && decide (q.toNat ≠ 3)
  | .mrun _ d _ _ => even d
  | .mzero _ _ => true
  | .mreadg _ _ _ => true
  | .mhalt _ _ => true
  | .mdrain _ => true
  | .msave _ _ => true
  | .mrest _ _ => true
  | .mbands _ _ => true
  | .mcadr _ _ _ _ _ t => decide (t.toNat ≤ 2)
  | .maccg _ _ _ => true
  | .barrive _ _ _ _ => true
  | .bwait _ _ _ => true
  | .bjoin _ _ _ => true
  | .bleave _ _ _ => true
  | .binit _ _ _ p => decide (1 ≤ p.toNat) && decide (p.toNat ≤ 4)
  | .evbind _ _ a _ t => decide (t.toNat ≤ 5) && !((t.toNat == 2 || t.toNat == 5) && a != 0#6)
  | .evunb _ _ => true
  | .evmask _ _ s => decide (s.toNat ≤ 2)
  | .evpend _ _ => true
  | .evclr _ _ => true
  | .waitany _ _ => true
  | .mbsend _ _ _ _ _ => true
  | .mbrecv _ _ _ => true
  | .sleep _ _ => true
  | .sleepEv _ _ _ => true
  | .gbar _ => true
  | .invoke _ d _ b => even d && even b
  | .invokef _ d _ b => even d && even b
  | .fget _ d a _ => even d && even a
  | .fpoll _ d a _ => even d && even a
  | .fdrop _ a => even a
  | .taskarg _ d _ => even d
  | .taskret _ a => even a
  | .taskbrk _ _ => true
  | .launch _ _ _ _ => true
  | .depsig _ _ _ => true
  | .regroup _ _ _ => true
  | .trap _ => true
  | .tret _ => true
  | .ctlr _ _ i => ctlIndex i.toNat
  | .ctlw _ _ i => ctlIndex i.toNat
  | .tlbinv _ _ _ => true
  | .tlbinvAll _ => true
  | .brk _ => true
  | .perfr _ _ _ => true
  | .yield _ => true
  | .llResultWrite _ => true
  | .translationWalk _ _ _ => true
  | .faultResponse _ _ => true
  | .faultQueueHeadUpdate _ => true
  | .fqcfgWrite _ => true
  | .writeThroughPerform _ => true
  | .sliceAtomicPerform _ => true
  | .predictorDecay => true
  | .lineEviction _ => true
  | .hostSnoop _ _ => true
  | .hostMemAccess _ _ _ _ => true
  | .rdmaWrite _ _ => true
  | .peerRequest _ _ => true
  | .peerResponse _ _ _ => true
  | .peerTimeout => true
  | .barrierUnitOperation _ => true
  | .transferBlock _ => true
  | .plotAccessEnd _ _ => true
  | .publishPoint _ => true
  | .rowInjection _ => true
  | .rowGarnerUpdate _ => true
  | .bandUp _ => true
  | .leaseEnd _ => true
  | .taskArrival _ => true
  | .sheafTimeout _ _ => true
  | .poolGrant _ _ => true
  | .frtTaskEnd _ => true
  | .forwardArrival _ => true
  | .dropArrival _ => true
  | .futureAnswerArrival _ _ => true
  | .peerTaskMessage _ _ _ => true
  | .recordTake _ _ => true
  | .taskRecordTake _ _ => true
  | .fabricEnqueue _ _ => true
  | .overflowMove _ _ _ => true
  | .leadershipMove _ _ _ => true
  | .leaderThrottleTimeout => true
  | .groupBind _ => true
  | .groupResident _ => true
  | .gangWaitTimeout _ => true
  | .firedEntryTake _ => true
  | .rotationTick => true
  | .freezeBegin _ => true
  | .freezeEnd _ => true
  | .telemetrySample _ _ _ _ _ => true
  | .emergencyExit => true
  | .thermalTrip _ => true
  | .thermalTripRelease _ => true
  | .droopTrip _ => true
  | .stretchEnd _ => true
  | .halvedIssueEnd _ => true
  | .pwcWatchdogExpiry => true
  | .reeveWatchdogExpiry _ => true
  | .dieResetDone => true
  | .ageingReplan _ _ => true
  | .eventTimerExpiry _ _ => true
  | .sleepExpiry _ => true
  | .preemptD1Expiry _ => true
  | .preemptD2Expiry _ => true
  | .autoSurrender _ => true
  | .contextSaveComplete _ => true
  | .restoreBind _ => true
  | .ctxLoad _ _ => true
  | .ctxDestroy _ _ => true
  | .preempt _ _ _ _ => true
  | .restore _ _ _ => true
  | .killRegion _ _ _ => true
  | .tlbinvCommand _ _ _ _ => true
  | .summary _ _ _ => true
  | .dieDrain _ _ => true
  | .dieOnline _ _ => true
  | .keyLoad _ _ _ => true
  | .keyEmpty _ _ => true
  | .debugAttach _ _ => true
  | .debugDetach _ _ => true
  | .debugResume _ _ _ _ _ => true
  | .peerWindow _ _ _ _ _ _ _ => true
  | .peerBind _ _ _ _ => true
  | .fwUpdate _ _ _ _ => true
  | .lcChange _ _ => true
  | .warmReset => true
  | .mgmtBadRecord _ => true
  | .eventRecordWrite => true
  | .eventQueueHeadUpdate _ => true
  | .frtbaseWrite _ _ => true
  | .nodeidWrite _ => true
  | .rotcfgWrite _ => true
  | .registerWrite _ _ => true
  | .coldReset _ => true
  | .dieLoss _ => true
  | .linkUp _ _ => true
  | .linkDown _ => true
  | .spdmRequest _ => true
  | .queueDescriptorEnWrite _ _ _ _ => true
  | .msaveMrestComplete _ => true
  | .cflushComplete _ => true
  | .agestatDaysIncrement => true

end Sys2Proof
end

