-- ==== Sys2Proof/Machine/Operands.lean ====
section
/-! DEFINITION. Sys2Proof/Machine/Operands.lean: operand forms: elements of vector registers (R257), the registers that an instruction names
(R220), the checks of R214 that need MODE.TYPE, results that are written later (R218), and lookahead windows (R219). -/
namespace Sys2Proof.Machine

/-- The element of a vector operand in a lane (R257): a pair for a 64-bit type, else the low bits of the lane. -/
def Wave.elem (w : Wave) (ty r lane : Nat) : Nat :=
  if isWide ty then (w.pair64 r lane).toNat else (w.lane r lane).toNat % 2 ^ typeBits ty

/-- Write elements into the chosen lanes (R257): extended to the lane, or as a pair. -/
def Wave.putElems (w : Wave) (ty r : Nat) (mask : Word) (f : Nat → Nat) : Wave :=
  if isWide ty then
    (w.setLanes r mask fun i => BitVec.ofNat 32 (f i)).setLanes (r + 1) mask fun i => BitVec.ofNat 32 (f i / 2 ^ 32)
  else w.setLanes r mask fun i => BitVec.ofNat 32 (extendElem ty (f i))

/-- A scalar operand as a register name; s0 names nothing (R218). -/
def sN (r : BitVec 6) : List RegName := if r = 0#6 then [] else [.s r.toNat]
/-- A reference pair (R318). -/
def sR (r : BitVec 6) : List RegName := sN r ++ [.s (r.toNat + 1)]
/-- A vector operand of one register. -/
def vN (r : BitVec 6) : List RegName := [.v r.toNat]
/-- A vector operand that is always a pair. -/
def vQ (r : BitVec 6) : List RegName := [.v r.toNat, .v (r.toNat + 1)]
/-- A vector operand that is a pair when TYPE is 64-bit. -/
def vW (ty : Nat) (r : BitVec 6) : List RegName := if isWide ty then vQ r else vN r
/-- Consecutive vector registers. -/
def vRun (r : BitVec 6) (n : Nat) : List RegName := (List.range n).map fun i => .v (r.toNat + i)
/-- Registers of one element vector. -/
def wideN (ty : Nat) : Nat := if isWide ty then 2 else 1
/-- Source registers of a Tilth parcel (R282). -/
def tilthRegs (ty : Nat) : Nat := if ty = 12 then 2 else if ty = 11 then 4 else 1
/-- An even register where TYPE is 64-bit (R257). -/
def evenIf (ty : Nat) (r : BitVec 6) : Bool := !isWide ty || even r

/-- The scalar and vector registers that an instruction reads or writes (R220), given TYPE, and whether a PLD or PST meets a plot of a 64-bit
format (R323). Predicates are never watched (R218). -/
def regsOf (i : Instr) (ty : Nat) (wide : Bool) : List RegName :=
  match i with
  | .nop _ => []
  | .halt  => []
  | .setbt _ _ => []
  | .setbts _ a => sN a
  | .setlt _ _ => []
  | .setlc _ a => sN a
  | .savepc _ d _ => sN d
  | .setmode _ a => sN a
  | .getmode _ d => sN d
  | .scmp _ _ a b _ => sN a ++ sN b
  | .scmpi _ _ _ a _ => sN a
  | .readsr _ d _ => sN d
  | .ssel _ d a b _ => sN d ++ sN a ++ sN b
  | .smovi _ d _ => sN d
  | .smovk1 _ d _ => sN d
  | .sadd _ d a b _ => sN d ++ sN a ++ sN b
  | .ssub _ d a b _ => sN d ++ sN a ++ sN b
  | .smul _ d a b => sN d ++ sN a ++ sN b
  | .smulh _ d a b _ => sN d ++ sN a ++ sN b
  | .sdiv _ d a b _ => sN d ++ sN a ++ sN b
  | .srem _ d a b _ => sN d ++ sN a ++ sN b
  | .sand _ d a b => sN d ++ sN a ++ sN b
  | .sor _ d a b => sN d ++ sN a ++ sN b
  | .sxor _ d a b => sN d ++ sN a ++ sN b
  | .sshl _ d a b => sN d ++ sN a ++ sN b
  | .sshr _ d a b => sN d ++ sN a ++ sN b
  | .ssra _ d a b => sN d ++ sN a ++ sN b
  | .smin _ d a b _ => sN d ++ sN a ++ sN b
  | .smax _ d a b _ => sN d ++ sN a ++ sN b
  | .sld _ d a b _ => sN d ++ sN a ++ sN b
  | .sldi _ d a _ _ => sN d ++ sN a
  | .sst _ d a b _ => sN d ++ sN a ++ sN b
  | .ssti _ d a _ _ => sN d ++ sN a
  | .satom _ d a _ o => sN d ++ sN a ++ (if o.toNat = 7 then [.s (d.toNat + 1)] else [])
  | .scnt _ d a _ => sN d ++ sN a
  | .saddi _ d a _ => sN d ++ sN a
  | .sandi _ d a _ => sN d ++ sN a
  | .sori _ d a _ => sN d ++ sN a
  | .sshli _ d a _ => sN d ++ sN a
  | .sshri _ d a _ => sN d ++ sN a
  | .ssrai _ d a _ => sN d ++ sN a
  | .smuli _ d a _ => sN d ++ sN a
  | .sext _ d a _ => sN d ++ sN a
  | .smovk2 _ d _ => sN d
  | .smovk3 _ d _ => sN d
  | .vadd _ d a b => vW ty d ++ vW ty a ++ vW ty b
  | .vsub _ d a b => vW ty d ++ vW ty a ++ vW ty b
  | .vmul _ d a b => vW ty d ++ vW ty a ++ vW ty b
  | .vmad _ d a b _ => vW ty d ++ vW ty a ++ vW ty b
  | .vmin _ d a b => vW ty d ++ vW ty a ++ vW ty b
  | .vmax _ d a b => vW ty d ++ vW ty a ++ vW ty b
  | .vabs _ d a => vW ty d ++ vW ty a
  | .vneg _ d a => vW ty d ++ vW ty a
  | .vdiv _ d a b _ => vW ty d ++ vW ty a ++ vW ty b
  | .vrem _ d a b => vW ty d ++ vW ty a ++ vW ty b
  | .vsqrt _ d a _ => vW ty d ++ vW ty a
  | .vrcp _ d a _ => vW ty d ++ vW ty a
  | .vrsq _ d a _ => vW ty d ++ vW ty a
  | .vexp2 _ d a _ => vW ty d ++ vW ty a
  | .vlog2 _ d a _ => vW ty d ++ vW ty a
  | .vsincos _ d a _ => vQ d ++ vW ty a
  | .vand _ d a b => vW ty d ++ vW ty a ++ vW ty b
  | .vor _ d a b => vW ty d ++ vW ty a ++ vW ty b
  | .vxor _ d a b => vW ty d ++ vW ty a ++ vW ty b
  | .vnot _ d a => vW ty d ++ vW ty a
  | .vshl _ d a b => vW ty d ++ vW ty a ++ vW ty b
  | .vshr _ d a b => vW ty d ++ vW ty a ++ vW ty b
  | .vsra _ d a b => vW ty d ++ vW ty a ++ vW ty b
  | .vmulh _ d a b => vW ty d ++ vW ty a ++ vW ty b
  | .vcmp _ _ a b _ => vW ty a ++ vW ty b
  | .vsel _ d a b _ => vW ty d ++ vW ty a ++ vW ty b
  | .vcvt _ d a t _ _ => vW ty d ++ vW t.toNat a
  | .vclass _ d a => vW ty d ++ vW ty a
  | .vaddi _ d a _ => vW ty d ++ vW ty a
  | .vmovs _ d a => vW ty d ++ sN a
  | .vmovi _ d _ => vW ty d
  | .vmov _ d a => vW ty d ++ vW ty a
  | .vlane _ d => vN d
  | .vperm _ d a b => vW ty d ++ vW ty a ++ vW ty b
  | .vshfl _ d a _ _ => vW ty d ++ vW ty a
  | .vred _ d a _ => sN d ++ vW ty a
  | .vscan _ d a _ _ => vW ty d ++ vW ty a
  | .vextr _ d a b => sN d ++ vW ty a ++ sN b
  | .vinsr _ d a b => vW ty d ++ sN a ++ sN b
  | .vvote _ d a _ => sN d ++ vN a
  | .vvotePballot _ _ a => vN a
  | .vpack _ d a _ _ => vW ty d ++ vW ty a
  | .vunpk _ d a _ => vW ty d ++ vW ty a
  | .vcmpi _ _ _ a _ => vW ty a
  | .vdot4 _ d a b => vW ty d ++ vW ty a ++ vW ty b
  | .vdot2 _ d a b => vW ty d ++ vW ty a ++ vW ty b
  | .vbfe _ d a b _ => vN d ++ vN a ++ vN b
  | .vbfi _ d a b => vN d ++ vN a ++ vN b
  | .vcnt _ d a _ => vN d ++ vN a
  | .vtilth _ d a b => vW ty d ++ vRun a (tilthRegs ty) ++ sN b
  | .vuntilth _ d a => vRun d (tilthRegs ty) ++ vW ty a
  | .vexpo _ d a => vW ty d ++ vW ty a
  | .vldexp _ d a b => vW ty d ++ vW ty a ++ vW ty b
  | .pand _ _ _ _ _ => []
  | .por _ _ _ _ _ => []
  | .pxor _ _ _ _ _ => []
  | .pnot _ _ _ => []
  | .pmov _ _ _ => []
  | .pmovFs _ _ a => sN a
  | .pmovTs _ d _ => sN d
  | .pcnt _ d _ => sN d
  | .pfirst _ d _ _ => sN d
  | .pseti _ _ _ _ => []
  | .planes _ _ _ => []
  | .vld _ d a b _ => vW ty d ++ sN a ++ vN b
  | .vst _ d a b _ => vW ty d ++ sN a ++ vN b
  | .vlds _ d a b _ => vW ty d ++ sN a ++ sN b
  | .vsts _ d a b _ => vW ty d ++ sN a ++ sN b
  | .vldb _ d a b _ => vW ty d ++ sN a ++ sN b
  | .vatom _ d a _ k o => vRun d (if o.toNat = 7 then 2 * wideN ty else wideN ty) ++ sN a ++ [.v k.toNat]
  | .satomf _ d a _ _ o => sN d ++ sN a ++ (if o.toNat = 7 then [.s (d.toNat + 1)] else [])
  | .fence _ _ _ => []
  | .prefetch _ a b _ => sN a ++ sN b
  | .cflush _ a b _ => sN a ++ sN b
  | .locq _ d a => sN d ++ sN a
  | .palloc _ _ a b _ => sN a ++ sN b
  | .pfree _ a => sN a
  | .parm _ a b => sN a ++ sN b
  | .pld _ d a _ => (if wide then vQ d else vN d) ++ sR a
  | .pst _ d a _ => (if wide then vQ d else vN d) ++ sR a
  | .pstate _ d a => sN d ++ sN a
  | .pwait _ a => sN a
  | .cpy _ d a b _ => sR d ++ sN a ++ vN b
  | .cpyt _ d a b _ => sR d ++ sN a ++ sN b
  | .cpyim _ d a b _ => sR d ++ sN a ++ sN b
  | .cpym _ d a b _ => sR d ++ sN a ++ sN b
  | .cpyout _ d a b _ _ => sR d ++ sN a ++ sN b
  | .publish _ a b => sN a ++ sN b
  | .xeng _ d a => sN d ++ sN a
  | .cpybar _ d a => sN d ++ sN a
  | .pinfo _ d a _ => sN d ++ sN a
  | .yacq _ a => sN a
  | .yrel _ => []
  | .ystat _ d => sN d
  | .mloadb _ d _ _ => sR d
  | .mrun _ d a _ => sR d ++ sN a
  | .mzero _ a => sN a
  | .mreadg _ d a => vN d ++ sN a
  | .mhalt _ d => sN d
  | .mdrain _ => []
  | .msave _ a => sN a
  | .mrest _ a => sN a
  | .mbands _ a => sN a
  | .mcadr _ d a b _ _ => sN d ++ sN a ++ sN b
  | .maccg _ d a => vN d ++ sN a
  | .barrive _ d a b => sN d ++ sN a ++ sN b
  | .bwait _ a b => sN a ++ sN b
  | .bjoin _ d a => sN d ++ sN a
  | .bleave _ d a => sN d ++ sN a
  | .binit _ a b _ => sN a ++ sN b
  | .evbind _ _ a b _ => sN a ++ sN b
  | .evunb _ _ => []
  | .evmask _ a _ => sN a
  | .evpend _ d => sN d
  | .evclr _ a => sN a
  | .waitany d a => sN d ++ sN a
  | .mbsend _ d a b _ => sN d ++ sN a ++ sN b
  | .mbrecv _ d a => sN d ++ sN a
  | .sleep _ a => sN a
  | .sleepEv _ d a => sN d ++ sN a
  | .gbar _ => []
  | .invoke _ d a b => vQ d ++ sN a ++ vQ b
  | .invokef _ d a b => vQ d ++ sN a ++ vQ b
  | .fget _ d a b => vQ d ++ vQ a ++ vN b
  | .fpoll _ d a b => vQ d ++ vQ a ++ vN b
  | .fdrop _ a => vQ a
  | .taskarg _ d _ => vQ d
  | .taskret _ a => vQ a
  | .taskbrk _ a => sN a
  | .launch _ d a b => sN d ++ sN a ++ sN b
  | .depsig _ d a => sN d ++ sN a
  | .regroup _ a b => sN a ++ sN b
  | .trap _ => []
  | .tret _ => []
  | .ctlr _ d _ => sN d
  | .ctlw _ d _ => sN d
  | .tlbinv _ a b => sN a ++ sN b
  | .tlbinvAll _ => []
  | .brk _ => []
  | .perfr _ d _ => sN d
  | .yield _ => []
  | .llResultWrite _ => []
  | .translationWalk _ _ _ => []
  | .faultResponse _ _ => []
  | .faultQueueHeadUpdate _ => []
  | .fqcfgWrite _ => []
  | .writeThroughPerform _ => []
  | .sliceAtomicPerform _ => []
  | .predictorDecay => []
  | .lineEviction _ => []
  | .hostSnoop _ _ => []
  | .hostMemAccess _ _ _ _ => []
  | .rdmaWrite _ _ => []
  | .peerRequest _ _ => []
  | .peerResponse _ _ _ => []
  | .peerTimeout => []
  | .barrierUnitOperation _ => []
  | .transferBlock _ => []
  | .plotAccessEnd _ _ => []
  | .publishPoint _ => []
  | .rowInjection _ => []
  | .rowGarnerUpdate _ => []
  | .bandUp _ => []
  | .leaseEnd _ => []
  | .taskArrival _ => []
  | .sheafTimeout _ _ => []
  | .poolGrant _ _ => []
  | .frtTaskEnd _ => []
  | .forwardArrival _ => []
  | .dropArrival _ => []
  | .futureAnswerArrival _ _ => []
  | .peerTaskMessage _ _ _ => []
  | .recordTake _ _ => []
  | .taskRecordTake _ _ => []
  | .fabricEnqueue _ _ => []
  | .overflowMove _ _ _ => []
  | .leadershipMove _ _ _ => []
  | .leaderThrottleTimeout => []
  | .groupBind _ => []
  | .groupResident _ => []
  | .gangWaitTimeout _ => []
  | .firedEntryTake _ => []
  | .rotationTick => []
  | .freezeBegin _ => []
  | .freezeEnd _ => []
  | .telemetrySample _ _ _ _ _ => []
  | .emergencyExit => []
  | .thermalTrip _ => []
  | .thermalTripRelease _ => []
  | .droopTrip _ => []
  | .stretchEnd _ => []
  | .halvedIssueEnd _ => []
  | .pwcWatchdogExpiry => []
  | .reeveWatchdogExpiry _ => []
  | .dieResetDone => []
  | .ageingReplan _ _ => []
  | .eventTimerExpiry _ _ => []
  | .sleepExpiry _ => []
  | .preemptD1Expiry _ => []
  | .preemptD2Expiry _ => []
  | .autoSurrender _ => []
  | .contextSaveComplete _ => []
  | .restoreBind _ => []
  | .ctxLoad _ _ => []
  | .ctxDestroy _ _ => []
  | .preempt _ _ _ _ => []
  | .restore _ _ _ => []
  | .killRegion _ _ _ => []
  | .tlbinvCommand _ _ _ _ => []
  | .summary _ _ _ => []
  | .dieDrain _ _ => []
  | .dieOnline _ _ => []
  | .keyLoad _ _ _ => []
  | .keyEmpty _ _ => []
  | .debugAttach _ _ => []
  | .debugDetach _ _ => []
  | .debugResume _ _ _ _ _ => []
  | .peerWindow _ _ _ _ _ _ _ => []
  | .peerBind _ _ _ _ => []
  | .fwUpdate _ _ _ _ => []
  | .lcChange _ _ => []
  | .warmReset => []
  | .mgmtBadRecord _ => []
  | .eventRecordWrite => []
  | .eventQueueHeadUpdate _ => []
  | .frtbaseWrite _ _ => []
  | .nodeidWrite _ => []
  | .rotcfgWrite _ => []
  | .registerWrite _ _ => []
  | .coldReset _ => []
  | .dieLoss _ => []
  | .linkUp _ _ => []
  | .linkDown _ => []
  | .spdmRequest _ => []
  | .queueDescriptorEnWrite _ _ _ _ => []
  | .msaveMrestComplete _ => []
  | .cflushComplete _ => []
  | .agestatDaysIncrement => []

/-- The checks of R214 and the entries that need MODE.TYPE: pairs of 64-bit types (R257), slots of VPACK and VUNPK (R277), the registers of a
parcel (R282, R283), and the compare register of VATOM (R291). -/
def wellFormedIn (i : Instr) (ty : Nat) : Bool :=
  match i with
  | .nop _ => true
  | .halt  => true
  | .setbt _ _ => true
  | .setbts _ _ => true
  | .setlt _ _ => true
  | .setlc _ _ => true
  | .savepc _ _ _ => true
  | .setmode _ _ => true
  | .getmode _ _ => true
  | .scmp _ _ _ _ _ => true
  | .scmpi _ _ _ _ _ => true
  | .readsr _ _ _ => true
  | .ssel _ _ _ _ _ => true
  | .smovi _ _ _ => true
  | .smovk1 _ _ _ => true
  | .sadd _ _ _ _ _ => true
  | .ssub _ _ _ _ _ => true
  | .smul _ _ _ _ => true
  | .smulh _ _ _ _ _ => true
  | .sdiv _ _ _ _ _ => true
  | .srem _ _ _ _ _ => true
  | .sand _ _ _ _ => true
  | .sor _ _ _ _ => true
  | .sxor _ _ _ _ => true
  | .sshl _ _ _ _ => true
  | .sshr _ _ _ _ => true
  | .ssra _ _ _ _ => true
  | .smin _ _ _ _ _ => true
  | .smax _ _ _ _ _ => true
  | .sld _ _ _ _ _ => true
  | .sldi _ _ _ _ _ => true
  | .sst _ _ _ _ _ => true
  | .ssti _ _ _ _ _ => true
  | .satom _ _ _ _ _ => true
  | .scnt _ _ _ _ => true
  | .saddi _ _ _ _ => true
  | .sandi _ _ _ _ => true
  | .sori _ _ _ _ => true
  | .sshli _ _ _ _ => true
  | .sshri _ _ _ _ => true
  | .ssrai _ _ _ _ => true
  | .smuli _ _ _ _ => true
  | .sext _ _ _ _ => true
  | .smovk2 _ _ _ => true
  | .smovk3 _ _ _ => true
  | .vadd _ d a b => evenIf ty d && evenIf ty a && evenIf ty b
  | .vsub _ d a b => evenIf ty d && evenIf ty a && evenIf ty b
  | .vmul _ d a b => evenIf ty d && evenIf ty a && evenIf ty b
  | .vmad _ d a b _ => evenIf ty d && evenIf ty a && evenIf ty b
  | .vmin _ d a b => evenIf ty d && evenIf ty a && evenIf ty b
  | .vmax _ d a b => evenIf ty d && evenIf ty a && evenIf ty b
  | .vabs _ d a => evenIf ty d && evenIf ty a
  | .vneg _ d a => evenIf ty d && evenIf ty a
  | .vdiv _ d a b _ => evenIf ty d && evenIf ty a && evenIf ty b
  | .vrem _ d a b => evenIf ty d && evenIf ty a && evenIf ty b
  | .vsqrt _ d a _ => evenIf ty d && evenIf ty a
  | .vrcp _ d a _ => evenIf ty d && evenIf ty a
  | .vrsq _ d a _ => evenIf ty d && evenIf ty a
  | .vexp2 _ d a _ => evenIf ty d && evenIf ty a
  | .vlog2 _ d a _ => evenIf ty d && evenIf ty a
  | .vsincos _ _ a _ => evenIf ty a
  | .vand _ d a b => evenIf ty d && evenIf ty a && evenIf ty b
  | .vor _ d a b => evenIf ty d && evenIf ty a && evenIf ty b
  | .vxor _ d a b => evenIf ty d && evenIf ty a && evenIf ty b
  | .vnot _ d a => evenIf ty d && evenIf ty a
  | .vshl _ d a b => evenIf ty d && evenIf ty a && evenIf ty b
  | .vshr _ d a b => evenIf ty d && evenIf ty a && evenIf ty b
  | .vsra _ d a b => evenIf ty d && evenIf ty a && evenIf ty b
  | .vmulh _ d a b => evenIf ty d && evenIf ty a && evenIf ty b
  | .vcmp _ _ a b _ => evenIf ty a && evenIf ty b
  | .vsel _ d a b _ => evenIf ty d && evenIf ty a && evenIf ty b
  | .vcvt _ d a t _ _ => evenIf ty d && evenIf t.toNat a
  | .vclass _ d a => evenIf ty d && evenIf ty a
  | .vaddi _ d a _ => evenIf ty d && evenIf ty a
  | .vmovs _ d _ => evenIf ty d
  | .vmovi _ d _ => evenIf ty d
  | .vmov _ d a => evenIf ty d && evenIf ty a
  | .vlane _ _ => true
  | .vperm _ d a b => evenIf ty d && evenIf ty a && evenIf ty b
  | .vshfl _ d a _ _ => evenIf ty d && evenIf ty a
  | .vred _ _ a _ => evenIf ty a
  | .vscan _ d a _ _ => evenIf ty d && evenIf ty a
  | .vextr _ _ a _ => evenIf ty a
  | .vinsr _ d _ _ => evenIf ty d
  | .vvote _ _ _ _ => true
  | .vvotePballot _ _ _ => true
  | .vpack _ d a _ s => evenIf ty d && evenIf ty a && decide (s.toNat * typeBits ty < 32)
  | .vunpk _ d a s => evenIf ty d && evenIf ty a && decide (s.toNat * typeBits ty < 32)
  | .vcmpi _ _ _ a _ => evenIf ty a
  | .vdot4 _ d a b => evenIf ty d && evenIf ty a && evenIf ty b
  | .vdot2 _ d a b => evenIf ty d && evenIf ty a && evenIf ty b
  | .vbfe _ _ _ _ _ => true
  | .vbfi _ _ _ _ => true
  | .vcnt _ _ _ _ => true
  | .vtilth _ d a _ => evenIf ty d && decide (a.toNat % tilthRegs ty = 0) && evenIf ty a
  | .vuntilth _ d a => decide (d.toNat % tilthRegs ty = 0) && evenIf ty d && evenIf ty a
  | .vexpo _ d a => evenIf ty d && evenIf ty a
  | .vldexp _ d a b => evenIf ty d && evenIf ty a && evenIf ty b
  | .pand _ _ _ _ _ => true
  | .por _ _ _ _ _ => true
  | .pxor _ _ _ _ _ => true
  | .pnot _ _ _ => true
  | .pmov _ _ _ => true
  | .pmovFs _ _ _ => true
  | .pmovTs _ _ _ => true
  | .pcnt _ _ _ => true
  | .pfirst _ _ _ _ => true
  | .pseti _ _ _ _ => true
  | .planes _ _ _ => true
  | .vld _ d _ _ _ => evenIf ty d
  | .vst _ d _ _ _ => evenIf ty d
  | .vlds _ d _ _ _ => evenIf ty d
  | .vsts _ d _ _ _ => evenIf ty d
  | .vldb _ d _ _ _ => evenIf ty d
  | .vatom _ d _ _ _ o => evenIf ty d && (o.toNat != 7 || decide (d.toNat + 2 * wideN ty ≤ 64))
  | .satomf _ _ _ _ _ _ => true
  | .fence _ _ _ => true
  | .prefetch _ _ _ _ => true
  | .cflush _ _ _ _ => true
  | .locq _ _ _ => true
  | .palloc _ _ _ _ _ => true
  | .pfree _ _ => true
  | .parm _ _ _ => true
  | .pld _ _ _ _ => true
  | .pst _ _ _ _ => true
  | .pstate _ _ _ => true
  | .pwait _ _ => true
  | .cpy _ _ _ _ _ => true
  | .cpyt _ _ _ _ _ => true
  | .cpyim _ _ _ _ _ => true
  | .cpym _ _ _ _ _ => true
  | .cpyout _ _ _ _ _ _ => true
  | .publish _ _ _ => true
  | .xeng _ _ _ => true
  | .cpybar _ _ _ => true
  | .pinfo _ _ _ _ => true
  | .yacq _ _ => true
  | .yrel _ => true
  | .ystat _ _ => true
  | .mloadb _ _ _ _ => true
  | .mrun _ _ _ _ => true
  | .mzero _ _ => true
  | .mreadg _ _ _ => true
  | .mhalt _ _ => true
  | .mdrain _ => true
  | .msave _ _ => true
  | .mrest _ _ => true
  | .mbands _ _ => true
  | .mcadr _ _ _ _ _ _ => true
  | .maccg _ _ _ => true
  | .barrive _ _ _ _ => true
  | .bwait _ _ _ => true
  | .bjoin _ _ _ => true
  | .bleave _ _ _ => true
  | .binit _ _ _ _ => true
  | .evbind _ _ _ _ _ => true
  | .evunb _ _ => true
  | .evmask _ _ _ => true
  | .evpend _ _ => true
  | .evclr _ _ => true
  | .waitany _ _ => true
  | .mbsend _ _ _ _ _ => true
  | .mbrecv _ _ _ => true
  | .sleep _ _ => true
  | .sleepEv _ _ _ => true
  | .gbar _ => true
  | .invoke _ _ _ _ => true
  | .invokef _ _ _ _ => true
  | .fget _ _ _ _ => true
  | .fpoll _ _ _ _ => true
  | .fdrop _ _ => true
  | .taskarg _ _ _ => true
  | .taskret _ _ => true
  | .taskbrk _ _ => true
  | .launch _ _ _ _ => true
  | .depsig _ _ _ => true
  | .regroup _ _ _ => true
  | .trap _ => true
  | .tret _ => true
  | .ctlr _ _ _ => true
  | .ctlw _ _ _ => true
  | .tlbinv _ _ _ => true
  | .tlbinvAll _ => true
  | .brk _ => true
  | .perfr _ _ _ => true
  | .yield _ => true
  | .llResultWrite _ => true
  | .translationWalk _ _ _ => true
  | .faultResponse _ _ => true
  | .faultQueueHeadUpdate _ => true
  | .fqcfgWrite _ => true
  | .writeThroughPerform _ => true
  | .sliceAtomicPerform _ => true
  | .predictorDecay  => true
  | .lineEviction _ => true
  | .hostSnoop _ _ => true
  | .hostMemAccess _ _ _ _ => true
  | .rdmaWrite _ _ => true
  | .peerRequest _ _ => true
  | .peerResponse _ _ _ => true
  | .peerTimeout => true
  | .barrierUnitOperation _ => true
  | .transferBlock _ => true
  | .plotAccessEnd _ _ => true
  | .publishPoint _ => true
  | .rowInjection _ => true
  | .rowGarnerUpdate _ => true
  | .bandUp _ => true
  | .leaseEnd _ => true
  | .taskArrival _ => true
  | .sheafTimeout _ _ => true
  | .poolGrant _ _ => true
  | .frtTaskEnd _ => true
  | .forwardArrival _ => true
  | .dropArrival _ => true
  | .futureAnswerArrival _ _ => true
  | .peerTaskMessage _ _ _ => true
  | .recordTake _ _ => true
  | .taskRecordTake _ _ => true
  | .fabricEnqueue _ _ => true
  | .overflowMove _ _ _ => true
  | .leadershipMove _ _ _ => true
  | .leaderThrottleTimeout => true
  | .groupBind _ => true
  | .groupResident _ => true
  | .gangWaitTimeout _ => true
  | .firedEntryTake _ => true
  | .rotationTick => true
  | .freezeBegin _ => true
  | .freezeEnd _ => true
  | .telemetrySample _ _ _ _ _ => true
  | .emergencyExit => true
  | .thermalTrip _ => true
  | .thermalTripRelease _ => true
  | .droopTrip _ => true
  | .stretchEnd _ => true
  | .halvedIssueEnd _ => true
  | .pwcWatchdogExpiry  => true
  | .reeveWatchdogExpiry _ => true
  | .dieResetDone => true
  | .ageingReplan _ _ => true
  | .eventTimerExpiry _ _ => true
  | .sleepExpiry _ => true
  | .preemptD1Expiry _ => true
  | .preemptD2Expiry _ => true
  | .autoSurrender _ => true
  | .contextSaveComplete _ => true
  | .restoreBind _ => true
  | .ctxLoad _ _ => true
  | .ctxDestroy _ _ => true
  | .preempt _ _ _ _ => true
  | .restore _ _ _ => true
  | .killRegion _ _ _ => true
  | .tlbinvCommand _ _ _ _ => true
  | .summary _ _ _ => true
  | .dieDrain _ _ => true
  | .dieOnline _ _ => true
  | .keyLoad _ _ _ => true
  | .keyEmpty _ _ => true
  | .debugAttach _ _ => true
  | .debugDetach _ _ => true
  | .debugResume _ _ _ _ _ => true
  | .peerWindow _ _ _ _ _ _ _ => true
  | .peerBind _ _ _ _ => true
  | .fwUpdate _ _ _ _ => true
  | .lcChange _ _ => true
  | .warmReset  => true
  | .mgmtBadRecord _ => true
  | .eventRecordWrite  => true
  | .eventQueueHeadUpdate _ => true
  | .frtbaseWrite _ _ => true
  | .nodeidWrite _ => true
  | .rotcfgWrite _ => true
  | .registerWrite _ _ => true
  | .coldReset _ => true
  | .dieLoss _ => true
  | .linkUp _ _ => true
  | .linkDown _ => true
  | .spdmRequest _ => true
  | .queueDescriptorEnWrite _ _ _ _ => true
  | .msaveMrestComplete _ => true
  | .cflushComplete _ => true
  | .agestatDaysIncrement  => true

/-- Open a lookahead window (R219): LA places, the watched registers, and the PC of the instruction. -/
def Wave.openWindow (w : Wave) (la : BitVec 4) (regs : List RegName) : Wave :=
  if la = 0#4 then w else { w with windows := w.windows ++ [⟨la.toNat, regs, w.pc⟩] }

/-- Record an outstanding result whose value is known (R218). -/
def Wave.addResult (w : Wave) (id : Nat) (regs : List RegName) (writes : List RegWrite) : Wave :=
  { w with pending := w.pending ++ [⟨id, regs, writes, true⟩] }

/-- Issue a long-latency instruction that touches no memory: its result waits, its window opens, and NX applies (R219, R265). -/
def llOp (s : State) (nx : BitVec 2) (la : BitVec 4) (f : Wave → List RegName × List RegWrite) : Out :=
  onWave s fun u w =>
    let (regs, writes) := f w
    setWave { s with uid := s.uid + 1 } u (((w.openWindow la regs).addResult s.uid regs writes).finish nx)

end Sys2Proof.Machine
end

