-- ==== Sys2Proof/Machine/Access.lean ====
section
/-! DEFINITION. Sys2Proof/Machine/Access.lean: loads, stores and atomics of waves: checks (R49, R253, R288), the private window (R42), the L1 and
the slices (R110), and peer accesses (R120). -/
namespace Sys2Proof.Machine

/-- A request to a peer (R120): the peer address, 0 read, 1 write or 2 atomic, and its operands; `words` are the words of an atomic, by their offset in
the peer's HBM, in lane order. `va` is the address of the lowest lane it serves, and `lanes` are all it serves. -/
structure PeerAsk where
  key : Nat
  kind : Nat
  n : Nat
  bytes : List Byte := []
  mask : List Bool := []
  op : Nat := 0
  ty : Nat := 0
  words : List (Nat × DWord × DWord) := []
  va : Nat := 0
  lanes : Word := 0

/-- The packet of a request (R28: node, die and offset of the peer address). -/
def PeerAsk.packet (a : PeerAsk) (id : Nat) : Packet :=
  let node := bitsAt a.key 40 12
  let die := bitsAt a.key 38 1
  let off := bitsAt a.key 0 38
  match a.kind with
  | 0 => .read id node die off a.n
  | 1 => .write id node die off a.bytes a.mask
  | _ => .atomic id node die a.n (BitVec.ofNat 4 a.op) (BitVec.ofNat 4 a.ty) a.words

/-- The port that carries a request (R120): a hash of the node and the block, so that all requests of a wave to one block take one port in order. -/
def PeerAsk.port (a : PeerAsk) : Nat := Config.peerPort (bitsAt a.key 40 12) (bitsAt a.key 0 40 / 64)

/-- The lane accesses of an instruction with their places. -/
abbrev Placed := List (LaneAcc × List (Place × Nat))

/-- Send the requests of one instruction; the wave waits for their answers, and keeps where its accesses go (R48). -/
def sendAsks (s : State) (u : Nat) (w : Wave) (l : Placed) (asks : List PeerAsk) : State :=
  let ids := (List.range asks.length).map (· + s.uid)
  let both := ids.zip asks
  setWave { s with uid := s.uid + asks.length, packets := s.packets ++ both.map fun e => e.2.packet e.1 } u
    { w with peer := both.map fun e => { id := e.1, key := e.2.key, kind := e.2.kind, sent := s.tsc.toNat, answer := none }, placed := l }

/-- Run an instruction that needs peers (R35, R120): send its requests, wait while one is unanswered, trap PEER_REFUSED for the lowest lane of a
refused one, else go on with the answers' bytes. `l` are the places of all its accesses, which stay what they were when the requests left (R48). -/
def withPeers (s : State) (u : Nat) (w : Wave) (l : Placed) (asks : List PeerAsk) (laneWise : Bool) (k : State → List (List Byte) → State) : State :=
  if asks.isEmpty then k s []
  else if w.peer.isEmpty then sendAsks s u w l asks
  else if w.peer.any (·.answer.isNone) then s
  else
    let s := setWave s u { w with peer := [], placed := [] }
    let bad := (w.peer.zip asks).filter fun e => match e.1.answer with
      | some (ok, _) => !ok
      | none => true
    match bad with
    | [] => k s (w.peer.map fun t => match t.answer with
        | some (_, b) => b
        | none => [])
    | e :: _ =>
      let lanes := bad.foldl (fun m x => m ||| x.2.lanes) 0#32
      let lowest := bad.foldl (fun b x => if trailingZeros x.2.lanes < trailingZeros b.lanes then x.2 else b) e.2
      takeTrap s u ⟨9, 10, argAddr lowest.va, lanes⟩ true laneWise

/-- The 64-byte blocks of peers that lane accesses touch, in order of first use (R120). -/
def peerBlocks (l : Placed) : List Nat :=
  (l.flatMap fun e => e.2.filterMap fun p => if p.1.loc = 2 then some (p.1.key / 64) else none).dedup

/-- The lanes and the first address that touch a peer block. -/
def blockLanes (l : Placed) (b : Nat) : Word × Nat :=
  let t := l.filter fun e => e.2.any fun p => p.1.loc == 2 && p.1.key / 64 == b
  (laneMask (t.map (·.1.lane)), (t.head?.map (·.1.va)).getD 0)

/-- Read requests: one for each piece of a scalar access, or one 64-byte block for each that a vector access touches (R120). -/
def readAsks (l : Placed) (scalar : Bool) : List PeerAsk :=
  if scalar then
    l.flatMap fun e => e.2.filterMap fun p =>
      if p.1.loc = 2 then some { key := p.1.key, kind := 0, n := p.2, va := e.1.va, lanes := 1#32 <<< e.1.lane } else none
  else
    (peerBlocks l).map fun b =>
      let (lanes, va) := blockLanes l b
      { key := b * 64, kind := 0, n := 64, va, lanes }

/-- The bytes of a place in the answers to read requests. -/
def peerBytes (asks : List PeerAsk) (scalar : Bool) (answers : List (List Byte)) (p : Place × Nat) : List Byte :=
  let base := if scalar then p.1.key else p.1.key / 64 * 64
  sliceBytes (answers.getD (asks.findIdx fun a => a.key == base) []) (p.1.key - base) p.2

/-- The bytes of a lane's store, each with its place: the pieces take them one after another (R42). -/
def pieceBytes (l : List (Place × Nat)) (b : List Byte) : List (Place × List Byte) :=
  match l with
  | [] => []
  | (p, n) :: t => (p, b.take n) :: pieceBytes t (b.drop n)

/-- Write requests: the bytes of a block that lanes write, later lanes over earlier ones (R127). -/
def writeAsks (l : List (Placed × List Byte)) : List PeerAsk :=
  let all : Placed := l.flatMap (·.1)
  (peerBlocks all).map fun b =>
    let (lanes, va) := blockLanes all b
    let cells := l.flatMap fun e => e.1.flatMap fun a => (pieceBytes a.2 e.2).flatMap fun p =>
      if p.1.loc = 2 && p.1.key / 64 = b then (p.2.zip (List.range p.2.length)).map fun x => (p.1.key + x.2, x.1) else []
    let at' := fun (i : Nat) => (cells.reverse.find? fun c => c.1 == b * 64 + i).map (·.2)
    { key := b * 64, kind := 1, n := 64, bytes := (List.range 64).map fun i => (at' i).getD 0#8,
      mask := (List.range 64).map fun i => (at' i).isSome, va, lanes }

/-- Read one placed piece at once (R110, R140): in order at the slice for an SC page, else through the L1. -/
def readPiece (s : State) (c : Nat) (p : Place × Nat) : State × List Byte :=
  if leafSC p.1.leaf then orderedRead s c p.1.kid p.1.key p.2
  else
    let r := coreRead (settleLine s c (lineOf p.1.key)) c p.1.kid p.1.key p.2
    (r.1, r.2.1)

/-- Bytes that an instruction of a wave reads at once (R132, R332, R344, R355): what an ordinary load of the wave would read, and from the answers of peers
to its requests. -/
def readPlaces (s : State) (c : Nat) (asks : List PeerAsk) (scalar : Bool) (answers : List (List Byte)) (l : List (Place × Nat)) : State × List Byte :=
  l.foldl (fun acc p =>
    if p.1.loc = 2 then (acc.1, acc.2 ++ peerBytes asks scalar answers p)
    else
      let (t, b) := readPiece acc.1 c p
      (t, acc.2 ++ b)) (s, [])

/-- Issue one piece of a load (R110, R140): from a peer's answer, in order at the slice for an SC page, else through the L1 or on the way to the slice. -/
def loadPiece (s : State) (c u id part : Nat) (asks : List PeerAsk) (scalar : Bool) (answers : List (List Byte)) (p : Place × Nat) :
    State × Option (List Byte) :=
  if p.1.loc = 2 then (s, some (peerBytes asks scalar answers p))
  else if leafSC p.1.leaf then
    let (s, b) := orderedRead s c p.1.kid p.1.key p.2
    (s, some b)
  else coreLoad (settleLine s c (lineOf p.1.key)) c u p.1.kid p.1.key p.2 id part

/-- Issue every piece of a load, lanes in ascending order: the state and the pieces, with the bytes of those that have returned at once. -/
def issueLoads (s : State) (c u id : Nat) (scalar : Bool) (answers : List (List Byte)) (l : Placed) : State × List LoadPart :=
  let asks := readAsks l scalar
  (l.flatMap fun e => e.2.map fun p => (e.1.lane, p)).foldl (fun acc e =>
    let (t, b) := loadPiece acc.1 c u id acc.2.length asks scalar answers e.2
    (t, acc.2 ++ [⟨e.1, b⟩])) (s, [])

/-- A load's result is outstanding (R218, R290): known where every piece has returned, else waiting for those on their way. -/
def Wave.awaitLoad (w : Wave) (id : Nat) (regs : List RegName) (form : LoadForm) (parts : List LoadPart) : Wave :=
  if parts.all fun p => p.bytes.isSome then w.addResult id regs (form.writes parts)
  else { w with pending := w.pending ++ [⟨id, regs, [], false⟩], loads := w.loads ++ [⟨id, form, parts⟩] }

/-- The requests of a load that missed the L1 (Table 13.5). -/
def missCount (parts : List LoadPart) : Nat := (parts.filter fun p => p.bytes.isNone).length

/-- Write one placed piece (R110, R140); a peer's has been written by its request. -/
def writePiece (s : State) (c u : Nat) (p : Place) (b : List Byte) : State :=
  if p.loc = 2 then s
  else if leafSC p.leaf then orderedWrite s c p.kid p.key b
  else coreWrite (settleLine s c (lineOf p.key)) c u p.kid p.key b

/-- Write the pieces of one lane's access. -/
def writeLane (s : State) (c u : Nat) (l : List (Place × Nat)) (b : List Byte) : State :=
  (l.foldl (fun acc p => (writePiece acc.1 c u p.1 (acc.2.take p.2), acc.2.drop p.2)) (s, b)).1

/-- The checks of one access of the wave as a whole, as lane 0 (R253). -/
def checkScalar (s : State) (w : Wave) (kind : AccKind) (va n : Nat) : Check Placed :=
  match checkAligned [⟨0, va, n⟩] with
  | .error e => .error e
  | .ok _ => checkLanes s w kind [⟨0, va, n⟩]

/-- Count L1 misses of a wave's loads (Table 13.5). -/
def countMisses (w : Wave) (m : Nat) : Wave := { w with ctr := { w.ctr with l1miss := w.ctr.l1miss + BitVec.ofNat 64 m } }

/-- A load after its checks (R254, R255, R288, R289): its pieces are issued, its window opens, and its result waits for its write (R218). -/
def loadAt (s : State) (u : Nat) (w : Wave) (nx : BitVec 2) (la : BitVec 4) (scalar laneWise : Bool) (regs : List RegName) (form : LoadForm)
    (l : Placed) : State :=
  withPeers s u w l (readAsks l scalar) laneWise fun s ans =>
    let id := s.uid
    let (s, parts) := issueLoads { s with uid := s.uid + 1 } (coreNo s w) u id scalar ans l
    setWave s u (((countMisses (waveOf s u) (missCount parts)).openWindow la regs).awaitLoad id regs form parts |>.finish nx)

/-- A scalar load (R254, R255) of `n` bytes, extended with their sign or with zeros. -/
def scalarLoad (s : State) (nx : BitVec 2) (d : BitVec 6) (n : Nat) (la : BitVec 4) (addr : Wave → Nat) (signed : Bool) : Out :=
  checked s (fun _ w => checkScalar s w 0 (addr w) n) fun u w l => loadAt s u w nx la true false (sN d) (.scalar d.toNat n signed) l

/-- A scalar store (R254, R255): the data is read at issue, and SST watches it (R218). -/
def scalarStore (s : State) (nx : BitVec 2) (d : BitVec 6) (n : Nat) (la : BitVec 4) (addr : Wave → Nat) : Out :=
  checked s (fun _ w => checkScalar s w 1 (addr w) n) fun u w l =>
    let b := bytesOf n (w.sreg d.toNat).toNat
    withPeers s u w l (writeAsks [(l, b)]) false fun s _ =>
      let s := l.foldl (fun t e => writeLane t (coreNo t w) u e.2 b) s
      setWave s u (((waveOf s u).openWindow la (sN d)).finish nx)

/-- An atomic of one lane at its places (R121): performed in the L1 or at the slice, or sent on the core's path. -/
def atomLane (s : State) (c scope : Nat) (p : Place) (r : AtomReq) : State × Option Nat :=
  coreAtomic s c p.kid p.key (leafSC p.leaf) scope r

/-- Count atomics performed at a slice or a peer (Table 13.5, R121). -/
def countFar (w : Wave) (m : Nat) : Wave := { w with ctr := { w.ctr with faratom := w.ctr.faratom + BitVec.ofNat 64 m } }

/-- The requests of atomics to peers (R120): one for each 64-byte block, with the words of its lanes in ascending order. -/
def atomAsks (l : Placed) (op ty : Nat) (d c : Nat → Nat) : List PeerAsk :=
  (peerBlocks l).map fun b =>
    let (lanes, va) := blockLanes l b
    let mine := l.flatMap fun e => e.2.filterMap fun p =>
      if p.1.loc = 2 && p.1.key / 64 = b then some (bitsAt p.1.key 0 38, BitVec.ofNat 64 (d e.1.lane), BitVec.ofNat 64 (c e.1.lane)) else none
    { key := b * 64, kind := 2, n := typeBytes ty, op, ty, words := mine, va, lanes }

/-- The old value of a lane's word in the answers to atomic requests: the words of a block stand in the order in which they were sent. -/
def atomAnswer (l : Placed) (n : Nat) (answers : List (List Byte)) (lane : Nat) (p : Place) : Nat :=
  let b := p.key / 64
  let lanes := (l.filter fun e => e.2.any fun q => q.1.loc == 2 && q.1.key / 64 == b).map (·.1.lane)
  natOf (sliceBytes (answers.getD ((peerBlocks l).findIdx (· == b)) []) (n * lanes.findIdx (· == lane)) n)

/-- A scalar atomic (R256, R292): the old value returns to s[D] by its type. -/
def scalarAtomic (s : State) (nx : BitVec 2) (d a : BitVec 6) (ty op scope : Nat) : Out :=
  let n := typeBytes ty
  checked s (fun _ w => checkScalar s w 3 (w.sreg a.toNat).toNat n) fun u w l =>
    let dat := (w.sreg d.toNat).toNat % 2 ^ (8 * n)
    let cmp := (w.sreg (d.toNat + 1)).toNat % 2 ^ (8 * n)
    withPeers s u w l (atomAsks l op ty (fun _ => dat) fun _ => cmp) false fun s ans =>
      let id := s.uid
      let s := { s with uid := s.uid + 1 }
      match l with
      | (_, (p, _) :: _) :: _ =>
        if p.loc = 2 then
          let w := countFar (waveOf s u) 1
          setWave s u ((w.addResult id (sN d) [.s d.toNat (scalarForm ty (atomAnswer l n ans 0 p))]).finish nx)
        else
          let (s, old) := atomLane s (coreNo s w) scope p ⟨u, id, .s d.toNat, 0, n, op, ty, dat, cmp⟩
          let w := waveOf s u
          match old with
          | some x =>
            let w := countFar w (if leafSC p.leaf then 1 else 0)
            setWave s u ((w.addResult id (sN d) [.s d.toNat (scalarForm ty x)]).finish nx)
          | none => setWave s u ({ countFar w 1 with pending := w.pending ++ [Pending.mk id (sN d) [] false] }.finish nx)
      | _ => s

end Sys2Proof.Machine
end

