-- ==== Sys2Proof/Machine/PlotInstr.lean ====
section
/-! DEFINITION. Sys2Proof/Machine/PlotInstr.lean: PALLOC to PWAIT, PINFO, PLD and PST (R320-R323), over the plots of Plots.lean. -/
namespace Sys2Proof.Machine

/-- A handle operand in a scalar register (R59). -/
def handleOp (w : Wave) (a : BitVec 6) : Nat := (w.sreg a.toNat).toNat

/-- A plot trap as the answer of a check. -/
def plotCheck {α : Type} (h : Nat) (r : Except PlotTrap α) : Check α :=
  match r with
  | .ok a => .ok a
  | .error t => .error (plotStop h t)

/-- Whether an allocation at cluster level meets a core-level plot of another group of its launch on the cluster (R78). -/
def clusterBusy (s : State) (g h : Nat) : Bool :=
  let gr := groupOf s g
  gr.launch != 0 && s.groups.any fun e =>
    e.1 != g && e.2.launch == gr.launch && e.2.core / 4 == gr.core / 4 && (lookup e.2.plots h).isSome

/-- The checks of PALLOC (R59, R63, R78): the run to take, none when no run is free. A run that freed plots are still read from waits (R62). -/
def checkPalloc (s : State) (w : Wave) (h : Nat) (level : Bool) (rows cols fmt : Nat) : Check (Option Nat) :=
  let gr := groupOf s w.group
  let bad := rows = 0 || rows > 65536 || cols = 0 || cols > 65536 || fmt ≥ 14 || (isTilth fmt && cols % epp fmt != 0)
  if h > 63 then .error (plotStop h (6, 1))
  else if (findPlot s w.group h).isSome || (level && clusterBusy s w.group h) then .error (plotStop h (6, 3))
  else if bad then .error (plotStop h (6, 4))
  else
    let n := ceilDiv (plotBytes fmt rows cols) 8192
    if n > gr.pngran then .error (plotStop h (6, 4))
    else match firstFit gr n with
      | none => .ok none
      | some b => if runHeld gr b n then .error .wait else .ok (some b)

/-- PALLOC (R320, R61). -/
def execPalloc (nx : BitVec 2) (v : BitVec 1) (a b : BitVec 6) (t : BitVec 4) (s : State) : Out :=
  let rows := fun (w : Wave) => bitsAt (w.sreg b.toNat).toNat 0 32
  let cols := fun (w : Wave) => bitsAt (w.sreg b.toNat).toNat 32 32
  checked s (fun _ w => checkPalloc s w (handleOp w a) (v == 1#1) (rows w) (cols w) t.toNat) fun u w run =>
    let s := setWave s u ({ w with c := run.isSome }.finish nx)
    match run with
    | none => s
    | some base =>
      let n := ceilDiv (plotBytes t.toNat (rows w) (cols w)) 8192
      setPlot s w.group (handleOp w a) (newPlot (v == 1#1) t.toNat (rows w) (cols w) base n)

/-- The check of PFREE (Table 2.5). -/
def checkPfree (s : State) (w : Wave) (h : Nat) : Check (Nat × Plot) :=
  plotCheck h (match plotFor s w.group h with
    | .error t => .error t
    | .ok (g, p) => if p.state = 1#2 || p.state = 3#2 then .error (6, 5) else .ok (g, p))

/-- PFREE (R321, R62); a region that was kept for a shared plot alone is given up with it (R80). -/
def execPfree (nx : BitVec 2) (a : BitVec 6) (s : State) : Out :=
  checked s (fun _ w => checkPfree s w (handleOp w a)) fun u w e =>
    checkEndings (freePlot (setWave s u (w.finish nx)) e.1 (handleOp w a))

/-- The check of PARM (Table 2.5). -/
def checkParm (s : State) (w : Wave) (h : Nat) : Check (Nat × Plot) :=
  plotCheck h (match plotFor s w.group h with
    | .error t => .error t
    | .ok (g, p) => if p.state = 1#2 || (p.state = 3#2 && p.armpend) then .error (6, 5) else .ok (g, p))

/-- PARM (R321, Table 2.4). -/
def execParm (nx : BitVec 2) (a b : BitVec 6) (s : State) : Out :=
  checked s (fun _ w => checkParm s w (handleOp w a)) fun u w e =>
    armPlot (setWave s u (w.finish nx)) e.1 (handleOp w a) (bitsAt (w.sreg b.toNat).toNat 0 32) e.2

/-- A handle that only reports (R322): a value above 63 traps, and an unallocated one names no plot. -/
def checkReport (s : State) (w : Wave) (h : Nat) : Check (Option (Nat × Plot)) :=
  if h > 63 then .error (plotStop h (6, 1)) else .ok (findPlot s w.group h)

/-- PSTATE (R322). -/
def execPstate (nx : BitVec 2) (d a : BitVec 6) (s : State) : Out :=
  checked s (fun _ w => checkReport s w (handleOp w a)) fun u w e =>
    let x := match e with
      | none => 0
      | some (_, p) => plotStateWord p
    setWave s u ((w.setS d.toNat (BitVec.ofNat 64 x)).finish nx)

/-- PINFO (R322): 64 bits of the table entry. -/
def execPinfo (nx : BitVec 2) (d a : BitVec 6) (k : BitVec 2) (s : State) : Out :=
  checked s (fun _ w => checkReport s w (handleOp w a)) fun u w e =>
    let x := match e with
      | none => 0
      | some (g, p) => bitsAt (tableEntry (groupOf s g) (handleOp w a) p) (64 * k.toNat) 64
    setWave s u ((w.setS d.toNat (BitVec.ofNat 64 x)).finish nx)

/-- PWAIT (R322): a park while the plot is FILLING. -/
def execPwait (nx : BitVec 2) (a : BitVec 6) (s : State) : Out :=
  checked s (fun _ w => plotCheck (handleOp w a) (plotFor s w.group (handleOp w a))) fun u w e =>
    if e.2.state = 1#2 then parkWave s u (.pwait nx (handleOp w a)) else setWave s u (w.finish nx)

/-- A window reference of PLD or PST (R318, R323): handle, then an odd register for a 64-bit format, then the state and the bounds. -/
def checkWindow (s : State) (w : Wave) (d : Nat) (r : PlotRef) (rule : Plot → Except PlotTrap Unit) : Check (Nat × Plot) :=
  match plotFor s w.group r.handle with
  | .error t => .error (plotStop r.handle t)
  | .ok (g, p) =>
    if isWide p.fmt.toNat && d % 2 == 1 then .error (illegalEnc s w)
    else match rule p with
      | .error t => .error (plotStop r.handle t)
      | .ok _ =>
        match checkBounds p r with
        | .error t => .error (plotStop r.handle t)
        | .ok _ => .ok (g, p)

/-- The reference pair named by an operand (R318). -/
def refOf (w : Wave) (a : BitVec 6) : PlotRef := plotRef (w.sreg a.toNat) (w.sreg (a.toNat + 1))

/-- Slots of a narrow window that PLD and PST reach (R323). -/
def slotCount (p : Plot) (r : PlotRef) : Nat := min 2 (r.nrows * (r.ncols / epp p.fmt.toNat))
/-- The place of slot `i` of a narrow window, in row-major order. -/
def slotByte (p : Plot) (r : PlotRef) (i : Nat) : Nat :=
  let n := r.ncols / epp p.fmt.toNat
  windowByte p r.row0 r.col0 (i / n) (i % n * 64)
/-- The place of element `i` of a wide window, in row-major order. -/
def elemByte (p : Plot) (r : PlotRef) (i : Nat) : Nat :=
  windowByte p r.row0 r.col0 (i / r.ncols) (i % r.ncols * typeBytes p.fmt.toNat)

/-- The lanes that a wide window gives elements to. -/
def windowLanes (w : Wave) (r : PlotRef) : Word := maskOf fun i => w.active.getLsbD i && decide (i < min 32 (r.nrows * r.ncols))

/-- The watched registers of PLD and PST (R323). -/
def windowRegs (p : Plot) (d : BitVec 6) : List RegName := if isWide p.fmt.toNat then vQ d else vN d

/-- PLD's result (R323). -/
def pldWrites (w : Wave) (p : Plot) (r : PlotRef) (d : Nat) : List RegWrite :=
  if isTilth p.fmt.toNat then
    let b := (List.range (slotCount p r)).flatMap fun i => plotSlice p (slotByte p r i) 64
    [.v d (maskOf fun i => decide (i < 16 * slotCount p r)) (tab 32 fun i => BitVec.ofNat 32 (fieldOf b (4 * i) 4))]
  else elemWrites p.fmt.toNat d (windowLanes w r) fun i => natOf (plotSlice p (elemByte p r i) (typeBytes p.fmt.toNat))

/-- PLD (R323): an access in flight until it ends (R70). -/
def execPld (nx : BitVec 2) (d a : BitVec 6) (l : BitVec 4) (s : State) : Out :=
  checked s (fun _ w => checkWindow s w d.toNat (refOf w a) checkRead) fun u w e =>
    let r := refOf w a
    let regs := windowRegs e.2 d
    let s := setWave { s with uid := s.uid + 1 } u
      (((w.openWindow l regs).addResult s.uid regs (pldWrites w e.2 r d.toNat)).finish nx)
    acceptRead s e.1 r.handle false .pld

/-- The parcels that PST takes from lanes 0-31 (R323). -/
def laneParcels (w : Wave) (d n : Nat) : List (List Byte) :=
  (List.range n).map fun j => (List.range 16).flatMap fun i => bytesOf 4 (w.lane d (16 * j + i)).toNat

/-- What PST writes: bytes at places of the plot, and its byte count. -/
def pstBytes (w : Wave) (p : Plot) (r : PlotRef) (d : Nat) : List (Nat × List Byte) × Nat :=
  if isTilth p.fmt.toNat then
    let l := laneParcels w d (slotCount p r)
    (((List.range l.length).zip l).map fun e => (slotByte p r e.1, tilthClean p.fmt.toNat e.2), 64 * l.length)
  else
    let m := bitsOf (windowLanes w r)
    let n := typeBytes p.fmt.toNat
    (m.map fun i => (elemByte p r i, bytesOf n (w.elem p.fmt.toNat d i)), n * m.length)

/-- The checks of PST after the window's: the quota in FILLING (R72), then each parcel's format (R323); a plot that MLOADB still reads makes it
wait (R340). -/
def checkPst (s : State) (w : Wave) (d : Nat) (r : PlotRef) : Check (Nat × Plot) :=
  match checkWindow s w d r fun p => if p.state = 0#2 || p.state = 1#2 then .ok () else .error (6, 5) with
  | .error e => .error e
  | .ok (g, p) =>
    match (if p.state = 1#2 then checkQuota p (pstBytes w p r d).2 else .ok ()) with
    | .error t => .error (plotStop r.handle t)
    | .ok _ =>
      if isTilth p.fmt.toNat && (laneParcels w d (slotCount p r)).any fun b => (b.headD 0#8).toNat != tilthCode p.fmt.toNat then
        .error (plotStop r.handle (7, 2))
      else if p.access.any fun x => match x with
        | .loadb .. => true
        | _ => false then .error .wait
      else .ok (g, p)

/-- PST (R323): written at once, and credited in FILLING (R72). -/
def execPst (nx : BitVec 2) (d a : BitVec 6) (l : BitVec 4) (s : State) : Out :=
  checked s (fun _ w => checkPst s w d.toNat (refOf w a)) fun u w e =>
    let r := refOf w a
    let (cells, n) := pstBytes w e.2 r d.toNat
    let s := setWave s u ((w.openWindow l (windowRegs e.2 d)).finish nx)
    let p := cells.foldl (fun p c => plotPut p c.1 c.2) e.2
    if p.state = 1#2 && n > 0 then deliver (setPlot s e.1 r.handle { p with issued := p.issued + n }) e.1 r.handle n
    else setPlot s e.1 r.handle p

end Sys2Proof.Machine
end

