-- ==== Sys2Proof/Machine/Transfers.lean ====
section
/-! DEFINITION. Sys2Proof/Machine/Transfers.lean: what copy engines and matrix output paths do with a transfer (R51, R128, R146, R150, R325,
R333, R343, R447): one block at a time, in the order that R447 gives. -/
namespace Sys2Proof.Machine

/-- A sign-extended 32-bit field. -/
def sext32 (x : Nat) : DWord := (BitVec.ofNat 32 x).signExtend 64

/-- Bytes of an element of a window as a copy moves it (R325): a parcel slot for a narrow plot. -/
def unitBytes (fmt : Nat) : Nat := if isTilth fmt then 64 else typeBytes fmt

/-- One piece of a transfer between memory and windows: the address of its first byte, and for each element its offset from there, its window row
and its byte within the row. -/
structure Piece where
  va : DWord
  elems : List (Int × Nat × Nat)
  deriving DecidableEq, Repr

/-- The window rows that a copy moves: for CPY those of the ACTIVE lanes (Table 12.3). -/
def movedRows (t : Transfer) : Nat := if t.op = .cpy then ((bitsOf t.lanes).filter fun i => decide (i < t.rows)).length else t.rows

/-- The window row that stands `i`-th among the rows moved. -/
def movedRow (t : Transfer) (i : Nat) : Nat :=
  if t.op = .cpy then ((bitsOf t.lanes).filter fun i => decide (i < t.rows)).getD i 0 else i

/-- Table 12.3: the address of a window row's first element. -/
def rowAddr (t : Transfer) (r : Nat) : DWord :=
  let p := sext32 t.opnd.toNat
  match t.op with
  | .cpy => t.base + (t.rowoff.getD r 0#32).signExtend 64
  | .cpyt => t.base + BitVec.ofNat 64 (r * unitBytes t.fmt.toNat)
  | _ => t.base + BitVec.ofNat 64 r * p

/-- Table 12.3: bytes from one element of a row to the next. -/
def elemStep (t : Transfer) : DWord :=
  let w := BitVec.ofNat 64 (unitBytes t.fmt.toNat)
  match t.op with
  | .cpyt => sext32 t.opnd.toNat
  | .cpyim =>
    let l := if isTilth t.fmt.toNat then 1 else max 1 (bitsAt t.opnd.toNat 32 16)
    BitVec.ofNat 64 l * w
  | _ => w

/-- The piece of a copy from byte `t.done` on: the elements of one window row that lie in one 64-byte block of memory (R128). -/
def copyPiece (t : Transfer) : Piece :=
  let w := unitBytes t.fmt.toNat
  let r := movedRow t (t.done / t.rowBytes)
  let b := t.done % t.rowBytes
  let va := rowAddr t r + BitVec.ofNat 64 (b / w) * elemStep t
  let st := (elemStep t).toInt
  let here := fun (i : Nat) =>
    let o := (va.toNat % 64 : Int) + (i : Int) * st
    decide (0 ≤ o) && decide (o < 64)
  let k := ((List.range (min 64 ((t.rowBytes - b) / w))).takeWhile here).length
  ⟨va, (List.range (max 1 k)).map fun (i : Nat) => ((i : Int) * st, r, b + i * w)⟩

/-- The row bytes and the number of rows of an XENG command as it moves them (R333). -/
def cmdShape (t : Transfer) : Nat × Nat :=
  if bitsAt (fieldOf t.cmd 1 1) 0 1 = 1 then (t.rows, t.rowBytes) else (fieldOf t.cmd 4 4, fieldOf t.cmd 40 4)

/-- Bytes that a transfer moves in all. -/
def totalBytes (t : Transfer) : Nat :=
  match t.op with
  | .xeng => (cmdShape t).1 * (cmdShape t).2
  | _ => movedRows t * t.rowBytes

/-- Why a piece does not move now: a fatal failure, a recoverable fault, or a wait. -/
inductive Halt where
  | fatal (reason va : Nat)
  | park (f : Recov)
  | wait
  deriving DecidableEq, Repr

/-- A step of an engine: the state and the result. -/
abbrev EngRes (α : Type) := State × Except Halt α

/-- The transaction that a transfer has sent for an access of its present piece, 0 for a read and 1 for a write. -/
def sentFor (t : Transfer) (kind va : Nat) : Option PeerTx := t.peer.find? fun tx => tx.kind == kind && tx.va == va

/-- What has come of a transaction (R120): its bytes, its refusal, or nothing yet. -/
def PeerTx.outcome (tx : PeerTx) : Except Halt (List Byte) :=
  match tx.answer with
  | none => .error .wait
  | some (true, b) => .ok b
  | some (false, _) => .error (.fatal 10 tx.va)

/-- Send a transaction of a transfer for an access to a peer, and wait (R120). -/
def sendPeer (s : State) (x : Nat) (t : Transfer) (va kind : Nat) (pkt : Nat → Packet) (key : Nat) : EngRes (List Byte) :=
  let tx : PeerTx := { id := s.uid, key, kind, sent := s.tsc.toNat, answer := none, va }
  ({ s with uid := s.uid + 1, packets := s.packets ++ [pkt s.uid], transfers := put s.transfers x { t with peer := t.peer ++ [tx] } }, .error .wait)

/-- An engine's translation (R24, R129); a write goes to the shadow frame (R150). -/
def engineAt (s : State) (t : Transfer) (va : DWord) (wr : Bool) : Except Halt Place :=
  let kind := if wr then 1 else 0
  match translate s (.die (engineDie t)) t.ctag va.toNat kind wr with
  | .error (.fatal r) => .error (.fatal r va.toNat)
  | .error (.recoverable nw) => .error (.park { va, kind, nw })
  | .ok p => .ok p

/-- Node, die and offset of a peer address (R28). -/
def peerNode (k : Nat) : Nat := bitsAt k 40 12
/-- Die of a peer address. -/
def peerDie (k : Nat) : Nat := bitsAt k 38 1
/-- Offset of a peer address. -/
def peerOff (k : Nat) : Nat := bitsAt k 0 38

/-- A transfer as it stands now. -/
def xferOf (s : State) (x : Nat) (t : Transfer) : Transfer := (lookup s.transfers x).getD t

/-- Read the aligned 64-byte block that holds an address, as one access (R128), through the slices of the engine's die (R114). An access whose request has left
for a peer keeps the translation with which it left (R48). -/
def readBlock (s : State) (x : Nat) (t : Transfer) (va : DWord) : EngRes (List Byte) :=
  let a := va &&& ~~~63#64
  match sentFor t 0 a.toNat with
  | some tx => (s, tx.outcome)
  | none =>
    match engineAt s t a false with
    | .error h => (s, .error h)
    | .ok p =>
      if p.loc = 2 then sendPeer s x t a.toNat 0 (fun id => .read id (peerNode p.key) (peerDie p.key) (peerOff p.key) 64) p.key
      else
        let (s, b) := agentRead s p.kid p.key 64
        (viaDie s (engineDie t) p.key 64 false, .ok b)

/-- A block of a transfer's source, read the first time that the transfer needs it and kept since (R128: one access for each block of its extent). -/
def readOnce (s : State) (x : Nat) (t : Transfer) (va : DWord) : State × Except Halt (List Byte) :=
  let a := va &&& ~~~63#64
  match lookup t.blocks a.toNat with
  | some b => (s, .ok b)
  | none =>
    match readBlock s x t a with
    | (s, .error h) => (s, .error h)
    | (s, .ok b) =>
      let t := xferOf s x t
      ({ s with transfers := put s.transfers x { t with blocks := put t.blocks a.toNat b, peer := [] } }, .ok b)

/-- Read source blocks, first to last. -/
def readOnceAll (s : State) (x : Nat) (t : Transfer) (bs : List DWord) : State × Except Halt Unit :=
  match bs with
  | [] => (s, .ok ())
  | b :: rest =>
    match readOnce s x (xferOf s x t) b with
    | (s, .error h) => (s, .error h)
    | (s, .ok _) => readOnceAll s x t rest

/-- A byte of a source block that a transfer has read. -/
def heldByte (t : Transfer) (va : DWord) : Byte := ((lookup t.blocks (va &&& ~~~63#64).toNat).getD []).getD (va.toNat % 64) 0#8

/-- The runs of bytes written in a block: offset of each, and its bytes. -/
def maskRuns (i : Nat) (m : List (Option Byte)) : List (Nat × List Byte) :=
  match m with
  | [] => []
  | none :: t => maskRuns (i + 1) t
  | some b :: t =>
    match maskRuns (i + 1) t with
    | (j, l) :: rest => if j = i + 1 then (i, b :: l) :: rest else (i, [b]) :: (j, l) :: rest
    | [] => [(i, [b])]

/-- Bytes that a transfer writes, by their address: the last value of an address stands first. -/
abbrev OutCells := List (Nat × Byte)

/-- The blocks of some bytes, in ascending address order (R141). -/
def outBlocks (c : OutCells) : List Nat := ((c.map fun e => e.1 / 64).dedup).insertionSort (· ≤ ·)

/-- What is written in a block: the offset of the first byte, and from there on each byte or a gap. -/
def outMask (c : OutCells) (b : Nat) : Nat × List (Option Byte) :=
  let all := (List.range 64).map fun i => (c.find? fun e => e.1 == 64 * b + i).map (·.2)
  let o := all.findIdx (·.isSome)
  (o, ((all.drop o).reverse.dropWhile (·.isNone)).reverse)

/-- One block written as one access (R128, R146, R150): a peer's by its request, any other at its slices. A block whose request has left for a peer is written by
that alone (R48). -/
def writeBlock (s : State) (x : Nat) (t : Transfer) (va : DWord) (m : List (Option Byte)) : EngRes Unit :=
  match sentFor t 1 va.toNat with
  | some tx => (s, tx.outcome.map fun _ => ())
  | none =>
    match engineAt s t va true with
    | .error h => (s, .error h)
    | .ok p =>
      if p.loc = 2 then
        let (s, r) := sendPeer s x t va.toNat 1
          (fun id => .write id (peerNode p.key) (peerDie p.key) (peerOff p.key) (m.map (·.getD 0#8)) (m.map (·.isSome))) p.key
        (s, r.map fun _ => ())
      else
        (viaDie ((maskRuns 0 m).foldl (fun s e => agentWrite s p.kid (p.key + e.1) e.2) s) (engineDie t) p.key m.length true, .ok ())

/-- Whether a block of a transfer's piece goes, or has gone, to a peer, or why it cannot be written. -/
def blockFar (s : State) (t : Transfer) (va : DWord) : Except Halt Bool :=
  if (sentFor t 1 va.toNat).isSome then .ok true else (engineAt s t va true).map fun p => p.loc == 2

/-- Write the blocks that lie on peers' pages (`far`) or those that do not, in ascending order. -/
def writeBlocks (s : State) (x : Nat) (t : Transfer) (c : OutCells) (far : Bool) (bs : List Nat) : EngRes Unit :=
  match bs with
  | [] => (s, .ok ())
  | b :: rest =>
    let (o, m) := outMask c b
    let va := BitVec.ofNat 64 (64 * b + o)
    let t := xferOf s x t
    match blockFar s t va with
    | .error h => (s, .error h)
    | .ok f =>
      if f != far then writeBlocks s x t c far rest
      else
        match writeBlock s x t va m with
        | (s, .error h) => (s, .error h)
        | (s, .ok _) => writeBlocks s x t c far rest

/-- Write the bytes of one piece of a transfer: nothing is written while a block of it cannot be (R447), and what waits for peers waits first. -/
def writeCells (s : State) (x : Nat) (t : Transfer) (c : OutCells) : EngRes Unit :=
  let bs := outBlocks c
  match bs.findSome? fun b => match blockFar s t (BitVec.ofNat 64 (64 * b + (outMask c b).1)) with
    | .error h => some h
    | .ok _ => none with
  | some h => (s, .error h)
  | none =>
    match writeBlocks s x t c true bs with
    | (s, .error h) => (s, .error h)
    | (s, .ok _) => writeBlocks s x t c false bs

/-- Park a transfer on its fault (R51). -/
def parkTransfer (s : State) (x : Nat) (f : Recov) : State :=
  match lookup s.transfers x with
  | none => s
  | some t =>
    let (s, tok) := raiseFault s t.ctag (engineDie t) (.xfer x) f
    postFaults { s with transfers := put s.transfers x { t with parked := some tok } }

/-- A piece that did not move: the transfer ends with FAULT, parks, or waits; LOST_MEMORY is the die-loss path of its context (R36, R388). -/
def haltTransfer (s : State) (x : Nat) (h : Halt) : State :=
  match h with
  | .fatal r va =>
    let ctag := ((lookup s.transfers x).map (·.ctag)).getD 0
    let s := endTransfer s x 2 r va
    if r = 11 then killContext s ctag else s
  | .park f => parkTransfer s x f
  | .wait => s

/-- A piece of `n` bytes has moved: progress, and the end with the last one. -/
def advance (s : State) (x n : Nat) : State :=
  match lookup s.transfers x with
  | none => s
  | some t =>
    let t := { t with done := t.done + n, peer := [] }
    let s := { s with transfers := put s.transfers x t }
    if t.done ≥ totalBytes t then endTransfer s x 0 0 0 else s

/-- Whether a target of a copy still drains before the fill that the copy was accepted for (R72). -/
def targetWaits (s : State) (x : Nat) (q : Nat × Nat) : Bool :=
  match lookup (groupOf s q.1).plots q.2 with
  | none => false
  | some p => p.state == 3#2 && p.armpend && !p.access.contains (.xfer x)

/-- The bytes of a window's elements put into a plot (R61, R66). -/
def putElems (p : Plot) (r : PlotRef) (elems : List (Nat × Nat × List Byte)) : Plot :=
  elems.foldl (fun p e =>
    let b := if isTilth p.fmt.toNat then tilthClean p.fmt.toNat e.2.2 else e.2.2
    plotPut p (windowByte p r.row0 r.col0 e.1 e.2.1) b) p

/-- One piece delivered to one target (R72-R77): a parcel of another format fails the plot; an errored plot's bytes are written or not, with no
credit. -/
def deliverTo (s : State) (x : Nat) (t : Transfer) (elems : List (Nat × Nat × List Byte)) (n : Nat) (q : Nat × Nat) : State :=
  match lookup (groupOf s q.1).plots q.2 with
  | none => s
  | some p =>
    let bad := isTilth p.fmt.toNat && elems.any fun e => (e.2.2.headD 0#8).toNat != tilthCode p.fmt.toNat
    let stale := p.access.contains (.xfer x)
    if p.state = 1#2 then
      if bad then failPlot s q.1 q.2 1#2
      else deliver (setPlot s q.1 q.2 (putElems p (plotRef t.ref0 t.ref1) elems)) q.1 q.2 n
    else if p.state = 3#2 && p.armpend && !stale then (if bad then failPlot s q.1 q.2 1#2 else s)
    else if p.err ≠ 0#2 && !bad && Config.failedByteWritten x t.done then
      setPlot s q.1 q.2 (putElems p (plotRef t.ref0 t.ref1) elems)
    else s

/-- Whether a copy has failed in all of its targets, and so ends (R76, R327). -/
def allFailed (s : State) (x : Nat) (t : Transfer) : Bool :=
  t.plots.all fun q => match lookup (groupOf s q.1).plots q.2 with
    | none => true
    | some p =>
      !p.access.contains (.xfer x) && ((p.state == 2#2 && p.err != 0#2) || (p.state == 3#2 && p.armpend && p.armErr != 0#2))

/-- The elements of a copy's piece as the block read gives them: window row, byte in the row, and bytes. -/
def pieceElems (t : Transfer) (p : Piece) (blk : List Byte) : List (Nat × Nat × List Byte) :=
  p.elems.map fun e => (e.2.1, e.2.2, sliceBytes blk (((p.va.toNat % 64 : Nat) : Int) + e.1).toNat (unitBytes t.fmt.toNat))

/-- A block of a copy into plots (R325-R327): data for a plot that still drains waits until its drain has ended. -/
def copyIn (s : State) (x : Nat) (t : Transfer) : State :=
  let p := copyPiece t
  match readOnce s x t p.va with
  | (s, .error h) => haltTransfer s x h
  | (s, .ok blk) =>
    let t := xferOf s x t
    let elems := pieceElems t p blk
    let n := elems.length * unitBytes t.fmt.toNat
    let waits := t.plots.filter (targetWaits s x)
    if waits.isEmpty then
      let before := allFailed s x t
      let s := t.plots.foldl (fun s q => deliverTo s x t elems n q) s
      if allFailed s x t && !before then endTransfer s x 0 0 0 else advance s x n
    else
      let s := waits.foldl (fun s q => deliverTo s x t elems n q) s
      if allFailed s x t then endTransfer s x 0 0 0 else s

/-- Whether a copy only waits for targets to drain: its next block can be read, and none of them refuses it. -/
def copyWaits (s : State) (x : Nat) (t : Transfer) : Bool :=
  let waits := t.plots.filter (targetWaits s x)
  let p := copyPiece t
  t.op.intoPlot && !waits.isEmpty && !allFailed s x t && (match readOnce s x t p.va with
    | (_, .error _) => false
    | (_, .ok blk) => waits.all fun q => match lookup (groupOf s q.1).plots q.2 with
      | none => true
      | some k => k.armErr != 0#2 || !isTilth k.fmt.toNat || (pieceElems t p blk).all fun e => (e.2.2.headD 0#8).toNat == tilthCode k.fmt.toNat)

/-- Fields of a command record (Table 12.4). -/
def cmdOpc (c : List Byte) : Nat := fieldOf c 0 1
/-- XFLAGS. -/
def cmdFlags (c : List Byte) : Nat := fieldOf c 1 1
/-- PSRC of a command record. -/
def cmdPsrc (c : List Byte) : Bool := bitsAt (cmdFlags c) 0 1 == 1
/-- REL of a command record. -/
def cmdRel (c : List Byte) : Bool := bitsAt (cmdFlags c) 1 1 == 1
/-- A quadword of a command record. -/
def cmdWord (c : List Byte) (off : Nat) : DWord := BitVec.ofNat 64 (fieldOf c off 8)

/-- The element type of REDUCE: 0 i32, 1 n32, 8 f32, 9 f16, 10 bf16. -/
def ropType (c : List Byte) : Nat := bitsAt (fieldOf c 3 1) 0 4

/-- The checks that an engine makes on a command (R332, R333, Table 12.4); `areaOk` says that the aside area of a SNAP is a local page with
W = 1. -/
def cmdLegal (c : List Byte) (areaOk : Bool) : Bool :=
  let opc := cmdOpc c
  let rop := fieldOf c 3 1
  let ty := ropType c
  let w := typeBytes ty
  let m := fun (off : Nat) => fieldOf c off 8 % w == 0
  (opc == 1 || opc == 2 || opc == 3 || opc == 4)
    && cmdFlags c < 8 && fieldOf c 2 1 < 16 && zeroField c 44 4 && fieldOf c 56 8 % 32 == 0
    && (!cmdPsrc c || opc == 1) && (opc == 4 || rop == 0)
    && (opc != 3 || (fieldOf c 8 8 % 128 == 0 && (fieldOf c 4 4 * fieldOf c 40 4) % 128 == 0 && areaOk))
    && (opc != 4 || ((ty ≤ 1 || ty == 8 || ty == 9 || ty == 10) && rop / 16 ≤ 2 && fieldOf c 40 4 % w == 0
        && m 8 && m 16 && m 24 && m 32))

/-- REDUCE of one element (R333): add wraps or rounds once, min and max as R263. -/
def reduceElem (ty op a b : Nat) : Nat :=
  if isInt ty then
    match op with
    | 0 => wrapOf (typeBits ty) (intVal ty a + intVal ty b)
    | 1 => if intVal ty b < intVal ty a then b else a
    | _ => if intVal ty a < intVal ty b then b else a
  else
    let f := fmtOf ty
    match op with
    | 0 => resultF f 0 false false (addV 0 (decodeF f a) (decodeF f b))
    | 1 => resultF f 0 false false (minMaxV false (decodeF f a) (decodeF f b))
    | _ => resultF f 0 false false (minMaxV true (decodeF f a) (decodeF f b))

/-- The elements of two blocks combined. -/
def reduceBytes (ty op : Nat) (a b : List Byte) : List Byte :=
  let w := typeBytes ty
  (List.range (a.length / w)).flatMap fun i => bytesOf w (reduceElem ty op (fieldOf a (i * w) w) (fieldOf b (i * w) w))

/-- One line of a snapshot's stream (R155): its copy aside, or its contents, which nothing has changed since, under the key of its page (R32). A line that had
no place at the snap point and has none yet is read through its page. -/
def snapBytes (s : State) (x : Nat) (t : Transfer) (i o n : Nat) : State × Except Halt (List Byte) :=
  let ln := ((s.snaps.find? fun p => p.xfer == x).bind fun p => p.lines[i]?).getD ⟨noLine, 0, [], none⟩
  match ln.aside with
  | some b => (s, .ok (sliceBytes b o n))
  | none =>
    if ln.line = noLine then
      match readOnce s x t (cmdWord t.cmd 8 + BitVec.ofNat 64 (128 * i + o)) with
      | (s, .error h) => (s, .error h)
      | (s, .ok b) => (s, .ok (sliceBytes b (o % 64) n))
    else (s, .ok (sliceBytes (ln.image s) o n))

/-- Bytes of a snapshot's image from offset `o` on: at most two 64-byte blocks of the range. -/
def snapRange (s : State) (x : Nat) (t : Transfer) (o n : Nat) : State × Except Halt (List Byte) :=
  let m := min n (64 - o % 64)
  match snapBytes s x t (o / 128) (o % 128) m with
  | (s, .error h) => (s, .error h)
  | (s, .ok b1) =>
    if m = n then (s, .ok b1)
    else
      match snapBytes s x (xferOf s x t) ((o + m) / 128) ((o + m) % 128) (n - m) with
      | (s, .error h) => (s, .error h)
      | (s, .ok b2) => (s, .ok (b1 ++ b2))

/-- Rows and bytes of a row of a transfer into memory, as it moves them (R325, R333): the stream of a snapshot is one row. -/
def outShape (t : Transfer) : Nat × Nat :=
  match t.op with
  | .xeng => if cmdOpc t.cmd = 3 then (1, totalBytes t) else cmdShape t
  | _ => (t.rows, t.rowBytes)

/-- The destination of the first row of a transfer into memory, and the pitch of its rows (Table 12.3, R333). -/
def outBase (t : Transfer) : DWord × DWord :=
  match t.op with
  | .xeng => (cmdWord t.cmd 16, cmdWord t.cmd 32)
  | .mcadr .. => (t.base, t.opnd)
  | _ => (t.base, sext32 t.opnd.toNat)

/-- Where byte `i` of a transfer into memory goes, counted in its own order (R447). -/
def outAddr (t : Transfer) (i : Nat) : DWord :=
  let rb := (outShape t).2
  (outBase t).1 + BitVec.ofNat 64 (i / rb) * (outBase t).2 + BitVec.ofNat 64 (i % rb)

/-- Where byte `i` of a COPY or REDUCE comes from (R333). -/
def inAddr (t : Transfer) (i : Nat) : DWord :=
  let rb := (outShape t).2
  cmdWord t.cmd 8 + BitVec.ofNat 64 (i / rb) * cmdWord t.cmd 24 + BitVec.ofNat 64 (i % rb)

/-- Whether the rows of a transfer into memory share no block but the last of one row with the first of the next, so that its own order visits each block
once (R128, R447): upwards in memory, or downwards in whole blocks. -/
def steady (t : Transfer) : Bool :=
  let (rows, rb) := outShape t
  let (base, pitch) := outBase t
  decide (rows ≤ 1) || decide (pitch.toInt ≥ rb) || (decide (pitch.toInt + rb ≤ 0) && pitch.toNat % 64 == 0 && base.toNat % 64 == 0)

/-- How many bytes from `t.done` on move as one piece: those that lie in one block, over several rows where rows are short (R128, R146). The rest of a
transfer whose order would visit a block twice, or would enter the blocks of an SC page downwards (R141), moves as one piece (log 23). -/
def pieceLen (s : State) (t : Transfer) : Nat :=
  let rest := totalBytes t - t.done
  let down := decide ((outShape t).1 > 1) && decide ((outBase t).2.toInt < 0) && (match engineAt s t (outAddr t t.done) true with
    | .ok p => leafSC p.leaf
    | .error _ => false)
  if steady t && !down then
    ((List.range (min 64 rest)).takeWhile fun i => (outAddr t (t.done + i)).toNat / 64 == (outAddr t t.done).toNat / 64).length
  else rest

/-- The bytes of a piece with their destinations, a later byte of an address before an earlier one. -/
def placeCells (t : Transfer) (b : List Byte) : OutCells :=
  (((List.range b.length).zip b).map fun e => ((outAddr t (t.done + e.1)).toNat, e.2)).reverse

/-- A piece that has its bytes goes to memory. -/
def putPiece (s : State) (x : Nat) (t : Transfer) (n : Nat) (c : OutCells) : State :=
  match writeCells s x t c with
  | (s, .error h) => haltTransfer s x h
  | (s, .ok _) => advance s x n

/-- A piece of CPYOUT (R325): window bytes taken at acceptance go to memory. -/
def copyOut (s : State) (x : Nat) (t : Transfer) : State :=
  let n := pieceLen s t
  putPiece s x t n (placeCells t (sliceBytes t.image t.done n))

/-- The row of MCADR that its output path moves: rows in ascending address order (R141, R343). -/
def matrixRow (t : Transfer) : Nat :=
  let r := t.done / t.rowBytes
  if t.opnd.toInt < 0 then t.rows - 1 - r else r

/-- Whether rows of an MCADR lie over one another (R343 sets no least pitch), so that a block of memory holds bytes of several. -/
def rowsOverlap (t : Transfer) : Bool := decide (t.rows > 1) && decide (t.opnd.toInt.natAbs < t.rowBytes)

/-- Whether an MCADR can move its next piece: its row has been taken from the garner, or every row where they lie over one another. -/
def rowsTaken (t : Transfer) : Bool :=
  if rowsOverlap t then (List.range t.rows).all t.taken.contains else t.taken.contains (matrixRow t)

/-- A block of MCADR (R343). Rows that lie over one another move as one piece, row after row, so that each block is written once and in ascending order (R128,
R141, R146, log 23). -/
def matrixOut (s : State) (x : Nat) (t : Transfer) : State :=
  let r := matrixRow t
  let b := t.done % t.rowBytes
  let va := t.base + BitVec.ofNat 64 r * t.opnd + BitVec.ofNat 64 b
  if !rowsTaken t then s
  else if rowsOverlap t then putPiece s x t (totalBytes t) (placeCells { t with done := 0 } t.image)
  else
    match writeBlock s x t va ((sliceBytes t.image (r * t.rowBytes + b) 64).map some) with
    | (s, .error h) => haltTransfer s x h
    | (s, .ok _) => advance s x 64

/-- The blocks of a transfer's source that a piece needs, in order of use. -/
def needBlocks (t : Transfer) (n : Nat) : List DWord :=
  ((List.range n).map fun i => inAddr t (t.done + i) &&& ~~~63#64).dedup

/-- The source bytes of a piece of COPY, FILL or REDUCE (R333). -/
def pieceBytesOf (s : State) (x : Nat) (t : Transfer) (n : Nat) : State × Except Halt (List Byte) :=
  let c := t.cmd
  let rb := (outShape t).2
  if cmdOpc c = 2 then (s, .ok ((List.range n).map fun i => c.getD (8 + (t.done + i) % rb % 8) 0#8))
  else if cmdPsrc c then (s, .ok (sliceBytes t.image t.done n))
  else
    match readOnceAll s x t (needBlocks t n) with
    | (s, .error h) => (s, .error h)
    | (s, .ok _) =>
      let t := xferOf s x t
      (s, .ok ((List.range n).map fun i => heldByte t (inAddr t (t.done + i))))

/-- The blocks of the destination that a REDUCE reads, each as one access (R333), through its live frame (R150). -/
def readOld (s : State) (x : Nat) (t : Transfer) (bs : List Nat) : EngRes (AMap (List Byte)) :=
  match bs with
  | [] => (s, .ok [])
  | b :: rest =>
    match readBlock s x (xferOf s x t) (BitVec.ofNat 64 (64 * b)) with
    | (s, .error h) => (s, .error h)
    | (s, .ok l) =>
      match readOld s x t rest with
      | (s, .error h) => (s, .error h)
      | (s, .ok m) => (s, .ok (put m b l))

/-- The elements of a piece combined with those of the destination, in the command's order (R333). -/
def reduceCells (t : Transfer) (old : AMap (List Byte)) (b : List Byte) : OutCells :=
  let ty := ropType t.cmd
  let w := typeBytes ty
  (List.range (b.length / w)).foldl (fun acc i =>
    let a := (outAddr t (t.done + i * w)).toNat
    let was := (List.range w).map fun j =>
      ((acc.find? fun e => e.1 == a + j).map (·.2)).getD (((lookup old ((a + j) / 64)).getD []).getD ((a + j) % 64) 0#8)
    let r := reduceBytes ty (fieldOf t.cmd 3 1 / 16) was (sliceBytes b (i * w) w)
    (((List.range w).zip r).map fun e => (a + e.1, e.2)) ++ acc) []

/-- A piece of an XENG command (R333), after the engine's checks, whose failure ends it with BAD_COMMAND (R332). -/
def commandBlock (s : State) (x : Nat) (t : Transfer) : State :=
  let c := t.cmd
  let snapOk := s.snaps.any fun p => p.xfer == x
  if !cmdLegal c (snapOk || cmdOpc c != 3) then endTransfer s x 1 0 0
  else if totalBytes t = 0 then endTransfer s x 0 0 0
  else
    let n := pieceLen s t
    let got := if cmdOpc c = 3 then snapRange s x t t.done n else pieceBytesOf s x t n
    match got with
    | (s, .error h) => haltTransfer s x h
    | (s, .ok bytes) =>
      let t := xferOf s x t
      if cmdOpc c != 4 then putPiece s x t n (placeCells t bytes)
      else
        match readOld s x t (outBlocks (placeCells t bytes)) with
        | (s, .error h) => haltTransfer s x h
        | (s, .ok old) => let t := xferOf s x t; putPiece s x t n (reduceCells t old bytes)

/-- The rows of memory that a transfer writes, as address and length. -/
def destRows (t : Transfer) : List (Nat × Nat) :=
  match t.op with
  | .cpyout | .xeng => let (rows, rb) := outShape t; (List.range rows).map fun r => (((outBase t).1 + BitVec.ofNat 64 r * (outBase t).2).toNat, rb)
  | .mcadr .. => (List.range t.rows).map fun r => ((t.base + BitVec.ofNat 64 r * t.opnd).toNat, t.rowBytes)
  | _ => []

/-- Whether a transfer of a context writes into a range (R151). -/
def writesInto (ctag : Nat) (base n : Nat) (t : Transfer) : Bool :=
  t.ctag == ctag && (destRows t).any fun e => decide (e.1 < base + n) && decide (base < e.1 + e.2)

/-- Whether a transfer is a SNAP that still waits for the lines of peers (R154). -/
def unfixed (s : State) (x : Nat) : Bool := s.snaps.any fun p => p.xfer == x && !p.far.isEmpty

/-- Whether a transfer was accepted after a PUBLISH of a range that it writes into had reached the publish unit: it is excluded whole, so it moves nothing
until the publish point (R151). -/
def afterPublish (s : State) (x : Nat) (t : Transfer) : Bool :=
  s.publishes.any fun p => decide (p.1 < x) && writesInto p.2.ctag p.2.base.toNat p.2.len t

/-- One piece of a transfer (R146); one that is parked, paused, held back or gone moves nothing (R51, R81, R151). -/
def transferBlock (s : State) (x : Nat) : State :=
  match lookup s.transfers x with
  | none => s
  | some t =>
    if t.parked.isSome || t.pause || afterPublish s x t || unfixed s x then s
    else match t.op with
      | .xeng => commandBlock s x t
      | .cpyout => copyOut s x t
      | .mcadr .. => matrixOut s x t
      | _ => copyIn s x t

/-- TRANSFER_BLOCK (R146). -/
def execTransferBlock (x : Nat) (s : State) : Host.Outcome State Fault Refusal := .next (transferBlock s x)

/-- Whether a transfer can move now: an output of the array only what it has taken (R343). -/
def canMove (s : State) (x : Nat) (t : Transfer) : Bool :=
  t.parked.isNone && !t.pause && (t.peer.all fun p => p.answer.isSome) && !copyWaits s x t && !afterPublish s x t && !unfixed s x
    && (match t.op with
      | .mcadr .. => rowsTaken t
      | _ => true)

end Sys2Proof.Machine
end

