-- ==== Sys2Proof/Machine/CopyInstr.lean ====
section
/-! DEFINITION. Sys2Proof/Machine/CopyInstr.lean: the copy instructions, CPYBAR, XENG and PUBLISH (R324-R334, R150-R155). -/
namespace Sys2Proof.Machine

/-- A copy as an instruction gives it, before an engine takes it (R324): operation, SUB bits, reference pair, address, operand, barrier bit. -/
structure CopyArgs where
  op : XferOp
  sub : BitVec 4
  d : BitVec 6
  a : BitVec 6
  b : BitVec 6
  bar : Bool
  deriving DecidableEq, Repr

/-- The region to which a wave belongs: its group's, or its sheaf's. -/
def waveRegion (s : State) (w : Wave) : DWord :=
  match w.sheaf with
  | some sh => sh.region
  | none => (groupOf s w.group).region

/-- The transfer that a copy instruction describes, taken at issue (R324, R447), for targets of a format. -/
def copyOf (s : State) (u : Nat) (w : Wave) (c : CopyArgs) (engine : Nat) (plots : List (Nat × Nat)) (fmt : Nat) (image : List Byte) : Transfer :=
  let r := refOf w c.d
  let lane := c.op == .cpy
  { op := c.op, engine, ctag := w.ctag, wave := u, group := w.group, launch := (groupOf s w.group).launch, sub := c.sub,
    lanes := if lane then w.active else 0#32, base := w.sreg c.a.toNat, ref0 := w.sreg c.d.toNat, ref1 := w.sreg (c.d.toNat + 1),
    opnd := if lane then 0#64 else w.sreg c.b.toNat,
    rowoff := if lane then (List.range 32).map fun i => if w.active.getLsbD i then w.lane c.b.toNat i else 0#32 else [],
    cmd := [], bara := if c.bar then w.cbar else 0#64, plots, fmt := BitVec.ofNat 4 fmt, rows := r.nrows,
    rowBytes := windowRow fmt r.ncols, image, done := 0, parked := none, pause := false, region := waveRegion s w, peer := [] }

/-- Transfers that an engine holds. -/
def engineLoad (s : State) (e : Nat) : Nat := (s.transfers.filter fun t => t.2.engine == e).length

/-- The engine of a die that takes a transfer: the device's choice among those not full (R324, log 9). -/
def pickEngine (s : State) (die : Nat) : Option Nat :=
  let first := Config.engineChoice s.uid % Config.enginesPerDie
  ((List.range Config.enginesPerDie).map fun i => die * Config.enginesPerDie + (first + i) % Config.enginesPerDie).find? fun e =>
    decide (engineLoad s e < Config.transfersPerEngine)

/-- Alignment of a copy (R324): row addresses and pitch by the element as it is moved. -/
def checkCopyAlign (t : Transfer) : Check Unit :=
  let m := unitBytes t.fmt.toNat
  let l := match t.op with
    | .cpy => (List.range (movedRows t)).map fun i => (rowAddr t (movedRow t i)).toNat
    | _ => [t.base.toNat, (sext32 t.opnd.toNat).toNat]
  match l.find? fun x => x % m != 0 with
  | some x => .error (misalign x)
  | none => .ok ()

/-- The object in which a `.bar` transfer is counted (R324, R330): UNINIT whenever CBAR names none now, whatever keeps it from naming one. -/
def checkCbar (s : State) (w : Wave) (bar : Bool) : Check (Option Place) :=
  if !bar then .ok none
  else if w.cbar = 0#64 then .error (protection 0x11 0)
  else match checkBarrier s w w.cbar.toNat true with
    | .error (.trap _) => .error (protection 0x11 (argAddr w.cbar.toNat))
    | .error e => .error e
    | .ok p => .ok (some p)

/-- One target of a copy into plots: its group, plot and reference rules (R324 steps 1 and 2), with `n` the bytes to credit for each position. A plot that
`owners` of earlier positions name already is credited for those too (R72, R326). -/
def checkTarget (s : State) (g : Nat) (r : PlotRef) (n : Plot → Nat) (fmt : Option Nat) (owners : List Nat) : Check (Nat × Plot) :=
  plotCheck r.handle (match plotFor s g r.handle with
    | .error t => .error t
    | .ok (q, p) =>
      match checkCopyIn p with
      | .error t => .error t
      | .ok _ =>
        match checkBounds p r with
        | .error t => .error t
        | .ok _ =>
          if fmt.isSome && fmt != some p.fmt.toNat then .error (6, 8)
          else match checkQuota p (n p * (owners.count q + 1)) with
            | .error t => .error t
            | .ok _ => .ok (q, p))

/-- Targets of a list of groups, in position order: the first refusal is the answer (R326). -/
def checkTargets (s : State) (gs : List Nat) (r : PlotRef) (n : Plot → Nat) (fmt : Option Nat) (owners : List Nat) : Check (List (Nat × Plot)) :=
  match gs with
  | [] => .ok []
  | g :: rest =>
    match checkTarget s g r n fmt owners with
    | .error e => .error e
    | .ok q =>
      match checkTargets s rest r n (some q.2.fmt.toNat) (q.1 :: owners) with
      | .error e => .error e
      | .ok l => .ok (q :: l)

/-- The groups that a copy delivers to: the wave's own, or the yoke positions that CPYM's mask selects, by a holder of a lease (R326). -/
def copyGroups (s : State) (w : Wave) (c : CopyArgs) : Check (List Nat) :=
  if c.op != .cpym then .ok [w.group]
  else match yokeOf s w.group with
    | none => .error (.trap ⟨12, 1, 0, 0#32⟩)
    | some (_, k) =>
      if !holdsLease k w.group || k.state = .forming || k.state = .lost then .error (.trap ⟨12, 1, 0, 0#32⟩)
      else
        let m := bitsAt (w.sreg c.b.toNat).toNat 32 32
        .ok (((List.range k.members.length).zip k.members).filterMap fun e => if bitsAt m e.1 1 = 1 then some e.2.group else none)

/-- Rows that a copy into a plot will move, before it is made a transfer. -/
def argRows (w : Wave) (c : CopyArgs) : Nat :=
  let r := refOf w c.d
  if c.op = .cpy then ((bitsOf w.active).filter fun i => decide (i < r.nrows)).length else r.nrows

/-- What the checks of a copy leave to do: the transfer, its targets, the bytes credited to each, and its barrier object. -/
structure CopyPlan where
  xfer : Transfer
  targets : List (Nat × Plot)
  n : Nat
  bar : Option Place
  deriving DecidableEq, Repr

/-- The checks that follow the reference and the quota (R324): alignment, CBAR, and room in an engine. -/
def finishPlan (s : State) (w : Wave) (c : CopyArgs) (t : Nat → Transfer) (targets : List (Nat × Plot)) (n : Nat) (aligned : Bool) : Check CopyPlan :=
  match (if aligned then checkCopyAlign (t 0) else .ok ()) with
  | .error e => .error e
  | .ok _ =>
    match checkCbar s w c.bar with
    | .error e => .error e
    | .ok bar =>
      match pickEngine s (dieNo (coreNo s w)) with
      | none => .error .wait
      | some e => .ok ⟨t e, targets, n, bar⟩

/-- The checks of a copy into plots (R324, R326). -/
def checkCopy (s : State) (u : Nat) (w : Wave) (c : CopyArgs) : Check CopyPlan :=
  match copyGroups s w c with
  | .error e => .error e
  | .ok gs =>
    let r := refOf w c.d
    let n := fun (p : Plot) => argRows w c * windowRow p.fmt.toNat r.ncols
    match checkTargets s gs r n none [] with
    | .error e => .error e
    | .ok l =>
      match l.head? with
      | none => finishPlan s w c (fun e => { copyOf s u w c e [] 0 [] with rows := 0 }) [] 0 false
      | some (_, p) =>
        finishPlan s w c (fun e => copyOf s u w c e (l.map fun q => (q.1, r.handle)) p.fmt.toNat []) l (n p) true

/-- Bytes of a plot as a window is read from it (R66, R319). -/
def windowImage (p : Plot) (r : PlotRef) : List Byte := windowBytes p r.row0 r.col0 r.nrows r.ncols

/-- The reference of a read of a plot by a group's own handle (R68, R71). -/
def checkSource (s : State) (g : Nat) (r : PlotRef) : Check (Nat × Plot) :=
  plotCheck r.handle (match plotFor s g r.handle with
    | .error t => .error t
    | .ok (q, p) =>
      match checkRead p with
      | .error t => .error t
      | .ok _ =>
        match checkBounds p r with
        | .error t => .error t
        | .ok _ => .ok (q, p))

/-- The checks of CPYOUT (R324). -/
def checkCopyOut (s : State) (u : Nat) (w : Wave) (c : CopyArgs) : Check CopyPlan :=
  let r := refOf w c.d
  match checkSource s w.group r with
  | .error e => .error e
  | .ok (g, p) => finishPlan s w c (fun e => copyOf s u w c e [(g, r.handle)] p.fmt.toNat (windowImage p r)) [(g, p)] 0 true

/-- Count bytes credited to plots by a wave's copies (Table 13.5). -/
def countCredit (w : Wave) (n : Nat) : Wave := { w with ctr := { w.ctr with copyb := w.ctr.copyb + BitVec.ofNat 64 n } }

/-- The end of an instruction whose step report is not plain (Table 14.3). -/
def Wave.finishAs (w : Wave) (nx : BitVec 2) (kind : Byte) (val : Nat) : Wave := (w.next nx).complete kind val

/-- Registration of a counted transfer in the current phase, by an instruction of a wave on core `c` (R302). -/
def registerBar (s : State) (c : Nat) (bar : Option Place) : State :=
  match bar with
  | none => s
  | some p => barSend (reachLine s c p.key) p.obj 1 1 none

/-- An accepted transfer joins its engine; one that moves nothing ends, and so arrives, at once (R324). -/
def startTransfer (s : State) (t : Transfer) (moves : Bool) : State :=
  let x := s.uid
  let s := { s with uid := s.uid + 1, transfers := put s.transfers x t }
  if moves then s else endTransfer s x 0 0 0

/-- Acceptance of a copy into plots (R324): credit, registration, and the engine. Its reads follow the wave's earlier accesses (R145). -/
def acceptCopy (s : State) (nx : BitVec 2) (u : Nat) (w : Wave) (p : CopyPlan) (h : Nat) : State :=
  let s := drainPath s (coreNo s w)
  let moves := totalBytes p.xfer != 0
  let w := countCredit (waveOf s u) (if moves then p.n * p.targets.length else 0)
  let s := setWave s u (w.finishAs nx 1#8 (h % 64))
  let s := if moves then p.targets.foldl (fun s q => creditPlot s q.1 h p.n) s else s
  startTransfer (registerBar s (coreNo s w) p.bar) p.xfer moves

/-- A copy into plots (R324-R326). -/
def copyInto (s : State) (nx : BitVec 2) (c : CopyArgs) : Out :=
  checked s (fun u w => checkCopy s u w c) fun u w p => acceptCopy s nx u w p (refOf w c.d).handle

/-- The SUB field of a copy (Table 12.1). -/
def copySub (bar rel : BitVec 1) : BitVec 4 := bar ++ 0#2 ++ rel

/-- CPY (R325): lane r names memory row r. -/
def execCpy (nx : BitVec 2) (d a b : BitVec 6) (c : BitVec 1) (s : State) : Out := copyInto s nx ⟨.cpy, copySub c 0#1, d, a, b, c == 1#1⟩
/-- CPYT (R325): memory rows become window columns. -/
def execCpyt (nx : BitVec 2) (d a b : BitVec 6) (c : BitVec 1) (s : State) : Out := copyInto s nx ⟨.cpyt, copySub c 0#1, d, a, b, c == 1#1⟩
/-- CPYIM (R325): rows may overlap, with dilation. -/
def execCpyim (nx : BitVec 2) (d a b : BitVec 6) (c : BitVec 1) (s : State) : Out := copyInto s nx ⟨.cpyim, copySub c 0#1, d, a, b, c == 1#1⟩
/-- CPYM (R325, R326): to the plots of the yoke positions that the mask selects. -/
def execCpym (nx : BitVec 2) (d a b : BitVec 6) (c : BitVec 1) (s : State) : Out := copyInto s nx ⟨.cpym, copySub c 0#1, d, a, b, c == 1#1⟩

/-- CPYOUT (R325): a read of the window, with release when `.rel` is set. Its writes follow the wave's earlier accesses (R145). -/
def execCpyout (nx : BitVec 2) (d a b : BitVec 6) (c r : BitVec 1) (s : State) : Out :=
  let k : CopyArgs := ⟨.cpyout, copySub c r, d, a, b, c == 1#1⟩
  checked s (fun u w => checkCopyOut s u w k) fun u w p =>
    let h := (refOf w d).handle
    let s := drainPath s (coreNo s w)
    let s := setWave s u ((waveOf s u).finishAs nx 1#8 (h % 64))
    let s := p.targets.foldl (fun s q => acceptRead s q.1 h (r == 1#1) (.xfer s.uid)) s
    startTransfer (registerBar s (coreNo s w) p.bar) p.xfer (totalBytes p.xfer != 0)

/-- The check of CPYBAR (R330): a non-zero address names an object. -/
def checkCpybar (s : State) (w : Wave) (va : DWord) : Check Unit :=
  if va = 0#64 then .ok ()
  else match checkBarrier s w va.toNat true with
    | .error e => .error e
    | .ok _ => .ok ()

/-- CPYBAR (R330). -/
def execCpybar (nx : BitVec 2) (d a : BitVec 6) (s : State) : Out :=
  checked s (fun _ w => checkCpybar s w (w.sreg a.toNat)) fun u w _ =>
    setWave s u ({ w.setS d.toNat (w.copyErr.setWidth 64) with copyErr := 0#8, cbar := w.sreg a.toNat }.finish nx)

/-- What the issue of XENG has found (R332): the record, its place, the engine, the plot and the barrier object. -/
structure CmdPlan where
  cmd : List Byte
  engine : Nat
  source : Option (Nat × Plot)
  bar : Option Place
  deriving DecidableEq, Repr

/-- Snapshots that a die streams (R333). -/
def snapsOf (s : State) (die : Nat) : Nat :=
  (s.snaps.filter fun p => match lookup s.transfers p.xfer with
    | some t => engineDie t == die
    | none => false).length

/-- The reference of a command whose source is a plot. -/
def cmdRef (c : List Byte) : PlotRef := plotRef (cmdWord c 8) (cmdWord c 24)

/-- The engine that a command goes to: the one it names, or the device's choice (R332). -/
def cmdEngine (s : State) (die : Nat) (c : List Byte) : Option Nat :=
  if bitsAt (cmdFlags c) 2 1 = 1 then
    let e := bitsAt (fieldOf c 2 1) 0 4
    if engineLoad s e < Config.transfersPerEngine then some e else none
  else pickEngine s die

/-- The checks of XENG at issue (R332) on the record's bytes: the plot of a COPY from a plot, the barrier object, room in an engine, and for a SNAP
fewer than four on the die (R333). -/
def checkCommand (s : State) (w : Wave) (c : List Byte) : Check CmdPlan :=
  let src : Check (Option (Nat × Plot)) :=
    if cmdPsrc c && cmdOpc c == 1 then
      match checkSource s w.group (cmdRef c) with
      | .error e => .error e
      | .ok q => .ok (some q)
    else .ok none
  match src with
  | .error e => .error e
  | .ok source =>
    let bar : Check (Option Place) :=
      if zeroField c 48 8 then .ok none
      else match checkBarrier s w (fieldOf c 48 8) true with
        | .error e => .error e
        | .ok p => .ok (some p)
    match bar with
    | .error e => .error e
    | .ok bar =>
      match cmdEngine s (dieNo (coreNo s w)) c with
      | none => .error .wait
      | some engine => if cmdOpc c = 3 && snapsOf s (engine / 8) ≥ 4 then .error .wait else .ok ⟨c, engine, source, bar⟩

/-- The transfer of a command (R332, R447). -/
def commandOf (s : State) (u : Nat) (w : Wave) (p : CmdPlan) : Transfer :=
  let r := cmdRef p.cmd
  let fmt := match p.source with
    | some (_, q) => q.fmt
    | none => 0#4
  { op := .xeng, engine := p.engine, ctag := w.ctag, wave := u, group := w.group, launch := (groupOf s w.group).launch, sub := 0#4, lanes := 0#32,
    base := 0#64, ref0 := cmdWord p.cmd 8, ref1 := cmdWord p.cmd 24, opnd := 0#64, rowoff := [], cmd := p.cmd, bara := cmdWord p.cmd 48,
    plots := match p.source with
      | some (g, _) => [(g, r.handle)]
      | none => [],
    fmt, rows := r.nrows, rowBytes := windowRow fmt.toNat r.ncols,
    image := match p.source with
      | some (_, q) => windowImage q r
      | none => [],
    done := 0, parked := none, pause := false, region := waveRegion s w, peer := [] }

/-- The extent of line `i` of an aside area that begins at a virtual address, cut where a physical line ends. -/
def areaParts (base : DWord) (i : Nat) : List (DWord × Nat) :=
  let va := base + BitVec.ofNat 64 (128 * i)
  let m := 128 - va.toNat % 128
  if m = 128 then [(va, 128)] else [(va, m), (va + BitVec.ofNat 64 m, 128 - m)]

/-- Line `i` of an aside area as an engine reaches it, as places, keys and lengths: each part of it lies on a local page with W = 1 (R333). -/
def areaLine (s : State) (t : Transfer) (base : DWord) (i : Nat) : Option (List (Nat × Nat × Nat)) :=
  (areaParts base i).mapM fun e =>
    match engineAt s t e.1 true with
    | .ok p => if p.loc = 0 then some (p.key, p.kid, e.2) else none
    | .error _ => none

/-- The aside area of a SNAP, line by line: every part of it must be one that the engine can write (R333). -/
def areaPlaces (s : State) (t : Transfer) (base : DWord) (n : Nat) : Option (List (List (Nat × Nat × Nat))) :=
  (List.range (ceilDiv n 128)).mapM (areaLine s t base)

/-- A line of a range of virtual memory as an engine reaches it now, and whether it lies on a page of a peer. -/
def rangeLine (s : State) (t : Transfer) (base : DWord) (i : Nat) (area : List (Nat × Nat × Nat)) : SnapLine × Bool :=
  match engineAt s t (base + BitVec.ofNat 64 (128 * i)) false with
  | .ok p => if p.loc = 2 then (⟨noLine, 0, area, none⟩, true) else (⟨lineOf p.key, p.kid, area, none⟩, false)
  | .error _ => (⟨noLine, 0, area, none⟩, false)

/-- The two requests for the contents of a line that lies on a page of a peer (R120): place, node, die and offset of each 64-byte block. -/
def farBlocks (s : State) (t : Transfer) (base : DWord) (i : Nat) : List Nat :=
  match engineAt s t (base + BitVec.ofNat 64 (128 * i)) false with
  | .ok p => [p.key, p.key + 64]
  | .error _ => []

/-- FENCE sc at system scope at a wave (Table 5.4): what it has in flight performs, and its L1 drops SHARED lines. -/
def fenceSystem (s : State) (u : Nat) (w : Wave) : State :=
  fenceAcquire (fenceRelease (flushResults s u) (coreNo s w) 4) (coreNo s w) 4

/-- The snap point of a SNAP whose fields are legal (R154): the image is fixed before the wave goes on. What cores have sent to the slices and barrier units
is in it, so that no write is in it without the writes that happen before it. The lines of peers are asked for at the same moment (log 23). -/
def snapPoint (s : State) (x : Nat) (t : Transfer) : State :=
  let base := cmdWord t.cmd 8
  match areaPlaces s t (cmdWord t.cmd 24) (totalBytes t) with
  | none => s
  | some area =>
    let s := performAll s
    let lines := ((List.range area.length).zip area).map fun e => rangeLine s t base e.1 e.2
    let far := ((List.range lines.length).zip lines).filterMap fun e => if e.2.2 then some e.1 else none
    let keys := far.flatMap (farBlocks s t base)
    let txs : List PeerTx := ((List.range keys.length).zip keys).map fun e => { id := s.uid + e.1, key := e.2, kind := 0, sent := s.tsc.toNat, answer := none }
    { s with
      uid := s.uid + keys.length
      packets := s.packets ++ txs.map fun q => .read q.id (peerNode q.key) (peerDie q.key) (peerOff q.key) 64
      transfers := if txs.isEmpty then s.transfers else put s.transfers x { xferOf s x t with peer := txs }
      snaps := s.snaps ++ [{ xfer := x, ctag := t.ctag, lines := lines.map (·.1), far }] }

/-- The lines of a snapshot that had no place yet take the one that they have got since, before anything is written through it (R154, R155). -/
def resolveLines (s : State) (p : Snap) : Snap :=
  match lookup s.transfers p.xfer with
  | none => p
  | some t =>
    if !p.far.isEmpty || p.lines.all (fun x => x.line != noLine || x.aside.isSome) then p
    else { p with lines := ((List.range p.lines.length).zip p.lines).map fun e =>
      if e.2.line = noLine && e.2.aside.isNone then (rangeLine s t (cmdWord t.cmd 8) e.1 ((areaLine s t (cmdWord t.cmd 24) e.1).getD e.2.area)).1 else e.2 }

/-- The contents of a snapshot's lines of peers, as the answers bring them. -/
def farLines (p : Snap) (l : List PeerTx) : List SnapLine :=
  let bytes := fun (k : Nat) => ((l[k]?.bind (·.answer)).map (·.2)).getD []
  ((List.range p.lines.length).zip p.lines).map fun e =>
    let k := p.far.findIdx (· == e.1)
    if p.far.contains e.1 then { e.2 with aside := some (bytes (2 * k) ++ bytes (2 * k + 1)) } else e.2

/-- A snapshot whose requests to peers have all been answered is fixed (R154); one that a peer has refused ends its command with FAULT (R120, R334). -/
def fixSnap (s : State) (p : Snap) : State :=
  match lookup s.transfers p.xfer with
  | none => s
  | some t =>
    if p.far.isEmpty || t.peer.any (·.answer.isNone) then s
    else if t.peer.any fun q => q.answer.any fun a => !a.1 then endTransfer s p.xfer 2 10 (cmdWord t.cmd 8).toNat
    else { s with
      transfers := put s.transfers p.xfer { t with peer := [] }
      snaps := s.snaps.map fun q => if q.xfer = p.xfer then { q with lines := farLines q t.peer, far := [] } else q }

/-- A wave that waits for its snap point goes on once that is fixed, or the command is gone (R333). -/
def passSnap (s : State) (w : Wave) : Wave :=
  match w.stall with
  | some (.snap nx x e) => if (groupOf s w.group).frozen || s.snaps.any (fun p => p.xfer == x && !p.far.isEmpty) then w else { w with stall := none }.finishAs nx 6#8 e
  | _ => w

/-- What snapshots do as time passes: lines get their places, those with every answer are fixed, and the waves that waited for them go on. -/
def resolveSnaps (s : State) : State :=
  let s : State := { s with snaps := s.snaps.map (resolveLines s) }
  let s := s.snaps.foldl fixSnap s
  { s with waves := mapVals s.waves (passSnap s) }

/-- The checks of XENG (R332): alignment, the record read as a load, then its own. XENG cannot address the private half (R42). -/
def checkXeng (s : State) (w : Wave) (va : Nat) : Check Placed :=
  if va % 64 != 0 then .error (misalign va)
  else if isPrivate va then .error (.trap (fatalTrap 9 va))
  else checkLanes s w 0 [⟨0, va, 64⟩]

/-- XENG (R332-R334): the record goes to an engine, whose number is written. -/
def execXeng (nx : BitVec 2) (d a : BitVec 6) (s : State) : Out :=
  checked s (fun _ w => checkXeng s w (w.sreg a.toNat).toNat) fun u w l =>
    let s := drainPath s (coreNo s w)
    withPeers s u w l (readAsks l true) false fun s ans =>
      let (s, b) := readPlaces s (coreNo s w) (readAsks l true) true ans (l.flatMap (·.2))
      let w := waveOf s u
      match checkCommand s w b with
      | .error e => stopWave s u e false
      | .ok p =>
        let t := commandOf s u w p
        let s := if cmdOpc b = 3 then fenceSystem s u w else s
        let x := s.uid
        let w := waveOf s u
        let w := w.setS d.toNat (BitVec.ofNat 64 p.engine)
        let s := setWave s u (w.finishAs nx 6#8 p.engine)
        let s := match p.source with
          | some (g, _) => acceptRead s g (cmdRef b).handle (cmdRel b) (.xfer x)
          | none => s
        let s := startTransfer (registerBar s (coreNo s w) p.bar) t true
        if cmdOpc b = 3 && cmdLegal b true then
          let s := snapPoint s x t
          if s.snaps.any fun p => p.xfer == x && !p.far.isEmpty then setWave s u { w with stall := some (.snap nx x p.engine) } else s
        else s

/-- The checks of PUBLISH (R331): alignment, then every page translated as a write. -/
def checkPublish (s : State) (w : Wave) (base n : Nat) : Check Placed :=
  if base % 65536 != 0 then .error (misalign base)
  else if n % 65536 != 0 then .error (misalign n)
  else checkExtent s w 1 base n

/-- The local address of the leaf word of a translated address, with the leaf and the page's size (R25): as `walkFrom`. -/
def leafPlace (s : State) (levels : List (Nat × Nat × Nat)) (die base va : Nat) : Option (Nat × DWord × Nat) :=
  match levels with
  | [] => none
  | (_, sh, n) :: rest =>
    let k := localKey die (base + 8 * bitsAt va sh n)
    let e : DWord := BitVec.ofNat 64 (natOf (viewBytes s (key0 s) k 8))
    if !leafBit e 0 then none
    else if leafBit e 1 then some (k, e, 2 ^ sh)
    else leafPlace s rest (bitsAt e.toNat 2 1) (bitsAt e.toNat 8 44 * 256) va

/-- The leaf of an address of a context: none in the private half, which has no leaves of its own (R42). -/
def leafOf (s : State) (ctag va : Nat) : Option (Nat × DWord × Nat) :=
  let pt := (ctxOf s ctag).ptbase.toNat
  if isPrivate va then none else leafPlace s walkLevels (bitsAt pt 0 1) (bitsAt pt 10 42 * 1024) va

/-- The extent of the leaves that a range overlaps, which are published whole (R331): base and length. -/
def leafSpan (s : State) (ctag base n : Nat) : Nat × Nat :=
  let size := fun (va : Nat) => ((leafOf s ctag va).map (·.2.2)).getD 65536
  let last := base + n - 65536
  let lo := base / size base * size base
  (lo, last / size last * size last + size last - lo)

/-- PUBLISH (R331, R151): its fence at issue; the rest at its publish point, until which the wave issues nothing. -/
def execPublish (nx : BitVec 2) (a b : BitVec 6) (s : State) : Out :=
  checked s (fun _ w => checkPublish s w (w.sreg a.toNat).toNat (w.sreg b.toNat).toNat) fun u w _ =>
    let s := fenceSystem s u w
    let w := waveOf s u
    let base := w.sreg a.toNat
    let n := (w.sreg b.toNat).toNat
    if n = 0 then setWave s u (w.finish nx)
    else
      let (base, n) := leafSpan s w.ctag base.toNat n
      let waits := (s.transfers.filter fun t => writesInto w.ctag base n t.2).map (·.1)
      let s := setWave s u { w with stall := some (.publish nx s.uid) }
      { s with uid := s.uid + 1, publishes := put s.publishes s.uid { wave := u, ctag := w.ctag, base := BitVec.ofNat 64 base, len := n, waits } }

/-- The leaves of a range of a context, each once: place of the word, leaf, size. -/
def rangeLeaves (s : State) (ctag base n : Nat) : List (Nat × DWord × Nat) :=
  ((List.range (n / 65536)).filterMap fun i => leafOf s ctag (base + 65536 * i)).dedup

/-- Cached translations of a context that meet a range leave both dies (R46). -/
def dropTlb (s : State) (ctag base n : Nat) : State :=
  { s with tlb := s.tlb.filter fun e => !(e.ctag == ctag && decide (e.base < base + n) && decide (base < e.base + e.size)) }

/-- Every L1 line of a set of physical lines is given up. -/
def dropLines (s : State) (hit : Nat → Bool) : State :=
  { s with cores := mapVals s.cores fun c => { c with l1 := c.l1.filter fun e => !hit e.1, owned := c.owned.filter fun l => !hit l } }

/-- Steps 3 and 4 of R151 for one SHADOW leaf: its frames leave every L1, and SPHASE is inverted in its word. -/
def publishLeaf (s : State) (e : Nat × DWord × Nat) : State :=
  let (k, leaf, size) := e
  if !leafShadow leaf then s
  else
    let lo := lineOf (localKey (leafHome leaf) (leafFrame leaf))
    let s := dropLines s fun l => decide (lo ≤ l) && decide (l < lo + 2 * size / 128)
    agentWrite s (key0 s) k (bytesOf 8 (leaf ^^^ 0x400#64).toNat)

/-- The publish point (R151). -/
def publishNow (s : State) (p : Publish) : State :=
  let leaves := rangeLeaves s p.ctag p.base.toNat p.len
  let s := s.cores.foldl (fun t c => drainPath t c.1) s
  leaves.foldl publishLeaf (dropTlb s p.ctag p.base.toNat p.len)

/-- Whether an instruction of a context that waits for peers has accesses to SHADOW pages too, whose places were found before (R48): they perform before a publish
point, so that they reach the frame that was live when they were translated (R150, R152). -/
def shadowPlaced (s : State) (ctag : Nat) : Bool :=
  s.waves.any fun e => e.2.ctag == ctag && e.2.status != .retired && e.2.placed.any fun a => a.2.any fun p => p.1.loc == 0 && leafShadow p.1.leaf

/-- Whether a publish point can come: the transfers that its PUBLISH met have ended (R151), and no access is under way to a frame that it turns (R150). -/
def publishReady (s : State) (p : Publish) : Bool := p.waits.isEmpty && !shadowPlaced s p.ctag

/-- PUBLISH_POINT (R151): the stalled wave goes on. The point counts as a fence sc at system scope of that wave, whose core keeps no older copy (R139). -/
def execPublishPoint (x : Nat) (s : State) : Out :=
  .next (match lookup s.publishes x with
    | none => s
    | some p =>
      if !publishReady s p then s
      else
        let s := publishNow { s with publishes := erase s.publishes x } p
        match lookup s.waves p.wave with
        | none => s
        | some w =>
          let s := dropShared s (coreNo s w)
          match w.stall with
          | some (.publish nx y) => if y = x then setWave s p.wave ({ w with stall := none }.finish nx) else s
          | _ => s)

end Sys2Proof.Machine
end

