-- ==== Sys2Proof/Machine/Sequencing.lean ====
section
/-! DEFINITION. Sys2Proof/Machine/Sequencing.lean: NOP, HALT, the sequencing instructions, MODE, special registers and performance counters
(R236-R241, R245, R362). -/
namespace Sys2Proof.Machine

/-- PC + 4 × SEXT(IMM16) (R238). -/
def relTarget (w : Wave) (i : BitVec 16) : DWord := w.pc + 4#64 * i.signExtend 64

/-- NOP (R236). -/
def execNop (nx : BitVec 2) (s : State) : Out := regOp s nx id

/-- HALT (R237): outstanding results are written, then the wave retires. -/
def execHalt (s : State) : Out :=
  onWave s fun u _ =>
    let s := settleWave s u
    if outstanding s u then s
    else
      let w := (waveOf s u).complete 0#8 0
      retireWave (setWave s u w) u (brokenCause 4 0)

/-- SETBT (R238). -/
def execSetbt (nx : BitVec 2) (i : BitVec 16) (s : State) : Out := regOp s nx fun w => { w with bt := relTarget w i }
/-- SETBTS (R238). -/
def execSetbts (nx : BitVec 2) (a : BitVec 6) (s : State) : Out := regOp s nx fun w => { w with bt := w.sreg a.toNat &&& ~~~3#64 }
/-- SETLT (R238). -/
def execSetlt (nx : BitVec 2) (i : BitVec 16) (s : State) : Out := regOp s nx fun w => { w with lt := relTarget w i }
/-- SETLC (R239). -/
def execSetlc (nx : BitVec 2) (a : BitVec 6) (s : State) : Out :=
  regOp s nx fun w => { w with lc := BitVec.ofNat 32 (min (w.sreg a.toNat).toNat (2 ^ 32 - 1)) }

/-- The sources of SAVEPC (Table 9.2). -/
def savepcValue (w : Wave) (sub : BitVec 2) : DWord :=
  match sub.toNat with
  | 0 => w.pc + 4#64
  | 1 => w.bt
  | 2 => w.lt
  | _ => w.lc.setWidth 64

/-- SAVEPC (R240). -/
def execSavepc (nx : BitVec 2) (d : BitVec 6) (sub : BitVec 2) (s : State) : Out := regOp s nx fun w => w.setS d.toNat (savepcValue w sub)

/-- MODE with its reserved bit zero (Table 8.6, R13). -/
def modeBits (x : DWord) : BitVec 12 := x.extractLsb' 0 12 &&& 0xFF7#12

/-- SETMODE (R241): TYPE 14 and 15 raise MODE_INVALID. -/
def execSetmode (nx : BitVec 2) (a : BitVec 6) (s : State) : Out :=
  checked s (fun _ w => if bitsAt (w.sreg a.toNat).toNat 4 4 ≥ 14 then .error (modeInvalid s w) else .ok ()) fun u w _ =>
    setWave s u ({ w with mode := modeBits (w.sreg a.toNat) }.finish nx)

/-- GETMODE (R241). -/
def execGetmode (nx : BitVec 2) (d : BitVec 6) (s : State) : Out := regOp s nx fun w => w.setS d.toNat (w.mode.setWidth 64)

/-- Present cores of a die as HMAP gives them (R189). -/
def hmapOf (s : State) (die : Nat) : BitVec 36 := if die = 0 then s.bar.hmap0 else s.bar.hmap1

/-- The special registers (Table 8.7) of a wave. -/
def specialReg (s : State) (w : Wave) (i : Nat) : DWord :=
  let g := groupOf s w.group
  let n := fun (x : Nat) => BitVec.ofNat 64 x
  match i with
  | 0 => n g.core
  | 1 => n (9 * dieNo g.core + g.core % 36 / 4)
  | 2 => n (dieNo g.core)
  | 3 => g.place.setWidth 64
  | 4 => n g.grpid
  | 5 => n w.waveId
  | 6 => n g.nwave
  | 7 => n (popCount w.live)
  | 8 => s.tsc
  | 9 => w.cyc
  | 10 => n ((ctxOf s w.ctag).ctx.getD 0)
  | 11 => if w.sheaf.isSome then 0xFFFFFFFF#64 else g.launchId.setWidth 64
  | 12 => g.region
  | _ => (coreOf s g.core).icad.setWidth 64

/-- CORE and PLACE as a READSR of index `i` sees them: as they are, or, where it is the second of a pair, as they were for the first (R184, R246). -/
def placeSeen (s : State) (w : Wave) (i : Nat) : Nat × Word :=
  let g := groupOf s w.group
  match w.pair with
  | some p => if p.half + i = 3 then (p.core, p.place) else (g.core, g.place)
  | none => (g.core, g.place)

/-- READSR (R245); reading CORE or PLACE is the first of a pair of R246 if the other is read next (`pairNext`), and both of a pair are of one instant
(R184). -/
def execReadsr (nx : BitVec 2) (d : BitVec 6) (i : BitVec 16) (s : State) : Out :=
  onWave s fun u w =>
    let (core, place) := placeSeen s w i.toNat
    let x := match i.toNat with
      | 0 => BitVec.ofNat 64 core
      | 3 => place.setWidth 64
      | k => specialReg s w k
    let half : Option ReadPair := if i = 0#16 || i = 3#16 then some ⟨i.toNat, core, place⟩ else none
    setWave s u { (w.setS d.toNat x).finish nx with pair := half }

/-- The counters of Table 13.5 by SUB. -/
def counterOf (c : Counters) (i : Nat) : DWord :=
  match i with
  | 0 => c.instr
  | 1 => c.parkcyc
  | 2 => c.l1miss
  | 3 => c.faratom
  | 4 => c.sbwait
  | 5 => c.copyb
  | 6 => c.mrows
  | _ => c.droops

/-- PERFR (R362). -/
def execPerfr (nx : BitVec 2) (d : BitVec 6) (c : BitVec 3) (s : State) : Out :=
  regOp s nx fun w => w.setS d.toNat (counterOf w.ctr c.toNat)

/-- YIELD (R363): the wave holds its next instruction until each other wave that was READY on its core has issued one, or 64 cycles have passed. -/
def execYield (nx : BitVec 2) (s : State) : Out :=
  onWave s fun u w =>
    let c := coreNo s w
    let others := (s.waves.filter fun e => e.1 != u && e.2.status == .ready && !(groupOf s e.2.group).frozen && coreNo s e.2 == c).map (·.1)
    setWave s u { w.finish nx with stall := if others.isEmpty then none else some (.yield others 64) }

end Sys2Proof.Machine
end

