-- ==== Sys2Proof/Machine/Sync.lean ====
section
/-! DEFINITION. Sys2Proof/Machine/Sync.lean: barriers (R298-R305), event slots (R306-R310), mailboxes (R311, R312) and SLEEP (R313). -/
namespace Sys2Proof.Machine

/-- BARRIVE (R301): the arrival goes to the object's barrier unit, and s[D] waits for its phase number. -/
def execBarrive (nx : BitVec 2) (d a b : BitVec 6) (s : State) : Out :=
  checked s (fun _ w => checkBarrier s w (w.sreg a.toNat).toNat true) fun u w p =>
    let id := s.uid
    let s := barSend { reachLine s (coreNo s w) p.key with uid := s.uid + 1 } p.obj 0 (bitsAt (w.sreg b.toNat).toNat 0 32) (some (u, id))
    let w := waveOf s u
    setWave s u ({ w with pending := w.pending ++ [Pending.mk id (sN d) [] false] }.finish nx)

/-- BWAIT (R303): complete at once when the phase is, else park; without room in the barrier cache it parks until an entry frees. -/
def execBwait (nx : BitVec 2) (a b : BitVec 6) (s : State) : Out :=
  checked s (fun _ w => checkBarrier s w (w.sreg a.toNat).toNat true) fun u w p =>
    let s := barOrder s (coreNo s w) p.key
    let ph := (w.sreg b.toNat).extractLsb' 0 32
    if phaseDone s p.obj ph then setWave s u ((waveOf s u).finish nx) else parkWave s u (.bwait nx p.obj ph (cacheRoom s p.key))

/-- BJOIN (R304). -/
def execBjoin (nx : BitVec 2) (d a : BitVec 6) (s : State) : Out :=
  checked s (fun _ w => checkBarrier s w (w.sreg a.toNat).toNat true) fun u w p =>
    let s := barOrder s (coreNo s w) p.key
    let w1 := waveOf s u
    if w1.members.any (fun m => m.2 == p.key) || decide (w1.members.length ≥ 8) then setWave s u ((w1.setS d.toNat 0#64).finish nx)
    else
      let s := barPut s p.obj 8 4 ((barField s p.obj 8 4 + 1) % 2 ^ 32)
      setWave s u ({ (waveOf s u).setS d.toNat 1#64 with members := w1.members ++ [(w.sreg a.toNat, p.key)] }.finish nx)

/-- BLEAVE (R304). -/
def execBleave (nx : BitVec 2) (d a : BitVec 6) (s : State) : Out :=
  checked s (fun _ w => checkBarrier s w (w.sreg a.toNat).toNat true) fun u w p =>
    let s := barOrder s (coreNo s w) p.key
    let w1 := waveOf s u
    if w1.members.any fun m => m.2 == p.key then
      let s := setWave s u ({ w1.setS d.toNat 1#64 with members := w1.members.filter fun m => m.2 != p.key }.finish nx)
      barLeave s p.obj
    else setWave s u ((w1.setS d.toNat 0#64).finish nx)

/-- Whether an object is BUSY for BINIT (R300): LIVE, and waited on or bound. -/
def initBusy (s : State) (o : BarObj) : Bool := barField s o 13 1 == 1 && (barWaiters s o.key || decide (barSlots s o.key > 0))

/-- The 64 bytes that BINIT writes (Table 11.3). -/
def barInitBytes (expect scope : Nat) : List Byte := zeroBytes 8 ++ bytesOf 4 expect ++ bytesOf 1 scope ++ [1#8] ++ zeroBytes 50

/-- BINIT (R300): it is performed in its place among the operations that have reached the object's unit (R298) and after what the wave has stored there
(R132), so what came before it is applied before the BUSY test. -/
def execBinit (nx : BitVec 2) (a b : BitVec 6) (p : BitVec 3) (s : State) : Out :=
  checked s (fun _ w => checkBarrier s w (w.sreg a.toNat).toNat false) fun u w q =>
    let s := barOrder s (coreNo s w) q.key
    if initBusy s q.obj then stopWave s u (protection 0x12 (argAddr (w.sreg a.toNat).toNat)) false
    else
    let s := sliceWrite s none q.kid q.key (barInitBytes (bitsAt (w.sreg b.toNat).toNat 0 32) p.toNat)
    setWave s u ((waveOf s u).finish nx)

/-- A wave's execution of GBAR is counted in the round of its group. -/
def countGbar (s : State) (w : Wave) : State :=
  let gr := groupOf s w.group
  setGroup s w.group { gr with gbar := gr.gbar ||| (1#16 <<< w.waveId) }

/-- GBAR (R305): the last wave of the group to execute it lets all go on. A wave whose results are still owed to it (R87) waits at issue, and is counted once
it parks. -/
def execGbar (nx : BitVec 2) (s : State) : Out :=
  onWave s fun u w =>
    let bits := (groupOf s w.group).gbar ||| (1#16 <<< w.waveId)
    let done := s.waves.all fun e => e.2.group != w.group || e.2.status == .retired || bits.getLsbD e.2.waveId
    if done then
      let s := flushResults (countGbar s w) u
      checkGbar (setWave s u ((waveOf s u).finish nx)) w.group
    else
      let s := settleWave s u
      if outstanding s u then s else parkWave (countGbar s w) u (.gbar nx)

/-- Bind a slot, without a posting yet (R308). -/
def Wave.bind (w : Wave) (k : Nat) (e : EvSlot) : Wave := { w.setSlot k e with pev := setBit8 w.pev k false }
/-- Latch a slot of a wave. -/
def Wave.postSlot (w : Wave) (k : Nat) : Wave := { w with pev := setBit8 w.pev k true }

/-- Whether a barrier slot can be bound (R308): fewer than 12 slots bound to the object, and room in its die's barrier cache. `w` has the slot
unbound already. -/
def slotRoom (s : State) (key : Nat) : Bool := decide (barSlots s key < 12) && cacheRoom s key

/-- What EVBIND and CTLW bind (Table 11.7), the slot being unbound before: the state, and whether the binding was made. `src` is SRC of Table 11.6;
`o` is the barrier object, or the whole deadline of a timer in its first field. A future of another device of which nothing is known is asked for (R179). -/
def bindSlot (s : State) (u k kind : Nat) (src : BitVec 56) (o : BarObj) : State × Bool :=
  let obj := o.key
  let s := setWave s u ((waveOf s u).bind k { })
  let slot : EvSlot := { kind := BitVec.ofNat 4 kind, bound := true, src, gen := 0, obj := 0 }
  let w := waveOf s u
  let full := match findPlot s w.group (src.toNat % 64) with
    | some (_, p) => p.state == 2#2
    | none => false
  let fired := futureState s w.ctag (BitVec.ofNat 64 (src.toNat % 2 ^ 45)) != .pending
  match kind with
  | 0 =>
    let w := w.bind k slot
    (setWave s u (if full then w.postSlot k else w), true)
  | 1 =>
    if slotRoom s obj then (setWave s u (w.bind k { slot with gen := BitVec.ofNat 32 (barField s o 0 4), obj }), true) else (s, false)
  | 3 =>
    let s := askRemotes s w [BitVec.ofNat 64 (src.toNat % 2 ^ 45)]
    let w := w.bind k (if fired then { slot with gen := 1#32 } else slot)
    (setWave s u (if fired then w.postSlot k else w), true)
  | 4 =>
    let due := decide (obj ≤ s.tsc.toNat)
    let w := w.bind k { slot with gen := if due then 1#32 else 0#32, obj }
    (setWave s u (if due then w.postSlot k else w), true)
  | 5 =>
    let c := ctxOf s w.ctag
    let w := w.bind k slot
    (setWave (setCtx s (waveOf s u).ctag { c with notice := false }) u (if c.notice then w.postSlot k else w), true)
  | _ => (setWave s u (w.bind k slot), true)

/-- The checks of EVBIND (R299, Table 11.7), with the barrier object's place. -/
def checkBind (s : State) (w : Wave) (kind : Nat) (src : DWord) : Check (Option Place) :=
  match kind with
  | 0 => if src.toNat > 63 then .error (plotStop src.toNat (6, 1)) else .ok none
  | 1 => match checkBarrier s w src.toNat true with
    | .error e => .error e
    | .ok p => .ok (some p)
  | _ => .ok none

/-- SRC of a binding made by EVBIND (Table 11.6): the source, or for a timer the deadline. -/
def bindSrc (s : State) (kind : Nat) (src : DWord) : BitVec 56 :=
  match kind with
  | 0 => BitVec.ofNat 56 (src.toNat % 64)
  | 1 => BitVec.ofNat 56 (bitsAt src.toNat 6 50)
  | 3 => BitVec.ofNat 56 (src.toNat % 2 ^ 45)
  | 4 => BitVec.ofNat 56 (s.tsc.toNat + min src.toNat (2 ^ 55 - 1))
  | _ => 0

/-- EVBIND (R308): the slot is bound and s[B] := 1, or left unbound and s[B] := 0 (DESIGN CHOICE, log 74: with KIND and SRC 0). A handle with reserved bits reports STALE, and its slot posts at
once (Table 11.7). -/
def execEvbind (nx : BitVec 2) (k : BitVec 3) (a b : BitVec 6) (t : BitVec 4) (s : State) : Out :=
  checked s (fun _ w => checkBind s w t.toNat (w.sreg a.toNat)) fun u w p =>
    let src := w.sreg a.toNat
    let obj : BarObj := match p with
      | some p => p.obj
      | none => ⟨s.tsc.toNat + min src.toNat (2 ^ 55 - 1), 0⟩
    let s := if t = 1#4 then barOrder s (coreNo s w) obj.key else s
    let (s, ok) := bindSlot s u k.toNat t.toNat (bindSrc s t.toNat src) obj
    let w := waveOf s u
    let w := if t = 3#4 && bitsAt src.toNat 45 19 != 0 then { (w.postSlot k.toNat) with slots := (w.setSlot k.toNat { w.slot k.toNat with gen := 1#32 }).slots } else w
    setWave s u ((w.setS b.toNat (if ok then 1#64 else 0#64)).finish nx)

/-- EVUNB (R308). DESIGN CHOICE (log 74): KIND and SRC of the slot are 0 afterwards. -/
def execEvunb (nx : BitVec 2) (k : BitVec 3) (s : State) : Out := regOp s nx fun w => w.bind k.toNat { }

/-- EVMASK (R309). -/
def execEvmask (nx : BitVec 2) (a : BitVec 6) (m : BitVec 2) (s : State) : Out :=
  regOp s nx fun w =>
    let x := (w.sreg a.toNat).extractLsb' 0 8
    { w with evm := match m.toNat with
      | 0 => x
      | 1 => w.evm ||| x
      | _ => w.evm &&& ~~~x }

/-- Whether a slot holds the posting of a future (Table 5.4). -/
def futureSlot (w : Wave) (k : Nat) : Bool := (w.slot k).bound && (w.slot k).kind == 3#4 && w.pev.getLsbD k

/-- An instruction that sees postings acts as an acquire at system scope when one of them is a future-ready event (Table 5.4): as FENCE acq (R294). -/
def acquireEvents (s : State) (u : Nat) (seen : Nat → Bool) : State :=
  let w := waveOf s u
  if (List.range 8).any fun k => seen k && futureSlot w k then fenceAcquire (flushResults s u) (coreNo s w) 4 else s

/-- EVPEND (R309). -/
def execEvpend (nx : BitVec 2) (d : BitVec 6) (s : State) : Out :=
  onWave s fun u w =>
    let s := acquireEvents s u fun _ => true
    setWave s u (((waveOf s u).setS d.toNat (w.pev.setWidth 64)).finish nx)

/-- EVCLR (R309): a cleared mailbox slot is posted again while the mailbox holds a message. -/
def execEvclr (nx : BitVec 2) (a : BitVec 6) (s : State) : Out :=
  regOp s nx fun w =>
    let x := (w.sreg a.toNat).extractLsb' 0 8
    let w1 := { w with pev := w.pev &&& ~~~x }
    (List.range 8).foldl (fun w i =>
      if x.getLsbD i && (w.slot i).bound && (w.slot i).kind == 2#4 && !w.mailbox.isEmpty then w.postSlot i else w) w1

/-- WAITANY (R310): 8 when no slot is bound and unmasked, the lowest posted slot, or a park, in which what was posted as the wave settled is seen. -/
def execWaitany (d a : BitVec 6) (s : State) : Out :=
  onWave s fun u w =>
    if w.openSlots.isEmpty then setWave s u ({ w.setS d.toNat 8#64 with pc := w.pc + 4#64 }.complete 4#8 8)
    else
      match w.posted with
      | k :: _ =>
        let s := acquireEvents s u fun i => i == k
        setWave s u ((waveOf s u).takeSlot d a k)
      | [] => recheck (parkWave s u (.waitany d a none)) u

/-- The wave of a group with a WAVEID, unless it has retired (R311). -/
def waveByWaveId (s : State) (g n : Nat) : Option (Nat × Wave) :=
  s.waves.find? fun e => e.2.group == g && e.2.waveId == n && e.2.status != .retired

/-- MBSEND (R311): status 0 sent, 1 full (`.try`), 2 no such wave; a full mailbox without `.try` raises MAILBOX_OVERFLOW. -/
def execMbsend (nx : BitVec 2) (d a b : BitVec 6) (t : BitVec 1) (s : State) : Out :=
  onWave s fun u w =>
    let n := (w.sreg a.toNat).toNat % 16
    let status := fun (t : State) (x : DWord) => setWave t u (((waveOf t u).setS b.toNat x).finish nx)
    match waveByWaveId s w.group n with
    | none => status s 2#64
    | some (k, r) =>
      if r.mailbox.length ≥ 8 then (if t = 1#1 then status s 1#64 else raise s u 17 0 n)
      else
        let r := { r with mailbox := r.mailbox ++ [(w.sreg d.toNat, BitVec.ofNat 4 w.waveId)] }
        let s := setWave s k ((settleChoice s s.tsc.toNat r).latch fun e => e.kind == 2#4)
        recheck (status s 0#64) k

/-- MBRECV (R312). DESIGN CHOICE (log 74): with D = A the value for s[A] stands. -/
def execMbrecv (nx : BitVec 2) (d a : BitVec 6) (s : State) : Out :=
  regOp s nx fun w =>
    match w.mailbox with
    | [] => (w.setS d.toNat 0#64).setS a.toNat 16#64
    | m :: rest => { (w.setS d.toNat m.1).setS a.toNat (m.2.setWidth 64) with mailbox := rest }

/-- SLEEP (R313). -/
def execSleep (nx : BitVec 2) (a : BitVec 6) (s : State) : Out :=
  onWave s fun u w =>
    let n := bitsAt (w.sreg a.toNat).toNat 0 32
    if n = 0 then setWave s u (w.finish nx) else parkWave s u (.sleep nx (s.tsc.toNat + n) none)

/-- SLEEP.ev (R313): s[D] := 1 when an event ends it, also one that is posted as the wave settles for its park. -/
def execSleepEv (nx : BitVec 2) (d a : BitVec 6) (s : State) : Out :=
  onWave s fun u w =>
    let n := bitsAt (w.sreg a.toNat).toNat 0 32
    if !w.posted.isEmpty then
      let s := acquireEvents s u fun k => w.posted.contains k
      setWave s u (((waveOf s u).setS d.toNat 1#64).finish nx)
    else if n = 0 then setWave s u ((w.setS d.toNat 0#64).finish nx)
    else recheck (parkWave s u (.sleep nx (s.tsc.toNat + n) (some d))) u

end Sys2Proof.Machine
end

