-- ==== Sys2Proof/Machine/System.lean ====
section
/-! DEFINITION. Sys2Proof/Machine/System.lean: TRAP, BRK, TRET, CTLR, CTLW and TLBINV (R358-R361), with the control registers of Table 8.8. -/
namespace Sys2Proof.Machine

/-- TRAP (R358): BREAKPOINT with reason SERVICE and the code IMM16. -/
def execTrap (i : BitVec 16) (s : State) : Out := onWave s fun u _ => raise s u 14 2 i.toNat

/-- BRK (R358): BREAKPOINT with reason BRKPT and the code IMM16. -/
def execBrk (i : BitVec 16) (s : State) : Out := onWave s fun u _ => raise s u 14 1 i.toNat

/-- TRET (R359): only in a handler, elsewhere NOT_IN_HANDLER. -/
def execTret (k : BitVec 1) (s : State) : Out :=
  onWave s fun u w => if w.handler then returnTrap (setWave s u (w.complete 0#8 0)) u k.toNat else raise s u 10 0x20 0

/-- Physical indices of the present cores of a die in ascending order (R189, R190). -/
def presentCores (s : State) (die : Nat) : List Nat := bitsOf (hmapOf s die)

/-- Byte `b` of the logical core table (Table 7.1): LCT0, then LCT1. -/
def lctByte (s : State) (b : Nat) : Byte :=
  match (presentCores s (b / 36))[b % 36]? with
  | some c => BitVec.ofNat 8 (c + 0x80)
  | none => 0#8

/-- A control register as CTLR reads it (Table 8.8, R360). -/
def controlReg (s : State) (w : Wave) (i : Nat) : DWord :=
  let c := ctxOf s w.ctag
  if i < 4 then
    match i with
    | 0 => c.tbase
    | 1 => c.ptbase
    | 2 => c.privbase
    | _ => c.privcfg
  else if i < 0x18 then (hmapOf s (i - 0x10)).setWidth 64
  else if i < 0x28 then BitVec.ofNat 64 (natOf ((List.range 8).map fun j => lctByte s (8 * (i - 0x18) + j)))
  else if i = 0x28 then w.live.setWidth 64
  else if i < 0x48 then
    let e := w.slot (i - 0x40)
    BitVec.ofNat 64 (e.kind.toNat + (if e.bound then 16 else 0) + 256 * e.src.toNat)
  else
    match i - 0x50 with
    | 0 => w.trap.tpc
    | 1 => w.trap.tcause
    | 2 => w.trap.tinfo
    | _ => w.trap.tmask

/-- CTLR (R360). -/
def execCtlr (nx : BitVec 2) (d : BitVec 6) (i : BitVec 16) (s : State) : Out :=
  regOp s nx fun w => w.setS d.toNat (controlReg s w i.toNat)

/-- Whether a control register can be written by a wave (Table 8.8): EVSLOTn and the trap registers. -/
def controlWritable (i : Nat) : Bool := (decide (0x40 ≤ i) && decide (i < 0x48)) || decide (0x50 ≤ i)

/-- The barrier object that a word for EVSLOTn names (R306). -/
def slotObject (x : DWord) : Nat := ((x.extractLsb' 8 50 ++ 0#6).signExtend 64).toNat

/-- Whether the fields of a word for EVSLOTn ask for a binding (R306): BOUND, a kind up to 5, and no source for mailbox and throttle-notice. The handle of a plot
is SRC [13:8] alone, which always is one. -/
def slotAsks (x : DWord) : Bool :=
  let kind := bitsAt x.toNat 0 4
  x.getLsbD 4 && decide (kind ≤ 5) && (!(kind == 2 || kind == 5) || bitsAt x.toNat 8 56 == 0)

/-- The check of CTLW: READ_ONLY, or what a barrier binding finds: its object, or none where EVBIND would trap. A recoverable fault parks. -/
def checkCtlw (s : State) (w : Wave) (i : Nat) (x : DWord) : Check (Option Place) :=
  if !controlWritable i then .error (protection 0x21 0)
  else if decide (i < 0x48) && slotAsks x && bitsAt x.toNat 0 4 == 1 then
    match checkBarrier s w (slotObject x) true with
    | .ok p => .ok (some p)
    | .error (.park f) => .error (.park f)
    | .error _ => .ok none
  else .ok none

/-- CTLW to EVSLOTn (R306): a binding as EVBIND would make it, or the slot left unbound, with KIND and SRC as written (R12). -/
def writeSlot (s : State) (u : Nat) (w : Wave) (k : Nat) (x : DWord) (p : Option Place) : State :=
  let kind := bitsAt x.toNat 0 4
  let src := bitsAt x.toNat 8 56
  let unbound := fun (t : State) => setWave t u ((waveOf t u).bind k { kind := BitVec.ofNat 4 kind, src := BitVec.ofNat 56 src })
  if !slotAsks x then unbound s
  else
    match kind, p with
    | 1, none => unbound s
    | 1, some q =>
      let r := bindSlot (barOrder s (coreNo s w) q.key) u k 1 (BitVec.ofNat 56 src) q.obj
      if r.2 then r.1 else unbound r.1
    | 4, _ => (bindSlot s u k 4 (BitVec.ofNat 56 src) ⟨bitsAt s.tsc.toNat 56 8 * 2 ^ 56 + src, 0⟩).1
    | _, _ => (bindSlot s u k kind (BitVec.ofNat 56 src) ⟨0, 0⟩).1

/-- The trap registers with one of them written (R360, Table 14.1); reserved bits read zero (R13). -/
def writeTrapReg (t : TrapRegs) (i : Nat) (x : DWord) : TrapRegs :=
  match i with
  | 0 => { t with tpc := x }
  | 1 => { t with tcause := x &&& 0x3FF#64 }
  | 2 => { t with tinfo := x }
  | _ => { t with tmask := x &&& 0xFFFFFFFF#64 }

/-- CTLW (R360). -/
def execCtlw (nx : BitVec 2) (d : BitVec 6) (i : BitVec 16) (s : State) : Out :=
  checked s (fun _ w => checkCtlw s w i.toNat (w.sreg d.toNat)) fun u w p =>
    let x := w.sreg d.toNat
    let s :=
      if i.toNat < 0x48 then writeSlot s u w (i.toNat - 0x40) x p
      else setWave s u { w with trap := writeTrapReg w.trap (i.toNat - 0x50) x }
    setWave s u ((waveOf s u).finish nx)

/-- Every cached translation of a context leaves both dies (R46). -/
def dropTlbAll (s : State) (ctag : Nat) : State := { s with tlb := s.tlb.filter fun e => e.ctag != ctag }

/-- Whether an instruction or a transfer of a context that has sent accesses to peers has still to go on with them, by its earlier translations: an
invalidation of the context waits for it (R47). -/
def peersOut (s : State) (ctag : Nat) : Bool :=
  (s.waves.any fun e => e.2.ctag == ctag && e.2.status != .retired && !e.2.peer.isEmpty) || s.transfers.any fun e => e.2.ctag == ctag && e.2.peer.any (·.answer.isNone)

/-- An invalidation of a context (R46, R47): every access made with an earlier translation performs, what its snapshots have still to read is copied aside, and
the translations go. -/
def invalidate (s : State) (ctag : Nat) (range : Option (Nat × Nat)) : State :=
  let s := holdSnaps (performAll s) ctag
  match range with
  | none => dropTlbAll s ctag
  | some (base, n) => dropTlb s ctag base n

/-- The checks of TLBINV's range (R361); a length of 0 names no range. -/
def checkRange (base n : Nat) : Check Unit :=
  if base % 65536 != 0 then .error (misalign base)
  else if n % 65536 != 0 then .error (misalign n)
  else if n != 0 && decide (base + n > 2 ^ 55) then .error (protection 0x23 (argAddr base))
  else .ok ()

/-- TLBINV's range, and its wait for what the context's earlier accesses to peers still owe (R47, R361). -/
def checkTlbinv (s : State) (w : Wave) (base n : Nat) : Check Unit :=
  match checkRange base n with
  | .error e => .error e
  | .ok _ => if n != 0 && peersOut s w.ctag then .error .wait else .ok ()

/-- The fence, the invalidation, and the end of TLBINV. -/
def finishTlbinv (s : State) (nx : BitVec 2) (u : Nat) (w : Wave) (range : Option (Nat × Nat)) : State :=
  let s := releaseFence s u w
  let s := match range with
    | some (_, 0) => s
    | r => invalidate s w.ctag r
  setWave s u ((waveOf s u).finish nx)
where
  /-- FENCE rel at device scope (R111). -/
  releaseFence (s : State) (u : Nat) (w : Wave) : State := fenceRelease (flushResults s u) (coreNo s w) 3

/-- TLBINV on a range (R361). -/
def execTlbinv (nx : BitVec 2) (a b : BitVec 6) (s : State) : Out :=
  checked s (fun _ w => checkTlbinv s w (w.sreg a.toNat).toNat (w.sreg b.toNat).toNat) fun u w _ =>
    finishTlbinv s nx u w (some ((w.sreg a.toNat).toNat, (w.sreg b.toNat).toNat))

/-- TLBINV.all (R361). -/
def execTlbinvAll (nx : BitVec 2) (s : State) : Out :=
  checked s (fun _ w => if peersOut s w.ctag then .error .wait else .ok ()) fun u w (_ : Unit) => finishTlbinv s nx u w none

end Sys2Proof.Machine
end

