-- ==== Sys2Proof/Machine/MemoryEvents.lean ====
section
/-! DEFINITION. Sys2Proof/Machine/MemoryEvents.lean: what the memory system does of its own or for the host and peers: results, walks, the
fault queue's registers (R52), the ordered paths (R110, R122), the predictor (R123), evictions (R116), host accesses (R119, R403, R423) and Nawalink (R120,
R419-R421). -/
namespace Sys2Proof.Machine

/-- The oldest result of a wave that only waits to be written. -/
def readyResult (w : Wave) : Option Pending := w.pending.find? fun p => p.ready

/-- The oldest load of a wave whose bytes are still on their way. -/
def lateLoad (w : Wave) : Option LoadWait := w.loads.head?

/-- The oldest returned result of a wave is written. -/
def writeResult (s : State) (u : Nat) : State :=
  match lookup s.waves u with
  | none => s
  | some x =>
    match readyResult x with
    | none => s
    | some p => setWave s u { applyWrites x p.writes with pending := x.pending.filter fun q => q.id != p.id }

/-- LL_RESULT_WRITE (R218, R219): the oldest returned result of a wave is written; with none, its oldest load performs at the slices first (R110). A
stretched core writes nothing (R395). -/
def execLlResultWrite (w : Nat) (s : State) : Out :=
  .next (match lookup s.waves w with
    | none => s
    | some x =>
      if (coreOf s (coreNo s x)).stretch then s
      else match readyResult x, lateLoad x with
        | some _, _ => writeResult s w
        | none, some l => writeResult (drainFor s (coreNo s x) [l.id]) w
        | none, none => s)

/-- Whose translation cache a walk fills: a core's own, or its die's (R44). -/
def walkHolder (die : Nat) (core : Option Nat) : Asker :=
  match core with
  | some c => .core c
  | none => .die die

/-- TRANSLATION_WALK (R44, R45, R48): a walk of context `ctx` (by its key in the model) for a core or a die ends; a present, well-formed translation is
cached, and one that the cache holds already may no longer be what the tables say (log 7). The lines that it read are recalled from where they were held. -/
def execTranslationWalk (walker : Walker) (ctx : Nat) (va : BitVec 64) (s : State) : Out :=
  let holder := walkHolder walker.die walker.core
  .next (if !canonical va.toNat || isPrivate va.toNat || (lookup s.contexts ctx).isNone || decide (walker.die ≥ 2) || holder.dieNo != walker.die then s
    else
      let t := walkRecalls s ctx va.toNat
      match walk s ctx va.toNat with
      | .error _ => t
      | .ok (leaf, size) =>
        match tlbEntry s holder ctx va.toNat with
        | some e => { t with tlb := s.tlb.map fun x => if x = e then { x with loose := true } else x }
        | none => { t with tlb := s.tlb ++ [⟨holder, ctx, va.toNat / size * size, size, leaf, false⟩] })

/-- FAULT_QUEUE_HEAD_UPDATE (R52): the host writes HEAD, and records that wait are posted. -/
def execFaultQueueHeadUpdate (head : BitVec 32) (s : State) : Out :=
  .next (postFaults (agentWrite s 0 (ringBase s.bar.fqbase + 64) (bytesOf 4 head.toNat)))

/-- FQCFG_WRITE (R52, Table 1.8): reserved bits are ignored (R13). -/
def execFqcfgWrite (v : BitVec 64) (s : State) : Out := .next (postFaults { s with bar := { s.bar with fqcfg := v &&& 0x11F#64 } })

/-- WRITE_THROUGH_PERFORM (R110, R122): the oldest access that a core has sent to a slice performs there, if it is a store or the result of an atomic made
in the L1. -/
def execWriteThroughPerform (path : SlicePath) (s : State) : Out :=
  .next (match takeWay (coreOf s path.core).path path.slice with
    | some (.store .., _) => performWay s path.core path.slice
    | some (.l1atomic .., _) => performWay s path.core path.slice
    | _ => s)

/-- SLICE_ATOMIC_PERFORM (R121): the oldest access that a core has sent to a slice performs there, if it is an atomic, and its old value returns. -/
def execSliceAtomicPerform (path : SlicePath) (s : State) : Out :=
  .next (match takeWay (coreOf s path.core).path path.slice with
    | some (.atomic .., _) => performWay s path.core path.slice
    | _ => s)

/-- Whether a decay of the predictor is due (R123). -/
def decayDue (s : State) : Bool := decide (s.decays < s.tsc.toNat / 64000)

/-- PREDICTOR_DECAY (R123): at each 64 µs of TSC every counter is halved. -/
def execPredictorDecay (s : State) : Out :=
  .next (if decayDue s then { s with decays := s.decays + 1, predictor := s.predictor.map fun e => (e.1, e.2.1 / 2, e.2.2) } else s)

/-- LINE_EVICTION (R110, R116): a line leaves the L2, and dirty bytes go to HBM or the host; or a core's L1 replaces its copy of the line. -/
def execLineEviction (copy : CachedLine) (s : State) : Out :=
  .next (match copy.core with
    | none => evictLine s copy.line
    | some c => let x := coreOf s c; setCore s c { x with l1 := erase x.l1 copy.line })

/-- Evict every line of an extent. -/
def evictExtent (s : State) (k n : Nat) : State :=
  (linesOf k n).foldl evictLine s

/-- What the host had granted of the lines of an extent it takes back, and no proxy slice holds a copy (R119). -/
def revoke (s : State) (k n : Nat) : State :=
  { s with granted := (linesOf k n).foldl erase s.granted, remote := (linesOf k n).foldl erase s.remote }

/-- HOST_SNOOP (R119): the host takes lines of its own memory: copies are recalled, and dirty bytes return to the host; `data` is what the host then
writes there. -/
def execHostSnoop (addr : Nat) (data : List (BitVec 8)) (s : State) : Out :=
  let n := max 1 data.length
  let s := revoke (evictExtent (agentRead s 0 (hostKey addr) n).1 (hostKey addr) n) (hostKey addr) n
  .next (if data.isEmpty then s else revoke (evictExtent (agentWrite s 0 (hostKey addr) data) (hostKey addr) n) (hostKey addr) n)

/-- The key of a byte of the host-managed device memory range (R403). -/
def hdmKey (a : Nat) : Nat := localKey (a / Config.hbmBytes) (a % Config.hbmBytes)

/-- The parts of an extent of the range on each die (R403): start and length, of those dies whose memory is there (R118). -/
def hdmParts (s : State) (a n : Nat) : List (Nat × Nat) :=
  let m := if a < Config.hbmBytes then min n (Config.hbmBytes - a) else 0
  ([(a, m), (a + m, min (n - m) (2 * Config.hbmBytes - (a + m)))]).filter fun p => decide (p.2 > 0) && !isLost s (p.1 / Config.hbmBytes)

/-- A host access to device HBM through key slot 0 (R119, R403), part by part at the home slices: reads recall OWNED copies, and what they return goes to the
host. -/
def hostAccess (s : State) (wr : Bool) (a n : Nat) (data : List Byte) : State :=
  (hdmParts s a n).foldl (fun s p =>
    if wr then agentWrite s (key0 s) (hdmKey p.1) (sliceBytes data (p.1 - a) p.2)
    else
      let (s, b) := agentRead s (key0 s) (hdmKey p.1) p.2
      { s with packets := s.packets ++ [.hostData p.1 b] }) s

/-- HOST_MEM_ACCESS (R119, R403). -/
def execHostMemAccess (wr : Bool) (addr n : Nat) (data : List (BitVec 8)) (s : State) : Out := .next (hostAccess s wr addr n data)

/-- RDMA_WRITE (R423): as a host write. -/
def execRdmaWrite (addr : Nat) (data : List (BitVec 8)) (s : State) : Out := .next (hostAccess s true addr data.length data)

/-- Whether an access window lets a node reach an extent (R421): permission 1 reads, 3 reads and writes. -/
def windowAllows (s : State) (node die off n : Nat) (wr : Bool) : Bool :=
  s.windows.any fun e =>
    (e.2.node == 0xFFF || e.2.node == node) && e.2.die == die && decide (e.2.base ≤ off) && decide (off + n ≤ e.2.base + e.2.len)
      && (if wr then e.2.perm == 3 else e.2.perm == 1 || e.2.perm == 3)

/-- The shape of a peer access (R419): 1 to 64 bytes in one aligned block of a die's HBM that is there. -/
def peerShape (s : State) (die off n : Nat) : Bool :=
  decide (1 ≤ n) && decide (n ≤ 64) && decide (off / 64 = (off + n - 1) / 64) && decide (off + n ≤ Config.hbmBytes) && decide (die < 2) && !isLost s die

/-- The type of an incoming atomic: f32 for fadd and fmax (Table 11.2). -/
def peerType (op : BitVec 4) (ty : BitVec 3) : Nat := if op.toNat ≥ 8 then 8 else ty.toNat

/-- Whether an incoming atomic is one of Table 11.2, each of its words aligned and all in one block (R419). -/
def peerAtomicOk (op : BitVec 4) (ty : BitVec 3) (words : List (Nat × DWord × DWord)) : Bool :=
  let t := peerType op ty
  decide (op.toNat ≤ 9) && (t == 0 || t == 1 || t == 6 || t == 7 || t == 8) && !words.isEmpty
    && words.all fun e => e.1 % typeBytes t == 0 && e.1 / 64 == (words.headD (0, 0, 0)).1 / 64

/-- The words of an incoming atomic performed one after another; their old values. -/
def peerAtomics (s : State) (die n op t : Nat) (words : List (Nat × DWord × DWord)) : State × List Byte :=
  words.foldl (fun acc e =>
    let (s, old) := atomicAt acc.1 none (key0 acc.1) (localKey die e.1) n op t (e.2.1.toNat % 2 ^ (8 * n)) (e.2.2.toNat % 2 ^ (8 * n))
    (s, acc.2 ++ bytesOf n old)) (s, [])

/-- The bytes of an incoming write that its mask names; an empty mask names all (R120). -/
def maskedBytes (b : List Byte) (mask : List Bool) : List (Option Byte) :=
  ((List.range b.length).zip b).map fun e => if mask.isEmpty || mask.getD e.1 false then some e.2 else none

/-- Answer a peer's request. -/
def answerPeer (s : State) (node : BitVec 12) (ok : Bool) (b : List Byte) : State :=
  { s with packets := s.packets ++ [.answer node.toNat ok b] }

/-- PEER_REQUEST (R419, R421): performed at the home slice when a window covers it, else refused. -/
def execPeerRequest (node : BitVec 12) (req : PeerReq) (s : State) : Out :=
  .next (match req with
    | .read die off n =>
      if peerShape s die off n && windowAllows s node.toNat die off n false then
        let (s, b) := agentRead s (key0 s) (localKey die off) n
        answerPeer s node true b
      else answerPeer s node false []
    | .write die off b mask =>
      if peerShape s die off b.length && windowAllows s node.toNat die off b.length true then
        answerPeer ((maskRuns 0 (maskedBytes b mask)).foldl (fun s e => agentWrite s (key0 s) (localKey die (off + e.1)) e.2) s) node true []
      else answerPeer s node false []
    | .atomic die op ty words =>
      let block := (words.headD (0, 0, 0)).1 / 64 * 64
      if peerShape s die block 64 && peerAtomicOk op ty words && windowAllows s node.toNat die block 64 true then
        let (s, old) := peerAtomics s die (typeBytes (peerType op ty)) op.toNat (peerType op ty) words
        answerPeer s node true old
      else answerPeer s node false []
    | .other => answerPeer s node false [])

/-- The answer of one transaction among a list; the first answer stands. -/
def setAnswer (l : List PeerTx) (id : Nat) (ok : Bool) (b : List Byte) : List PeerTx :=
  l.map fun t => if t.id = id && t.answer.isNone then { t with answer := some (ok, b) } else t

/-- The answer to a transaction of a wave or a transfer (R120). -/
def peerAnswer (s : State) (id : Nat) (ok : Bool) (b : List Byte) : State :=
  { s with
    waves := mapVals s.waves fun w => { w with peer := setAnswer w.peer id ok b }
    transfers := mapVals s.transfers fun t => { t with peer := setAnswer t.peer id ok b } }

/-- PEER_RESPONSE (R120). -/
def execPeerResponse (id : Nat) (ok : Bool) (data : List (BitVec 8)) (s : State) : Out := .next (peerAnswer s id ok data)

/-- Whether a transaction has been unanswered for 50 ms (R120). -/
def peerLate (s : State) (t : PeerTx) : Bool := t.answer.isNone && decide (t.sent + 50000000 ≤ s.tsc.toNat)

/-- Every transaction that waves and transfers have sent. -/
def peerOpen (s : State) : List PeerTx := s.waves.flatMap (fun e => e.2.peer) ++ s.transfers.flatMap fun e => e.2.peer

/-- PEER_TIMEOUT (R120): the first transaction that has been unanswered for 50 ms ends as refused. -/
def execPeerTimeout (s : State) : Out :=
  .next (match (peerOpen s).find? (peerLate s) with
    | none => s
    | some t => peerAnswer s t.id false [])

/-- BARRIER_UNIT_OPERATION (R298): the oldest operation that waits at a die's barrier unit is applied. -/
def execBarrierUnitOperation (die : Nat) (s : State) : Out := .next (barStep s die)

end Sys2Proof.Machine
end

