-- ==== Sys2Proof/Machine/Tasks.lean ====
section
/-! DEFINITION. Sys2Proof/Machine/Tasks.lean: INVOKE to REGROUP (R347-R357), with the futures, pools and forwards of R175-R181 and the fusion of
R182 and R183. -/
namespace Sys2Proof.Machine

/-- A release at a scope by an instruction of the wave (Table 5.4): as FENCE rel. -/
def releaseAt (s : State) (u : Nat) (w : Wave) (scope : Nat) : State := fenceRelease (flushResults s u) (coreNo s w) scope

/-- The key of a future's home in a die's pools: a die of this device, or a die of another node (R176). -/
def homeKey (s : State) (h : DWord) : Nat := if ownNode s (handleNode h) then handleDie h else 2 + 2 * handleNode h + handleDie h
/-- The home part of a home word or handle: DIE and NODE. -/
def homeBits (h : DWord) : DWord := h &&& 0x1FFF00000000#64
/-- Whether a home is a lost die of this device (R179). -/
def homeLost (s : State) (h : DWord) : Bool := ownNode s (handleNode h) && isLost s (handleDie h)
/-- Whether a NODE field names a node that the device cannot reach (R348). -/
def unreachable (s : State) (h : DWord) : Bool := nodeId s = 0xFFF && !ownNode s (handleNode h)
/-- A well-formed home word (R348). -/
def homeOk (s : State) (h : DWord) : Bool := h &&& ~~~0x1FFF00000000#64 == 0#64 && !unreachable s h

/-- What one lane of INVOKE or INVOKEF asks for: its lane, the home of its future, and the target of a forward. -/
structure TaskAsk where
  lane : Nat
  home : DWord
  target : Option DWord
  argp : DWord
  deriving DecidableEq, Repr

/-- The lanes that need a slot: those whose home is not a lost die. -/
def needSlots (s : State) (l : List TaskAsk) : List TaskAsk := l.filter fun a => !homeLost s a.home

/-- Homes whose pool on a die holds too few slots, with the lowest lane that asks there (R349). -/
def shortHomes (s : State) (die : Nat) (l : List TaskAsk) : List (Nat × Nat) :=
  let need := needSlots s l
  let keys := (need.map fun a => homeKey s a.home).dedup
  keys.filterMap fun k =>
    let mine := need.filter fun a => homeKey s a.home == k
    let have' := ((lookup (dieOf s die).pools k).getD []).length
    if mine.length > have' then mine.head?.map fun a => (k, a.lane) else none

/-- Ask a home for a grant, once per asking die (R176). -/
def askGrant (s : State) (die ctag key : Nat) : State :=
  if key < 2 then
    if (dieOf s key).grantReqs.contains die then s else setDie s key { dieOf s key with grantReqs := (dieOf s key).grantReqs ++ [die] }
  else { s with packets := s.packets ++ [.grantReq ((key - 2) / 2) ((key - 2) % 2) (((ctxOf s ctag).ctx).getD 0)] }

/-- Take the next slot of a pool: the low 32 bits of its handle. -/
def takePool (s : State) (die key : Nat) : State × Nat :=
  match (lookup (dieOf s die).pools key).getD [] with
  | [] => (s, 0)
  | x :: rest => (setDie s die { dieOf s die with pools := put (dieOf s die).pools key rest }, x)

/-- Send one task or forward (R349, R350): the state and its future's handle. What was known of an earlier future of a peer's handle is forgotten. -/
def sendAsk (s : State) (u : Nat) (w : Wave) (die : Nat) (entry : DWord) (a : TaskAsk) : State × DWord :=
  if homeLost s a.home then (s, homeBits a.home ||| 1#64)
  else
    let key := homeKey s a.home
    let (s, low) := takePool s die key
    let h := homeBits a.home ||| BitVec.ofNat 64 low
    if key < 2 then
      let s := takeFrt s key (handleSlot h) w.ctag (a.target.map handleSlot) entry a.argp (waveRegion s (waveOf s u))
      match a.target with
      | none => (sendTask s key (handleSlot h), h)
      | some t => (setDie s key { dieOf s key with forwards := (dieOf s key).forwards ++ [.forward t (handleSlot h)] }, h)
    else
      let ctx := ((ctxOf s w.ctag).ctx).getD 0
      let p := match a.target with
        | none => Packet.task (handleNode h) (handleDie h) ctx h entry a.argp
        | some t => Packet.forward (handleNode h) ctx t h entry a.argp
      ({ s with packets := s.packets ++ [p], remotes := s.remotes.filter fun r => r.handle != h }, h)

/-- Send all asks in ascending lane order: the state and each lane's future. -/
def sendAllAsks (s : State) (u : Nat) (w : Wave) (die : Nat) (entry : DWord) (l : List TaskAsk) : State × List (Nat × DWord) :=
  l.foldl (fun acc a =>
    let (t, h) := sendAsk acc.1 u w die entry a
    (t, acc.2 ++ [(a.lane, h)])) (s, [])

/-- Write 64-bit values into lane pairs. -/
def Wave.setPairs (w : Wave) (d : Nat) (l : List (Nat × DWord)) : Wave :=
  let m := laneMask (l.map (·.1))
  let v := fun (i : Nat) => (lookup l i).getD 0#64
  (w.setLanes d m fun i => (v i).extractLsb' 0 32).setLanes (d + 1) m fun i => (v i).extractLsb' 32 32

/-- The common part of INVOKE and INVOKEF after their checks (R349, R350): a park while a pool is short, else slots, release and messages. -/
def createTasks (s : State) (nx : BitVec 2) (u : Nat) (w : Wave) (d : Nat) (entry : DWord) (l : List TaskAsk) (fixed : List (Nat × DWord)) : State :=
  let die := dieNo (coreNo s w)
  let short := shortHomes s die l
  if short.isEmpty then
    let s := releaseAt s u w 4
    let (s, got) := sendAllAsks s u w die entry l
    setWave s u (((waveOf s u).setPairs d (got ++ fixed)).finishAs nx 2#8 d)
  else parkWave (short.foldl (fun s k => askGrant s die w.ctag k.1) s) u (.grant short [])

/-- The checks of INVOKE (R347-R349), none when no lane is ACTIVE. -/
def checkInvoke (s : State) (w : Wave) (d a b : Nat) : Check (List TaskAsk) :=
  let lanes := bitsOf w.active
  let entry := (w.sreg a).toNat
  if lanes.isEmpty then .ok []
  else if entry % 4 != 0 then .error (misalign entry)
  else if lanes.any fun i => !homeOk s (w.pair64 d i) then .error (protection 0x24 0)
  else .ok (lanes.map fun i => ⟨i, w.pair64 d i, none, w.pair64 b i⟩)

/-- INVOKE (R349). -/
def execInvoke (nx : BitVec 2) (d a b : BitVec 6) (s : State) : Out :=
  checked s (fun _ w => checkInvoke s w d.toNat a.toNat b.toNat) fun u w l =>
    if l.isEmpty then setWave s u (w.finishAs nx 2#8 d.toNat) else createTasks s nx u w d.toNat (w.sreg a.toNat) l []

/-- Whether a target is STALE already at issue (R350). -/
def staleTarget (s : State) (h : DWord) : Bool := bitsAt h.toNat 45 19 != 0 || handleTag h == 0#12 || unreachable s h

/-- The checks of INVOKEF (R350): the forwards to send, and the lanes whose target is stale at issue. -/
def checkInvokef (s : State) (w : Wave) (d a b : Nat) : Check (List TaskAsk × List Nat) :=
  let lanes := bitsOf w.active
  let entry := (w.sreg a).toNat
  if lanes.isEmpty then .ok ([], [])
  else if entry % 4 != 0 then .error (misalign entry)
  else
    let live := lanes.filter fun i => !staleTarget s (w.pair64 d i)
    .ok (live.map fun i => ⟨i, homeBits (w.pair64 d i), some (w.pair64 d i), w.pair64 b i⟩,
      lanes.filter fun i => staleTarget s (w.pair64 d i))

/-- INVOKEF (R350): a lane with a stale target receives the handle 0. -/
def execInvokef (nx : BitVec 2) (d a b : BitVec 6) (s : State) : Out :=
  checked s (fun _ w => checkInvokef s w d.toNat a.toNat b.toNat) fun u w l =>
    if l.1.isEmpty && l.2.isEmpty then setWave s u (w.finishAs nx 2#8 d.toNat)
    else createTasks s nx u w d.toNat (w.sreg a.toNat) l.1 (l.2.map fun i => (i, 0#64))

/-- The futures of the ACTIVE lanes. -/
def laneFutures (w : Wave) (a : Nat) : List DWord := (bitsOf w.active).map fun i => w.pair64 a i

/-- Reported statuses act as an acquire at system scope when one is COMPLETE or broken by TASKBRK (R351): as FENCE acq, the wave's earlier loads and atomics
have returned before the copies go (R294). -/
def acquireFutures (s : State) (u : Nat) (w : Wave) (hs : List DWord) : State :=
  if hs.any fun h => futureAcquires (futureState s w.ctag h) then fenceAcquire (flushResults s u) (coreNo s w) 4 else s

/-- FPOLL (R351). -/
def execFpoll (nx : BitVec 2) (d a b : BitVec 6) (s : State) : Out :=
  onWave s fun u w =>
    let hs := laneFutures w a.toNat
    let s := acquireFutures (askRemotes s w hs) u w hs
    setWave s u ((reportFutures s (waveOf s u) d.toNat a.toNat b.toNat).finish nx)

/-- FGET (R351): a park while a lane's future is PENDING. -/
def execFget (nx : BitVec 2) (d a b : BitVec 6) (s : State) : Out :=
  onWave s fun u w =>
    let hs := laneFutures w a.toNat
    if hs.any fun h => futureState s w.ctag h == .pending then parkWave (askRemotes s w hs) u (.fget nx d a b)
    else
      let s := acquireFutures s u w hs
      setWave s u ((reportFutures s (waveOf s u) d.toNat a.toNat b.toNat).finish nx)

/-- One drop leaves for its home (R352); stale handles and lost homes are ignored. -/
def sendDrop (s : State) (w : Wave) (h : DWord) : State :=
  if staleTarget s h || homeLost s h then s
  else if !ownNode s (handleNode h) then { s with packets := s.packets ++ [.drop (handleNode h) h] }
  else if futureState s w.ctag h == .stale then s
  else setDie s (handleDie h) { dieOf s (handleDie h) with drops := (dieOf s (handleDie h)).drops ++ [.drop h] }

/-- FDROP (R352). -/
def execFdrop (nx : BitVec 2) (a : BitVec 6) (s : State) : Out :=
  onWave s fun u w => setWave ((laneFutures w a.toNat).foldl (fun s h => sendDrop s w h) s) u (w.finish nx)

/-- TASKARG (R353): 0 in a lane that holds no task. -/
def execTaskarg (nx : BitVec 2) (d : BitVec 6) (k : BitVec 1) (s : State) : Out :=
  regOp s nx fun w =>
    w.setPairs d.toNat ((bitsOf w.active).map fun i =>
      (i, match w.sheaf.bind fun sh => lookup sh.tasks i with
        | some t => if k = 0#1 then t.argp else t.val
        | none => 0#64))

/-- The check of TASKRET and TASKBRK (R354). -/
def checkTask (w : Wave) : Check Unit := if w.sheaf.isNone then .error (protection 0x22 0) else .ok ()

/-- TASKRET and TASKBRK (R354, R173): a release, the end of each ACTIVE lane's task, and the lanes leave LIVE; an empty LIVE retires the wave without
NX. -/
def endTasks (s : State) (nx : BitVec 2) (u : Nat) (w : Wave) (broken : Bool) (value : Nat → DWord) : State :=
  let m := w.active
  let s := releaseAt s u w 4
  let tasks := match w.sheaf with
    | none => []
    | some sh => sh.tasks
  let s := (bitsOf m).foldl (fun s i => match lookup tasks i with
    | some t => sendEnd s w.ctag t.future broken (value i)
    | none => s) s
  let w := waveOf s u
  let w := { w with live := w.live &&& ~~~m, sheaf := w.sheaf.map fun sh => { sh with tasks := sh.tasks.filter fun e => !m.getLsbD e.1 } }
  if w.live = 0#32 then
    let s := settleWave (setWave s u w) u
    retireWave (setWave s u ((waveOf s u).complete 0#8 0)) u (brokenCause 4 0)
  else setWave s u (w.finish nx)

/-- TASKRET (R354). -/
def execTaskret (nx : BitVec 2) (a : BitVec 6) (s : State) : Out :=
  checked s (fun _ w => checkTask w) fun u w _ => endTasks s nx u w false fun i => w.pair64 a.toNat i
/-- TASKBRK (R354). -/
def execTaskbrk (nx : BitVec 2) (a : BitVec 6) (s : State) : Out :=
  checked s (fun _ w => checkTask w) fun u w _ => endTasks s nx u w true fun _ => brokenCause 2 (w.sreg a.toNat).toNat

/-- The address of a dependence-table entry (R210). -/
def depAddr (s : State) (ctag i : Nat) : Nat := (ctxOf s ctag).depbase.toNat + 128 * i

/-- The place of a dependence-table entry for an atomic step of a wave (R355, R356): a PEER page cannot take one. -/
def checkDep (s : State) (w : Wave) (i : Nat) : Check Place :=
  match checkLanes s w 3 [⟨0, depAddr s w.ctag i, 128⟩] with
  | .error e => .error e
  | .ok l =>
    match l with
    | (_, (p, _) :: _) :: _ => if p.loc = 2 then .error (.trap (fatalTrap 10 (depAddr s w.ctag i))) else .ok p
    | _ => .error .wait

/-- A launch that fires is noted for the die that takes it, under a number that gives the order of firing (R205, R210). -/
def fireEntry (s : State) (ctag die i : Nat) : State :=
  let c := ctxOf s ctag
  setCtx { s with uid := s.uid + 1 } ctag { c with fired := c.fired ++ [(s.uid, die, i)] }

/-- The checks of LAUNCH (R355): the record as a load, then its entry, none when it lies beyond NDEP. -/
def checkLaunchOp (s : State) (w : Wave) (va i : Nat) : Check (Placed × Option Place) :=
  if va % 64 != 0 then .error (misalign va)
  else match checkLanes s w 0 [⟨0, va, 64⟩] with
    | .error e => .error e
    | .ok l =>
      if i ≥ (ctxOf s w.ctag).ndep then .ok (l, none)
      else match checkDep s w i with
        | .error e => .error e
        | .ok p => .ok (l, some p)

/-- Bytes that LAUNCH writes (R210): the record, PRED and ESTATE. -/
def depBytes (rec' : List Byte) (pred : Nat) : List Byte :=
  sliceBytes rec' 0 64 ++ bytesOf 4 pred ++ [if pred = 0 then 2#8 else 1#8] ++ zeroBytes 59

/-- Write an entry at its slices, block by block, for an instruction of a wave: the L1 of its core keeps no copy of the line, so that what the wave reads
next is not older than what it wrote (R132). -/
def entryWrite (s : State) (w : Wave) (p : Place) (b : List Byte) : State :=
  let c := coreNo s w
  dropLine (agentWrite (drainPath s c) p.kid p.key b) c (lineOf p.key)

/-- Read of an entry at its slices what an instruction of a wave tests: after what its core has stored, and the core keeps no older copy (R132). -/
def entryRead (s : State) (w : Wave) (p : Place) (off n : Nat) : State × List Byte :=
  let c := coreNo s w
  agentRead (dropLine (drainPath s c) c (lineOf p.key)) p.kid (p.key + off) n

/-- LAUNCH (R355): 0 written, 1 not FREE, 2 beyond NDEP. -/
def execLaunch (nx : BitVec 2) (d a b : BitVec 6) (s : State) : Out :=
  let idx := fun (w : Wave) => bitsAt (w.sreg b.toNat).toNat 0 16
  checked s (fun _ w => checkLaunchOp s w (w.sreg a.toNat).toNat (idx w)) fun u w l =>
    let s := releaseAt s u w 3
    let s := drainPath s (coreNo s w)
    withPeers s u (waveOf s u) l.1 (readAsks l.1 true) false fun s ans =>
      let (s, b') := readPlaces s (coreNo s w) (readAsks l.1 true) true ans (l.1.flatMap (·.2))
      let pred := bitsAt (w.sreg b.toNat).toNat 32 32
      let put' := fun (s : State) (x : DWord) =>
        setWave { s with uid := s.uid + 1 } u
          (((waveOf s u).addResult s.uid (sN d) [.s d.toNat x]).finishAs nx 3#8 (idx w))
      match l.2 with
      | none => put' s 2#64
      | some p =>
        let (s, st) := entryRead s w p 68 1
        if st.headD 0#8 != 0#8 then put' s 1#64
        else
          let s := entryWrite s w p (depBytes b' pred)
          put' (if pred = 0 then fireEntry s w.ctag (dieNo (coreNo s w)) (idx w) else s) 0#64

/-- The check of DEPSIG (R356): the entry, none when it lies beyond NDEP. -/
def checkDepsig (s : State) (w : Wave) (i : Nat) : Check (Option Place) :=
  if i ≥ (ctxOf s w.ctag).ndep then .ok none
  else match checkDep s w i with
    | .error e => .error e
    | .ok p => .ok (some p)

/-- DEPSIG (R356): one atomic at the entry's home slice; all ones when the signal is lost. -/
def execDepsig (nx : BitVec 2) (d a : BitVec 6) (s : State) : Out :=
  let idx := fun (w : Wave) => bitsAt (w.sreg a.toNat).toNat 0 16
  checked s (fun _ w => checkDepsig s w (idx w)) fun u w e =>
    let s := releaseAt s u w 3
    let done := fun (s : State) (x : DWord) => setWave s u (((waveOf s u).setS d.toNat x).finish nx)
    match e with
    | none => done s (BitVec.allOnes 64)
    | some p =>
      let (s, b) := entryRead s w p 64 5
      let pred := fieldOf b 0 4
      if fieldOf b 4 1 = 1 && pred > 0 then
        let s := entryWrite s w { p with key := p.key + 64 } (bytesOf 4 (pred - 1) ++ [if pred = 1 then 2#8 else 1#8])
        done (if pred = 1 then fireEntry s w.ctag (dieNo (coreNo s w)) (idx w) else s) (BitVec.ofNat 64 pred)
      else done s (BitVec.allOnes 64)

/-- Counters of a fused receiver (R362): its own and the donor's. -/
def addCounters (a b : Counters) : Counters :=
  ⟨a.instr + b.instr, a.parkcyc + b.parkcyc, a.l1miss + b.l1miss, a.faratom + b.faratom, a.sbwait + b.sbwait, a.copyb + b.copyb, a.mrows + b.mrows,
    a.droops + b.droops⟩

/-- The fused receiver (R183): registers of the selected lanes, the lanes packed, and nothing in the rest. -/
def fuseWaves (r d : Wave) (mask : DWord) : Wave :=
  let la := bitsOf r.active
  let lb := bitsOf d.active
  let src : List (Wave × Nat) := la.map (fun i => (r, i)) ++ lb.map fun i => (d, i)
  let n := src.length
  { r with
    v := tab 64 fun x => tab 32 fun j =>
      if mask.getLsbD x then
        match src[j]? with
        | some (w, i) => w.lane x i
        | none => 0#32
      else 0#32
    p := tab 8 fun k =>
      if k = 0 then r.p.toList.headD 0#32
      else maskOf fun j => match src[j]? with
        | some (w, i) => (w.preg k).getLsbD i
        | none => false
    live := maskOf fun j => decide (j < n)
    c := true
    ctr := addCounters r.ctr d.ctr }

/-- Whether two waves at their REGROUP fuse (R182): `nx`, `w` of the second, and the park of the first. -/
def canFuse (w x : Wave) (partner : Nat) (mask xmask : DWord) : Bool :=
  x.pc == w.pc && partner == w.waveId && xmask == mask && x.guard == w.guard && decide (popCount w.active + popCount x.active ≤ 32)

/-- The fusion (R182, R183) of the current wave `u` and its parked partner `k`: the lower WAVEID receives, the other retires. -/
def fuseNow (s : State) (nx xnx : BitVec 2) (u k : Nat) (mask : DWord) : State :=
  let s := settleWave (settleWave s u) k
  let w := waveOf s u
  let x := waveOf s k
  let (rk, dk, rnx) := if w.waveId < x.waveId then (u, k, nx) else (k, u, xnx)
  let r := waveOf s rk
  let d := waveOf s dk
  let s := setWave s rk ({ fuseWaves r d mask with status := .ready }.finish rnx)
  retireWave s dk (brokenCause 4 0)

/-- The waves of a wave's group that are parked in a REGROUP which names it. -/
def regroupWaiters (s : State) (u : Nat) (w : Wave) : List Nat :=
  (s.waves.filter fun e => e.1 != u && e.2.group == w.group && (match e.2.status with
    | .parked (.regroup _ q _) => q == w.waveId
    | _ => false)).map (·.1)

/-- A parked REGROUP ends without a fusion (R182). -/
def endRegroup (s : State) (k : Nat) : State :=
  match lookup s.waves k with
  | none => s
  | some x => match x.status with
    | .parked (.regroup nx _ _) => setWave s k ({ x with status := .ready, c := false }.finish nx)
    | _ => s

/-- REGROUP (R357, R182, R183). A wave whose REGROUP does not name a partner that waits for it is the second of that pair all the same: nothing fuses, and both
go on. -/
def execRegroup (nx : BitVec 2) (a b : BitVec 6) (s : State) : Out :=
  onWave s fun u w =>
    let p := bitsAt (w.sreg a.toNat).toNat 0 4
    let mask := w.sreg b.toNat
    let waiting := regroupWaiters s u w
    let alone := setWave (waiting.foldl endRegroup s) u ({ w with c := false }.finish nx)
    if w.sheaf.isSome || p = w.waveId || p ≥ (groupOf s w.group).nwave then alone
    else match waveByWaveId s w.group p with
      | none => alone
      | some (k, x) =>
        match x.status with
        | .parked (.regroup xnx q xmask) =>
          if outstanding (settleWave s u) u then settleWave s u
          else if canFuse w x q mask xmask then (waiting.filter (· != k)).foldl endRegroup (fuseNow s nx xnx u k mask)
          else endRegroup alone k
        | _ => if waiting.isEmpty then parkWave s u (.regroup nx p mask) else alone

end Sys2Proof.Machine
end

