-- ==== Sys2Proof/Machine/FutureEvents.lean ====
section
/-! DEFINITION. Sys2Proof/Machine/FutureEvents.lean: the sheaf former (R172), slot grants (R176), and what reaches a future's home (R177-R179, R349,
R350, R422). -/
namespace Sys2Proof.Machine

/-- Whether a context is resident (R158). -/
def isResident (s : State) (ctag : Nat) : Bool :=
  match lookup s.contexts ctag with
  | none => false
  | some c => c.ctx.isSome && c.cstate == .resident

/-- The handle of a slot of this device. -/
def slotHandle (s : State) (die slot : Nat) : DWord := mkHandle (nodeId s) die slot (frtOf s die slot).tag

/-- A sheaf as the wave that runs it carries it: tasks in lanes 0 upward (R172). -/
def sheafOf (o : OpenSheaf) : SheafInfo := ⟨o.entry, o.region, (List.range o.tasks.length).zip o.tasks⟩

/-- Open sheaf `k` of a die's former is released (R172). -/
def releaseSheaf (s : State) (die k : Nat) : State :=
  let d := dieOf s die
  match d.former[k]? with
  | none => s
  | some o => setDie { s with uid := s.uid + 1 } die { d with former := d.former.eraseIdx k, ready := d.ready ++ [(s.uid, o.ctag, sheafOf o)] }

/-- A task takes the first free lane of its key's open sheaf (R172); a sheaf of 32 is released. -/
def formTask (s : State) (die slot : Nat) : State :=
  let f := frtOf s die slot
  let t : LaneTask := ⟨f.argp, f.val, slotHandle s die slot⟩
  let s := setFrt s die slot { f with started := true }
  let d := dieOf s die
  let k := d.former.findIdx fun o => o.ctag == f.ctag && o.region == f.region && o.entry == f.entry
  match d.former[k]? with
  | none => setDie s die { d with former := d.former ++ [⟨f.ctag, f.region, f.entry, [t], s.tsc.toNat⟩] }
  | some o =>
    let s := setDie s die { d with former := d.former.set k { o with tasks := o.tasks ++ [t] } }
    if o.tasks.length + 1 ≥ 32 then releaseSheaf s die k else s

/-- TASK_ARRIVAL (R172): the oldest task on its way to a die's former takes a lane. One whose context is not resident waits in its slot line, and
one that has been broken is dropped. -/
def execTaskArrival (die : Nat) (s : State) : Out :=
  .next (match (dieOf s die).tasks with
    | [] => s
    | m :: rest =>
      let s := setDie s die { dieOf s die with tasks := rest }
      match m with
      | .task slot =>
        let f := frtOf s die slot
        if f.state = 1#2 && !f.started && isResident s f.ctag then formTask s die slot else s
      | _ => s)

/-- Whether an open sheaf has waited 2 µs since its first task (R172). -/
def sheafDue (s : State) (o : OpenSheaf) : Bool := decide (o.since + 2000 ≤ s.tsc.toNat)

/-- SHEAF_TIMEOUT (R172): only a resident context's sheaf is released. -/
def execSheafTimeout (die k : Nat) (s : State) : Out :=
  .next (match (dieOf s die).former[k]? with
    | none => s
    | some o => if sheafDue s o && isResident s o.ctag then releaseSheaf s die k else s)

/-- The low 32 bits of a slot's handle: what a pool holds (Table 6.6). -/
def slotLow (s : State) (die slot : Nat) : Nat := slot * 2 ^ 12 + (frtOf s die slot).tag.toNat

/-- Mark slots as granted (R176). -/
def grantSlots (s : State) (die : Nat) (l : List Nat) : State :=
  l.foldl (fun s k => setFrt s die k { frtOf s die k with granted := true }) s

/-- The answer to one wave that waits for a grant (R176, R349): it executes again once every home has answered, or raises FRT_FULL for the lowest
lane whose home is full. -/
def grantWave (s : State) (u home : Nat) (got : Bool) : State :=
  match lookup s.waves u with
  | none => s
  | some w =>
    match w.status with
    | .parked (.grant homes full) =>
      let mine := (homes.filter fun e => e.1 == home).map (·.2)
      let rest := homes.filter fun e => e.1 != home
      let full := if got then full else full ++ mine
      if mine.isEmpty then s
      else if !rest.isEmpty then setWave s u { w with status := .parked (.grant rest full) }
      else
        let s := setWave s u { w with status := .ready }
        match full with
        | [] => s
        | x :: xs => raise s u 13 0 (xs.foldl Nat.min x)
    | _ => s

/-- Whether a wave waits for a home's grant. -/
def waitsGrant (w : Wave) (home : Nat) : Bool :=
  match w.status with
  | .parked (.grant homes _) => homes.any fun e => e.1 == home
  | _ => false

/-- Answer every wave of a die that waits for a home. -/
def grantWaves (s : State) (die home : Nat) (got : Bool) : State :=
  ((s.waves.filter fun e => waitsGrant e.2 home && dieNo (coreNo s e.2) == die).map (·.1)).foldl (fun s u => grantWave s u home got) s

/-- Slots join a die's pool for a home; FULL when there is none. -/
def grantTo (s : State) (die home : Nat) (l : List Nat) : State :=
  let d := dieOf s die
  let old := (lookup d.pools home).getD []
  let s := if l.isEmpty then s else setDie s die { d with pools := put d.pools home (old ++ l) }
  grantWaves s die home (!l.isEmpty)

/-- Room in a die's pool for a home: up to 64 slots (R176). -/
def poolRoom (s : State) (die home : Nat) : Nat := 64 - ((lookup (dieOf s die).pools home).getD []).length

/-- The die whose waves wait for a home on another device. -/
def grantDie (s : State) (home : Nat) : Nat :=
  ((s.waves.find? fun e => waitsGrant e.2 home).map fun e => dieNo (coreNo s e.2)).getD 0

/-- POOL_GRANT (R176, R349): a home of this device answers the die that asked first; a home of another device (key 2 and above) answers with
`slots`. -/
def execPoolGrant (home : Nat) (slots : List (BitVec 32)) (s : State) : Out :=
  .next (if home < 2 then
      match (dieOf s home).grantReqs with
      | [] => s
      | die :: rest =>
        let s := setDie s home { dieOf s home with grantReqs := rest }
        let l := grantable s home (poolRoom s die home)
        grantTo (grantSlots s home l) die home (l.map (slotLow s home))
    else
      let die := grantDie s home
      grantTo s die home ((slots.take (poolRoom s die home)).map (·.toNat)))

/-- FRT_TASK_END (R177): the oldest end of a task reaches its slot. -/
def execFrtTaskEnd (die : Nat) (s : State) : Out :=
  .next (match (dieOf s die).ends with
    | [] => s
    | m :: rest =>
      let s := setDie s die { dieOf s die with ends := rest }
      match m with
      | .finish slot tag ctag broken value => postFutures (finishSlot s die slot tag ctag broken value)
      | _ => s)

/-- FORWARD_ARRIVAL (R177, R350): the oldest forward reaches its target's home. -/
def execForwardArrival (die : Nat) (s : State) : Out :=
  .next (match (dieOf s die).forwards with
    | [] => s
    | m :: rest =>
      let s := setDie s die { dieOf s die with forwards := rest }
      match m with
      | .forward target slot => postFutures (arriveForward s die target slot)
      | _ => s)

/-- Whether a drop can arrive: no forward to its handle is still on its way (R352). -/
def dropReady (d : Die) (m : Msg) : Bool :=
  match m with
  | .drop h => d.forwards.all fun f => match f with
    | .forward t _ => t != h
    | _ => true
  | _ => true

/-- DROP_ARRIVAL (R177, R352): the oldest drop that follows every forward to its handle. -/
def execDropArrival (die : Nat) (s : State) : Out :=
  .next (let d := dieOf s die
    match d.drops.find? (dropReady d) with
    | none => s
    | some m =>
      let s := setDie s die { d with drops := d.drops.erase m }
      match m with
      | .drop h => postFutures (arriveDrop s h)
      | _ => s)

/-- FUTURE_ANSWER_ARRIVAL (R179, R349): what another device's home says of a future. -/
def execFutureAnswerArrival (handle : BitVec 64) (ans : FutureAnswer) (s : State) : Out :=
  .next (let rest := s.remotes.filter fun r => r.handle != handle
    if ownNode s (handleNode handle) || ans == .pending then s
    else postFutures { s with remotes := rest ++ [⟨handle, ans⟩] })

/-- The local context of a binding, when it is resident (R422). -/
def boundCtx (s : State) (node peerCtx : Nat) : Option Nat :=
  ((s.binds.find? fun b => b.1 == node && b.2.1 == peerCtx).map fun b => b.2.2).filter fun c => isResident s c

/-- A task or forward that cannot run here is answered as broken with kind LOST, and its slot is free (R422). -/
def refuseTask (s : State) (node die slot : Nat) (tag : BitVec 12) : State :=
  let f := frtOf s die slot
  let s := if f.state = 0#2 && f.tag = tag then setFrt s die slot { f with granted := false } else s
  { s with packets := s.packets ++ [.future node slot tag (.broken (brokenCause 5 0))] }

/-- Take a granted slot for a peer's task or forward, in the bound context's root region (R349, R422). -/
def takePeer (s : State) (node die slot : Nat) (tag : BitVec 12) (ctag : Nat) (target : Option Nat) (entry argp : DWord) : Option State :=
  let f := frtOf s die slot
  if f.state = 0#2 && f.granted && f.tag = tag then
    let s := takeFrt s die slot ctag target entry argp (ctxOf s ctag).rootrcb
    some (setFrt s die slot { frtOf s die slot with peer := some node })
  else none

/-- PEER_TASK_MESSAGE (R349, R350, R352, R422). Slots are granted to every peer that asks: only a task or a forward of an unbound pair is refused. -/
def execPeerTaskMessage (node : BitVec 12) (peerCtx : Nat) (msg : PeerTask) (s : State) : Out :=
  let n := node.toNat
  .next (match msg with
    | .task die entry argp slot tag =>
      match (boundCtx s n peerCtx).bind fun c => takePeer s n die slot tag c none entry argp with
      | some s => sendTask s die slot
      | none => refuseTask s n die slot tag
    | .forward target entry argp slot tag =>
      let die := handleDie target
      match (boundCtx s n peerCtx).bind fun c => takePeer s n die slot tag c (some (handleSlot target)) entry argp with
      | some s => setDie s die { dieOf s die with forwards := (dieOf s die).forwards ++ [.forward target slot] }
      | none => refuseTask s n die slot tag
    | .drop h =>
      match boundCtx s n peerCtx with
      | none => s
      | some c =>
        if (frtOf s (handleDie h) (handleSlot h)).ctag = c then
          setDie s (handleDie h) { dieOf s (handleDie h) with drops := (dieOf s (handleDie h)).drops ++ [.drop h] }
        else s
    | .grant die =>
      let l := grantable s die 64
      { grantSlots s die l with packets := s.packets ++ [.grant n die (l.map (slotLow s die))] })

end Sys2Proof.Machine
end

