-- ==== Sys2Proof/Machine/Queues.lean ====
section
/-! DEFINITION. Sys2Proof/Machine/Queues.lean: region budgets (R161, R162), queue descriptors and leaders (R191-R193, R200), the checks of records at
take (R194-R199), fabric enqueues and overflow (R203), and fired entries (R205, R210). -/
namespace Sys2Proof.Machine

/-- The four budget fields of a region, numbered as their bits of OVR (Table 6.2): 0 MAXCORES, 1 PLOTBYTES, 2 SHARE, 3 PRIO. -/
def rcbField (b : List Byte) (f : Nat) : Nat :=
  match f with
  | 0 => fieldOf b 27 1
  | 1 => fieldOf b 28 4
  | 2 => fieldOf b 26 1
  | _ => bitsAt (fieldOf b 25 1) 0 3

/-- Root defaults (Table 6.3). -/
def rcbDefault (f : Nat) : Nat :=
  match f with
  | 0 => 72
  | 1 => 4194304
  | 2 => 16
  | _ => 0

/-- EFF (R161) over a chain of blocks from the region up to its root. -/
def effOf (l : List (List Byte)) (f : Nat) : Nat :=
  match l with
  | [] => rcbDefault f
  | b :: up =>
    if up.isEmpty then (if rcbOvr b f then rcbField b f else rcbDefault f)
    else
      let p := effOf up f
      if !rcbOvr b f then p else if f = 2 then rcbField b f else min (rcbField b f) p

/-- An effective value at a binding. -/
def effNow (s : State) (ctag : Nat) (region : DWord) (f : Nat) : Nat := effOf ((regionChain s ctag region).map (·.2)) f

/-- Remember the blocks that were read (R445). -/
def noteBlocks (s : State) (ctag : Nat) (l : List (Nat × List Byte)) : State :=
  let c := ctxOf s ctag
  setCtx s ctag { c with rcbs := l.foldl (fun m e => put m e.1 e.2) c.rcbs }

/-- Whether a region's own block forbids launches (R162). DESIGN CHOICE (log 74): FCAUSE[31:8], zero bits of a field that the device writes, are not looked
at. -/
def badBlock (b : List Byte) : Bool :=
  bitsAt (fieldOf b 24 1) 5 3 != 0 || bitsAt (fieldOf b 25 1) 3 5 != 0 || !zeroField b 33 1 || !zeroField b 56 8
    || fieldOf b 26 1 == 0 || decide (fieldOf b 27 1 > 72)

/-- Statuses of a launch (R197). -/
abbrev LaunchStatus := Nat

/-- Whether the walk of a region's blocks meets LOST_MEMORY (R388, R445). -/
def chainLost (fuel : Nat) (s : State) (ctag addr : Nat) : Bool :=
  match fuel with
  | 0 => false
  | n + 1 => meetsLoss s ctag addr 64 || (match rcbRead s ctag addr with
      | none => false
      | some b => rcbParent b != 0 && chainLost n s ctag (rcbParent b))

/-- Step 2 of R196: the region's chain, or BAD_REGION (2) or KILLED (5). DESIGN CHOICE (log 73): a REGION that is not 64-byte aligned names no control block,
and is refused with BAD_REGION. DESIGN CHOICE (log 74): a STATE of 2-255, which Table 6.2 does not list, counts as KILLED. -/
def checkRegion (s : State) (ctag : Nat) (region : DWord) : Except LaunchStatus (List (Nat × List Byte)) :=
  if region.toNat % 64 ≠ 0 then .error 2
  else match ancestry (treeFuel s) s ctag region.toNat with
    | none => .error 2
    | some l =>
      match l with
      | [] => .error 2
      | (_, b) :: _ => if badBlock b then .error 2 else if fieldOf b 32 1 ≠ 0 then .error 5 else .ok l

/-- Whether a die is in the online set (R201). -/
def isOnline (s : State) (die : Nat) : Bool := (dieOf s die).state == .online

/-- Whether a die can run a launch with a die-affinity mask (R201): named, or every named die gone, and online with a present core. -/
def dieEligible (s : State) (daff : Byte) (die : Nat) : Bool :=
  let named := [0, 1].filter fun d => daff.getLsbD d
  isOnline s die && !(presentCores s die).isEmpty && (named.contains die || named.all fun d => !isOnline s d)

/-- Whether a die that a mask names is eligible at take (R196 step 4). -/
def takeEligible (s : State) (daff : Byte) : Bool :=
  [0, 1].any fun d => daff.getLsbD d && isOnline s d && !(presentCores s d).isEmpty

/-- Step 1 of R196 for a launch record: `index` is what SEQ must be, none for a dependence entry (R210). -/
def launchRecordOk (b : List Byte) (index : Option Nat) : Bool :=
  fieldOf b 0 1 == 1 && bitsAt (fieldOf b 1 1) 2 6 == 0
    && (match index with
        | some i => fieldOf b 56 4 == i % 2 ^ 32
        | none => true)
    && zeroField b 30 2 && zeroField b 44 4 && zeroField b 60 4
    && (bitsAt (fieldOf b 1 1) 0 1 == 1 || zeroField b 4 4)
    && fieldOf b 8 8 % 4 == 0 && fieldOf b 48 8 % 32 == 0

/-- Step 3 of R196 (R165, R166): grid, waves, budget and yoke shape. -/
def launchShapeOk (b : List Byte) (chain : List (List Byte)) : Bool :=
  let waves := fieldOf b 2 1
  let gx := fieldOf b 24 2
  let gy := fieldOf b 26 2
  let gz := fieldOf b 28 2
  let shape := fieldOf b 4 4
  decide (1 ≤ waves) && decide (waves ≤ 16) && decide (1 ≤ gx) && decide (1 ≤ gy) && decide (1 ≤ gz)
    && decide (fieldOf b 40 4 ≤ effOf chain 1)
    && (bitsAt (fieldOf b 1 1) 0 1 == 0
        || (legalShape shape && gx * gy * gz % shapeCores shape == 0 && decide (shapeCores shape ≤ effOf chain 0)))

/-- The checks of R196 in order: the region's chain, or the status of the first failure. -/
def checkLaunchRecord (s : State) (ctag : Nat) (b : List Byte) (index : Option Nat) : Except LaunchStatus (List (Nat × List Byte)) :=
  if !launchRecordOk b index then .error 1
  else match checkRegion s ctag (BitVec.ofNat 64 (fieldOf b 32 8)) with
    | .error e => .error e
    | .ok l =>
      if !launchShapeOk b (l.map (·.2)) then .error 3
      else if !takeEligible s (BitVec.ofNat 8 (fieldOf b 3 1)) then .error 4
      else .ok l

/-- LAUNCHID of the next take of a context (R198): 0xFFFF_FFFF is kept for sheaf waves. -/
def nextId (x : Word) : Word := if x = 0xFFFFFFFE#32 then 0#32 else x + 1#32

/-- The launch that a record describes (Table 7.4). -/
def launchFrom (ctag die : Nat) (id : Word) (b : List Byte) (queue : Option (Bool × Nat)) (index : Nat) (dep : Option Nat) (ordered : Bool) : Launch :=
  { ctag, launchId := id, die, waves := fieldOf b 2 1, yoke := bitsAt (fieldOf b 1 1) 0 1 == 1, shape := BitVec.ofNat 32 (fieldOf b 4 4)
    serial := ordered || bitsAt (fieldOf b 1 1) 1 1 == 1, daff := BitVec.ofNat 8 (fieldOf b 3 1), entry := BitVec.ofNat 64 (fieldOf b 8 8)
    argp := BitVec.ofNat 64 (fieldOf b 16 8), gx := fieldOf b 24 2, gy := fieldOf b 26 2, gz := fieldOf b 28 2
    region := BitVec.ofNat 64 (fieldOf b 32 8), plotb := fieldOf b 40 4, cpla := BitVec.ofNat 64 (fieldOf b 48 8), queue, index, dep
    next := 0, ended := 0, faults := 0, killed := false, restored := false, headSince := none }

/-- The lowest free entry of a die's launch table (R205, log 9). -/
def freeTslot (s : State) (die : Nat) : Nat :=
  let used := (s.launches.filter fun e => e.2.die == die).map fun e => e.2.tslot
  ((List.range (used.length + 1)).find? fun i => !used.contains i).getD 0

/-- A walk of the Reeve's that meets LOST_MEMORY takes the context with it (R388). -/
def killIfLost (s : State) (ctag : Nat) (lost : Bool) : State := if lost then killContext s ctag else s

/-- Whether the region that a record names is lost (R388). -/
def recordLost (s : State) (ctag : Nat) (b : List Byte) : Bool := chainLost (treeFuel s) s ctag (fieldOf b 32 8)

/-- A record taken by a die (R196-R198): it becomes a launch, or is refused with its completion record. -/
def takeLaunch (s : State) (ctag die : Nat) (b : List Byte) (queue : Option (Bool × Nat)) (index : Nat) (dep : Option Nat) (ordered : Bool) : State :=
  let c := ctxOf s ctag
  let id := c.nextLaunch
  let s := setCtx s ctag { c with nextLaunch := nextId id }
  let seq := if dep.isSome then none else some index
  match checkLaunchRecord s ctag b seq with
  | .error e => killIfLost (freeEntry (writeCompletion s ctag (BitVec.ofNat 64 (fieldOf b 48 8)) e id 0) ctag dep) ctag (e == 2 && recordLost s ctag b)
  | .ok l =>
    let s := noteBlocks s ctag l
    { s with uid := s.uid + 1, launches := put s.launches s.uid { launchFrom ctag die id b queue index dep ordered with tslot := freeTslot s die } }

/-- Unfinished launches of a die (R205). -/
def launchCount (s : State) (die : Nat) : Nat := (s.launches.filter fun e => e.2.die == die).length
/-- Whether a die's launch table has room (R205). -/
def tableRoom (s : State) (die : Nat) : Bool := decide (launchCount s die < Config.launchTableEntries)

/-- The address of a queue's descriptor (R193). -/
def descAddr (c : Context) (qt : Bool) (q : Nat) : Nat := ((if qt then c.tqd else c.hqd) + BitVec.ofNat 64 (64 * q)).toNat
/-- A queue's descriptor, when it can be read. -/
def readDesc (s : State) (ctag : Nat) (qt : Bool) (q : Nat) : Option (List Byte) :=
  let c := ctxOf s ctag
  if q ≥ (if qt then c.ntq else c.nhq) then none else ctxRead s ctag (descAddr c qt q) 64

/-- Whether a queue's descriptor lies in lost memory (R388). -/
def descLost (s : State) (ctag : Nat) (qt : Bool) (q : Nat) : Bool :=
  let c := ctxOf s ctag
  decide (q < (if qt then c.ntq else c.nhq)) && meetsLoss s ctag (descAddr c qt q) 64

/-- EN of a descriptor. -/
def descEn (b : List Byte) : Bool := bitsAt (fieldOf b 9 1) 0 1 == 1
/-- Whether an enabled descriptor is served (R193). -/
def descOk (b : List Byte) : Bool :=
  zeroField b 13 3 && zeroField b 20 4 && zeroField b 33 7 && zeroField b 52 12 && bitsAt (fieldOf b 9 1) 2 6 == 0
    && bitsAt (fieldOf b 12 1) 2 6 == 0 && bitsAt (fieldOf b 10 2) 12 4 == 0 && fieldOf b 10 2 != 0
    && decide (4 ≤ fieldOf b 8 1) && decide (fieldOf b 8 1 ≤ 16) && fieldOf b 0 8 % 64 == 0 && fieldOf b 40 8 % 64 == 0
/-- HEAD, LEPOCH and LDIE of TAKE. -/
def descHead (b : List Byte) : Nat := fieldOf b 24 4
/-- LEPOCH of a descriptor. -/
def descEpoch (b : List Byte) : Nat := fieldOf b 28 2
/-- TAIL of a descriptor. -/
def descTail (b : List Byte) : Nat := fieldOf b 16 4
/-- Records written and not taken, at most the ring's size (R194). -/
def descWaiting (b : List Byte) : Nat := min ((descTail b + 2 ^ 32 - descHead b) % 2 ^ 32) (2 ^ fieldOf b 8 1)
/-- The address of record `i` of a ring (R194). -/
def recordAddr (b : List Byte) (i : Nat) : DWord := BitVec.ofNat 64 (fieldOf b 0 8 + 64 * (i % 2 ^ fieldOf b 8 1))

/-- Code of a leader state (Table 7.5, R193). -/
def leaderCode (l : LState) : Nat :=
  match l with
  | .idle => 0
  | .led => 1
  | .moving => 2
  | .held => 3
  | .bad => 0xFF

/-- The leader record of a queue. -/
def leaderOf (c : Context) (qt : Bool) (q : Nat) : Option Leader :=
  (c.queues.find? fun e => e.1 == qt && e.2.1 == q).map fun e => e.2.2

/-- The compare-and-swap on TAKE (Table 7.3, R200): none where TAKE cannot be written. -/
def writeTake (s : State) (ctag : Nat) (qt : Bool) (q head : Nat) (l : Leader) : Option State :=
  ctxWrite s ctag (descAddr (ctxOf s ctag) qt q + 24) (bytesOf 4 head ++ bytesOf 2 l.epoch ++ bytesOf 2 l.die) false

/-- Replace a queue's leader record, and write LSTATE. -/
def setLeader (s : State) (ctag : Nat) (qt : Bool) (q : Nat) (l : Leader) : State :=
  let c := ctxOf s ctag
  let rest := c.queues.filter fun e => !(e.1 == qt && e.2.1 == q)
  ctxRecord (setCtx s ctag { c with queues := rest ++ [(qt, q, l)] }) ctag (descAddr c qt q + 32) (bytesOf 1 (leaderCode l.state))

/-- The die that leads a queue from IDLE or HELD (Table 7.5). -/
def chooseLeader (s : State) (qaff : Nat) : Option Nat :=
  match [0, 1].find? fun d => bitsAt qaff d 1 == 1 && isOnline s d with
  | some d => some d
  | none => [0, 1].find? fun d => isOnline s d

/-- Queues of a kind that are enabled over all resident contexts (R192). -/
def ledCount (s : State) (qt : Bool) : Nat :=
  (s.contexts.map fun e => (e.2.queues.filter fun q => q.1 == qt && (q.2.2.state == .led || q.2.2.state == .moving)).length).sum

/-- Capacity for queues of a kind (R192). -/
def queueCapacity (qt : Bool) : Nat := if qt then 65536 else 32768

/-- A queue that cannot be led yet is IDLE (R192, Table 7.5). -/
def keepIdle (s : State) (ctag : Nat) (qt : Bool) (q : Nat) (l : Leader) : State :=
  if leaderOf (ctxOf s ctag) qt q = some { l with state := .idle } then s else setLeader s ctag qt q { l with state := .idle }

/-- An enabled queue of a resident context starts to be served, when it can (Table 7.5, R192, R193). DESIGN CHOICE (log 68): a queue whose TAKE cannot be
written stays IDLE. -/
def serveQueue (s : State) (ctag : Nat) (qt : Bool) (q : Nat) : State :=
  match readDesc s ctag qt q with
  | none => killIfLost s ctag (descLost s ctag qt q)
  | some b =>
    let old : Leader := (leaderOf (ctxOf s ctag) qt q).getD ⟨.idle, 0, 0, none, false⟩
    if !descEn b || !isResident s ctag || old.state == .led || old.state == .moving then s
    else if !descOk b then setLeader s ctag qt q { old with state := .bad }
    else if ledCount s qt ≥ queueCapacity qt then keepIdle s ctag qt q old
    else match chooseLeader s (fieldOf b 12 1) with
      | none => keepIdle s ctag qt q old
      | some d =>
        let l : Leader := { old with state := .led, die := d, epoch := descEpoch b }
        match writeTake s ctag qt q (descHead b) l with
        | none => keepIdle s ctag qt q old
        | some t => setLeader t ctag qt q l

/-- Every queue number of a context, host queues first, but for those that are readable and not enabled when it becomes resident. -/
def enabledQueues (s : State) (ctag : Nat) : List (Bool × Nat) :=
  let c := ctxOf s ctag
  ((List.range c.nhq).map (fun q => (false, q)) ++ (List.range c.ntq).map fun q => (true, q)).filter fun e =>
    match readDesc s ctag e.1 e.2 with
    | some b => descEn b
    | none => true

/-- Serve the queues of a context; a descriptor in lost memory takes the context with it (R388). -/
def serveContext (s : State) (ctag : Nat) : State := (enabledQueues s ctag).foldl (fun s e => serveQueue s ctag e.1 e.2) s

/-- Resident contexts in ascending context number (R192). -/
def residentCtags (s : State) : List Nat :=
  (List.range 64).filterMap fun n => (s.contexts.find? fun e => e.2.ctx == some n).map (·.1)

/-- Insert a queue among queues in ascending order, host queues first (R192). -/
def insertQueue (x : Bool × Nat) (l : List (Bool × Nat)) : List (Bool × Nat) :=
  match l with
  | [] => [x]
  | y :: rest => if (!x.1 && y.1) || (x.1 == y.1 && decide (x.2 < y.2)) then x :: y :: rest else y :: insertQueue x rest

/-- The IDLE queues of a context in ascending queue number. -/
def idleNumbers (c : Context) : List (Bool × Nat) :=
  ((c.queues.filter fun e => e.2.2.state == .idle).map fun e => (e.1, e.2.1)).foldl (fun l e => insertQueue e l) []

/-- Serve the queues that are IDLE though enabled, once capacity or a die is there (R192, Table 7.5). -/
def serveIdle (s : State) : State :=
  (residentCtags s).foldl (fun s c => (idleNumbers (ctxOf s c)).foldl (fun s e => serveQueue s c e.1 e.2) s) s

/-- Queues led by a die start to move when the other die is online (Table 7.5). -/
def moveFrom (s : State) (die : Nat) : State :=
  if !isOnline s (1 - die) then s
  else
    s.contexts.foldl (fun s e =>
      (e.2.queues.filter fun q => q.2.2.state == .led && q.2.2.die == die).foldl (fun s q =>
        setLeader s e.1 q.1 q.2.1 { q.2.2 with state := .moving }) s) s

/-- A die has returned to the online set: IDLE queues are served, and queues led by an offline die move (Table 7.5). -/
def dieReturned (s : State) (die : Nat) : State :=
  serveIdle (if isOnline s (1 - die) then s else moveFrom s (1 - die))

/-- Taken launches of a queue with no group bound pass to another die, whose launch table they enter while it has room (Table 7.5, R205). DESIGN CHOICE (log 73):
those that find none keep their entries in the table of the die that took them. -/
def passLaunches (s : State) (ctag : Nat) (q : Bool × Nat) (die : Nat) : State :=
  ((s.launches.filter fun e => e.2.ctag == ctag && e.2.queue == some q && e.2.next == 0).map (·.1)).foldl (fun s k =>
    match lookup s.launches k with
    | none => s
    | some x => if x.die = die || !tableRoom s die then s else { s with launches := put s.launches k { x with die, tslot := freeTslot s die } }) s

/-- LEADERSHIP_MOVE (R200): the other die leads under the next epoch, and taken launches with no group bound pass to it. A leader that has gone offline
meanwhile gives the queue up again, when the other die is online; a queue that was disabled meanwhile frees its capacity (R192), and a descriptor in lost memory takes the context with it (R388). -/
def execLeadershipMove (ctag : Nat) (qt : Bool) (q : Nat) (s : State) : Out :=
  .next (match leaderOf (ctxOf s ctag) qt q, readDesc s ctag qt q with
    | some l, some b =>
      if l.state != .moving then s
      else
        let back := !isOnline s (1 - l.die) && isOnline s l.die
        let n : Leader := ⟨if !descEn b then .idle else if back then .moving else .led, 1 - l.die, (l.epoch + 1) % 65536, l.waitFault, l.kill⟩
        match writeTake s ctag qt q (descHead b) n with
        | none => s
        | some t =>
          let t := passLaunches (setLeader t ctag qt q n) ctag (qt, q) (1 - l.die)
          let t := postEvent t (1 + l.die) 2
            ([BitVec.ofNat 8 ((ctxOf t ctag).ctx.getD 0xFF), BitVec.ofNat 8 (1 - l.die)] ++ bytesOf 2 q ++ [if qt then 1#8 else 0#8])
          if n.state = .idle then serveIdle t else t
    | some l, none => killIfLost s ctag (l.state == .moving && descLost s ctag qt q)
    | _, _ => s)

/-- A die's throttle level (R200): the largest ICAD among its present cores. -/
def throttleLevel (s : State) (die : Nat) : Nat :=
  maxOf 0 ((presentCores s die).map fun c => (coreOf s (36 * die + c)).icad.toNat)

/-- QLTHR and GANGWAIT of SCHEDCFG (Table 7.7). -/
def qlthr (s : State) : Nat := bitsAt s.bar.schedcfg.toNat 0 8
/-- GANGWAIT, in µs. -/
def gangWait (s : State) : Nat := bitsAt s.bar.schedcfg.toNat 8 16

/-- Note since when a die's throttle level exceeds QLTHR (R200). -/
def noteThrottle (s : State) : State :=
  [0, 1].foldl (fun s d =>
    let x := dieOf s d
    let hot := decide (throttleLevel s d > qlthr s)
    setDie s d { x with hotThrottle := if !hot then none else if x.hotThrottle.isSome then x.hotThrottle else some s.tsc.toNat }) s

/-- Whether a die's queues are to move because of its throttle level. -/
def throttleDue (s : State) (die : Nat) : Bool :=
  (match (dieOf s die).hotThrottle with
    | some t => decide (t + 1000000 ≤ s.tsc.toNat)
    | none => false)
  && isOnline s (1 - die) && decide (throttleLevel s (1 - die) ≤ qlthr s)

/-- LEADER_THROTTLE_TIMEOUT (R200): on the lowest die for which it is due. -/
def execLeaderThrottleTimeout (s : State) : Out :=
  .next (match [0, 1].find? (throttleDue s) with
    | none => s
    | some d => moveFrom s d)

/-- QUEUE_DESCRIPTOR_EN_WRITE (R200): system software writes EN, and the queue starts or stops being served. A fault that its record waits for stays open, and
its answer holds when the queue is served again (R194). -/
def execQueueDescriptorEnWrite (ctag : Nat) (qt : Bool) (q : Nat) (en : Bool) (s : State) : Out :=
  .next (match readDesc s ctag qt q with
    | none => killIfLost s ctag (descLost s ctag qt q)
    | some b =>
      let flags := (b.getD 9 0#8) &&& 0xFE#8 ||| (if en then 1#8 else 0#8)
      let s := ctxRecord s ctag (descAddr (ctxOf s ctag) qt q + 9) [flags]
      let old : Leader := (leaderOf (ctxOf s ctag) qt q).getD ⟨.idle, 0, 0, none, false⟩
      if en then serveQueue (if old.state == .idle then setLeader s ctag qt q old else s) ctag qt q
      else if old.state == .moving then s
      else serveIdle (setLeader s ctag qt q { old with state := .idle }))

/-- Read a record as a die does (R194): its bytes, or why it cannot; a page of another device holds none (log 9). -/
def readRecord (s : State) (ctag die : Nat) (va : DWord) : Except XFail (List Byte) :=
  match translate s (.die die) ctag va.toNat 0 false with
  | .error e => .error e
  | .ok p => if p.loc = 2 then .error (.fatal 3) else .ok (agentRead s p.kid p.key 64).2

/-- A record that cannot be read is refused, or waits for the answer to a fault (R194); lost memory takes the context with it (R388). -/
def unreadRecord (s : State) (ctag die : Nat) (who : Waiter) (va : DWord) (refuse : State → State) (wait : State → Nat → State) (e : XFail) : State :=
  match e with
  | .recoverable nw =>
    let (s, tok) := raiseFault s ctag die who { va, kind := 0, nw }
    postFaults (wait s tok)
  | .fatal r => if r = 11 then killContext (refuse s) ctag else refuse s

/-- Whether a fired entry waits for the answer to a fault on its record (R194, R210). -/
def entryWaits (c : Context) (i : Nat) : Bool := c.firedWait.any fun e => e.1 == i && e.2.isSome

/-- The entry that fired first among those of resident contexts that wait for a die (R205): its own, or for one that is not online. One that waits for
the answer to a fault is passed over. -/
def firedWaits (s : State) (die : Nat) : Option (Nat × Nat × Nat × Nat) :=
  ((s.contexts.filter fun e => isResident s e.1).filterMap fun e =>
    (e.2.fired.find? fun f => (f.2.1 == die || !isOnline s f.2.1) && !entryWaits e.2 f.2.2).map fun f => (e.1, f)).foldl (fun b e => match b with
      | none => some e
      | some x => if e.2.1 < x.2.1 then some e else some x) none

/-- Whether a queue's leader can take a record now (R194, R200, R205): its die, descriptor and leader record. -/
def canTake (s : State) (ctag : Nat) (qt : Bool) (q : Nat) : Option (List Byte × Leader) :=
  match leaderOf (ctxOf s ctag) qt q, readDesc s ctag qt q with
  | some l, some b =>
    if l.state == .led && isOnline s l.die && isResident s ctag && l.waitFault.isNone && descEpoch b == l.epoch && descOk b && descEn b
        && decide (descWaiting b > 0) && tableRoom s l.die && (firedWaits s l.die).isNone then some (b, l)
    else none
  | _, _ => none

/-- The take itself (R200): HEAD advances by compare-and-swap on TAKE, and then `k` follows. Where TAKE cannot be written nothing is taken. -/
def takeHead (s : State) (ctag : Nat) (qt : Bool) (q : Nat) (b : List Byte) (l : Leader) (k : State → State) : State :=
  match writeTake s ctag qt q ((descHead b + 1) % 2 ^ 32) l with
  | none => s
  | some t => k (setLeader t ctag qt q { l with kill := false })

/-- Whether the descriptor of an enabled queue that is served or waits to be has gone bad, or a bad one's is served again (R193), or is lost (R388). -/
def queueAmiss (s : State) (ctag : Nat) (qt : Bool) (q : Nat) : Bool :=
  isResident s ctag && (match leaderOf (ctxOf s ctag) qt q, readDesc s ctag qt q with
    | some l, some b => descEn b && (if l.state == .bad then descOk b else l.state != .held && !descOk b)
    | some l, none => (l.state == .led || l.state == .moving) && descLost s ctag qt q
    | none, _ => false)

/-- The leader follows a change of its descriptor (R193, R388): a bad one reads LSTATE 0xFF and frees its capacity, and a mended one is served. -/
def mendQueue (s : State) (ctag : Nat) (qt : Bool) (q : Nat) : State :=
  if !queueAmiss s ctag qt q then s
  else match leaderOf (ctxOf s ctag) qt q with
    | none => s
    | some l =>
      if l.state != .bad && (readDesc s ctag qt q).isSome then serveIdle (setLeader s ctag qt q { l with state := .bad })
      else serveQueue s ctag qt q

/-- Act on the next record of a queue: read it, park on a fault, take and refuse it silently (R194), or take it and go on. One that `hold`
holds back stays where it is. A queue that cannot take follows its descriptor (R193). -/
def takeNext (s : State) (ctag : Nat) (qt : Bool) (q : Nat) (hold : State → List Byte → Nat → Bool) (lost : State → State)
    (k : State → Leader → List Byte → List Byte → State) : State :=
  match canTake s ctag qt q with
  | none => mendQueue s ctag qt q
  | some (b, l) =>
    if l.kill then takeHead s ctag qt q b l lost
    else
      let va := recordAddr b (descHead b)
      match readRecord s ctag l.die va with
      | .error e =>
        unreadRecord s ctag l.die (.queue qt q) va (fun s => takeHead s ctag qt q b l lost) (fun s tok => setLeader s ctag qt q { l with waitFault := some tok }) e
      | .ok r => if hold s r (descHead b) then s else takeHead s ctag qt q b l fun s => k s l b r

/-- A launch record refused unread (R194, R198): its LAUNCHID is used up. -/
def skipLaunch (s : State) (ctag : Nat) : State := setCtx s ctag { ctxOf s ctag with nextLaunch := nextId (ctxOf s ctag).nextLaunch }

/-- RECORD_TAKE (R194-R198). -/
def execRecordTake (ctag q : Nat) (s : State) : Out :=
  .next (takeNext s ctag false q (fun _ _ _ => false) (fun s => skipLaunch s ctag)
    fun s l b r => takeLaunch s ctag l.die r (some (false, q)) (descHead b) none (bitsAt (fieldOf b 9 1) 1 1 == 1))

/-- Step 1 of R199 for a task record. -/
def taskRecordOk (b : List Byte) (index : Nat) : Bool :=
  fieldOf b 0 1 == 2 && bitsAt (fieldOf b 1 1) 1 7 == 0 && zeroField b 2 6 && zeroField b 24 8 && zeroField b 40 8 && zeroField b 60 4
    && fieldOf b 56 4 == index % 2 ^ 32 && fieldOf b 8 8 % 4 == 0 && fieldOf b 48 8 % 16 == 0 && fieldOf b 48 8 != 0

/-- A refused task record: the break cause at RESA (R199). -/
def refuseRecord (s : State) (ctag : Nat) (b : List Byte) (cause : DWord) : State :=
  let resa := fieldOf b 48 8
  if resa = 0 || resa % 16 ≠ 0 then s else ctxRecord s ctag resa (resultBytes true cause)

/-- A task record taken (R199): its task is created on its home die. -/
def takeTask (s : State) (ctag : Nat) (b : List Byte) (index : Nat) : State :=
  let home := bitsAt (fieldOf b 1 1) 0 1
  if !taskRecordOk b index then refuseRecord s ctag b (brokenCause 3 0)
  else match checkRegion s ctag (BitVec.ofNat 64 (fieldOf b 32 8)) with
    | .error e => killIfLost (refuseRecord s ctag b (brokenCause 3 0)) ctag (e == 2 && recordLost s ctag b)
    | .ok l =>
      let s := noteBlocks s ctag l
      if isLost s home then refuseRecord s ctag b (brokenCause 5 0)
      else match grantable s home 1 with
        | [] => s
        | slot :: _ =>
          let s := takeFrt s home slot ctag none (BitVec.ofNat 64 (fieldOf b 8 8)) (BitVec.ofNat 64 (fieldOf b 16 8)) (BitVec.ofNat 64 (fieldOf b 32 8))
          let s := setFrt s home slot { frtOf s home slot with resa := BitVec.ofNat 64 (fieldOf b 48 8) }
          sendTask s home slot

/-- Whether a task record that passes its checks has to wait at the head of its queue: its home die has no slot to give. DESIGN CHOICE (log 73): R199 gives no
answer for that case. -/
def taskHeld (s : State) (ctag : Nat) (b : List Byte) (index : Nat) : Bool :=
  let home := bitsAt (fieldOf b 1 1) 0 1
  taskRecordOk b index && (checkRegion s ctag (BitVec.ofNat 64 (fieldOf b 32 8))).isOk && !isLost s home && (grantable s home 1).isEmpty

/-- TASK_RECORD_TAKE (R194, R199). -/
def execTaskRecordTake (ctag q : Nat) (s : State) : Out :=
  .next (takeNext s ctag true q (fun s r i => taskHeld s ctag r i) (fun s => s) fun s _ b r => takeTask s ctag r (descHead b))

/-- Write a record into a ring at TAIL, and TAIL (R203): both or neither. -/
def ringAppend (s : State) (ctag : Nat) (qt : Bool) (q : Nat) (b r : List Byte) : Option State :=
  (ctxWrite s ctag (recordAddr b (descTail b)).toNat r false).bind fun s =>
    ctxWrite s ctag (descAddr (ctxOf s ctag) qt q + 16) (bytesOf 4 ((descTail b + 1) % 2 ^ 32)) false

/-- OVFL, OVFLN and OVFLC of a descriptor. -/
def descOvfl (b : List Byte) : Nat := fieldOf b 40 8
/-- Records held in the overflow area. -/
def descOvflc (b : List Byte) : Nat := fieldOf b 50 2
/-- Whether a ring has room (R203). -/
def ringRoom (b : List Byte) : Bool := decide ((descTail b + 2 ^ 32 - descHead b) % 2 ^ 32 < 2 ^ fieldOf b 8 1)

/-- Append a record to a queue's overflow area, and count it (R203): both or neither. -/
def overflowAppend (s : State) (ctag : Nat) (qt : Bool) (q : Nat) (b r : List Byte) : Option State :=
  if descOvfl b = 0 || descOvflc b ≥ fieldOf b 48 2 then none
  else (ctxWrite s ctag (descOvfl b + 64 * descOvflc b) r false).bind fun s =>
    ctxWrite s ctag (descAddr (ctxOf s ctag) qt q + 50) (bytesOf 2 (descOvflc b + 1)) false

/-- Where a record that comes by the fabric goes (R203): the ring, else the overflow area, else nowhere. DESIGN CHOICE (log 68): a ring place that cannot be
written is no room in the ring, and an overflow place that cannot be written is a full overflow area. -/
def placeRecord (s : State) (ctag : Nat) (qt : Bool) (q : Nat) (b r : List Byte) : Option State :=
  match (if isResident s ctag && descOvflc b == 0 && ringRoom b then ringAppend s ctag qt q b r else none) with
  | some t => some t
  | none => overflowAppend s ctag qt q b r

/-- FABRIC_ENQUEUE (R203): `handle` is the queue handle, `bytes` the record; the answer is a packet. DESIGN CHOICE (log 68): a handle with a bit of [63:41] set, and
one whose descriptor cannot be read through the context's tables, is answered QUEUE_STALE. -/
def execFabricEnqueue (handle : BitVec 64) (bytes : List (BitVec 8)) (s : State) : Out :=
  let q := bitsAt handle.toNat 0 16
  let qt := handle.getLsbD 16
  let ctag := bitsAt handle.toNat 29 12
  let r := sliceBytes bytes 0 64
  let reply := fun (s : State) (stale full : Bool) => { s with packets := s.packets ++ [.queueReply stale full] }
  .next (match lookup s.contexts ctag, readDesc s ctag qt q with
    | some _, some b =>
      if bitsAt handle.toNat 41 23 ≠ 0 || fieldOf b 10 2 ≠ bitsAt handle.toNat 17 12 || !descEn b then reply s true false
      else match placeRecord s ctag qt q b r with
        | some t => reply t false false
        | none => reply s false true
    | some _, none => reply (killIfLost s ctag (bitsAt handle.toNat 41 23 == 0 && descLost s ctag qt q)) true false
    | none, _ => reply s true false)

/-- Whether an overflow record can move into its ring (R203). -/
def canOverflow (s : State) (ctag : Nat) (qt : Bool) (q : Nat) : Option (List Byte) :=
  (readDesc s ctag qt q).filter fun b => decide (descOvflc b > 0) && ringRoom b && isResident s ctag

/-- OVERFLOW_MOVE (R203): the oldest overflow record goes to the ring, and the others close up (log 9): all of it, or none where a place cannot be written. -/
def execOverflowMove (ctag : Nat) (qt : Bool) (q : Nat) (s : State) : Out :=
  .next (match canOverflow s ctag qt q with
    | none => s
    | some b =>
      match ctxRead s ctag (descOvfl b) (64 * descOvflc b) with
      | none => killIfLost s ctag (meetsLoss s ctag (descOvfl b) (64 * descOvflc b))
      | some l => (((ringAppend s ctag qt q b (l.take 64)).bind fun t => ctxWrite t ctag (descOvfl b) (l.drop 64) false).bind fun t =>
          ctxWrite t ctag (descAddr (ctxOf t ctag) qt q + 50) (bytesOf 2 (descOvflc b - 1)) false).getD s)

/-- A fired entry leaves the list of those that wait. -/
def dropFired (s : State) (ctag : Nat) (f : Nat × Nat × Nat) : State :=
  let c := ctxOf s ctag
  setCtx s ctag { c with fired := c.fired.erase f, firedWait := c.firedWait.filter fun e => e.1 != f.2.2 }

/-- A fired entry whose record cannot be read is refused as R194 states, and is FREE again (R210). -/
def refuseFired (s : State) (ctag : Nat) (f : Nat × Nat × Nat) : State := freeEntry (skipLaunch (dropFired s ctag f) ctag) ctag (some f.2.2)

/-- FIRED_ENTRY_TAKE (R205, R210): the oldest fired entry that waits for a die is taken once its launch table has room; its record is read as that of a
queue (R194). -/
def execFiredEntryTake (die : Nat) (s : State) : Out :=
  .next (match firedWaits s die with
    | none => s
    | some (ctag, f) =>
      if !(isOnline s die && tableRoom s die) then s
      else if (ctxOf s ctag).firedWait.any fun e => e.1 == f.2.2 then refuseFired s ctag f
      else
        let va := BitVec.ofNat 64 (depAddr s ctag f.2.2)
        match readRecord s ctag die va with
        | .error e =>
          unreadRecord s ctag die (.entry f.2.2) va (fun s => refuseFired s ctag f) (fun s tok =>
            let c := ctxOf s ctag
            setCtx s ctag { c with firedWait := c.firedWait ++ [(f.2.2, some tok)] }) e
        | .ok b => takeLaunch (dropFired s ctag f) ctag die b none f.2.2 (some f.2.2) false)

end Sys2Proof.Machine
end

