-- ==== Sys2Proof/Machine/Binding.lean ====
section
/-! DEFINITION. Sys2Proof/Machine/Binding.lean: which groups a Reeve binds, where, and in what order (R201, R202, R206-R208), bind records and the start
of waves (R41, R166, R168, R204, R205, R172). -/
namespace Sys2Proof.Machine

/-- What can be bound: a launch's next group or gang, or a released sheaf; `id` gives its age. -/
structure Item where
  id : Nat
  ctag : Nat
  region : DWord
  waves : Nat
  granules : Nat
  shape : Option Nat
  launch : Nat
  daff : Byte
  sheafDie : Option Nat
  deriving DecidableEq, Repr

/-- The item of a launch. -/
def launchItem (k : Nat) (l : Launch) : Item :=
  { id := k, ctag := l.ctag, region := l.region, waves := l.waves, granules := ceilDiv l.plotb 8192,
    shape := if l.yoke then some l.shape.toNat else none, launch := k, daff := l.daff, sheafDie := none }

/-- Whether a launch has groups that are not bound yet. -/
def unbound (l : Launch) : Bool := !l.killed && decide (l.next < l.total)

/-- What a group holds on a core (R206): group slot, wave slots and granules. -/
structure Holding where
  gslot : Nat
  wmask : BitVec 16
  pbase : Nat
  pngran : Nat
  deriving DecidableEq, Repr

/-- What is held on a core, by the groups there and, once an exchange has started, those on their way to it (R399). -/
def holdings (s : State) (core : Nat) : List Holding :=
  s.groups.flatMap fun e =>
    (if e.2.core = core then [⟨e.2.gslot, e.2.wmask, e.2.pbase, e.2.pngran⟩] else [])
    ++ (match e.2.moving with
        | some m => if m.fixed && m.core == core then [⟨m.gslot, m.wmask, m.pbase, e.2.pngran⟩] else []
        | none => [])

/-- The lowest free wave slots, `n` of them (log 9). -/
def freeWaves (l : List Holding) (n : Nat) : Option (BitVec 16) :=
  let used := l.foldl (fun m h => m ||| h.wmask) 0#16
  let free := (bitsOf (~~~used)).take n
  if free.length = n then some (free.foldl (fun m i => m ||| (1#16 <<< i)) 0#16) else none

/-- The lowest run of `n` free granules of a core (log 9). -/
def freeRun (l : List Holding) (n : Nat) : Option Nat :=
  if n = 0 then some 0
  else (0 :: l.map fun h => h.pbase + h.pngran).foldl (fun best b =>
    let ok := decide (b + n ≤ Config.plotGranules) && l.all fun h => h.pngran == 0 || decide (b + n ≤ h.pbase) || decide (h.pbase + h.pngran ≤ b)
    if !ok then best else match best with
      | none => some b
      | some x => some (min x b)) none

/-- The place of a group on a core that holds `l`: group slot, wave slots, first granule. -/
def fitOn (l : List Holding) (waves granules : Nat) : Option (Nat × BitVec 16 × Nat) :=
  match (List.range 4).find? fun i => l.all fun h => h.gslot != i, freeWaves l waves, freeRun l granules with
  | some g, some m, some b => some (g, m, b)
  | _, _, _ => none

/-- A region of a context as one number: the ring order of PICK (log 9). -/
def regionKey (ctag : Nat) (region : DWord) : Nat := ctag * 2 ^ 64 + region.toNat

/-- Cores that hold groups of a context whose region satisfies `p`. -/
def coresHolding (s : State) (ctag : Nat) (p : DWord → Bool) : List Nat :=
  ((s.groups.filter fun e => e.2.ctag == ctag && e.2.gslot != 4 && p e.2.region).map fun e => e.2.core).dedup

/-- Whether adding cores raises a count of distinct cores above a limit (R206). -/
def withinCores (held new : List Nat) (limit : Nat) : Bool :=
  let more := new.filter fun c => !held.contains c
  more.isEmpty || decide ((held ++ more).dedup.length ≤ limit)

/-- The MAXCORES rules of R206 for a region and each of its ancestors: the cores held, and the limit. -/
def coreLimits (s : State) (ctag : Nat) (region : DWord) : List (List Nat × Nat) :=
  let chain := regionChain s ctag region
  ((List.range chain.length).zip chain).map fun e =>
    let held := if e.1 = 0 then coresHolding s ctag (fun r => r == region)
      else coresHolding s ctag fun r => (regionChain s ctag r).any fun x => x.1 == e.2.1
    (held, effOf ((chain.drop e.1).map (·.2)) 0)

/-- Whether cores can be added under every one of these rules. -/
def coresAllowed (limits : List (List Nat × Nat)) (new : List Nat) : Bool := limits.all fun e => withinCores e.1 new e.2

/-- Whether a core is kept for no other gang (R208). -/
def reservedFor (s : State) (it : Item) (core : Nat) : Bool :=
  [0, 1].all fun d => (dieOf s d).reserve.all fun r => r.1 == it.id || !r.2.contains core || !((lookup s.launches r.1).any unbound)

/-- Whether a gang has a reservation on a die (R208). -/
def hasReserve (s : State) (die id : Nat) : Bool := (dieOf s die).reserve.any fun r => r.1 == id

/-- Whether a core is present (R189, R190). -/
def corePresent (s : State) (core : Nat) : Bool := decide (core < 72) && (hmapOf s (core / 36)).getLsbD (core % 36)

/-- Whether a die can bind an item (R201, R171). -/
def itemDie (s : State) (it : Item) (die : Nat) : Bool :=
  match it.sheafDie with
  | some d => d == die && isOnline s die
  | none => dieEligible s it.daff die

/-- Whether a core has room for one group of an item. -/
def coreFits (s : State) (it : Item) (core : Nat) : Bool :=
  corePresent s core && itemDie s it (core / 36) && reservedFor s it core && (fitOn (holdings s core) it.waves it.granules).isSome

/-- Present cores of a die in logical order (R190), as core numbers. -/
def logicalCores (s : State) (die : Nat) : List Nat := (presentCores s die).map fun c => 36 * die + c

/-- The cores of a yoke's placement with a given headland (R335), when it exists. -/
def gangCores (shape head : Nat) : Option (List Nat) :=
  (List.range (shapeCores shape)).foldl (fun acc i =>
    match acc, placeCore shape head i with
    | some l, some c => some (l ++ [c])
    | _, _ => none) (some [])

/-- The placement of an item on a die (R207, R208): for a single group the core with the fewest groups of its launch, ties to the lowest logical
core; for a gang the legal placement with the lowest headland. -/
def placement (s : State) (it : Item) (die : Nat) : Option (List Nat) :=
  let limits := coreLimits s it.ctag it.region
  match it.shape with
  | none =>
    let ok := (logicalCores s die).filter fun c => coreFits s it c && coresAllowed limits [c]
    let load := fun (c : Nat) => (s.groups.filter fun e => it.launch != 0 && e.2.launch == it.launch && e.2.core == c && e.2.gslot != 4).length
    (ok.foldl (fun b c => match b with
      | none => some c
      | some x => if load c < load x then some c else some x) none).map fun c => [c]
  | some shape =>
    (logicalCores s die).findSome? fun h => (gangCores shape h).filter fun cs => (cs.all fun c => coreFits s it c) && coresAllowed limits cs

/-- Whether every group of a launch has ended. -/
def groupsEnded (l : Launch) : Bool := decide (l.ended ≥ l.next) && (l.killed || decide (l.next ≥ l.total))

/-- Whether a launch of a queue has to wait for the one of the record before it (R202). DESIGN CHOICE (log 73): a refused record counts as the previous launch,
of which no group is left to wait for. -/
def serialWaits (l : List (Nat × Launch)) (x : Launch) : Bool :=
  x.serial && l.any fun e => (e.2.index + 1) % 2 ^ 32 == x.index && !groupsEnded e.2

/-- The launches of a queue that may bind now (R202), oldest first: those before which no earlier one that is unbound can itself bind, and with SERIAL
once the launch before has ended. -/
def queueOrder (s : State) (l : List (Nat × Launch)) : List Nat :=
  (l.foldl (fun (acc : List Nat × Bool) e =>
    let ok := unbound e.2 && !acc.2 && !serialWaits l e.2
    let can := ok && [0, 1].any fun d => (placement s (launchItem e.1 e.2) d).isSome
    (if ok then acc.1 ++ [e.1] else acc.1, acc.2 || can)) (([] : List Nat), false)).1

/-- Insert an item by its age. -/
def insertItem (it : Item) (l : List Item) : List Item :=
  match l with
  | [] => [it]
  | x :: rest => if it.id < x.id then it :: x :: rest else x :: insertItem it rest

/-- Everything that may bind under R202, oldest first: launches of resident contexts, and released sheaves. -/
def bindItems (s : State) : List Item :=
  let ls := s.launches.filter fun e => isResident s e.2.ctag
  let free := ls.filter fun e => match e.2.queue with
    | none => unbound e.2
    | some q => (queueOrder s (ls.filter fun x => x.2.ctag == e.2.ctag && x.2.queue == some q)).contains e.1
  let sheaves := [0, 1].flatMap fun d => ((dieOf s d).ready.filter fun r => isResident s r.2.1).map fun r =>
    ({ id := r.1, ctag := r.2.1, region := r.2.2.region, waves := 1, granules := 0, shape := none, launch := 0, daff := 0, sheafDie := some d } : Item)
  (free.map (fun e => launchItem e.1 e.2) ++ sheaves).foldl (fun l it => insertItem it l) []

/-- One turn of PICK's ring (R207): the region chosen, and the deficits. -/
def ringPick (fuel : Nat) (ring todo : List (Nat × Nat)) (deficit : AMap Nat) : Option Nat × AMap Nat :=
  match fuel with
  | 0 => (none, deficit)
  | n + 1 =>
    match todo with
    | [] => if ring.isEmpty then (none, deficit) else ringPick n ring ring deficit
    | (r, share) :: rest =>
      let d := (lookup deficit r).getD 0 + share
      if d ≥ 256 then (some r, put deficit r (d - 256)) else ringPick n ring rest (put deficit r d)

/-- Insert a region into a ring by its number. -/
def insertRegion (r : Nat × Nat) (l : List (Nat × Nat)) : List (Nat × Nat) :=
  match l with
  | [] => [r]
  | x :: rest => if r.1 < x.1 then r :: x :: rest else if r.1 = x.1 then x :: rest else x :: insertRegion r rest

/-- PICK at one level (R207): the deficits and LAST afterwards, and the item. -/
def pickLevel (s : State) (die : Nat) (items : List Item) (p : Nat) : Option (Item × Die) :=
  let d := dieOf s die
  let at' := items.filter fun it => effNow s it.ctag it.region 3 == p
  let ring := at'.foldl (fun l it => insertRegion (regionKey it.ctag it.region, effNow s it.ctag it.region 2) l) []
  let last := lookup d.pickLast p
  let start := match last with
    | none => ring
    | some x => ring.filter fun r => decide (r.1 > x)
  match ringPick (300 * (ring.length + 1)) ring start d.pickDef with
  | (none, _) => none
  | (some r, deficit) =>
    (at'.find? fun it => regionKey it.ctag it.region == r).map fun it => (it, { d with pickLast := put d.pickLast p r, pickDef := deficit })

/-- PICK (R207): the highest level with something bindable on the die. -/
def pick (s : State) (die : Nat) : Option (Item × Die) :=
  let items := (bindItems s).filter fun it => (placement s it die).isSome
  [7, 6, 5, 4, 3, 2, 1, 0].findSome? fun p => pickLevel s die items p

/-- A bind record written for one group of an item (R204, R205): the entry is STAGED. The first group of a launch on a core drops the context's
instruction-cache lines there (R112). -/
def bindOne (s : State) (it : Item) (core : Nat) (grpid ypos gang : Nat) (launchId : Word) (sheaf : Option SheafInfo) : State :=
  match fitOn (holdings s core) it.waves it.granules with
  | none => s
  | some (gslot, wmask, pbase) =>
    let l := lookup s.launches it.launch
    let s := match l with
      | none => s
      | some x => if x.seen.contains core then s else dropCode { s with launches := put s.launches it.launch { x with seen := core :: x.seen } } core it.ctag
    let lslot := (l.map (·.tslot)).getD 0
    { s with
      uid := s.uid + 1
      groups := put s.groups s.uid {
        ctag := it.ctag, launch := it.launch, state := .staged, core, gslot, nwave := it.waves, wmask, pbase, pngran := it.granules,
        grpid, launchId, lslot, prio := effNow s it.ctag it.region 3, share := effNow s it.ctag it.region 2, ypos, gang, region := it.region,
        sheaf } }

/-- A free gang tag (R166, R205, Table 7.6), from `n` on: not 0, and no gang's that is on the device (log 9). -/
def gangTag (s : State) (n : Nat) : Nat :=
  let used := s.groups.map fun e => e.2.gang
  (((List.range (used.length + 1)).map fun k => (n + k) % 65535 + 1).find? fun t => !used.contains t).getD 0

/-- Bind the next group, gang or sheaf of an item on its placement (R166, R206-R208). DESIGN CHOICE (log 74): a released sheaf, which R172 makes a group of no
launch, has GRPID 0. -/
def bindItem (s : State) (it : Item) (cores : List Nat) : State :=
  let s := noteBlocks s it.ctag (regionChain s it.ctag it.region)
  match it.sheafDie with
  | some d =>
    let info := ((dieOf s d).ready.find? fun r => r.1 == it.id).map fun r => r.2.2
    let s := setDie s d { dieOf s d with ready := (dieOf s d).ready.filter fun r => r.1 != it.id }
    bindOne s it (cores.headD 0) 0 0 0 0xFFFFFFFF#32 info
  | none =>
    match lookup s.launches it.id with
    | none => s
    | some l =>
      let gang := if l.yoke then gangTag s (l.next / cores.length) else 0
      let s := ((List.range cores.length).zip cores).foldl (fun s e =>
        bindOne s it e.2 (l.next + e.1) (if l.yoke then e.1 else 0) gang l.launchId none) s
      let seen := ((lookup s.launches it.id).map (·.seen)).getD []
      let s := { s with launches := put s.launches it.id { l with next := l.next + cores.length, headSince := none, seen } }
      [0, 1].foldl (fun s d => setDie s d { dieOf s d with reserve := (dieOf s d).reserve.filter fun r => r.1 != it.id }) s

/-- GROUP_BIND (R206-R208). -/
def execGroupBind (die : Nat) (s : State) : Out :=
  .next (match pick s die with
    | none => s
    | some (it, d) =>
      match placement s it die with
      | none => s
      | some cores => bindItem (setDie s die d) it cores)

/-- Private slots in use by a context's waves (R41). -/
def usedSlots (s : State) (ctag : Nat) : List Nat :=
  (s.waves.filter fun e => e.2.ctag == ctag && e.2.status != .retired).map fun e => e.2.pslot

/-- The lowest free private slot of a context (R41, log 9). -/
def freePslot (s : State) (ctag : Nat) : Nat :=
  let used := usedSlots s ctag
  ((List.range (used.length + 1)).find? fun i => !used.contains i).getD 0

/-- One wave of a group starts with the state of Table 6.4. -/
def startWave (s : State) (g : Nat) (gr : Group) (waveId wslot : Nat) : State :=
  let l := lookup s.launches gr.launch
  let entry := match gr.sheaf with
    | some sh => sh.entry
    | none => (l.map (·.entry)).getD 0#64
  let argp := match gr.sheaf with
    | some _ => 0#64
    | none => (l.map (·.argp)).getD 0#64
  let live := match gr.sheaf with
    | some sh => maskOf fun i => decide (i < sh.tasks.length)
    | none => 0xFFFFFFFF#32
  let w : Wave := { ctag := gr.ctag, group := g, wslot, waveId, pc := entry &&& ~~~3#64, live, sheaf := gr.sheaf, pslot := freePslot s gr.ctag }
  { s with uid := s.uid + 1, waves := put s.waves s.uid (w.setS 1 argp) }

/-- A group becomes RESIDENT and its waves start (R205, R168), with the acquire of Table 5.4. -/
def makeResident (s : State) (g : Nat) : State :=
  let gr := groupOf s g
  let s := dropShared (setGroup s g { gr with state := .resident }) gr.core
  ((List.range gr.nwave).zip (bitsOf gr.wmask)).foldl (fun s e => startWave s g gr e.1 e.2) s

/-- The groups that become RESIDENT in one step with a group: its whole gang, the entries that share its GANG, once every one of it is STAGED (R166, R205). -/
def residentSet (s : State) (g : Nat) : List Nat :=
  let gr := groupOf s g
  if gr.state != .staged then []
  else if gr.gang = 0 then [g]
  else
    let l := s.groups.filter fun e => e.2.gang == gr.gang && e.2.state == .staged
    let n := match lookup s.launches gr.launch with
      | none => l.length
      | some x => shapeCores x.shape.toNat
    if l.length = n then l.map (·.1) else []

/-- GROUP_RESIDENT (R205). -/
def execGroupResident (g : Nat) (s : State) : Out :=
  .next (match lookup s.groups g with
    | none => s
    | some _ => (residentSet s g).foldl makeResident s)

/-- All sublists of a list. -/
def sublistsOf {α : Type} (l : List α) : List (List α) :=
  match l with
  | [] => [[]]
  | x :: t => let r := sublistsOf t; r ++ r.map fun y => x :: y

/-- How many groups of a core must end before a group fits there (R208). -/
def mustEnd (l : List Holding) (waves granules : Nat) : Nat :=
  let keeps := (sublistsOf l).filter fun k => (fitOn k waves granules).isSome
  l.length - maxOf 0 (keeps.map (·.length))

/-- The placement that a waiting gang reserves (R208): of those that no other gang has reserved a core of, the one with the fewest groups to end, ties to
the lowest headland. -/
def reservePlace (s : State) (it : Item) (die shape : Nat) : Option (List Nat) :=
  let cand := (logicalCores s die).filterMap fun h =>
    (gangCores shape h).filter fun cs => cs.all fun c => corePresent s c && itemDie s it (c / 36) && reservedFor s it c
  let cost := fun (cs : List Nat) => (cs.map fun c => mustEnd (holdings s c) it.waves it.granules).sum
  cand.foldl (fun b cs => match b with
    | none => some cs
    | some x => if cost cs < cost x then some cs else some x) none

/-- The gangs at the heads of the levels of a die that cannot bind and have no reservation there, the highest level first (R208).
DESIGN CHOICE (log 74): the head of a level, in which regions take turns by weight (R207), is its oldest item, and the wait is
counted per launch. -/
def headGangs (s : State) (die : Nat) : List Item :=
  let items := (bindItems s).filter fun it => itemDie s it die
  [7, 6, 5, 4, 3, 2, 1, 0].filterMap fun p =>
    ((items.find? fun it => effNow s it.ctag it.region 3 == p).filter fun it => it.shape.isSome && (placement s it die).isNone
      && !hasReserve s die it.id)

/-- What a waiting gang at the head of its level has to note: since when it waits, or, once that has lasted GANGWAIT, the placement that it reserves (R208). -/
inductive GangNote where
  | wait (launch : Nat) (l : Launch)
  | reserve (launch : Nat) (cores : List Nat)
  deriving DecidableEq, Repr

/-- What one waiting gang has to note on a die. -/
def gangNote (s : State) (die : Nat) (it : Item) : Option GangNote :=
  match lookup s.launches it.id with
  | none => none
  | some l =>
    let ready := match l.headSince with
      | none => gangWait s == 0
      | some t => decide (t + gangWait s * 1000 ≤ s.tsc.toNat)
    if ready then (reservePlace s it die (it.shape.getD 0)).map (GangNote.reserve it.id)
    else if l.headSince.isNone then some (.wait it.id l)
    else none

/-- The first of a die's head gangs that has something to note, the highest level first. -/
def gangNext (s : State) (die : Nat) : Option GangNote := (headGangs s die).findSome? (gangNote s die)

/-- GANG_WAIT_TIMEOUT (R208): the wait of a gang at the head of its level begins, or it has lasted GANGWAIT µs and a placement is reserved. -/
def execGangWaitTimeout (die : Nat) (s : State) : Out :=
  .next (match gangNext s die with
    | none => s
    | some (.wait k l) => { s with launches := put s.launches k { l with headSince := some s.tsc.toNat } }
    | some (.reserve k cs) => setDie s die { dieOf s die with reserve := (dieOf s die).reserve ++ [(k, cs)] })

end Sys2Proof.Machine
end

