-- ==== Sys2Proof/Machine/Matrix.lean ====
section
/-! DEFINITION. Sys2Proof/Machine/Matrix.lean: yokes and the matrix array (R335-R345): leases, loads, runs, the garner, its output, and the surrender
instructions, with the steps that the array takes of its own. -/
namespace Sys2Proof.Machine

/-- YOKE_LOST with a reason of Table 12.7. -/
def yokeLost (reason : Nat) : Stop := .trap ⟨12, reason, 0, 0#32⟩

/-- The launch of a wave's group. -/
def launchOf (s : State) (w : Wave) : Option Launch := lookup s.launches (groupOf s w.group).launch

/-- What YACQ finds (R338): a formed lease already, a yoke that must first reach NONE, or a formation to join. -/
inductive AcqCase where
  | holds
  | join (y : Option (Nat × Yoke))
  deriving DecidableEq, Repr

/-- The checks of YACQ (R335, R337, R338). -/
def checkYacq (s : State) (w : Wave) (shape : Nat) : Check AcqCase :=
  let ok := match launchOf s w with
    | none => false
    | some l => l.yoke && legalShape shape && shape % 8 == l.shape.toNat % 8 && shapeSeam shape == shapeSeam l.shape.toNat
  if !ok then .error (yokeLost 3)
  else match yokeOf s w.group with
    | none => .ok (.join none)
    | some (y, k) =>
      if holdsLease k w.group then .ok .holds
      else if k.state = .forming then .ok (.join (some (y, k)))
      else .error .wait

/-- A yoke in its first YACQ (Table 12.6). -/
def newYoke (s : State) (w : Wave) (shape : Word) : Yoke :=
  let gr := groupOf s w.group
  { ctag := w.ctag, launch := gr.launch, gang := gr.gang, state := .forming, held := false, shape, ashape := BitVec.ofNat 4 (shapeBands shape.toNat),
    members := (gangGroups s gr.launch gr.gang).map fun g => { group := g, acq := none, lease := false, marked := false, released := false },
    qb := 1, b := [], runs := [], inj := 0, done := 0, outerr := false, garner := [] }

/-- Whether a group of a wave's gang has ended (R338): the yoke can then not form. -/
def gangShort (s : State) (w : Wave) (shape : Nat) : Bool :=
  let gr := groupOf s w.group
  let l := gangGroups s gr.launch gr.gang
  decide (l.length < shapeCores shape) || l.any fun g => (groupOf s g).state == .ending

/-- YACQ (R338): the wave parks until the yoke forms or the formation fails; it fails at once when a group of the gang has already ended. -/
def execYacq (nx : BitVec 2) (a : BitVec 6) (s : State) : Out :=
  checked s (fun _ w => checkYacq s w ((w.sreg a.toNat).toNat % 2 ^ 32)) fun u w c =>
    let shape := (w.sreg a.toNat).extractLsb' 0 32
    match c with
    | .holds => setWave s u ({ w with c := false }.finish nx)
    | .join e =>
      let (s, y, k) := match e with
        | some (y, k) => (s, y, k)
        | none => ({ s with uid := s.uid + 1 }, s.uid, newYoke s w shape)
      if gangShort s w shape.toNat && e.isNone then setWave s u ({ w with c := false }.finish nx)
      else if k.shape != shape || gangShort s w shape.toNat then failFormation (setWave s u ({ w with c := false }.finish nx)) y
      else
        let k := { k with members := k.members.map fun m => if m.group = w.group then { m with acq := some shape } else m }
        parkWave (setYoke s y k) u (.yacq nx shape)

/-- YREL (R338). -/
def execYrel (nx : BitVec 2) (s : State) : Out :=
  onWave s fun u w =>
    let (s, waits) := releaseLease s w.group
    if waits then parkWave s u (.yrel nx) else setWave s u ((waveOf s u).finish nx)

/-- State codes of YSTAT (R338). -/
def yStateCode (y : YState) : Nat :=
  match y with
  | .forming => 1
  | .idle => 2
  | .running => 3
  | .halted => 4
  | .releasing => 5
  | .lost => 6

/-- The run that is being injected, or else the last (R338). -/
def currentRun (k : Yoke) : Option Run :=
  match k.runs.find? fun r => decide (r.inj < r.mr) with
  | some r => some r
  | none => k.runs.getLast?
/-- Whether the last run has already left (R344: one halted before its first row leaves before those in flight). -/
def lastLeft (k : Yoke) : Bool := k.runs.all fun r => decide (r.inj = r.mr) && decide (r.id < k.last)
/-- INJ of the current or last run. -/
def injOf (k : Yoke) : Nat := if lastLeft k then k.inj else ((currentRun k).map (·.inj)).getD k.inj
/-- DONE of the current or last run. -/
def doneOf (k : Yoke) : Nat := if lastLeft k then k.done else ((currentRun k).map (·.done)).getD k.done

/-- The word of YSTAT (R338); without a yoke the shape is that of the launch. -/
def yStatWord (s : State) (w : Wave) : Nat :=
  let gr := groupOf s w.group
  let place := if gr.gang = 0 then 0 else gr.ypos % 8 * 2 ^ 4 + (if gr.ypos = 0 then 2 ^ 7 else 0)
  match yokeOf s w.group with
  | none => place + (match launchOf s w with
    | some l => if l.yoke && gr.gang != 0 then l.shape.toNat % 256 * 2 ^ 8 else 0
    | none => 0)
  | some (_, k) =>
    let shape := bitsAt k.shape.toNat 0 3 + k.ashape.toNat * 8 + bitsAt k.shape.toNat 7 1 * 128
    yStateCode k.state + (if k.held then 8 else 0) + place + shape * 2 ^ 8 + injOf k % 65536 * 2 ^ 16 + doneOf k % 65536 * 2 ^ 32
      + (if k.outerr then 2 ^ 48 else 0)

/-- YSTAT (R338): OUTERR is cleared by the read. -/
def execYstat (nx : BitVec 2) (d : BitVec 6) (s : State) : Out :=
  onWave s fun u w =>
    let s1 := setWave s u ((w.setS d.toNat (BitVec.ofNat 64 (yStatWord s w))).finish nx)
    match yokeOf s w.group with
    | none => s1
    | some (y, k) => setYoke s1 y { k with outerr := false }

/-- The tests of R337 for an array instruction: NO_LEASE, MEMBER_LOST, NOT_HEADLAND. -/
def arrayCheck (s : State) (w : Wave) : Check (Nat × Yoke) :=
  match yokeOf s w.group with
  | none => .error (yokeLost 1)
  | some (y, k) =>
    match memberOf k w.group with
    | none => .error (yokeLost 1)
    | some m =>
      if !m.lease || m.released || k.state = .forming || k.state = .releasing then .error (yokeLost 1)
      else if k.state = .lost then .error (yokeLost 4)
      else if !(k.members.head?).any (fun h => h.group == w.group) then .error (yokeLost 2)
      else .ok (y, k)

/-- An array instruction's own check after R337. -/
def arrayThen {α : Type} (s : State) (w : Wave) (f : Nat → Yoke → Check α) : Check α :=
  match arrayCheck s w with
  | .error e => .error e
  | .ok (y, k) => f y k

/-- The checks of MBANDS (R339). -/
def checkMbands (s : State) (w : Wave) (m : Nat) : Check (Nat × Yoke) :=
  arrayThen s w fun y k =>
    if k.state != .idle then .error (yokeLost 5) else if m = 0 then .error (yokeLost 3) else .ok (y, k)

/-- MBANDS (R339, R394): dropped bands go off at once, and the wave stalls until newly enabled ones are up. -/
def execMbands (nx : BitVec 2) (a : BitVec 6) (s : State) : Out :=
  checked s (fun _ w => checkMbands s w (bitsAt (w.sreg a.toNat).toNat 0 4)) fun u w e =>
    let m : BitVec 4 := (w.sreg a.toNat).extractLsb' 0 4
    let (y, k) := e
    let s := setYoke s y { k with ashape := m, b := [], qb := 1 }
    let s := powerBands s k (k.ashape &&& m)
    if m &&& ~~~k.ashape = 0#4 then setWave s u ((waveOf s u).finish nx) else setWave s u { waveOf s u with stall := some (.mbands nx) }

/-- The source of one position for MLOADB (R340): reference, format, packing. -/
def checkB (s : State) (g : Nat) (r : PlotRef) (qb : Nat) : Check (Nat × Plot) :=
  match checkSource s g r with
  | .error e => .error e
  | .ok (q, p) =>
    if (widthB p.fmt.toNat).isNone then .error (plotStop r.handle (7, 2))
    else if qb > qmaxB p.fmt.toNat then .error (yokeLost 7)
    else .ok (q, p)

/-- Every position's source, in position order; the first refusal is the answer (R340, R326). -/
def checkBs (s : State) (gs : List Nat) (r : PlotRef) (qb : Nat) : Check (List (Nat × Plot)) :=
  match gs with
  | [] => .ok []
  | g :: rest =>
    match checkB s g r qb with
    | .error e => .error e
    | .ok q =>
      match checkBs s rest r qb with
      | .error e => .error e
      | .ok l => .ok (q :: l)

/-- The checks of MLOADB (R337, R340). -/
def checkMloadb (s : State) (w : Wave) (r : PlotRef) (qb : Nat) : Check (Nat × Yoke × List (Nat × Plot)) :=
  arrayThen s w fun y k =>
    if k.state = .halted then .error (yokeLost 5)
    else match checkBs s (k.members.map (·.group)) r qb with
      | .error e => .error e
      | .ok l => .ok (y, k, l)

/-- MLOADB (R340): every position's B as it stands now, for the runs that follow. -/
def execMloadb (nx : BitVec 2) (d : BitVec 6) (q : BitVec 2) (r : BitVec 1) (s : State) : Out :=
  let qb := 2 ^ q.toNat
  checked s (fun _ w => checkMloadb s w (refOf w d) qb) fun u w e =>
    let (y, k, l) := e
    let ref := refOf w d
    let id := s.uid
    let s := setWave { s with uid := s.uid + 1 } u (w.finishAs nx 1#8 (ref.handle % 64))
    let s := l.foldl (fun s p => acceptRead s p.1 ref.handle (r == 1#1) (.loadb y id)) s
    setYoke s y { k with qb, b := l.map fun p => some ⟨p.2.fmt, ref.nrows, ref.ncols, windowImage p.2 ref⟩ }

/-- Where a core row of a yoke reads A: the group at its left column (R341). -/
def rowGroups (k : Yoke) : List Nat :=
  let cols := shapeCols k.shape.toNat
  (List.range (shapeRows k.shape.toNat)).filterMap fun cr => (k.members[cr * cols]?).map (·.group)

/-- Every core row's A plot, in row order. -/
def checkAs (s : State) (gs : List Nat) (r : PlotRef) : Check (List (Nat × Plot)) :=
  match gs with
  | [] => .ok []
  | g :: rest =>
    match checkSource s g r with
    | .error e => .error e
    | .ok q =>
      match checkAs s rest r with
      | .error e => .error e
      | .ok l => .ok (q :: l)

/-- The width of the widest B among the positions of a core row (R341). -/
def rowWidth (k : Yoke) (cr : Nat) : Nat :=
  let cols := shapeCols k.shape.toNat
  maxOf 0 ((List.range cols).map fun c => match (k.b[cr * cols + c]?).getD none with
    | some l => (widthB l.fmt.toNat).getD 0
    | none => 0)

/-- Qlim of a run: the smallest of its core rows (R341). -/
def runQlim (k : Yoke) (prec : Nat) (l : List (Nat × Plot)) : Nat :=
  ((List.range l.length).zip l).foldl (fun q e => min q (qlim (peffOf prec e.2.2.fmt.toNat) (rowWidth k e.1))) 4

/-- The checks of MRUN, in the order of R341; a fifth pending run waits at issue. -/
def checkMrun (s : State) (w : Wave) (r : PlotRef) (g0 prec : Nat) : Check (Nat × Yoke × List (Nat × Plot)) :=
  arrayThen s w fun y k =>
    if k.state = .halted then .error (yokeLost 5)
    else match checkAs s (rowGroups k) r with
      | .error e => .error e
      | .ok l =>
        if l.any fun p => (planesA p.2.fmt.toNat).isNone then .error (plotStop r.handle (7, 2))
        else if k.qb > runQlim k prec l then .error (yokeLost 7)
        else if r.ncols > shapeRows k.shape.toNat * depthKC k.ashape.toNat k.qb then .error (yokeLost 6)
        else if g0 + r.nrows > 1024 then .error (.trap ⟨5, 3, g0, 0#32⟩)
        else if k.runs.length ≥ 4 then .error .wait
        else .ok (y, k, l)

/-- MRUN (R341). -/
def execMrun (nx : BitVec 2) (d a : BitVec 6) (r : BitVec 1) (s : State) : Out :=
  let g0 := fun (w : Wave) => bitsAt (w.sreg a.toNat).toNat 0 10
  let prec := fun (w : Wave) => clampP (bitsAt (w.sreg a.toNat).toNat 16 5)
  checked s (fun _ w => checkMrun s w (refOf w d) (g0 w) (prec w)) fun u w e =>
    let (y, k, l) := e
    let ref := refOf w d
    let id := s.uid
    let kc := depthKC k.ashape.toNat k.qb
    let s := setWave { s with uid := s.uid + 1 } u (w.finishAs nx 1#8 (ref.handle % 64))
    let s := l.foldl (fun s p => acceptRead s p.1 ref.handle (r == 1#1) (.run y id)) s
    let s := ((List.range l.length).zip l).foldl (fun s p => if ref.ncols ≤ p.1 * kc then endAccess s p.2.1 ref.handle (.run y id) else s) s
    let a : List ALoad := l.map fun p => ⟨p.2.fmt, windowImage p.2 ref, p.1, ref.handle⟩
    let run : Run := { id, wave := u, a, b := k.b, mr := ref.nrows, kw := ref.ncols, g0 := g0 w, prec := prec w, qb := k.qb, bands := k.ashape,
                       inj := 0, done := 0 }
    yokeSettle (setYoke s y { k with state := .running, runs := k.runs ++ [run] }) y

/-- The checks of the garner instructions (R342): the row range. DESIGN CHOICE (log 65): of a range that reaches past row 1,023, TINFO names the first row. -/
def checkRows (s : State) (w : Wave) (g0 n : Nat) : Check (Nat × Yoke) :=
  arrayThen s w fun y k =>
    if g0 + n > 1024 then .error (.trap ⟨5, 3, g0, 0#32⟩) else .ok (y, k)

/-- MZERO (R342, R86): at once on rows that nothing issued before it owes, else in its order (R87). -/
def execMzero (nx : BitVec 2) (a : BitVec 6) (s : State) : Out :=
  let g0 := fun (w : Wave) => bitsAt (w.sreg a.toNat).toNat 0 10
  let n := fun (w : Wave) => bitsAt (w.sreg a.toNat).toNat 16 16
  checked s (fun _ w => checkRows s w (g0 w) (n w)) fun u w e =>
    let s := setWave s u (w.finish nx)
    if rowPending s e.2 (g0 w) (n w) then
      garnerQueue { s with uid := s.uid + 1 } e.1 e.2 s.uid ((List.range (n w)).map fun i => .zero (g0 w + i))
    else setYoke s e.1 { e.2 with garner := e.2.garner.filter fun r => !(decide (g0 w ≤ r.1) && decide (r.1 < g0 w + n w)) }

/-- MREADG (R342): its result waits through the scoreboard, for its row if that is owed (R87). -/
def execMreadg (nx : BitVec 2) (d a : BitVec 6) (s : State) : Out :=
  let row := fun (w : Wave) => bitsAt (w.sreg a.toNat).toNat 0 10
  checked s (fun _ w => checkRows s w (row w) 1) fun u w e =>
    let col := bitsAt (w.sreg a.toNat).toNat 16 16
    if rowPending s e.2 (row w) 1 then
      garnerQueue (setWave { s with uid := s.uid + 1 } u ({ w with pending := w.pending ++ [Pending.mk s.uid (vN d) [] false] }.finish nx)) e.1 e.2 s.uid
        [.read (row w) col u s.uid d.toNat w.active]
    else
      setWave { s with uid := s.uid + 1 } u ((w.addResult s.uid (vN d) [.v d.toNat w.active (readRow (garnerRow e.2 (row w)) col)]).finish nx)

/-- MACCG (R342), in its order (R87). -/
def execMaccg (nx : BitVec 2) (d a : BitVec 6) (s : State) : Out :=
  let row := fun (w : Wave) => bitsAt (w.sreg a.toNat).toNat 0 10
  checked s (fun _ w => checkRows s w (row w) 1) fun u w e =>
    let col := bitsAt (w.sreg a.toNat).toNat 16 16
    let s := setWave s u (w.finish nx)
    if rowPending s e.2 (row w) 1 then
      garnerQueue { s with uid := s.uid + 1 } e.1 e.2 s.uid [.acc (row w) col w.active (w.vreg d.toNat)]
    else setYoke s e.1 { e.2 with garner := put e.2.garner (row w) (accRow (garnerRow e.2 (row w)) col w.active (w.vreg d.toNat)) }

/-- The checks of MCADR (R343). -/
def checkMcadr (s : State) (w : Wave) (base pitch g0 n : Nat) (bar : Bool) : Check (Nat × Yoke × Option Place) :=
  arrayThen s w fun y k =>
    if base % 64 != 0 then .error (misalign base)
    else if pitch % 64 != 0 then .error (misalign pitch)
    else if g0 + n > 1024 then .error (.trap ⟨5, 3, g0, 0#32⟩)
    else match checkCbar s w bar with
      | .error e => .error e
      | .ok b => .ok (y, k, b)

/-- MCADR (R343): a transfer of the matrix output path, which takes each row after what was issued before it (R87): at once when nothing owes any. -/
def execMcadr (nx : BitVec 2) (d a b : BitVec 6) (c : BitVec 1) (t : BitVec 2) (s : State) : Out :=
  let g0 := fun (w : Wave) => bitsAt (w.sreg d.toNat).toNat 0 10
  let n := fun (w : Wave) => bitsAt (w.sreg d.toNat).toNat 16 16
  checked s (fun _ w => checkMcadr s w (w.sreg a.toNat).toNat (w.sreg b.toNat).toNat (g0 w) (n w) (c == 1#1)) fun u w e =>
    let (y, k, bar) := e
    let late := rowPending s k (g0 w) (n w)
    let rowBytes := 256 * shapeCols k.shape.toNat * (if t = 0#2 then 4 else 2)
    let x : Transfer :=
      { op := .mcadr y (g0 w) (n w) t, engine := 16 + dieNo (coreNo s w), ctag := w.ctag, wave := u, group := w.group,
        launch := (groupOf s w.group).launch, sub := c ++ 0#1 ++ t, lanes := 0#32, base := w.sreg a.toNat, ref0 := w.sreg d.toNat, ref1 := 0#64,
        opnd := w.sreg b.toNat, rowoff := [], cmd := [], bara := if c = 1#1 then w.cbar else 0#64, plots := [],
        fmt := 0#4, rows := n w, rowBytes,
        image := if late then zeroBytes (n w * rowBytes) else (List.range (n w)).flatMap fun i => (garnerRow k (g0 w + i)).flatMap (outElem t.toNat),
        done := 0, parked := none, pause := false, region := waveRegion s w, peer := [], taken := if late then [] else List.range (n w) }
    let s := setWave s u (w.finishAs nx 5#8 (g0 w + n w * 2 ^ 10))
    let id := s.uid
    let s := startTransfer (registerBar s (coreNo s w) bar) x (n w != 0)
    if late then garnerQueue s y k id ((List.range (n w)).map fun i => .out (g0 w + i) id i) else s

/-- The pending runs after the one being injected are abandoned, and it ends with what it has injected (R344). -/
def haltRuns (s : State) (y : Nat) (k : Yoke) : State :=
  match k.runs.find? fun r => decide (r.inj < r.mr) with
  | none => setYoke s y { k with state := .halted }
  | some c =>
    let before := k.runs.takeWhile fun r => r.id != c.id
    let after := (k.runs.dropWhile fun r => r.id != c.id).drop 1
    let s := setYoke s y { k with state := .halted, runs := before ++ [{ c with mr := c.inj }] }
    yokeSettle (after.foldl (fun s r => endRun s y r) s) y

/-- MHALT (R344). -/
def execMhalt (nx : BitVec 2) (d : BitVec 6) (s : State) : Out :=
  checked s (fun _ w => arrayCheck s w) fun u w e =>
    let s := setWave s u ((w.setS d.toNat (BitVec.ofNat 64 (injOf e.2))).finish nx)
    if e.2.state = .running then haltRuns s e.1 e.2 else s

/-- MDRAIN (R344): HELD is cleared, and the wave stalls until no row is in flight. -/
def execMdrain (nx : BitVec 2) (s : State) : Out :=
  checked s (fun _ w => arrayCheck s w) fun u w e =>
    let s := setYoke s e.1 { e.2 with held := false }
    yokeSettle (setWave s u { w with stall := some (.mdrain nx) }) e.1

/-- The 64-byte blocks of a garner image at an address (R344), as accesses of the wave. -/
def garnerBlocks (k : Yoke) (va : DWord) : List LaneAcc :=
  (List.range (16384 * shapeCols k.shape.toNat)).map fun i => ⟨0, (va + BitVec.ofNat 64 (64 * i)).toNat, 64⟩

/-- The checks of MSAVE and MREST (R344): IDLE, which counts at issue alone, alignment, then every block by R49. -/
def checkGarner (s : State) (w : Wave) (va : DWord) (kind : AccKind) (issue : Bool) : Check (Nat × Yoke × Placed) :=
  arrayThen s w fun y k =>
    if issue && k.state != .idle then .error (yokeLost 5)
    else if va.toNat % 64 != 0 then .error (misalign va.toNat)
    else match checkLanes s w kind (garnerBlocks k va) with
      | .error e => .error e
      | .ok l => .ok (y, k, l)

/-- MSAVE (R344): the wave stalls until MSAVE_MREST_COMPLETE. -/
def execMsave (nx : BitVec 2) (a : BitVec 6) (s : State) : Out :=
  checked s (fun _ w => checkGarner s w (w.sreg a.toNat) 1 true) fun u w _ =>
    setWave { s with uid := s.uid + 1 } u { w with stall := some (.msave nx (w.sreg a.toNat) s.uid) }
/-- MREST (R344): the wave stalls until MSAVE_MREST_COMPLETE. -/
def execMrest (nx : BitVec 2) (a : BitVec 6) (s : State) : Out :=
  checked s (fun _ w => checkGarner s w (w.sreg a.toNat) 0 true) fun u w _ =>
    setWave { s with uid := s.uid + 1 } u { w with stall := some (.mrest nx (w.sreg a.toNat) s.uid) }

/-- Block `i` of a garner image (R344): column j's garner at 1 MiB × j, row g at 1,024 × g, column c at 4 × c. -/
def garnerBlock (k : Yoke) (i : Nat) : List Byte :=
  let j := i / 16384
  let g := i % 16384 / 16
  let c := i % 16 * 16
  (((garnerRow k g).drop (256 * j + c)).take 16).flatMap fun x => bytesOf 4 x.toNat

/-- A garner read back from an image (R344): every row valid, −0.0 read as +0.0. -/
def garnerFrom (k : Yoke) (blocks : List (List Byte)) : AMap (List Word) :=
  (List.range 1024).map fun g =>
    (g, (List.range (256 * shapeCols k.shape.toNat)).map fun n =>
      let x := BitVec.ofNat 32 (fieldOf (blocks.getD (16384 * (n / 256) + 16 * g + n % 256 / 16) []) (4 * (n % 16)) 4)
      if x = 0x80000000#32 then 0#32 else x)

/-- The end of MSAVE: the image is written. -/
def finishMsave (s : State) (u : Nat) (w : Wave) (nx : BitVec 2) (a : DWord) : State :=
  match checkGarner s w a 1 false with
  | .error e => stopWave (setWave s u { w with stall := none }) u e false
  | .ok (_, k, l) =>
    let data := ((List.range l.length).zip l).map fun e => (e.2, garnerBlock k e.1)
    withPeers s u w l (writeAsks (data.map fun e => ([e.1], e.2))) false fun s _ =>
      let s := data.foldl (fun t e => writeLane t (coreNo t w) u e.1.2 e.2) s
      setWave s u ({ waveOf s u with stall := none }.finish nx)

/-- The end of MREST: the image is read. -/
def finishMrest (s : State) (u : Nat) (w : Wave) (nx : BitVec 2) (a : DWord) : State :=
  match checkGarner s w a 0 false with
  | .error e => stopWave (setWave s u { w with stall := none }) u e false
  | .ok (y, k, l) =>
    withPeers s u w l (readAsks l false) false fun s ans =>
      let asks := readAsks l false
      let (s, got) := l.foldl (fun acc e =>
        let (t, b) := readPlaces acc.1 (coreNo s w) asks false ans e.2
        (t, acc.2 ++ [b])) (s, ([] : List (List Byte)))
      let s := setYoke s y { k with garner := garnerFrom k got }
      setWave s u ({ waveOf s u with stall := none }.finish nx)

/-- Whether nothing issued before a wave's MSAVE or MREST has still to act on a row (R87). -/
def imageReady (s : State) (w : Wave) : Bool :=
  match w.garnerImage, yokeOf s w.group with
  | some i, some (_, k) => !imageOwes s k i && k.ops.all (fun o => decide (i < o.1)) && k.runs.all fun r => decide (i < r.id)
  | _, _ => true

/-- What waited for an MSAVE or MREST of a group takes effect (R87). -/
def settleGroup (s : State) (g : Nat) : State :=
  match yokeOf s g with
  | none => s
  | some (y, _) => garnerSettle s y

/-- MSAVE_MREST_COMPLETE (R344), once it comes first on every row (R87). -/
def execMsaveMrestComplete (u : Nat) (s : State) : Out :=
  .next (match lookup s.waves u with
    | none => s
    | some w =>
      if !imageReady s w then s
      else match w.stall with
        | some (.msave nx a _) => settleGroup (finishMsave s u w nx a) w.group
        | some (.mrest nx a _) => settleGroup (finishMrest s u w nx a) w.group
        | _ => s)

/-- Whether a row can be injected now (R336, R341). -/
def canInject (k : Yoke) : Bool :=
  (k.state == .running || k.state == .releasing) && !k.held && k.runs.any fun r => decide (r.inj < r.mr)

/-- Whether a core at one of some positions of a yoke is stretched: rows wait at its edge (R395). -/
def positionStretched (s : State) (k : Yoke) (at' : Nat → Bool) : Bool :=
  ((List.range k.members.length).zip k.members).any fun e => at' e.1 && (coreOf s e.2.core).stretch

/-- Whether a core of the left column, where A rows enter, is stretched (R395). -/
def entryStretched (s : State) (k : Yoke) : Bool := positionStretched s k fun i => i % shapeCols k.shape.toNat == 0

/-- Whether a core of the bottom row, which holds the garner (R84), is stretched (R395). -/
def garnerStretched (s : State) (k : Yoke) : Bool := positionStretched s k fun i => i / shapeCols k.shape.toNat + 1 == shapeRows k.shape.toNat

/-- ROW_INJECTION (R341): the next row of the first run that is not wholly injected. -/
def execRowInjection (y : Nat) (s : State) : Out :=
  .next (match lookup s.yokes y with
    | none => s
    | some k =>
      match k.runs.find? fun r => decide (r.inj < r.mr) with
      | none => s
      | some c =>
        if !canInject k || entryStretched s k then s
        else
          let s := setYoke s y { k with runs := k.runs.map fun r => if r.id = c.id then { r with inj := r.inj + 1 } else r }
          match lookup s.waves c.wave with
          | none => s
          | some w => setWave s c.wave { w with ctr := { w.ctr with mrows := w.ctr.mrows + 1#64 } })

/-- Whether a core at any position of a yoke is stretched. -/
def yokeStretched (s : State) (k : Yoke) : Bool := positionStretched s k fun _ => true

/-- Whether a row in flight can reach the garner now: HELD stops the rows (R336), a stretched core those that have still to pass it (R395), and an MSAVE or MREST
issued before the run comes first (R87). -/
def canUpdate (s : State) (k : Yoke) : Bool :=
  k.state != .lost && !k.held && (k.runs.find? fun r => decide (r.done < r.inj)).any fun c =>
    !garnerStretched s k && (!yokeStretched s k || decide (c.done < c.past)) && !imageOwes s k c.id

/-- ROW_GARNER_UPDATE (R108): the oldest row in flight updates its garner row. -/
def execRowGarnerUpdate (y : Nat) (s : State) : Out :=
  .next (match lookup s.yokes y with
    | none => s
    | some k =>
      match k.runs.find? fun r => decide (r.done < r.inj) with
      | none => s
      | some c =>
        if !canUpdate s k then s
        else
          let row := c.g0 + c.done
          let new := updateRow c (shapeCols k.shape.toNat) c.done (garnerRow k row)
          let s := setYoke s y { k with
            garner := put k.garner row new
            runs := k.runs.map fun r => if r.id = c.id then { r with done := r.done + 1 } else r }
          yokeSettle s y)

/-- Whether every group of the gang has executed YACQ (R338). -/
def allAcquired (k : Yoke) : Bool :=
  k.state == .forming && k.members.length == shapeCores k.shape.toNat && k.members.all fun m => m.acq.isSome

/-- The yoke forms (Table 12.6): leases, an empty garner, b := +0, ASHAPE := BANDS, and every parked YACQ ends with C := 1. -/
def formYoke (s : State) (y : Nat) (k : Yoke) : State :=
  let k1 := { k with
    state := .idle, ashape := BitVec.ofNat 4 (shapeBands k.shape.toNat), qb := 1, b := [], garner := [], runs := [], inj := 0, done := 0,
    held := false, last := 0, ops := [],
    members := k.members.map fun m => { m with acq := none, lease := true, marked := false, released := false, core := (groupOf s m.group).core } }
  let s := powerBands (setYoke s y k1) k1 k1.ashape
  let s := k1.members.foldl (fun s m => setGroup s m.group { groupOf s m.group with hadLease := true }) s
  completeParks s (k1.members.map (·.group)) yacqPark (some true)

/-- BAND_UP (R394): the enabled bands are up, so a yoke whose groups have all executed YACQ becomes IDLE, or MBANDS completes. -/
def execBandUp (y : Nat) (s : State) : Out :=
  .next (match lookup s.yokes y with
    | none => s
    | some k =>
      if allAcquired k then formYoke s y k
      else
        let gs := k.members.map (·.group)
        let waits := fun (w : Wave) => gs.contains w.group && (match w.stall with
          | some (.mbands _) => true
          | _ => false)
        if s.waves.any fun e => waits e.2 then
          let s := powerBands s k k.ashape
          { s with waves := s.waves.map fun e =>
              if gs.contains e.2.group then
                match e.2.stall with
                | some (.mbands nx) => (e.1, { e.2 with stall := none }.finish nx)
                | _ => e
              else e }
        else s)

/-- Whether a lease can end (R338): RELEASING, with nothing pending and no row in flight, and the next position has executed YREL. -/
def canRelease (k : Yoke) : Bool := k.state == .releasing && k.runs.isEmpty && (nextLease k).isSome

/-- LEASE_END (R338): the next lease in order ends, its group's parked YREL completes, and the last one takes the yoke to NONE. -/
def execLeaseEnd (y : Nat) (s : State) : Out :=
  .next (match lookup s.yokes y with
    | none => s
    | some k =>
      if !canRelease k then s
      else
        let s := match nextLease k with
          | none => s
          | some g =>
            let members := k.members.map fun (m : Member) => if m.group = g then { m with lease := false, marked := false } else m
            let k1 : Yoke := { k with members }
            completeParks (setYoke s y k1) [g] yrelPark none
        let s := match lookup s.yokes y with
          | none => s
          | some k1 => if k1.members.any (·.lease) then s else dropYoke s y
        checkEndings s)

/-- Whether the reads of an MLOADB of a plot are over (R340): every run accepted before it has finished. -/
def loadDone (s : State) (y id : Nat) : Bool :=
  match lookup s.yokes y with
  | none => true
  | some k => k.state == .lost || k.runs.all fun r => decide (id < r.id)

/-- The accesses of a plot that end by themselves (R70): reads by PLD, and by MLOADB once its cells have their values. -/
def endable (s : State) (a : Access) : Bool :=
  match a with
  | .pld => true
  | .loadb y id => loadDone s y id
  | _ => false

/-- Every access of a plot or of a freed plot's granules that can end; none while the group is frozen (R81). -/
def endables (s : State) (g h : Nat) : List Access :=
  let gr := groupOf s g
  if gr.frozen then []
  else ((match lookup gr.plots h with
    | some p => p.access
    | none => []) ++ gr.zombies.flatMap (·.access)).filter (endable s)

/-- PLOT_ACCESS_END (R70): the oldest access that can end does. -/
def execPlotAccessEnd (g h : Nat) (s : State) : Out :=
  .next (match lookup s.groups g with
    | none => s
    | some _ =>
      match endables s g h with
      | [] => s
      | a :: _ => endAccess s g h a)

end Sys2Proof.Machine
end

