-- ==== Sys2Proof/Machine/Preempt.lean ====
section
/-! DEFINITION. Sys2Proof/Machine/Preempt.lean: the pre-emption states of a context (Table 14.4), the delivery of PREEMPT (Table 14.5), automatic
surrender (R377), forced reset (R378), and what the former and the queues do when a context leaves RESIDENT (R172, Table 7.5). -/
namespace Sys2Proof.Machine

/-- Codes of the pre-emption states (Table 14.10). -/
def cstateCode (c : CState) : Nat :=
  match c with
  | .resident => 0
  | .draining => 1
  | .trapping => 2
  | .settling => 3
  | .saved => 4
  | .restoring => 5
  | .forced => 6

/-- SOURCE of an event about contexts (Table 16.10): the Reeve of die 0 while it is online, else that of die 1. -/
def reeveSource (s : State) : Nat := if isOnline s 0 then 1 else 2

/-- A context enters a pre-emption state: TSCCHG, and an event record with the STATUS that its image then receives, where it does (R417, log 29). -/
def setCState (s : State) (ctag : Nat) (st : CState) (status : Nat) : State :=
  let c := ctxOf s ctag
  let s := setCtx s ctag { c with cstate := st, tscchg := s.tsc.toNat }
  postEvent s (reeveSource s) 1 ([BitVec.ofNat 8 (c.ctx.getD 0xFF), BitVec.ofNat 8 (cstateCode st)] ++ bytesOf 2 ctag ++ bytesOf 4 status)

/-- Whether a group is one that the pre-emption of its context saves: every group, or those of a partial evacuation (R387). -/
def inScope (s : State) (ctag : Nat) (gr : Group) : Bool := gr.ctag == ctag && ((ctxOf s ctag).evac.isNone || gr.evac)

/-- The groups in scope, by their keys. -/
def scopeGroups (s : State) (ctag : Nat) : List Nat :=
  (s.groups.filter fun e => inScope s ctag e.2 && e.2.state != .saved).map (·.1)

/-- The waves in scope, by their keys. -/
def scopeWaves (s : State) (ctag : Nat) : List Nat := (scopeGroups s ctag).flatMap (wavesOf s)

/-- A parked YACQ is abandoned (R338): its group has not executed it, and a formation without any YACQ is NONE. -/
def withdrawAcq (s : State) (g : Nat) : State :=
  match yokeOf s g with
  | none => s
  | some (y, k) =>
    if k.state != .forming then s
    else
      let members := k.members.map fun (m : Member) => if m.group = g then { m with acq := none } else m
      if members.all fun m => m.acq.isNone then dropYoke s y else setYoke s y { k with members }

/-- A parking instruction is abandoned and has no effect (Table 14.5). -/
def abandonPark (s : State) (w : Wave) (p : Park) : State :=
  match p with
  | .gbar _ =>
    let gr := groupOf s w.group
    setGroup s w.group { gr with gbar := gr.gbar &&& ~~~(1#16 <<< w.waveId) }
  | .yacq _ _ => withdrawAcq s w.group
  | _ => s

/-- Delivery of PREEMPT to one wave (Table 14.5): `reason` 1 CONTEXT, 2 EVACUATE, `deadline` the TSC of the stage-2 deadline. DESIGN CHOICE (log 36): a wave
parked on the fetch of the second READSR of a CORE and PLACE pair is stopped at once as Table 14.5 says, and the pair stays open, so that both its values are of
the instant of the first (R184, R246). -/
def deliverPreempt (s : State) (reason deadline u : Nat) : State :=
  match lookup s.waves u with
  | none => s
  | some w =>
    let later := setWave s u { w with preempt := some ⟨BitVec.ofNat 8 reason, deadline⟩ }
    if w.handler then later
    else match w.status with
      | .ready => later
      | .parked (.yrel _) => later
      | .parked (.fault waits _ va kind) =>
        setWave s u { w with status := .stopped, replay := true, pair := if kind = 2#8 then w.pair else none, lastFault := some (va, kind, ((waits.head?).map (·.1)).getD 0) }
      | .parked .debug => setWave s u { w with status := .stopped }
      | .parked p =>
        let s := abandonPark (setWave s u { w with status := .ready }) w p
        takeTrap s u ⟨16, reason, deadline % 2 ^ 56, 0#32⟩ true false
      | _ => s

/-- Delivery to the waves of a group; a frozen group's waves receive it when the freeze ends. -/
def deliverGroup (s : State) (reason deadline g : Nat) : State :=
  if (groupOf s g).frozen then s else (wavesOf s g).foldl (fun s u => deliverPreempt s reason deadline u) s

/-- PREEMPT.REASON of a context's running pre-emption. -/
def preemptReason (s : State) (ctag : Nat) : Nat := if (ctxOf s ctag).evac.isSome then 2 else 1

/-- TRAPPING begins (Table 14.4, R336, R387): the deadline, HELD on the yokes, the leases noted, planned moves given up, and PREEMPT delivered. -/
def startTrapping (s : State) (ctag d2 : Nat) : State :=
  let s := setCState s ctag .trapping 0
  let deadline := s.tsc.toNat + d2 * 1000
  let s := setCtx s ctag { ctxOf s ctag with deadline := some deadline }
  let gs := scopeGroups s ctag
  let s := gs.foldl (fun s g =>
    let gr := groupOf s g
    let had := (yokeOf s g).any fun e => holdsLease e.2 g
    holdYoke (setGroup s g { gr with hadLease := had, moving := if gr.frozen then gr.moving else none }) g) s
  gs.foldl (fun s g => deliverGroup s (preemptReason s ctag) deadline g) s

/-- The former gives a context's tasks back to their slot lines (R172): those of open sheaves and of sheaves not yet bound. -/
def withdrawTasks (s : State) (ctag : Nat) : State :=
  [0, 1].foldl (fun s die =>
    let d := dieOf s die
    let back := ((d.former.filter fun o => o.ctag == ctag).flatMap fun o => o.tasks.map fun t => handleSlot t.future)
      ++ ((d.ready.filter fun r => r.2.1 == ctag).flatMap fun r => r.2.2.tasks.map fun t => handleSlot t.2.future)
    let s := setDie s die { d with former := d.former.filter fun o => o.ctag != ctag, ready := d.ready.filter fun r => r.2.1 != ctag }
    back.foldl (fun s k => setFrt s die k { frtOf s die k with started := false }) s) s

/-- Insert a number into an ascending list. -/
def insertNat (n : Nat) (l : List Nat) : List Nat :=
  match l with
  | [] => [n]
  | x :: t => if n ≤ x then n :: x :: t else x :: insertNat n t

/-- The tasks of a context that wait in their slot lines (R172, R181): PENDING, not started, and no forward still to start. -/
def waitingTasks (s : State) (die ctag : Nat) : List Nat :=
  let d := dieOf s die
  let flying := fun (k : Nat) => d.forwards.any fun m => match m with
    | .forward _ j => j == k
    | _ => false
  (d.frt.filter fun e => e.2.state == 1#2 && e.2.ctag == ctag && !e.2.started && !e.2.waits && !flying e.1).foldl (fun l e => insertNat e.1 l) []

/-- When the context is resident again, the former takes those tasks in ascending slot order before any later task of the context (R172). -/
def requeueTasks (s : State) (ctag : Nat) : State :=
  [0, 1].foldl (fun s die =>
    let d := dieOf s die
    let l := waitingTasks s die ctag
    let rest := d.tasks.filter fun m => match m with
      | .task k => !l.contains k
      | _ => true
    setDie s die { d with tasks := l.map Msg.task ++ rest }) s

/-- Queues of a context stop being served (Table 7.5): HELD. -/
def holdQueues (s : State) (ctag : Nat) : State :=
  ((ctxOf s ctag).queues.filter fun e => e.2.2.state == .led || e.2.2.state == .moving).foldl (fun s e =>
    setLeader s ctag e.1 e.2.1 { e.2.2 with state := .held }) s

/-- Groups already STAGED become RESIDENT, so that none is left half bound. -/
def admitStaged (s : State) (ctag : Nat) : State :=
  ((s.groups.filter fun e => e.2.ctag == ctag && e.2.state == .staged).map (·.1)).foldl (fun s g => (residentSet s g).foldl makeResident s) s

/-- DRAINING begins (Table 14.4). -/
def startDraining (s : State) (ctag d1 d2 : Nat) : State :=
  let s := admitStaged s ctag
  let s := setCState s ctag .draining 0
  let s := setCtx s ctag { ctxOf s ctag with deadline := some (s.tsc.toNat + d1 * 1000), d2 }
  serveIdle (holdQueues (withdrawTasks s ctag) ctag)

/-- Whether a context's running deadline has passed in one of some states. -/
def deadlineDue (s : State) (ctag : Nat) (l : List CState) : Bool :=
  match lookup s.contexts ctag with
  | none => false
  | some c => l.contains c.cstate && (match c.deadline with
      | some t => decide (t ≤ s.tsc.toNat)
      | none => false)

/-- Whether a group is on a die, as evacuation sees it. -/
def onDie (gr : Group) (die : Nat) : Bool := (gr.state == .resident || gr.state == .ending) && gr.gslot != 4 && gr.core / 36 == die && !gr.evac

/-- Whether a context has groups on a die. -/
def hasGroupOn (s : State) (ctag die : Nat) : Bool := s.groups.any fun e => e.2.ctag == ctag && onDie e.2 die

/-- The groups of a context on a die are marked for evacuation, a gang with any member there whole (R387). -/
def markEvac (s : State) (ctag die : Nat) : State :=
  let gangs := (s.groups.filter fun e => e.2.ctag == ctag && onDie e.2 die && e.2.gang != 0).map fun e => (e.2.launch, e.2.gang)
  let s := setCtx s ctag { ctxOf s ctag with evac := some die }
  { s with groups := mapVals s.groups fun gr =>
      if gr.ctag = ctag && (gr.state == .resident || gr.state == .ending) && (onDie gr die || gangs.contains (gr.launch, gr.gang)) then { gr with evac := true }
      else gr }

/-- The evacuation of one context from a die (R387): its groups there enter TRAPPING, with D2 of 500 µs, and the former gives its tasks back
(R172). A drain that it meets goes on after the restore (log 38); a context that is already being saved goes on with that. -/
def evacuateContext (s : State) (ctag die : Nat) : State :=
  match lookup s.contexts ctag with
  | none => s
  | some c =>
    let s := if c.cstate = .resident then admitStaged s ctag else s
    if !hasGroupOn s ctag die then s
    else match c.cstate with
      | .resident => startTrapping (markEvac (withdrawTasks s ctag) ctag die) ctag 500
      | .restoring => startTrapping (markEvac s ctag die) ctag 500
      | .draining => startTrapping (markEvac (setCtx s ctag { c with drain := c.deadline }) ctag die) ctag 500
      | _ => s

/-- Moves planned on a die that have not begun are given up (R396, R401). -/
def cancelMoves (s : State) (die : Nat) : State :=
  { s with groups := mapVals s.groups fun gr => if gr.core / 36 = die && !gr.frozen then { gr with moving := none } else gr }

/-- A die leaves the online set, its queues' leadership moves and its groups are evacuated (R387, Table 7.5). -/
def evacuateDie (s : State) (die : Nat) (st : DieState) (code : Nat) : State :=
  let s := setDie s die { dieOf s die with state := st }
  let s := postEvent s 0 3 [BitVec.ofNat 8 die, BitVec.ofNat 8 code]
  let s := moveFrom (cancelMoves s die) die
  (s.contexts.map (·.1)).foldl (fun s c => evacuateContext s c die) s

/-- Whether an evacuation of a die is running (R387, R396). -/
def evacuating (s : State) (die : Nat) : Bool :=
  s.groups.any fun e => e.2.gslot != 4 && e.2.state != .saved && e.2.core / 36 == die
    && (match (ctxOf s e.2.ctag).cstate with
        | .trapping => true
        | .settling => true
        | _ => false)

/-- Hottest core sensor of a die (R390, R391, R396): the die carries one for each of its 36 cores, present or not. -/
def hottest (s : State) (die : Nat) : Nat := maxOf 0 ((List.range 36).map fun c => (coreOf s (36 * die + c)).temp)

/-- Whether a die in thermal emergency is still to be evacuated (R396). -/
def emergencyDue (s : State) (die : Nat) : Bool := isOnline s die && (dieOf s die).emerg

/-- The die in emergency to be evacuated next: the hotter, die 0 on a tie; none while an evacuation for an emergency runs (R396). -/
def nextEmergency (s : State) : Option Nat :=
  if [0, 1].any fun d => (dieOf s d).state == .emergency && evacuating s d then none
  else match emergencyDue s 0, emergencyDue s 1 with
    | true, true => some (if hottest s 1 > hottest s 0 then 1 else 0)
    | true, false => some 0
    | false, true => some 1
    | _, _ => none

/-- THERMAL_EMERGENCY (R396): the next die in emergency is taken offline and evacuated. -/
def checkEmergency (s : State) : State :=
  match nextEmergency s with
  | none => s
  | some d => evacuateDie s d .emergency 2

/-- After a restore: groups of the context that stand on a die that has left the online set meanwhile are evacuated. -/
def evacuateLate (s : State) (ctag : Nat) : State :=
  [0, 1].foldl (fun s d => if isOnline s d || isLost s d then s else evacuateContext s ctag d) s

/-- PREEMPT_D1_EXPIRY (Table 14.4). -/
def execPreemptD1Expiry (ctag : Nat) (s : State) : Out :=
  .next (if deadlineDue s ctag [.draining] then startTrapping s ctag (ctxOf s ctag).d2 else s)

/-- Forced reset (R378): the steps of R164 on the whole tree, and STATUS := 2 in the image header. -/
def forceReset (s : State) (ctag : Nat) : State :=
  let s := setCState s ctag .forced 2
  let s := setCtx s ctag { ctxOf s ctag with deadline := none, evac := none, toBind := [], saveWait := none, drain := none, places := [], young := [], armErrs := [], pairs := [] }
  ctxRecord (killTree s ctag resetTransfer) ctag ((ctxOf s ctag).savearea.toNat + 4) (bytesOf 4 2)

/-- PREEMPT_D2_EXPIRY (Table 14.4, R378). -/
def execPreemptD2Expiry (ctag : Nat) (s : State) : Out :=
  .next (if deadlineDue s ctag [.trapping, .settling] then checkEmergency (forceReset s ctag) else s)

/-- Whether every wave of a group is STOPPED or RETIRED (R377). -/
def groupStopped (s : State) (g : Nat) : Bool := s.waves.all fun e => e.2.group != g || e.2.status == .stopped || e.2.status == .retired

/-- Whether automatic surrender has something to do for a group (R377): it still holds a lease that nothing has yet given up. -/
def surrenderDue (s : State) (g : Nat) : Option (Nat × Yoke) :=
  let gr := groupOf s g
  let st := (ctxOf s gr.ctag).cstate
  if !(st == .trapping || st == .settling) || !inScope s gr.ctag gr || !groupStopped s g then none
  else (yokeOf s g).filter fun e =>
    holdsLease e.2 g && e.2.state != .lost && !(memberOf e.2 g).any (·.marked)
      && (!(e.2.members.head?).any (fun m => m.group == g)
        || (e.2.state != .releasing && (e.2.state != .halted || e.2.held || inFlight e.2 == 0)))

/-- AUTO_SURRENDER (R377): a member's YREL; for the headland the next of MHALT, MDRAIN, and the garner's copy with YREL. -/
def execAutoSurrender (g : Nat) (s : State) : Out :=
  .next (match surrenderDue s g with
    | none => s
    | some (y, k) =>
      if !(k.members.head?).any (fun m => m.group == g) then (releaseLease s g).1
      else match k.state with
        | .running => haltRuns s y k
        | .halted =>
          if inFlight k != 0 then unholdYoke s y
          else setYoke s y { k with state := .idle, held := false }
        | _ =>
          let copy := (List.range (16384 * shapeCols k.shape.toNat)).flatMap (garnerBlock k)
          (releaseLease (setGroup s g { groupOf s g with garnerCopy := copy }) g).1)

end Sys2Proof.Machine
end

