-- ==== Sys2Proof/Machine/FaultAnswers.lean ====
section
/-! DEFINITION. Sys2Proof/Machine/FaultAnswers.lean: the host's answers to recoverable faults (R51, R55, R56, R194, R384). -/
namespace Sys2Proof.Machine

/-- A wave whose faults have all been answered goes on (R56): it replays when every answer was RETRY, or takes HOST_KILL for the lowest lane that
met a KILL. -/
def finishFault (s : State) (u : Nat) : State :=
  match lookup s.waves u with
  | none => s
  | some w =>
    match w.status with
    | .parked (.fault [] dead _ _) =>
      let s := setWave s u { w with status := .ready, replay := true }
      match dead with
      | [] => s
      | d :: ds =>
        let lanes := ds.foldl (fun m e => m ||| e.1) d.1
        let low := ds.foldl (fun b e => if trailingZeros e.1 < trailingZeros b.1 then e else b) d
        takeTrap s u ⟨9, 7, argAddr low.2.toNat, lanes⟩ true (lanes != 0#32)
    | _ => s

/-- The answer to a wave for one record (R56): it waits for the others, and goes on when all are answered, once its group is not frozen (R401). -/
def answerWave (s : State) (token : Nat) (kill : Bool) (u : Nat) : State :=
  match lookup s.waves u with
  | none => s
  | some w =>
    match w.status with
    | .parked (.fault waits dead va kind) =>
      let mine := waits.filter fun e => e.1 == token
      let rest := waits.filter fun e => e.1 != token
      let dead := if kill then dead ++ mine.map (·.2) else dead
      let s := setWave s u { w with status := .parked (.fault rest dead va kind) }
      if !rest.isEmpty || (groupOf s w.group).frozen then s else finishFault s u
    | _ => s

/-- The answer to a transfer (R51): it resumes at the faulting page, or fails; a transfer that a freeze pauses fails when the freeze ends (R401). -/
def answerTransfer (s : State) (f : FaultRec) (kill : Bool) (x : Nat) : State :=
  match lookup s.transfers x with
  | none => s
  | some t =>
    let s := { s with transfers := put s.transfers x { t with parked := none, answered := if kill then some f.va.toNat else none } }
    if kill && !t.pause then endTransfer s x 2 7 f.va.toNat else s

/-- The answer to a queue whose record read waited (R194). -/
def answerQueue (s : State) (f : FaultRec) (kill : Bool) (q : Bool × Nat) : State :=
  let c := ctxOf s f.ctag
  setCtx s f.ctag { c with queues := c.queues.map fun e =>
    if e.1 = q.1 && e.2.1 = q.2 && e.2.2.waitFault = some f.token then (e.1, e.2.1, { e.2.2 with waitFault := none, kill }) else e }

/-- The answer to a fired entry whose record read waited (R194, R210): it is read again, or refused. -/
def answerEntry (s : State) (f : FaultRec) (kill : Bool) (i : Nat) : State :=
  let c := ctxOf s f.ctag
  let rest := c.firedWait.filter fun e => !(e.1 == i && e.2 == some f.token)
  setCtx s f.ctag { c with firedWait := if kill && rest.length < c.firedWait.length then rest ++ [(i, none)] else rest }

/-- The device reads an answer (R55, R56): everyone who waits on the record is answered, and its slot is free again. A KILL
of an image write forces a reset (R384). -/
def answerFault (s : State) (f : FaultRec) (kill : Bool) : State :=
  let s := { s with faults := s.faults.filter fun g => g.token != f.token }
  let s := f.waves.foldl (fun s u => answerWave s f.token kill u) s
  let s := f.xfers.foldl (fun s x => answerTransfer s f kill x) s
  let s := f.queues.foldl (fun s q => answerQueue s f kill q) s
  let s := f.entries.foldl (fun s i => answerEntry s f kill i) s
  let s := if !f.save then s
    else
      let c := ctxOf s f.ctag
      if c.saveWait != some f.token then s else if kill then forceReset s f.ctag else setCtx s f.ctag { c with saveWait := none }
  postFaults s

/-- FAULT_RESPONSE (R55, R56): the host writes RESP of the record at place `idx` of the ring; zero is no answer, and a value other than RETRY is taken
as KILL. A place without an outstanding record ignores it. -/
def execFaultResponse (idx : Nat) (resp : BitVec 32) (s : State) : Out :=
  .next (match s.faults.find? fun f => f.posted == some idx with
    | none => s
    | some f =>
      let s := agentWrite s 0 (ringBase s.bar.fqbase + 128 + 32 * idx + 28) (bytesOf 4 resp.toNat)
      if resp = 0#32 then s else answerFault s f (resp != 1#32))

end Sys2Proof.Machine
end

