-- ==== Sys2Proof/Decode.lean ====
section
/-! DEFINITION. Sys2Proof/Decode.lean: from a 32-bit word to an instruction (R212-R214, Tables 8.2, 8.10, 9.1, 10.1, 11.1, 12.1, 13.1), with
a name for each refusal, and the encoder, written from the same tables. A code of a field that its entry calls reserved decodes here and
is refused by WellFormed (R214). -/
namespace Sys2Proof

/-- Why a word is no instruction: an unassigned opcode (R229), or a field that must be zero and is not, or an unlisted code (R214). -/
inductive DecodeError where
  | illegalOp
  | illegalEnc
  deriving DecidableEq, Repr

/-- Field of `n` bits from bit `lo` of a word. -/
def fld (w lo n : Nat) : Nat := w / 2 ^ lo % 2 ^ n

/-- The same field as a bit vector. -/
def bv (n w lo : Nat) : BitVec n := BitVec.ofNat n (w / 2 ^ lo)

/-- Words whose opcode is 0x00 to 0x0F (Table 8.10); `w` is the word and `o` the opcode's low digit. -/
def decodeRow0 (w o : Nat) : Except DecodeError Instr :=
  match o with
  | 0 => if fld w 0 22 = 0 then .ok (.nop (bv 2 w 22))
    else .error .illegalEnc
  | 1 => if fld w 0 24 = 0 then .ok .halt
    else .error .illegalEnc
  | 2 => if fld w 16 6 = 0 then .ok (.setbt (bv 2 w 22) (bv 16 w 0))
    else .error .illegalEnc
  | 3 => if fld w 0 10 = 0 ∧ fld w 16 6 = 0 then .ok (.setbts (bv 2 w 22) (bv 6 w 10))
    else .error .illegalEnc
  | 4 => if fld w 16 6 = 0 then .ok (.setlt (bv 2 w 22) (bv 16 w 0))
    else .error .illegalEnc
  | 5 => if fld w 0 10 = 0 ∧ fld w 16 6 = 0 then .ok (.setlc (bv 2 w 22) (bv 6 w 10))
    else .error .illegalEnc
  | 6 => if fld w 2 14 = 0 then .ok (.savepc (bv 2 w 22) (bv 6 w 16) (bv 2 w 0))
    else .error .illegalEnc
  | 7 => if fld w 0 10 = 0 ∧ fld w 16 6 = 0 then .ok (.setmode (bv 2 w 22) (bv 6 w 10))
    else .error .illegalEnc
  | 8 => if fld w 0 16 = 0 then .ok (.getmode (bv 2 w 22) (bv 6 w 16))
    else .error .illegalEnc
  | 9 => if fld w 3 1 = 0 ∧ fld w 17 5 = 3 then .ok (.scmp (bv 2 w 22) (bv 1 w 16) (bv 6 w 10) (bv 6 w 4) (bv 3 w 0))
    else .error .illegalEnc
  | 10 => if fld w 19 1 = 0 ∧ fld w 21 1 = 0 then .ok (.scmpi (bv 2 w 22) (bv 1 w 20) (bv 3 w 16) (bv 6 w 10) (bv 10 w 0))
    else .error .illegalEnc
  | 11 => .ok (.readsr (bv 2 w 22) (bv 6 w 16) (bv 16 w 0))
  | 13 => if fld w 2 2 = 0 then .ok (.ssel (bv 2 w 22) (bv 6 w 16) (bv 6 w 10) (bv 6 w 4) (bv 2 w 0))
    else .error .illegalEnc
  | 14 => .ok (.smovi (bv 2 w 22) (bv 6 w 16) (bv 16 w 0))
  | 15 => .ok (.smovk1 (bv 2 w 22) (bv 6 w 16) (bv 16 w 0))
  | _ => .error .illegalOp

/-- Words whose opcode is 0x10 to 0x1F (Table 8.10); `w` is the word and `o` the opcode's low digit. -/
def decodeRow1 (w o : Nat) : Except DecodeError Instr :=
  match o with
  | 0 => if fld w 1 3 = 0 then .ok (.sadd (bv 2 w 22) (bv 6 w 16) (bv 6 w 10) (bv 6 w 4) (bv 1 w 0))
    else .error .illegalEnc
  | 1 => if fld w 1 3 = 0 then .ok (.ssub (bv 2 w 22) (bv 6 w 16) (bv 6 w 10) (bv 6 w 4) (bv 1 w 0))
    else .error .illegalEnc
  | 2 => if fld w 0 4 = 0 then .ok (.smul (bv 2 w 22) (bv 6 w 16) (bv 6 w 10) (bv 6 w 4))
    else .error .illegalEnc
  | 3 => if fld w 1 3 = 0 then .ok (.smulh (bv 2 w 22) (bv 6 w 16) (bv 6 w 10) (bv 6 w 4) (bv 1 w 0))
    else .error .illegalEnc
  | 4 => if fld w 1 3 = 0 then .ok (.sdiv (bv 2 w 22) (bv 6 w 16) (bv 6 w 10) (bv 6 w 4) (bv 1 w 0))
    else .error .illegalEnc
  | 5 => if fld w 1 3 = 0 then .ok (.srem (bv 2 w 22) (bv 6 w 16) (bv 6 w 10) (bv 6 w 4) (bv 1 w 0))
    else .error .illegalEnc
  | 6 => if fld w 0 4 = 0 then .ok (.sand (bv 2 w 22) (bv 6 w 16) (bv 6 w 10) (bv 6 w 4))
    else .error .illegalEnc
  | 7 => if fld w 0 4 = 0 then .ok (.sor (bv 2 w 22) (bv 6 w 16) (bv 6 w 10) (bv 6 w 4))
    else .error .illegalEnc
  | 8 => if fld w 0 4 = 0 then .ok (.sxor (bv 2 w 22) (bv 6 w 16) (bv 6 w 10) (bv 6 w 4))
    else .error .illegalEnc
  | 9 => if fld w 0 4 = 0 then .ok (.sshl (bv 2 w 22) (bv 6 w 16) (bv 6 w 10) (bv 6 w 4))
    else .error .illegalEnc
  | 10 => if fld w 0 4 = 0 then .ok (.sshr (bv 2 w 22) (bv 6 w 16) (bv 6 w 10) (bv 6 w 4))
    else .error .illegalEnc
  | 11 => if fld w 0 4 = 0 then .ok (.ssra (bv 2 w 22) (bv 6 w 16) (bv 6 w 10) (bv 6 w 4))
    else .error .illegalEnc
  | 12 => if fld w 1 3 = 0 then .ok (.smin (bv 2 w 22) (bv 6 w 16) (bv 6 w 10) (bv 6 w 4) (bv 1 w 0))
    else .error .illegalEnc
  | 13 => if fld w 1 3 = 0 then .ok (.smax (bv 2 w 22) (bv 6 w 16) (bv 6 w 10) (bv 6 w 4) (bv 1 w 0))
    else .error .illegalEnc
  | _ => .error .illegalOp

/-- Words whose opcode is 0x20 to 0x2F (Table 8.10); `w` is the word and `o` the opcode's low digit. -/
def decodeRow2 (w o : Nat) : Except DecodeError Instr :=
  match o with
  | 0 => .ok (.sld (bv 2 w 22) (bv 6 w 16) (bv 6 w 10) (bv 6 w 4) (bv 4 w 0))
  | 1 => .ok (.sldi (bv 2 w 22) (bv 6 w 16) (bv 6 w 10) (bv 3 w 7) (bv 7 w 0))
  | 2 => .ok (.sst (bv 2 w 22) (bv 6 w 16) (bv 6 w 10) (bv 6 w 4) (bv 4 w 0))
  | 3 => .ok (.ssti (bv 2 w 22) (bv 6 w 16) (bv 6 w 10) (bv 3 w 7) (bv 7 w 0))
  | 4 => if fld w 3 1 = 0 ∧ fld w 7 3 = 0 then .ok (.satom (bv 2 w 22) (bv 6 w 16) (bv 6 w 10) (bv 3 w 4) (bv 3 w 0))
    else .error .illegalEnc
  | 5 => if fld w 2 8 = 0 then .ok (.scnt (bv 2 w 22) (bv 6 w 16) (bv 6 w 10) (bv 2 w 0))
    else .error .illegalEnc
  | 6 => .ok (.saddi (bv 2 w 22) (bv 6 w 16) (bv 6 w 10) (bv 10 w 0))
  | 7 => .ok (.sandi (bv 2 w 22) (bv 6 w 16) (bv 6 w 10) (bv 10 w 0))
  | 8 => .ok (.sori (bv 2 w 22) (bv 6 w 16) (bv 6 w 10) (bv 10 w 0))
  | 9 => if fld w 6 4 = 0 then .ok (.sshli (bv 2 w 22) (bv 6 w 16) (bv 6 w 10) (bv 6 w 0))
    else .error .illegalEnc
  | 10 => if fld w 6 4 = 0 then .ok (.sshri (bv 2 w 22) (bv 6 w 16) (bv 6 w 10) (bv 6 w 0))
    else .error .illegalEnc
  | 11 => if fld w 6 4 = 0 then .ok (.ssrai (bv 2 w 22) (bv 6 w 16) (bv 6 w 10) (bv 6 w 0))
    else .error .illegalEnc
  | 12 => .ok (.smuli (bv 2 w 22) (bv 6 w 16) (bv 6 w 10) (bv 10 w 0))
  | 13 => if fld w 3 7 = 0 then .ok (.sext (bv 2 w 22) (bv 6 w 16) (bv 6 w 10) (bv 3 w 0))
    else .error .illegalEnc
  | 14 => .ok (.smovk2 (bv 2 w 22) (bv 6 w 16) (bv 16 w 0))
  | 15 => .ok (.smovk3 (bv 2 w 22) (bv 6 w 16) (bv 16 w 0))
  | _ => .error .illegalOp

/-- Words whose opcode is 0x30 to 0x3F (Table 8.10); `w` is the word and `o` the opcode's low digit. -/
def decodeRow3 (w o : Nat) : Except DecodeError Instr :=
  match o with
  | 0 => if fld w 0 4 = 0 then .ok (.vadd (bv 2 w 22) (bv 6 w 16) (bv 6 w 10) (bv 6 w 4))
    else .error .illegalEnc
  | 1 => if fld w 0 4 = 0 then .ok (.vsub (bv 2 w 22) (bv 6 w 16) (bv 6 w 10) (bv 6 w 4))
    else .error .illegalEnc
  | 2 => if fld w 0 4 = 0 then .ok (.vmul (bv 2 w 22) (bv 6 w 16) (bv 6 w 10) (bv 6 w 4))
    else .error .illegalEnc
  | 3 => if fld w 1 3 = 0 then .ok (.vmad (bv 2 w 22) (bv 6 w 16) (bv 6 w 10) (bv 6 w 4) (bv 1 w 0))
    else .error .illegalEnc
  | 4 => if fld w 0 4 = 0 then .ok (.vmin (bv 2 w 22) (bv 6 w 16) (bv 6 w 10) (bv 6 w 4))
    else .error .illegalEnc
  | 5 => if fld w 0 4 = 0 then .ok (.vmax (bv 2 w 22) (bv 6 w 16) (bv 6 w 10) (bv 6 w 4))
    else .error .illegalEnc
  | 6 => if fld w 0 10 = 0 then .ok (.vabs (bv 2 w 22) (bv 6 w 16) (bv 6 w 10))
    else .error .illegalEnc
  | 7 => if fld w 0 10 = 0 then .ok (.vneg (bv 2 w 22) (bv 6 w 16) (bv 6 w 10))
    else .error .illegalEnc
  | 8 => .ok (.vdiv (bv 2 w 22) (bv 6 w 16) (bv 6 w 10) (bv 6 w 4) (bv 4 w 0))
  | 9 => if fld w 0 4 = 0 then .ok (.vrem (bv 2 w 22) (bv 6 w 16) (bv 6 w 10) (bv 6 w 4))
    else .error .illegalEnc
  | 10 => if fld w 4 6 = 0 then .ok (.vsqrt (bv 2 w 22) (bv 6 w 16) (bv 6 w 10) (bv 4 w 0))
    else .error .illegalEnc
  | 11 => if fld w 4 6 = 0 then .ok (.vrcp (bv 2 w 22) (bv 6 w 16) (bv 6 w 10) (bv 4 w 0))
    else .error .illegalEnc
  | 12 => if fld w 4 6 = 0 then .ok (.vrsq (bv 2 w 22) (bv 6 w 16) (bv 6 w 10) (bv 4 w 0))
    else .error .illegalEnc
  | 13 => if fld w 4 6 = 0 then .ok (.vexp2 (bv 2 w 22) (bv 6 w 16) (bv 6 w 10) (bv 4 w 0))
    else .error .illegalEnc
  | 14 => if fld w 4 6 = 0 then .ok (.vlog2 (bv 2 w 22) (bv 6 w 16) (bv 6 w 10) (bv 4 w 0))
    else .error .illegalEnc
  | 15 => if fld w 4 6 = 0 then .ok (.vsincos (bv 2 w 22) (bv 6 w 16) (bv 6 w 10) (bv 4 w 0))
    else .error .illegalEnc
  | _ => .error .illegalOp

/-- Words whose opcode is 0x40 to 0x4F (Table 8.10); `w` is the word and `o` the opcode's low digit. -/
def decodeRow4 (w o : Nat) : Except DecodeError Instr :=
  match o with
  | 0 => if fld w 0 4 = 0 then .ok (.vand (bv 2 w 22) (bv 6 w 16) (bv 6 w 10) (bv 6 w 4))
    else .error .illegalEnc
  | 1 => if fld w 0 4 = 0 then .ok (.vor (bv 2 w 22) (bv 6 w 16) (bv 6 w 10) (bv 6 w 4))
    else .error .illegalEnc
  | 2 => if fld w 0 4 = 0 then .ok (.vxor (bv 2 w 22) (bv 6 w 16) (bv 6 w 10) (bv 6 w 4))
    else .error .illegalEnc
  | 3 => if fld w 0 10 = 0 then .ok (.vnot (bv 2 w 22) (bv 6 w 16) (bv 6 w 10))
    else .error .illegalEnc
  | 4 => if fld w 0 4 = 0 then .ok (.vshl (bv 2 w 22) (bv 6 w 16) (bv 6 w 10) (bv 6 w 4))
    else .error .illegalEnc
  | 5 => if fld w 0 4 = 0 then .ok (.vshr (bv 2 w 22) (bv 6 w 16) (bv 6 w 10) (bv 6 w 4))
    else .error .illegalEnc
  | 6 => if fld w 0 4 = 0 then .ok (.vsra (bv 2 w 22) (bv 6 w 16) (bv 6 w 10) (bv 6 w 4))
    else .error .illegalEnc
  | 7 => if fld w 0 4 = 0 then .ok (.vmulh (bv 2 w 22) (bv 6 w 16) (bv 6 w 10) (bv 6 w 4))
    else .error .illegalEnc
  | 8 => if fld w 3 1 = 0 ∧ fld w 19 3 = 0 then .ok (.vcmp (bv 2 w 22) (bv 3 w 16) (bv 6 w 10) (bv 6 w 4) (bv 3 w 0))
    else .error .illegalEnc
  | 9 => if fld w 3 1 = 0 then .ok (.vsel (bv 2 w 22) (bv 6 w 16) (bv 6 w 10) (bv 6 w 4) (bv 3 w 0))
    else .error .illegalEnc
  | 10 => if fld w 3 1 = 0 ∧ fld w 8 2 = 0 then .ok (.vcvt (bv 2 w 22) (bv 6 w 16) (bv 6 w 10) (bv 4 w 4) (bv 1 w 2) (bv 2 w 0))
    else .error .illegalEnc
  | 11 => if fld w 0 10 = 0 then .ok (.vclass (bv 2 w 22) (bv 6 w 16) (bv 6 w 10))
    else .error .illegalEnc
  | 12 => .ok (.vaddi (bv 2 w 22) (bv 6 w 16) (bv 6 w 10) (bv 10 w 0))
  | 13 => if fld w 0 10 = 0 then .ok (.vmovs (bv 2 w 22) (bv 6 w 16) (bv 6 w 10))
    else .error .illegalEnc
  | 14 => .ok (.vmovi (bv 2 w 22) (bv 6 w 16) (bv 16 w 0))
  | 15 => if fld w 0 10 = 0 then .ok (.vmov (bv 2 w 22) (bv 6 w 16) (bv 6 w 10))
    else .error .illegalEnc
  | _ => .error .illegalOp

/-- Words whose opcode is 0x50 to 0x5F (Table 8.10); `w` is the word and `o` the opcode's low digit. -/
def decodeRow5 (w o : Nat) : Except DecodeError Instr :=
  match o with
  | 0 => if fld w 0 16 = 0 then .ok (.vlane (bv 2 w 22) (bv 6 w 16))
    else .error .illegalEnc
  | 1 => if fld w 0 4 = 0 then .ok (.vperm (bv 2 w 22) (bv 6 w 16) (bv 6 w 10) (bv 6 w 4))
    else .error .illegalEnc
  | 2 => if fld w 2 2 = 0 ∧ fld w 9 1 = 0 then .ok (.vshfl (bv 2 w 22) (bv 6 w 16) (bv 6 w 10) (bv 5 w 4) (bv 2 w 0))
    else .error .illegalEnc
  | 3 => if fld w 3 7 = 0 then .ok (.vred (bv 2 w 22) (bv 6 w 16) (bv 6 w 10) (bv 3 w 0))
    else .error .illegalEnc
  | 4 => if fld w 4 6 = 0 then .ok (.vscan (bv 2 w 22) (bv 6 w 16) (bv 6 w 10) (bv 1 w 3) (bv 3 w 0))
    else .error .illegalEnc
  | 5 => if fld w 0 4 = 0 then .ok (.vextr (bv 2 w 22) (bv 6 w 16) (bv 6 w 10) (bv 6 w 4))
    else .error .illegalEnc
  | 6 => if fld w 0 4 = 0 then .ok (.vinsr (bv 2 w 22) (bv 6 w 16) (bv 6 w 10) (bv 6 w 4))
    else .error .illegalEnc
  | 7 => if fld w 0 10 = 3 ∧ fld w 19 3 = 0 then .ok (.vvotePballot (bv 2 w 22) (bv 3 w 16) (bv 6 w 10))
    else if fld w 2 8 = 0 then .ok (.vvote (bv 2 w 22) (bv 6 w 16) (bv 6 w 10) (bv 2 w 0))
    else .error .illegalEnc
  | 8 => if fld w 3 7 = 0 then .ok (.vpack (bv 2 w 22) (bv 6 w 16) (bv 6 w 10) (bv 1 w 2) (bv 2 w 0))
    else .error .illegalEnc
  | 9 => if fld w 2 8 = 0 then .ok (.vunpk (bv 2 w 22) (bv 6 w 16) (bv 6 w 10) (bv 2 w 0))
    else .error .illegalEnc
  | 10 => .ok (.vcmpi (bv 2 w 22) (bv 3 w 19) (bv 3 w 16) (bv 6 w 10) (bv 10 w 0))
  | 11 => if fld w 0 4 = 0 then .ok (.vdot4 (bv 2 w 22) (bv 6 w 16) (bv 6 w 10) (bv 6 w 4))
    else .error .illegalEnc
  | 12 => if fld w 0 4 = 0 then .ok (.vdot2 (bv 2 w 22) (bv 6 w 16) (bv 6 w 10) (bv 6 w 4))
    else .error .illegalEnc
  | 13 => if fld w 1 3 = 0 then .ok (.vbfe (bv 2 w 22) (bv 6 w 16) (bv 6 w 10) (bv 6 w 4) (bv 1 w 0))
    else .error .illegalEnc
  | 14 => if fld w 0 4 = 0 then .ok (.vbfi (bv 2 w 22) (bv 6 w 16) (bv 6 w 10) (bv 6 w 4))
    else .error .illegalEnc
  | 15 => if fld w 2 8 = 0 then .ok (.vcnt (bv 2 w 22) (bv 6 w 16) (bv 6 w 10) (bv 2 w 0))
    else .error .illegalEnc
  | _ => .error .illegalOp

/-- Words whose opcode is 0x60 to 0x6F (Table 8.10); `w` is the word and `o` the opcode's low digit. -/
def decodeRow6 (w o : Nat) : Except DecodeError Instr :=
  match o with
  | 0 => if fld w 0 4 = 0 then .ok (.vtilth (bv 2 w 22) (bv 6 w 16) (bv 6 w 10) (bv 6 w 4))
    else .error .illegalEnc
  | 1 => if fld w 0 10 = 0 then .ok (.vuntilth (bv 2 w 22) (bv 6 w 16) (bv 6 w 10))
    else .error .illegalEnc
  | 2 => if fld w 0 10 = 0 then .ok (.vexpo (bv 2 w 22) (bv 6 w 16) (bv 6 w 10))
    else .error .illegalEnc
  | 3 => if fld w 0 4 = 0 then .ok (.vldexp (bv 2 w 22) (bv 6 w 16) (bv 6 w 10) (bv 6 w 4))
    else .error .illegalEnc
  | _ => .error .illegalOp

/-- Words whose opcode is 0x70 to 0x7F (Table 8.10); `w` is the word and `o` the opcode's low digit. -/
def decodeRow7 (w o : Nat) : Except DecodeError Instr :=
  match o with
  | 0 => if fld w 1 3 = 0 ∧ fld w 7 3 = 0 ∧ fld w 13 3 = 0 ∧ fld w 19 3 = 0 then .ok (.pand (bv 2 w 22) (bv 3 w 16) (bv 3 w 10) (bv 3 w 4) (bv 1 w 0))
    else .error .illegalEnc
  | 1 => if fld w 1 3 = 0 ∧ fld w 7 3 = 0 ∧ fld w 13 3 = 0 ∧ fld w 19 3 = 0 then .ok (.por (bv 2 w 22) (bv 3 w 16) (bv 3 w 10) (bv 3 w 4) (bv 1 w 0))
    else .error .illegalEnc
  | 2 => if fld w 1 3 = 0 ∧ fld w 7 3 = 0 ∧ fld w 13 3 = 0 ∧ fld w 19 3 = 0 then .ok (.pxor (bv 2 w 22) (bv 3 w 16) (bv 3 w 10) (bv 3 w 4) (bv 1 w 0))
    else .error .illegalEnc
  | 3 => if fld w 0 10 = 0 ∧ fld w 13 3 = 0 ∧ fld w 19 3 = 0 then .ok (.pnot (bv 2 w 22) (bv 3 w 16) (bv 3 w 10))
    else .error .illegalEnc
  | 4 => if fld w 0 10 = 0 ∧ fld w 13 3 = 0 ∧ fld w 19 3 = 0 then .ok (.pmov (bv 2 w 22) (bv 3 w 16) (bv 3 w 10))
    else if fld w 0 10 = 1 ∧ fld w 19 3 = 0 then .ok (.pmovFs (bv 2 w 22) (bv 3 w 16) (bv 6 w 10))
    else if fld w 0 10 = 2 ∧ fld w 13 3 = 0 then .ok (.pmovTs (bv 2 w 22) (bv 6 w 16) (bv 3 w 10))
    else .error .illegalEnc
  | 5 => if fld w 0 10 = 0 ∧ fld w 13 3 = 0 then .ok (.pcnt (bv 2 w 22) (bv 6 w 16) (bv 3 w 10))
    else .error .illegalEnc
  | 6 => if fld w 1 9 = 0 ∧ fld w 13 3 = 0 then .ok (.pfirst (bv 2 w 22) (bv 6 w 16) (bv 3 w 10) (bv 1 w 0))
    else .error .illegalEnc
  | 7 => if fld w 7 9 = 0 ∧ fld w 19 3 = 0 then .ok (.pseti (bv 2 w 22) (bv 3 w 16) (bv 1 w 6) (bv 6 w 0))
    else .error .illegalEnc
  | 8 => if fld w 1 15 = 0 ∧ fld w 19 3 = 0 then .ok (.planes (bv 2 w 22) (bv 3 w 16) (bv 1 w 0))
    else .error .illegalEnc
  | _ => .error .illegalOp

/-- Words whose opcode is 0x80 to 0x8F (Table 8.10); `w` is the word and `o` the opcode's low digit. -/
def decodeRow8 (w o : Nat) : Except DecodeError Instr :=
  match o with
  | 0 => .ok (.vld (bv 2 w 22) (bv 6 w 16) (bv 6 w 10) (bv 6 w 4) (bv 4 w 0))
  | 1 => .ok (.vst (bv 2 w 22) (bv 6 w 16) (bv 6 w 10) (bv 6 w 4) (bv 4 w 0))
  | 2 => .ok (.vlds (bv 2 w 22) (bv 6 w 16) (bv 6 w 10) (bv 6 w 4) (bv 4 w 0))
  | 3 => .ok (.vsts (bv 2 w 22) (bv 6 w 16) (bv 6 w 10) (bv 6 w 4) (bv 4 w 0))
  | 4 => .ok (.vldb (bv 2 w 22) (bv 6 w 16) (bv 6 w 10) (bv 6 w 4) (bv 4 w 0))
  | 5 => .ok (.vatom (bv 2 w 22) (bv 6 w 16) (bv 6 w 10) (bv 3 w 7) (bv 3 w 4) (bv 4 w 0))
  | 6 => .ok (.satomf (bv 2 w 22) (bv 6 w 16) (bv 6 w 10) (bv 3 w 7) (bv 3 w 4) (bv 4 w 0))
  | 7 => if fld w 2 2 = 0 ∧ fld w 7 15 = 0 then .ok (.fence (bv 2 w 22) (bv 3 w 4) (bv 2 w 0))
    else .error .illegalEnc
  | 8 => if fld w 1 3 = 0 ∧ fld w 16 6 = 0 then .ok (.prefetch (bv 2 w 22) (bv 6 w 10) (bv 6 w 4) (bv 1 w 0))
    else .error .illegalEnc
  | 9 => if fld w 2 2 = 0 ∧ fld w 16 6 = 0 then .ok (.cflush (bv 2 w 22) (bv 6 w 10) (bv 6 w 4) (bv 2 w 0))
    else .error .illegalEnc
  | 10 => if fld w 0 10 = 0 then .ok (.locq (bv 2 w 22) (bv 6 w 16) (bv 6 w 10))
    else .error .illegalEnc
  | _ => .error .illegalOp

/-- Words whose opcode is 0x90 to 0x9F (Table 8.10); `w` is the word and `o` the opcode's low digit. -/
def decodeRow9 (w o : Nat) : Except DecodeError Instr :=
  match o with
  | 0 => if fld w 17 5 = 0 then .ok (.palloc (bv 2 w 22) (bv 1 w 16) (bv 6 w 10) (bv 6 w 4) (bv 4 w 0))
    else .error .illegalEnc
  | 1 => if fld w 0 10 = 0 ∧ fld w 16 6 = 0 then .ok (.pfree (bv 2 w 22) (bv 6 w 10))
    else .error .illegalEnc
  | 2 => if fld w 0 4 = 0 ∧ fld w 16 6 = 0 then .ok (.parm (bv 2 w 22) (bv 6 w 10) (bv 6 w 4))
    else .error .illegalEnc
  | 3 => if fld w 4 6 = 0 then .ok (.pld (bv 2 w 22) (bv 6 w 16) (bv 6 w 10) (bv 4 w 0))
    else .error .illegalEnc
  | 4 => if fld w 4 6 = 0 then .ok (.pst (bv 2 w 22) (bv 6 w 16) (bv 6 w 10) (bv 4 w 0))
    else .error .illegalEnc
  | 5 => if fld w 0 10 = 0 then .ok (.pstate (bv 2 w 22) (bv 6 w 16) (bv 6 w 10))
    else .error .illegalEnc
  | 6 => if fld w 0 10 = 0 ∧ fld w 16 6 = 0 then .ok (.pwait (bv 2 w 22) (bv 6 w 10))
    else .error .illegalEnc
  | 7 => if fld w 0 3 = 0 then .ok (.cpy (bv 2 w 22) (bv 6 w 16) (bv 6 w 10) (bv 6 w 4) (bv 1 w 3))
    else .error .illegalEnc
  | 8 => if fld w 0 3 = 0 then .ok (.cpyt (bv 2 w 22) (bv 6 w 16) (bv 6 w 10) (bv 6 w 4) (bv 1 w 3))
    else .error .illegalEnc
  | 9 => if fld w 0 3 = 0 then .ok (.cpyim (bv 2 w 22) (bv 6 w 16) (bv 6 w 10) (bv 6 w 4) (bv 1 w 3))
    else .error .illegalEnc
  | 10 => if fld w 0 3 = 0 then .ok (.cpym (bv 2 w 22) (bv 6 w 16) (bv 6 w 10) (bv 6 w 4) (bv 1 w 3))
    else .error .illegalEnc
  | 11 => if fld w 1 2 = 0 then .ok (.cpyout (bv 2 w 22) (bv 6 w 16) (bv 6 w 10) (bv 6 w 4) (bv 1 w 3) (bv 1 w 0))
    else .error .illegalEnc
  | 12 => if fld w 0 4 = 0 ∧ fld w 16 6 = 0 then .ok (.publish (bv 2 w 22) (bv 6 w 10) (bv 6 w 4))
    else .error .illegalEnc
  | 13 => if fld w 0 10 = 0 then .ok (.xeng (bv 2 w 22) (bv 6 w 16) (bv 6 w 10))
    else .error .illegalEnc
  | 14 => if fld w 0 10 = 0 then .ok (.cpybar (bv 2 w 22) (bv 6 w 16) (bv 6 w 10))
    else .error .illegalEnc
  | 15 => if fld w 2 8 = 0 then .ok (.pinfo (bv 2 w 22) (bv 6 w 16) (bv 6 w 10) (bv 2 w 0))
    else .error .illegalEnc
  | _ => .error .illegalOp

/-- Words whose opcode is 0xA0 to 0xAF (Table 8.10); `w` is the word and `o` the opcode's low digit. -/
def decodeRowA (w o : Nat) : Except DecodeError Instr :=
  match o with
  | 0 => if fld w 0 10 = 0 ∧ fld w 16 6 = 0 then .ok (.yacq (bv 2 w 22) (bv 6 w 10))
    else .error .illegalEnc
  | 1 => if fld w 0 22 = 0 then .ok (.yrel (bv 2 w 22))
    else .error .illegalEnc
  | 2 => if fld w 0 16 = 0 then .ok (.ystat (bv 2 w 22) (bv 6 w 16))
    else .error .illegalEnc
  | 3 => if fld w 3 13 = 0 then .ok (.mloadb (bv 2 w 22) (bv 6 w 16) (bv 2 w 1) (bv 1 w 0))
    else .error .illegalEnc
  | 4 => if fld w 1 9 = 0 then .ok (.mrun (bv 2 w 22) (bv 6 w 16) (bv 6 w 10) (bv 1 w 0))
    else .error .illegalEnc
  | 5 => if fld w 0 10 = 0 ∧ fld w 16 6 = 0 then .ok (.mzero (bv 2 w 22) (bv 6 w 10))
    else .error .illegalEnc
  | 6 => if fld w 0 10 = 0 then .ok (.mreadg (bv 2 w 22) (bv 6 w 16) (bv 6 w 10))
    else .error .illegalEnc
  | 7 => if fld w 0 16 = 0 then .ok (.mhalt (bv 2 w 22) (bv 6 w 16))
    else .error .illegalEnc
  | 8 => if fld w 0 22 = 0 then .ok (.mdrain (bv 2 w 22))
    else .error .illegalEnc
  | 9 => if fld w 0 10 = 0 ∧ fld w 16 6 = 0 then .ok (.msave (bv 2 w 22) (bv 6 w 10))
    else .error .illegalEnc
  | 10 => if fld w 0 10 = 0 ∧ fld w 16 6 = 0 then .ok (.mrest (bv 2 w 22) (bv 6 w 10))
    else .error .illegalEnc
  | 11 => if fld w 0 10 = 0 ∧ fld w 16 6 = 0 then .ok (.mbands (bv 2 w 22) (bv 6 w 10))
    else .error .illegalEnc
  | 12 => if fld w 2 1 = 0 then .ok (.mcadr (bv 2 w 22) (bv 6 w 16) (bv 6 w 10) (bv 6 w 4) (bv 1 w 3) (bv 2 w 0))
    else .error .illegalEnc
  | 13 => if fld w 0 10 = 0 then .ok (.maccg (bv 2 w 22) (bv 6 w 16) (bv 6 w 10))
    else .error .illegalEnc
  | _ => .error .illegalOp

/-- Words whose opcode is 0xB0 to 0xBF (Table 8.10); `w` is the word and `o` the opcode's low digit. -/
def decodeRowB (w o : Nat) : Except DecodeError Instr :=
  match o with
  | 0 => if fld w 0 4 = 0 then .ok (.barrive (bv 2 w 22) (bv 6 w 16) (bv 6 w 10) (bv 6 w 4))
    else .error .illegalEnc
  | 1 => if fld w 0 4 = 0 ∧ fld w 16 6 = 0 then .ok (.bwait (bv 2 w 22) (bv 6 w 10) (bv 6 w 4))
    else .error .illegalEnc
  | 2 => if fld w 0 10 = 0 then .ok (.bjoin (bv 2 w 22) (bv 6 w 16) (bv 6 w 10))
    else .error .illegalEnc
  | 3 => if fld w 0 10 = 0 then .ok (.bleave (bv 2 w 22) (bv 6 w 16) (bv 6 w 10))
    else .error .illegalEnc
  | 4 => if fld w 3 1 = 0 ∧ fld w 16 6 = 0 then .ok (.binit (bv 2 w 22) (bv 6 w 10) (bv 6 w 4) (bv 3 w 0))
    else .error .illegalEnc
  | 5 => if fld w 19 3 = 0 then .ok (.evbind (bv 2 w 22) (bv 3 w 16) (bv 6 w 10) (bv 6 w 4) (bv 4 w 0))
    else .error .illegalEnc
  | 6 => if fld w 0 16 = 0 ∧ fld w 19 3 = 0 then .ok (.evunb (bv 2 w 22) (bv 3 w 16))
    else .error .illegalEnc
  | 7 => if fld w 2 8 = 0 ∧ fld w 16 6 = 0 then .ok (.evmask (bv 2 w 22) (bv 6 w 10) (bv 2 w 0))
    else .error .illegalEnc
  | 8 => if fld w 0 16 = 0 then .ok (.evpend (bv 2 w 22) (bv 6 w 16))
    else .error .illegalEnc
  | 9 => if fld w 0 10 = 0 ∧ fld w 16 6 = 0 then .ok (.evclr (bv 2 w 22) (bv 6 w 10))
    else .error .illegalEnc
  | 10 => if fld w 0 10 = 0 ∧ fld w 22 2 = 0 then .ok (.waitany (bv 6 w 16) (bv 6 w 10))
    else .error .illegalEnc
  | 11 => if fld w 1 3 = 0 then .ok (.mbsend (bv 2 w 22) (bv 6 w 16) (bv 6 w 10) (bv 6 w 4) (bv 1 w 0))
    else .error .illegalEnc
  | 12 => if fld w 0 10 = 0 then .ok (.mbrecv (bv 2 w 22) (bv 6 w 16) (bv 6 w 10))
    else .error .illegalEnc
  | 13 => if fld w 0 10 = 0 ∧ fld w 16 6 = 0 then .ok (.sleep (bv 2 w 22) (bv 6 w 10))
    else if fld w 0 10 = 1 then .ok (.sleepEv (bv 2 w 22) (bv 6 w 16) (bv 6 w 10))
    else .error .illegalEnc
  | 14 => if fld w 0 22 = 0 then .ok (.gbar (bv 2 w 22))
    else .error .illegalEnc
  | _ => .error .illegalOp

/-- Words whose opcode is 0xC0 to 0xCF (Table 8.10); `w` is the word and `o` the opcode's low digit. -/
def decodeRowC (w o : Nat) : Except DecodeError Instr :=
  match o with
  | 0 => if fld w 0 4 = 0 then .ok (.invoke (bv 2 w 22) (bv 6 w 16) (bv 6 w 10) (bv 6 w 4))
    else .error .illegalEnc
  | 1 => if fld w 0 4 = 0 then .ok (.invokef (bv 2 w 22) (bv 6 w 16) (bv 6 w 10) (bv 6 w 4))
    else .error .illegalEnc
  | 2 => if fld w 0 4 = 0 then .ok (.fget (bv 2 w 22) (bv 6 w 16) (bv 6 w 10) (bv 6 w 4))
    else .error .illegalEnc
  | 3 => if fld w 0 4 = 0 then .ok (.fpoll (bv 2 w 22) (bv 6 w 16) (bv 6 w 10) (bv 6 w 4))
    else .error .illegalEnc
  | 4 => if fld w 0 10 = 0 ∧ fld w 16 6 = 0 then .ok (.fdrop (bv 2 w 22) (bv 6 w 10))
    else .error .illegalEnc
  | 5 => if fld w 1 15 = 0 then .ok (.taskarg (bv 2 w 22) (bv 6 w 16) (bv 1 w 0))
    else .error .illegalEnc
  | 6 => if fld w 0 10 = 0 ∧ fld w 16 6 = 0 then .ok (.taskret (bv 2 w 22) (bv 6 w 10))
    else .error .illegalEnc
  | 7 => if fld w 0 10 = 0 ∧ fld w 16 6 = 0 then .ok (.taskbrk (bv 2 w 22) (bv 6 w 10))
    else .error .illegalEnc
  | 8 => if fld w 0 4 = 0 then .ok (.launch (bv 2 w 22) (bv 6 w 16) (bv 6 w 10) (bv 6 w 4))
    else .error .illegalEnc
  | 9 => if fld w 0 10 = 0 then .ok (.depsig (bv 2 w 22) (bv 6 w 16) (bv 6 w 10))
    else .error .illegalEnc
  | 10 => if fld w 0 4 = 0 ∧ fld w 16 6 = 0 then .ok (.regroup (bv 2 w 22) (bv 6 w 10) (bv 6 w 4))
    else .error .illegalEnc
  | _ => .error .illegalOp

/-- Words whose opcode is 0xD0 to 0xDF (Table 8.10); `w` is the word and `o` the opcode's low digit. -/
def decodeRowD (w o : Nat) : Except DecodeError Instr :=
  match o with
  | 0 => if fld w 16 8 = 0 then .ok (.trap (bv 16 w 0))
    else .error .illegalEnc
  | 1 => if fld w 1 23 = 0 then .ok (.tret (bv 1 w 0))
    else .error .illegalEnc
  | 2 => .ok (.ctlr (bv 2 w 22) (bv 6 w 16) (bv 16 w 0))
  | 3 => .ok (.ctlw (bv 2 w 22) (bv 6 w 16) (bv 16 w 0))
  | 4 => if fld w 0 22 = 1 then .ok (.tlbinvAll (bv 2 w 22))
    else if fld w 0 4 = 0 ∧ fld w 16 6 = 0 then .ok (.tlbinv (bv 2 w 22) (bv 6 w 10) (bv 6 w 4))
    else .error .illegalEnc
  | 5 => if fld w 16 8 = 0 then .ok (.brk (bv 16 w 0))
    else .error .illegalEnc
  | 6 => if fld w 3 13 = 0 then .ok (.perfr (bv 2 w 22) (bv 6 w 16) (bv 3 w 0))
    else .error .illegalEnc
  | 7 => if fld w 0 22 = 0 then .ok (.yield (bv 2 w 22))
    else .error .illegalEnc
  | _ => .error .illegalOp

/-- The instruction a word stands for, or why it stands for none (R214, R215, R229). -/
def decode (x : Word) : Except DecodeError Instr :=
  let w := x.toNat
  let o := fld w 24 4
  match fld w 28 4 with
  | 0 => decodeRow0 w o
  | 1 => decodeRow1 w o
  | 2 => decodeRow2 w o
  | 3 => decodeRow3 w o
  | 4 => decodeRow4 w o
  | 5 => decodeRow5 w o
  | 6 => decodeRow6 w o
  | 7 => decodeRow7 w o
  | 8 => decodeRow8 w o
  | 9 => decodeRow9 w o
  | 10 => decodeRowA w o
  | 11 => decodeRowB w o
  | 12 => decodeRowC w o
  | 13 => decodeRowD w o
  | _ => .error .illegalOp

/-- The word of an instruction, as a number: the opcode and each field in its place (Table 8.2); none for an operation that has no word. -/
def encodeNat (i : Instr) : Option Nat :=
  match i with
  | .nop nx => some (0 + nx.toNat * 4194304)
  | .halt => some (16777216)
  | .setbt nx i => some (33554432 + nx.toNat * 4194304 + i.toNat)
  | .setbts nx a => some (50331648 + nx.toNat * 4194304 + a.toNat * 1024)
  | .setlt nx i => some (67108864 + nx.toNat * 4194304 + i.toNat)
  | .setlc nx a => some (83886080 + nx.toNat * 4194304 + a.toNat * 1024)
  | .savepc nx d s => some (100663296 + nx.toNat * 4194304 + d.toNat * 65536 + s.toNat)
  | .setmode nx a => some (117440512 + nx.toNat * 4194304 + a.toNat * 1024)
  | .getmode nx d => some (134217728 + nx.toNat * 4194304 + d.toNat * 65536)
  | .scmp nx t a b c => some (151388160 + nx.toNat * 4194304 + t.toNat * 65536 + a.toNat * 1024 + b.toNat * 16 + c.toNat)
  | .scmpi nx u c a i => some (167772160 + nx.toNat * 4194304 + u.toNat * 1048576 + c.toNat * 65536 + a.toNat * 1024 + i.toNat)
  | .readsr nx d i => some (184549376 + nx.toNat * 4194304 + d.toNat * 65536 + i.toNat)
  | .ssel nx d a b f => some (218103808 + nx.toNat * 4194304 + d.toNat * 65536 + a.toNat * 1024 + b.toNat * 16 + f.toNat)
  | .smovi nx d i => some (234881024 + nx.toNat * 4194304 + d.toNat * 65536 + i.toNat)
  | .smovk1 nx d i => some (251658240 + nx.toNat * 4194304 + d.toNat * 65536 + i.toNat)
  | .sadd nx d a b f => some (268435456 + nx.toNat * 4194304 + d.toNat * 65536 + a.toNat * 1024 + b.toNat * 16 + f.toNat)
  | .ssub nx d a b f => some (285212672 + nx.toNat * 4194304 + d.toNat * 65536 + a.toNat * 1024 + b.toNat * 16 + f.toNat)
  | .smul nx d a b => some (301989888 + nx.toNat * 4194304 + d.toNat * 65536 + a.toNat * 1024 + b.toNat * 16)
  | .smulh nx d a b u => some (318767104 + nx.toNat * 4194304 + d.toNat * 65536 + a.toNat * 1024 + b.toNat * 16 + u.toNat)
  | .sdiv nx d a b u => some (335544320 + nx.toNat * 4194304 + d.toNat * 65536 + a.toNat * 1024 + b.toNat * 16 + u.toNat)
  | .srem nx d a b u => some (352321536 + nx.toNat * 4194304 + d.toNat * 65536 + a.toNat * 1024 + b.toNat * 16 + u.toNat)
  | .sand nx d a b => some (369098752 + nx.toNat * 4194304 + d.toNat * 65536 + a.toNat * 1024 + b.toNat * 16)
  | .sor nx d a b => some (385875968 + nx.toNat * 4194304 + d.toNat * 65536 + a.toNat * 1024 + b.toNat * 16)
  | .sxor nx d a b => some (402653184 + nx.toNat * 4194304 + d.toNat * 65536 + a.toNat * 1024 + b.toNat * 16)
  | .sshl nx d a b => some (419430400 + nx.toNat * 4194304 + d.toNat * 65536 + a.toNat * 1024 + b.toNat * 16)
  | .sshr nx d a b => some (436207616 + nx.toNat * 4194304 + d.toNat * 65536 + a.toNat * 1024 + b.toNat * 16)
  | .ssra nx d a b => some (452984832 + nx.toNat * 4194304 + d.toNat * 65536 + a.toNat * 1024 + b.toNat * 16)
  | .smin nx d a b u => some (469762048 + nx.toNat * 4194304 + d.toNat * 65536 + a.toNat * 1024 + b.toNat * 16 + u.toNat)
  | .smax nx d a b u => some (486539264 + nx.toNat * 4194304 + d.toNat * 65536 + a.toNat * 1024 + b.toNat * 16 + u.toNat)
  | .sld nx d a b l => some (536870912 + nx.toNat * 4194304 + d.toNat * 65536 + a.toNat * 1024 + b.toNat * 16 + l.toNat)
  | .sldi nx d a w i => some (553648128 + nx.toNat * 4194304 + d.toNat * 65536 + a.toNat * 1024 + w.toNat * 128 + i.toNat)
  | .sst nx d a b l => some (570425344 + nx.toNat * 4194304 + d.toNat * 65536 + a.toNat * 1024 + b.toNat * 16 + l.toNat)
  | .ssti nx d a w i => some (587202560 + nx.toNat * 4194304 + d.toNat * 65536 + a.toNat * 1024 + w.toNat * 128 + i.toNat)
  | .satom nx d a p o => some (603979776 + nx.toNat * 4194304 + d.toNat * 65536 + a.toNat * 1024 + p.toNat * 16 + o.toNat)
  | .scnt nx d a c => some (620756992 + nx.toNat * 4194304 + d.toNat * 65536 + a.toNat * 1024 + c.toNat)
  | .saddi nx d a i => some (637534208 + nx.toNat * 4194304 + d.toNat * 65536 + a.toNat * 1024 + i.toNat)
  | .sandi nx d a i => some (654311424 + nx.toNat * 4194304 + d.toNat * 65536 + a.toNat * 1024 + i.toNat)
  | .sori nx d a i => some (671088640 + nx.toNat * 4194304 + d.toNat * 65536 + a.toNat * 1024 + i.toNat)
  | .sshli nx d a i => some (687865856 + nx.toNat * 4194304 + d.toNat * 65536 + a.toNat * 1024 + i.toNat)
  | .sshri nx d a i => some (704643072 + nx.toNat * 4194304 + d.toNat * 65536 + a.toNat * 1024 + i.toNat)
  | .ssrai nx d a i => some (721420288 + nx.toNat * 4194304 + d.toNat * 65536 + a.toNat * 1024 + i.toNat)
  | .smuli nx d a i => some (738197504 + nx.toNat * 4194304 + d.toNat * 65536 + a.toNat * 1024 + i.toNat)
  | .sext nx d a w => some (754974720 + nx.toNat * 4194304 + d.toNat * 65536 + a.toNat * 1024 + w.toNat)
  | .smovk2 nx d i => some (771751936 + nx.toNat * 4194304 + d.toNat * 65536 + i.toNat)
  | .smovk3 nx d i => some (788529152 + nx.toNat * 4194304 + d.toNat * 65536 + i.toNat)
  | .vadd nx d a b => some (805306368 + nx.toNat * 4194304 + d.toNat * 65536 + a.toNat * 1024 + b.toNat * 16)
  | .vsub nx d a b => some (822083584 + nx.toNat * 4194304 + d.toNat * 65536 + a.toNat * 1024 + b.toNat * 16)
  | .vmul nx d a b => some (838860800 + nx.toNat * 4194304 + d.toNat * 65536 + a.toNat * 1024 + b.toNat * 16)
  | .vmad nx d a b g => some (855638016 + nx.toNat * 4194304 + d.toNat * 65536 + a.toNat * 1024 + b.toNat * 16 + g.toNat)
  | .vmin nx d a b => some (872415232 + nx.toNat * 4194304 + d.toNat * 65536 + a.toNat * 1024 + b.toNat * 16)
  | .vmax nx d a b => some (889192448 + nx.toNat * 4194304 + d.toNat * 65536 + a.toNat * 1024 + b.toNat * 16)
  | .vabs nx d a => some (905969664 + nx.toNat * 4194304 + d.toNat * 65536 + a.toNat * 1024)
  | .vneg nx d a => some (922746880 + nx.toNat * 4194304 + d.toNat * 65536 + a.toNat * 1024)
  | .vdiv nx d a b l => some (939524096 + nx.toNat * 4194304 + d.toNat * 65536 + a.toNat * 1024 + b.toNat * 16 + l.toNat)
  | .vrem nx d a b => some (956301312 + nx.toNat * 4194304 + d.toNat * 65536 + a.toNat * 1024 + b.toNat * 16)
  | .vsqrt nx d a l => some (973078528 + nx.toNat * 4194304 + d.toNat * 65536 + a.toNat * 1024 + l.toNat)
  | .vrcp nx d a l => some (989855744 + nx.toNat * 4194304 + d.toNat * 65536 + a.toNat * 1024 + l.toNat)
  | .vrsq nx d a l => some (1006632960 + nx.toNat * 4194304 + d.toNat * 65536 + a.toNat * 1024 + l.toNat)
  | .vexp2 nx d a l => some (1023410176 + nx.toNat * 4194304 + d.toNat * 65536 + a.toNat * 1024 + l.toNat)
  | .vlog2 nx d a l => some (1040187392 + nx.toNat * 4194304 + d.toNat * 65536 + a.toNat * 1024 + l.toNat)
  | .vsincos nx d a l => some (1056964608 + nx.toNat * 4194304 + d.toNat * 65536 + a.toNat * 1024 + l.toNat)
  | .vand nx d a b => some (1073741824 + nx.toNat * 4194304 + d.toNat * 65536 + a.toNat * 1024 + b.toNat * 16)
  | .vor nx d a b => some (1090519040 + nx.toNat * 4194304 + d.toNat * 65536 + a.toNat * 1024 + b.toNat * 16)
  | .vxor nx d a b => some (1107296256 + nx.toNat * 4194304 + d.toNat * 65536 + a.toNat * 1024 + b.toNat * 16)
  | .vnot nx d a => some (1124073472 + nx.toNat * 4194304 + d.toNat * 65536 + a.toNat * 1024)
  | .vshl nx d a b => some (1140850688 + nx.toNat * 4194304 + d.toNat * 65536 + a.toNat * 1024 + b.toNat * 16)
  | .vshr nx d a b => some (1157627904 + nx.toNat * 4194304 + d.toNat * 65536 + a.toNat * 1024 + b.toNat * 16)
  | .vsra nx d a b => some (1174405120 + nx.toNat * 4194304 + d.toNat * 65536 + a.toNat * 1024 + b.toNat * 16)
  | .vmulh nx d a b => some (1191182336 + nx.toNat * 4194304 + d.toNat * 65536 + a.toNat * 1024 + b.toNat * 16)
  | .vcmp nx d a b c => some (1207959552 + nx.toNat * 4194304 + d.toNat * 65536 + a.toNat * 1024 + b.toNat * 16 + c.toNat)
  | .vsel nx d a b k => some (1224736768 + nx.toNat * 4194304 + d.toNat * 65536 + a.toNat * 1024 + b.toNat * 16 + k.toNat)
  | .vcvt nx d a t x r => some (1241513984 + nx.toNat * 4194304 + d.toNat * 65536 + a.toNat * 1024 + t.toNat * 16 + x.toNat * 4 + r.toNat)
  | .vclass nx d a => some (1258291200 + nx.toNat * 4194304 + d.toNat * 65536 + a.toNat * 1024)
  | .vaddi nx d a i => some (1275068416 + nx.toNat * 4194304 + d.toNat * 65536 + a.toNat * 1024 + i.toNat)
  | .vmovs nx d a => some (1291845632 + nx.toNat * 4194304 + d.toNat * 65536 + a.toNat * 1024)
  | .vmovi nx d i => some (1308622848 + nx.toNat * 4194304 + d.toNat * 65536 + i.toNat)
  | .vmov nx d a => some (1325400064 + nx.toNat * 4194304 + d.toNat * 65536 + a.toNat * 1024)
  | .vlane nx d => some (1342177280 + nx.toNat * 4194304 + d.toNat * 65536)
  | .vperm nx d a b => some (1358954496 + nx.toNat * 4194304 + d.toNat * 65536 + a.toNat * 1024 + b.toNat * 16)
  | .vshfl nx d a k s => some (1375731712 + nx.toNat * 4194304 + d.toNat * 65536 + a.toNat * 1024 + k.toNat * 16 + s.toNat)
  | .vred nx d a o => some (1392508928 + nx.toNat * 4194304 + d.toNat * 65536 + a.toNat * 1024 + o.toNat)
  | .vscan nx d a x o => some (1409286144 + nx.toNat * 4194304 + d.toNat * 65536 + a.toNat * 1024 + x.toNat * 8 + o.toNat)
  | .vextr nx d a b => some (1426063360 + nx.toNat * 4194304 + d.toNat * 65536 + a.toNat * 1024 + b.toNat * 16)
  | .vinsr nx d a b => some (1442840576 + nx.toNat * 4194304 + d.toNat * 65536 + a.toNat * 1024 + b.toNat * 16)
  | .vvote nx d a s => some (1459617792 + nx.toNat * 4194304 + d.toNat * 65536 + a.toNat * 1024 + s.toNat)
  | .vvotePballot nx d a => some (1459617795 + nx.toNat * 4194304 + d.toNat * 65536 + a.toNat * 1024)
  | .vpack nx d a t s => some (1476395008 + nx.toNat * 4194304 + d.toNat * 65536 + a.toNat * 1024 + t.toNat * 4 + s.toNat)
  | .vunpk nx d a s => some (1493172224 + nx.toNat * 4194304 + d.toNat * 65536 + a.toNat * 1024 + s.toNat)
  | .vcmpi nx c p a i => some (1509949440 + nx.toNat * 4194304 + c.toNat * 524288 + p.toNat * 65536 + a.toNat * 1024 + i.toNat)
  | .vdot4 nx d a b => some (1526726656 + nx.toNat * 4194304 + d.toNat * 65536 + a.toNat * 1024 + b.toNat * 16)
  | .vdot2 nx d a b => some (1543503872 + nx.toNat * 4194304 + d.toNat * 65536 + a.toNat * 1024 + b.toNat * 16)
  | .vbfe nx d a b g => some (1560281088 + nx.toNat * 4194304 + d.toNat * 65536 + a.toNat * 1024 + b.toNat * 16 + g.toNat)
  | .vbfi nx d a b => some (1577058304 + nx.toNat * 4194304 + d.toNat * 65536 + a.toNat * 1024 + b.toNat * 16)
  | .vcnt nx d a s => some (1593835520 + nx.toNat * 4194304 + d.toNat * 65536 + a.toNat * 1024 + s.toNat)
  | .vtilth nx d a b => some (1610612736 + nx.toNat * 4194304 + d.toNat * 65536 + a.toNat * 1024 + b.toNat * 16)
  | .vuntilth nx d a => some (1627389952 + nx.toNat * 4194304 + d.toNat * 65536 + a.toNat * 1024)
  | .vexpo nx d a => some (1644167168 + nx.toNat * 4194304 + d.toNat * 65536 + a.toNat * 1024)
  | .vldexp nx d a b => some (1660944384 + nx.toNat * 4194304 + d.toNat * 65536 + a.toNat * 1024 + b.toNat * 16)
  | .pand nx d a b s => some (1879048192 + nx.toNat * 4194304 + d.toNat * 65536 + a.toNat * 1024 + b.toNat * 16 + s.toNat)
  | .por nx d a b s => some (1895825408 + nx.toNat * 4194304 + d.toNat * 65536 + a.toNat * 1024 + b.toNat * 16 + s.toNat)
  | .pxor nx d a b s => some (1912602624 + nx.toNat * 4194304 + d.toNat * 65536 + a.toNat * 1024 + b.toNat * 16 + s.toNat)
  | .pnot nx d a => some (1929379840 + nx.toNat * 4194304 + d.toNat * 65536 + a.toNat * 1024)
  | .pmov nx d a => some (1946157056 + nx.toNat * 4194304 + d.toNat * 65536 + a.toNat * 1024)
  | .pmovFs nx d a => some (1946157057 + nx.toNat * 4194304 + d.toNat * 65536 + a.toNat * 1024)
  | .pmovTs nx d a => some (1946157058 + nx.toNat * 4194304 + d.toNat * 65536 + a.toNat * 1024)
  | .pcnt nx d a => some (1962934272 + nx.toNat * 4194304 + d.toNat * 65536 + a.toNat * 1024)
  | .pfirst nx d a h => some (1979711488 + nx.toNat * 4194304 + d.toNat * 65536 + a.toNat * 1024 + h.toNat)
  | .pseti nx d h c => some (1996488704 + nx.toNat * 4194304 + d.toNat * 65536 + h.toNat * 64 + c.toNat)
  | .planes nx d s => some (2013265920 + nx.toNat * 4194304 + d.toNat * 65536 + s.toNat)
  | .vld nx d a b l => some (2147483648 + nx.toNat * 4194304 + d.toNat * 65536 + a.toNat * 1024 + b.toNat * 16 + l.toNat)
  | .vst nx d a b l => some (2164260864 + nx.toNat * 4194304 + d.toNat * 65536 + a.toNat * 1024 + b.toNat * 16 + l.toNat)
  | .vlds nx d a b l => some (2181038080 + nx.toNat * 4194304 + d.toNat * 65536 + a.toNat * 1024 + b.toNat * 16 + l.toNat)
  | .vsts nx d a b l => some (2197815296 + nx.toNat * 4194304 + d.toNat * 65536 + a.toNat * 1024 + b.toNat * 16 + l.toNat)
  | .vldb nx d a b l => some (2214592512 + nx.toNat * 4194304 + d.toNat * 65536 + a.toNat * 1024 + b.toNat * 16 + l.toNat)
  | .vatom nx d a p k o => some (2231369728 + nx.toNat * 4194304 + d.toNat * 65536 + a.toNat * 1024 + p.toNat * 128 + k.toNat * 16 + o.toNat)
  | .satomf nx d a t p o => some (2248146944 + nx.toNat * 4194304 + d.toNat * 65536 + a.toNat * 1024 + t.toNat * 128 + p.toNat * 16 + o.toNat)
  | .fence nx p k => some (2264924160 + nx.toNat * 4194304 + p.toNat * 16 + k.toNat)
  | .prefetch nx a b s => some (2281701376 + nx.toNat * 4194304 + a.toNat * 1024 + b.toNat * 16 + s.toNat)
  | .cflush nx a b s => some (2298478592 + nx.toNat * 4194304 + a.toNat * 1024 + b.toNat * 16 + s.toNat)
  | .locq nx d a => some (2315255808 + nx.toNat * 4194304 + d.toNat * 65536 + a.toNat * 1024)
  | .palloc nx v a b t => some (2415919104 + nx.toNat * 4194304 + v.toNat * 65536 + a.toNat * 1024 + b.toNat * 16 + t.toNat)
  | .pfree nx a => some (2432696320 + nx.toNat * 4194304 + a.toNat * 1024)
  | .parm nx a b => some (2449473536 + nx.toNat * 4194304 + a.toNat * 1024 + b.toNat * 16)
  | .pld nx d a l => some (2466250752 + nx.toNat * 4194304 + d.toNat * 65536 + a.toNat * 1024 + l.toNat)
  | .pst nx d a l => some (2483027968 + nx.toNat * 4194304 + d.toNat * 65536 + a.toNat * 1024 + l.toNat)
  | .pstate nx d a => some (2499805184 + nx.toNat * 4194304 + d.toNat * 65536 + a.toNat * 1024)
  | .pwait nx a => some (2516582400 + nx.toNat * 4194304 + a.toNat * 1024)
  | .cpy nx d a b c => some (2533359616 + nx.toNat * 4194304 + d.toNat * 65536 + a.toNat * 1024 + b.toNat * 16 + c.toNat * 8)
  | .cpyt nx d a b c => some (2550136832 + nx.toNat * 4194304 + d.toNat * 65536 + a.toNat * 1024 + b.toNat * 16 + c.toNat * 8)
  | .cpyim nx d a b c => some (2566914048 + nx.toNat * 4194304 + d.toNat * 65536 + a.toNat * 1024 + b.toNat * 16 + c.toNat * 8)
  | .cpym nx d a b c => some (2583691264 + nx.toNat * 4194304 + d.toNat * 65536 + a.toNat * 1024 + b.toNat * 16 + c.toNat * 8)
  | .cpyout nx d a b c r => some (2600468480 + nx.toNat * 4194304 + d.toNat * 65536 + a.toNat * 1024 + b.toNat * 16 + c.toNat * 8 + r.toNat)
  | .publish nx a b => some (2617245696 + nx.toNat * 4194304 + a.toNat * 1024 + b.toNat * 16)
  | .xeng nx d a => some (2634022912 + nx.toNat * 4194304 + d.toNat * 65536 + a.toNat * 1024)
  | .cpybar nx d a => some (2650800128 + nx.toNat * 4194304 + d.toNat * 65536 + a.toNat * 1024)
  | .pinfo nx d a k => some (2667577344 + nx.toNat * 4194304 + d.toNat * 65536 + a.toNat * 1024 + k.toNat)
  | .yacq nx a => some (2684354560 + nx.toNat * 4194304 + a.toNat * 1024)
  | .yrel nx => some (2701131776 + nx.toNat * 4194304)
  | .ystat nx d => some (2717908992 + nx.toNat * 4194304 + d.toNat * 65536)
  | .mloadb nx d q r => some (2734686208 + nx.toNat * 4194304 + d.toNat * 65536 + q.toNat * 2 + r.toNat)
  | .mrun nx d a r => some (2751463424 + nx.toNat * 4194304 + d.toNat * 65536 + a.toNat * 1024 + r.toNat)
  | .mzero nx a => some (2768240640 + nx.toNat * 4194304 + a.toNat * 1024)
  | .mreadg nx d a => some (2785017856 + nx.toNat * 4194304 + d.toNat * 65536 + a.toNat * 1024)
  | .mhalt nx d => some (2801795072 + nx.toNat * 4194304 + d.toNat * 65536)
  | .mdrain nx => some (2818572288 + nx.toNat * 4194304)
  | .msave nx a => some (2835349504 + nx.toNat * 4194304 + a.toNat * 1024)
  | .mrest nx a => some (2852126720 + nx.toNat * 4194304 + a.toNat * 1024)
  | .mbands nx a => some (2868903936 + nx.toNat * 4194304 + a.toNat * 1024)
  | .mcadr nx d a b c t => some (2885681152 + nx.toNat * 4194304 + d.toNat * 65536 + a.toNat * 1024 + b.toNat * 16 + c.toNat * 8 + t.toNat)
  | .maccg nx d a => some (2902458368 + nx.toNat * 4194304 + d.toNat * 65536 + a.toNat * 1024)
  | .barrive nx d a b => some (2952790016 + nx.toNat * 4194304 + d.toNat * 65536 + a.toNat * 1024 + b.toNat * 16)
  | .bwait nx a b => some (2969567232 + nx.toNat * 4194304 + a.toNat * 1024 + b.toNat * 16)
  | .bjoin nx d a => some (2986344448 + nx.toNat * 4194304 + d.toNat * 65536 + a.toNat * 1024)
  | .bleave nx d a => some (3003121664 + nx.toNat * 4194304 + d.toNat * 65536 + a.toNat * 1024)
  | .binit nx a b p => some (3019898880 + nx.toNat * 4194304 + a.toNat * 1024 + b.toNat * 16 + p.toNat)
  | .evbind nx k a b t => some (3036676096 + nx.toNat * 4194304 + k.toNat * 65536 + a.toNat * 1024 + b.toNat * 16 + t.toNat)
  | .evunb nx k => some (3053453312 + nx.toNat * 4194304 + k.toNat * 65536)
  | .evmask nx a s => some (3070230528 + nx.toNat * 4194304 + a.toNat * 1024 + s.toNat)
  | .evpend nx d => some (3087007744 + nx.toNat * 4194304 + d.toNat * 65536)
  | .evclr nx a => some (3103784960 + nx.toNat * 4194304 + a.toNat * 1024)
  | .waitany d a => some (3120562176 + d.toNat * 65536 + a.toNat * 1024)
  | .mbsend nx d a b t => some (3137339392 + nx.toNat * 4194304 + d.toNat * 65536 + a.toNat * 1024 + b.toNat * 16 + t.toNat)
  | .mbrecv nx d a => some (3154116608 + nx.toNat * 4194304 + d.toNat * 65536 + a.toNat * 1024)
  | .sleep nx a => some (3170893824 + nx.toNat * 4194304 + a.toNat * 1024)
  | .sleepEv nx d a => some (3170893825 + nx.toNat * 4194304 + d.toNat * 65536 + a.toNat * 1024)
  | .gbar nx => some (3187671040 + nx.toNat * 4194304)
  | .invoke nx d a b => some (3221225472 + nx.toNat * 4194304 + d.toNat * 65536 + a.toNat * 1024 + b.toNat * 16)
  | .invokef nx d a b => some (3238002688 + nx.toNat * 4194304 + d.toNat * 65536 + a.toNat * 1024 + b.toNat * 16)
  | .fget nx d a b => some (3254779904 + nx.toNat * 4194304 + d.toNat * 65536 + a.toNat * 1024 + b.toNat * 16)
  | .fpoll nx d a b => some (3271557120 + nx.toNat * 4194304 + d.toNat * 65536 + a.toNat * 1024 + b.toNat * 16)
  | .fdrop nx a => some (3288334336 + nx.toNat * 4194304 + a.toNat * 1024)
  | .taskarg nx d s => some (3305111552 + nx.toNat * 4194304 + d.toNat * 65536 + s.toNat)
  | .taskret nx a => some (3321888768 + nx.toNat * 4194304 + a.toNat * 1024)
  | .taskbrk nx a => some (3338665984 + nx.toNat * 4194304 + a.toNat * 1024)
  | .launch nx d a b => some (3355443200 + nx.toNat * 4194304 + d.toNat * 65536 + a.toNat * 1024 + b.toNat * 16)
  | .depsig nx d a => some (3372220416 + nx.toNat * 4194304 + d.toNat * 65536 + a.toNat * 1024)
  | .regroup nx a b => some (3388997632 + nx.toNat * 4194304 + a.toNat * 1024 + b.toNat * 16)
  | .trap i => some (3489660928 + i.toNat)
  | .tret s => some (3506438144 + s.toNat)
  | .ctlr nx d i => some (3523215360 + nx.toNat * 4194304 + d.toNat * 65536 + i.toNat)
  | .ctlw nx d i => some (3539992576 + nx.toNat * 4194304 + d.toNat * 65536 + i.toNat)
  | .tlbinv nx a b => some (3556769792 + nx.toNat * 4194304 + a.toNat * 1024 + b.toNat * 16)
  | .tlbinvAll nx => some (3556769793 + nx.toNat * 4194304)
  | .brk i => some (3573547008 + i.toNat)
  | .perfr nx d c => some (3590324224 + nx.toNat * 4194304 + d.toNat * 65536 + c.toNat)
  | .yield nx => some (3607101440 + nx.toNat * 4194304)
  | .llResultWrite _ => none
  | .translationWalk _ _ _ => none
  | .faultResponse _ _ => none
  | .faultQueueHeadUpdate _ => none
  | .fqcfgWrite _ => none
  | .writeThroughPerform _ => none
  | .sliceAtomicPerform _ => none
  | .predictorDecay => none
  | .lineEviction _ => none
  | .hostSnoop _ _ => none
  | .hostMemAccess _ _ _ _ => none
  | .rdmaWrite _ _ => none
  | .peerRequest _ _ => none
  | .peerResponse _ _ _ => none
  | .peerTimeout => none
  | .barrierUnitOperation _ => none
  | .transferBlock _ => none
  | .plotAccessEnd _ _ => none
  | .publishPoint _ => none
  | .rowInjection _ => none
  | .rowGarnerUpdate _ => none
  | .bandUp _ => none
  | .leaseEnd _ => none
  | .taskArrival _ => none
  | .sheafTimeout _ _ => none
  | .poolGrant _ _ => none
  | .frtTaskEnd _ => none
  | .forwardArrival _ => none
  | .dropArrival _ => none
  | .futureAnswerArrival _ _ => none
  | .peerTaskMessage _ _ _ => none
  | .recordTake _ _ => none
  | .taskRecordTake _ _ => none
  | .fabricEnqueue _ _ => none
  | .overflowMove _ _ _ => none
  | .leadershipMove _ _ _ => none
  | .leaderThrottleTimeout => none
  | .groupBind _ => none
  | .groupResident _ => none
  | .gangWaitTimeout _ => none
  | .firedEntryTake _ => none
  | .rotationTick => none
  | .freezeBegin _ => none
  | .freezeEnd _ => none
  | .telemetrySample _ _ _ _ _ => none
  | .emergencyExit => none
  | .thermalTrip _ => none
  | .thermalTripRelease _ => none
  | .droopTrip _ => none
  | .stretchEnd _ => none
  | .halvedIssueEnd _ => none
  | .pwcWatchdogExpiry => none
  | .reeveWatchdogExpiry _ => none
  | .dieResetDone => none
  | .ageingReplan _ _ => none
  | .eventTimerExpiry _ _ => none
  | .sleepExpiry _ => none
  | .preemptD1Expiry _ => none
  | .preemptD2Expiry _ => none
  | .autoSurrender _ => none
  | .contextSaveComplete _ => none
  | .restoreBind _ => none
  | .ctxLoad _ _ => none
  | .ctxDestroy _ _ => none
  | .preempt _ _ _ _ => none
  | .restore _ _ _ => none
  | .killRegion _ _ _ => none
  | .tlbinvCommand _ _ _ _ => none
  | .summary _ _ _ => none
  | .dieDrain _ _ => none
  | .dieOnline _ _ => none
  | .keyLoad _ _ _ => none
  | .keyEmpty _ _ => none
  | .debugAttach _ _ => none
  | .debugDetach _ _ => none
  | .debugResume _ _ _ _ _ => none
  | .peerWindow _ _ _ _ _ _ _ => none
  | .peerBind _ _ _ _ => none
  | .fwUpdate _ _ _ _ => none
  | .lcChange _ _ => none
  | .warmReset => none
  | .mgmtBadRecord _ => none
  | .eventRecordWrite => none
  | .eventQueueHeadUpdate _ => none
  | .frtbaseWrite _ _ => none
  | .nodeidWrite _ => none
  | .rotcfgWrite _ => none
  | .registerWrite _ _ => none
  | .coldReset _ => none
  | .dieLoss _ => none
  | .linkUp _ _ => none
  | .linkDown _ => none
  | .spdmRequest _ => none
  | .queueDescriptorEnWrite _ _ _ _ => none
  | .msaveMrestComplete _ => none
  | .cflushComplete _ => none
  | .agestatDaysIncrement => none

/-- The word of an instruction (R212). -/
def encode (i : Instr) : Option Word := (encodeNat i).map (BitVec.ofNat 32)

/-- The word that four bytes in memory hold, byte 0 least significant (R10, R212). -/
def wordOfBytes (l : List Byte) : Word :=
  BitVec.ofNat 32 ((l.getD 0 0#8).toNat + 256 * (l.getD 1 0#8).toNat + 65536 * (l.getD 2 0#8).toNat + 16777216 * (l.getD 3 0#8).toNat)

/-- The bytes in memory of the instruction whose bits are `w` (R10, R212). -/
def bytesOfWord (w : Nat) : List Byte :=
  [BitVec.ofNat 8 w, BitVec.ofNat 8 (w / 256), BitVec.ofNat 8 (w / 65536), BitVec.ofNat 8 (w / 16777216)]

/-- The instruction that the decoder reads from an instruction whose bits are `w`, as the opcode table numbers them: every instruction is
one word of 32 bits (R212), so the bits above `nbits` are zero. -/
def decodeTableWord (nbits w : Nat) : Option Instr :=
  match decode (wordOfBytes (bytesOfWord (w % 2 ^ nbits % 2 ^ 32))) with
  | .ok i => some i
  | .error _ => none

end Sys2Proof
end

