-- ==== Sys2Proof/Machine/Issue.lean ====
section
/-! DEFINITION. Sys2Proof/Machine/Issue.lean: what happens to a wave's next instruction before its own meaning: pending steps and pre-emptions
(R369), fetch (R212, R112), decoding, and the checks of R215 up to the lookahead check, with the scoreboard (R219, R220). -/
namespace Sys2Proof.Machine

/-- An instruction-cache line filled from the L2 (R112); a full cache replaces one (Table 0.1, log 54). -/
def fillCode (s : State) (c ctag : Nat) (p : Place) : State × List Byte :=
  let (s, b) := sliceRead s (some c) p.kid (lineOf p.key * 128) 128
  let k := coreOf s c
  let rest := erase k.icache (lineOf p.key)
  let rest := if rest.length ≥ Config.icacheLines then rest.drop 1 else rest
  (setCore s c { k with icache := put rest (lineOf p.key) (ctag, p.kid, b) }, b)

/-- The instruction-cache line of a fetch: a hit on a line of the context that was filled under the key of the page (R32, R39), or a fill (R112). -/
def fetchLine (s : State) (c ctag : Nat) (p : Place) : State × List Byte :=
  match lookup (coreOf s c).icache (lineOf p.key) with
  | some (t, kid, b) => if t = ctag && (isHostKey p.key || kid == p.kid) then (s, b) else fillCode s c ctag p
  | none => fillCode s c ctag p

/-- Fetch the word at a wave's PC (R212): failures as R49 states; one at TBASE in a handler is TBASE_FETCH, recoverable or not (R368). -/
def fetchWord (s : State) (w : Wave) : Check (State × Word) :=
  match translate s (askerOf s w) w.ctag w.pc.toNat 2 false with
  | .error e =>
    if w.handler && w.pc == (ctxOf s w.ctag).tbase then .error (protection 0x30 (argAddr w.pc.toNat))
    else match e with
      | .recoverable nw => .error (.park [{ va := w.pc, kind := 2, nw }])
      | .fatal r => .error (.trap (fatalTrap r w.pc.toNat))
  | .ok p =>
    let (s, b) := fetchLine s (coreNo s w) w.ctag p
    .ok (s, BitVec.ofNat 32 (fieldOf b (p.key % 128) 4))

/-- Whether a PLD or PST names a plot of a 64-bit format through its reference (R323). -/
def meetsWide (s : State) (w : Wave) (i : Instr) : Bool :=
  let wide := fun (a : BitVec 6) =>
    match plotFor s w.group (bitsAt (w.sreg a.toNat).toNat 32 32) with
    | .ok (_, p) => isWide p.fmt.toNat
    | .error _ => false
  match i with
  | .pld _ _ a _ => wide a
  | .pst _ _ a _ => wide a
  | _ => false

/-- The registers whose values decide which further registers an instruction names: the reference of a PLD or PST (R323). -/
def namingRegs (i : Instr) : List RegName :=
  match i with
  | .pld _ _ a _ => [.s a.toNat]
  | .pst _ _ a _ => [.s a.toNat]
  | _ => []

/-- Class code and number of a register in TINFO (Table 14.2). -/
def regCode (r : RegName) : Nat :=
  match r with
  | .s n => 4 * n
  | .v n => 1 + 4 * n
  | .p n => 2 + 4 * n

/-- Scalar registers before vector registers, lower numbers first. -/
def regOrder (r : RegName) : Nat := regCode r % 4 * 64 + regCode r / 4

/-- The lookahead check (R219, R220): the lowest watched register that is named, of the oldest window broken. -/
def brokenWindow (w : Wave) (names : List RegName) : Option Trap :=
  (w.windows.findSome? fun win =>
    let hit := names.filter fun r => win.regs.contains r
    match hit with
    | [] => none
    | r :: rest => some (rest.foldl (fun b x => if regOrder x < regOrder b then x else b) r, win.pc)).map fun e =>
      ⟨4, regCode e.1, argAddr e.2.toNat, 0#32⟩

/-- Every open window counts one place (R220). -/
def countWindows (w : Wave) : Wave :=
  { w with windows := w.windows.filterMap fun x => if x.left ≤ 1 then none else some { x with left := x.left - 1 } }

/-- Results that an instruction names are written before it issues (R219), and the wait is counted (Table 13.5). One that a yoke's runs still owe is waited
for (R87). -/
def waitForRegs (s : State) (u : Nat) (names : List RegName) : State :=
  let hit := fun (p : Pending) => p.regs.any names.contains
  match lookup s.waves u with
  | none => s
  | some w =>
    if w.pending.any hit then
      let s := completeResults s u hit
      let w := waveOf s u
      let here := fun (p : Pending) => hit p && p.ready
      let w1 := (w.pending.filter here).foldl (fun w p => applyWrites w p.writes) w
      setWave s u { w1 with
        pending := w1.pending.filter fun p => !here p
        ctr := { w1.ctr with sbwait := w1.ctr.sbwait + BitVec.ofNat 64 (Config.scoreboardCycles s.stepNo) } }
    else s

/-- The decoded instruction of a word, or its trap (R215 steps 2 and 3): ILLEGAL_OP or ILLEGAL_ENC, naming the word. -/
def decodeFor (w : Wave) (x : Word) : Except Trap Instr :=
  match decode x with
  | .error .illegalOp => .error ⟨1, 0, x.toNat, 0#32⟩
  | .error .illegalEnc => .error ⟨2, 0, x.toNat, 0#32⟩
  | .ok i => if wellFormed i && wellFormedIn i w.ty then .ok i else .error ⟨2, 0, x.toNat, 0#32⟩

/-- What a wave does at its turn: nothing more than the state given, or the execution of an instruction. -/
inductive Turn where
  | done (s : State)
  | run (i : Instr) (s : State)

/-- Whether a wave has a result outstanding for a register. -/
def awaits (s : State) (u : Nat) (names : List RegName) : Bool := (waveOf s u).pending.any fun p => p.regs.any names.contains

/-- Ready an instruction for its own meaning: the checks of R215 up to the lookahead check, then the scoreboard, then the window count. What an
instruction names depends on the executed order alone (R220): a result that decides it is written first. -/
def issueWord (s : State) (u : Nat) (w : Wave) (x : Word) : Turn :=
  match decodeFor w x with
  | .error t => .done (takeTrap s u t (replayOf t.cause) false)
  | .ok i =>
    let s := waitForRegs s u (namingRegs i)
    if awaits s u (namingRegs i) then .done s
    else
      let w := waveOf s u
      let names := regsOf i w.ty (meetsWide s w i)
      match brokenWindow w names with
      | some t => .done (takeTrap s u t (replayOf t.cause) false)
      | none =>
        let s := waitForRegs s u names
        if awaits s u names then .done s
        else .run i (setWave s u (countWindows (waveOf s u)))

/-- Whether the next instruction of a wave is the second READSR of a CORE and PLACE pair, its last one being the first (R246). -/
def pairNext (s : State) (w : Wave) : Bool :=
  match w.pair, fetchWord s w with
  | some h, .ok (_, x) =>
    (match decode x with
      | .ok (.readsr _ _ i) => i.toNat + h.half == 3
      | _ => false)
  | _, _ => false

/-- Whether a wave has read CORE or PLACE last and the fetch of its next instruction will wait for a page: it may be the second of a pair (R246). -/
def pairWaits (s : State) (w : Wave) : Bool :=
  match w.pair, fetchWord s w with
  | some _, .error (.park _) => true
  | _, _ => false

/-- Whether a pending PREEMPT would stop a wave for its save between the two instructions of a CORE and PLACE pair, where there is no handler (R246, Table 14.5):
it then comes one instruction later. -/
def stopsPair (s : State) (w : Wave) : Bool := pairNext s w && (ctxOf s w.ctag).tbase == 0#64

/-- A wave's turn with nothing pending: its next instruction is fetched and readied (R212, R215). -/
def fetchTurn (s : State) (u : Nat) (w : Wave) : Turn :=
  match fetchWord s w with
  | .error e => .done (stopWave s u e false)
  | .ok (s, x) => issueWord s u w x

/-- The slots of a wave that are bound to throttle notices. -/
def noticeSlots (w : Wave) : List Nat := (List.range 8).filter fun i => (w.slot i).bound && (w.slot i).kind == 5#4

/-- The wave with a context's notice slot (R209): the lowest-numbered one, by core and then wave slot, that holds an event slot of kind throttle-notice. -/
def noticeHolder (s : State) (ctag : Nat) : Option Nat :=
  let place := fun (w : Wave) => 16 * coreNo s w + w.wslot
  ((s.waves.filter fun e => e.2.ctag == ctag && e.2.status != .retired && !(noticeSlots e.2).isEmpty).foldl (fun (b : Option (Nat × Nat)) e =>
    match b with
    | none => some (place e.2, e.1)
    | some x => if place e.2 < x.1 then some (place e.2, e.1) else some x) none).map (·.2)

/-- Whether a throttle notice keeps issue slots for a wave (R209): it holds its context's notice slot, and a notice is pending there. -/
def reserved (s : State) (u : Nat) (w : Wave) : Bool :=
  (noticeSlots w).any (fun i => w.pev.getLsbD i) && noticeHolder s w.ctag == some u

/-- Whether a wave's next instruction is held back by one that has not ended (R170). The hold of a YIELD leaves R209 in force: it ends for a wave for which a
throttle notice keeps slots (R363). -/
def heldBack (s : State) (u : Nat) (w : Wave) : Bool :=
  match w.stall with
  | none => false
  | some (.yield ..) => !reserved s u w
  | some _ => true

/-- A wave's turn (R369): SINGLE_STEP of the instruction just completed, then a pending PREEMPT, then its next instruction. A PREEMPT that abandons a
stalled MDRAIN finds an instruction at TPC that did not perform (R367). -/
def turnOf (s : State) (u : Nat) : Turn :=
  match lookup s.waves u with
  | none => .done s
  | some w =>
    match w.stepDone with
    | some (k, v) => .done (takeTrap s u ⟨15, k.toNat, v, 0#32⟩ false false)
    | none =>
      let held := match w.stall with
        | none => false
        | some (.mdrain _) => false
        | some (.yield ..) => false
        | some _ => true
      match (if w.handler || !w.peer.isEmpty || held || stopsPair s w then none else w.preempt) with
      | some r =>
        let abandons := match w.stall with
          | some (.mdrain _) => true
          | _ => false
        .done (takeTrap (setWave s u { w with stall := none }) u ⟨16, r.reason.toNat, r.deadline % 2 ^ 56, 0#32⟩ abandons false)
      | none =>
        match heldBack s u w, w.stall with
        | true, _ => .done s
        | false, none => fetchTurn s u w
        | false, some _ => fetchTurn (setWave s u { w with stall := none }) u { w with stall := none }

/-- Whether an instruction only waited at issue (R170): the wave is where it was, and has neither ended its instruction nor begun to stall. -/
def onlyWaited (w w' : Wave) : Bool :=
  w'.status == .ready && w'.pc == w.pc && w'.handler == w.handler && w'.ctr.instr == w.ctr.instr && w'.stall == none

/-- A wave has issued an instruction: no other wave's YIELD waits for it any longer (R363). -/
def countIssue (s : State) (u : Nat) : State :=
  { s with waves := s.waves.map fun e =>
      match e.2.stall with
      | some (.yield ws left) =>
        if e.1 = u then e
        else
          let rest := ws.filter (· != u)
          (e.1, { e.2 with stall := if rest.isEmpty then none else some (.yield rest left) })
      | _ => e }

/-- After an instruction has run: one that only waited at issue counts no place in any window (R219); any other counts as an issue for waves that
YIELD (R363), also one with which its wave has left the core. -/
def afterIssue (s : State) (u : Nat) (w : Wave) : State :=
  match lookup s.waves u with
  | none => countIssue s u
  | some w' => if onlyWaited w w' then setWave s u { w' with windows := w.windows } else countIssue s u

/-- Whether a wave can take a turn: READY, not FROZEN, its core not stretched (R395), and not stalled by an instruction that has not ended (R170), unless a
single step's trap or a PREEMPT is due. -/
def canTurn (s : State) (u : Nat) (w : Wave) : Bool :=
  let preempted := w.preempt.isSome && !w.handler
  w.status == .ready && !(groupOf s w.group).frozen && !(coreOf s (coreNo s w)).stretch && (!heldBack s u w || (match w.stall with
    | some (.yield ..) => w.stepDone.isSome || preempted
    | some (.mdrain _) => preempted
    | _ => false))

/-- The least of a list. -/
def least (l : List Nat) : Option Nat :=
  l.foldl (fun (b : Option Nat) x => match b with
    | none => some x
    | some y => some (min x y)) none

/-- The least above `n`, else the least. -/
def leastAfter (n : Nat) (l : List Nat) : Option Nat :=
  match least (l.filter fun k => decide (k > n)) with
  | some k => some k
  | none => least l

/-- A group's place in the division of a core's issue slots (R187, log 15): slots had, weighed by its share, and none saved up while it had no
use for them. -/
def passOf (s : State) (core g : Nat) : Nat := max (groupOf s g).pass (coreOf s core).vtime

/-- The slot that a wave has used is counted. One that was given out by SHARE is charged to its group in inverse proportion to it (R187); one that was kept for
the wave is charged to nobody. -/
def chargeSlot (s : State) (u : Nat) : State :=
  match lookup s.waves u with
  | none => s
  | some w =>
    let c := coreNo s w
    let gr := groupOf s w.group
    let p := passOf s c w.group
    let k := coreOf s c
    if k.kept then setCore s c { k with slots := k.slots + 1 }
    else
      let s := setCore s c { k with vtime := p, slots := k.slots + 1 }
      setGroup s w.group { gr with pass := p + 65536 / max 1 gr.share, lastWave := w.waveId }

/-- The wave that a slot kept for throttle notices goes to (R209): every second slot of a core is kept for the waves with pending notices, which have them in turn,
so that each of at most 16 waves issues within 64 cycles and the others have every other slot (log 15). -/
def noticeSlot (s : State) (core : Nat) (here : AMap Wave) : Option Nat :=
  if (coreOf s core).slots % 2 = 1 then none
  else leastAfter (coreOf s core).lastNotice ((here.filter fun e => reserved s e.1 e.2).map (·.1))

/-- The wave that a slot kept for READY waves in turn goes to (R187): one slot of a core in 64 goes round its wave slots, so that each of at most 16 waves issues
within 1,024 slots, which are fewer than 4,096 cycles also under halved issue (R395, log 15). -/
def turnSlot (s : State) (core : Nat) (here : AMap Wave) : Option Nat :=
  if (coreOf s core).slots % 64 ≠ 1 then none
  else
    let k := leastAfter (coreOf s core).lastTurn (here.map fun e => e.2.wslot)
    (here.find? fun e => some e.2.wslot = k).map (·.1)

/-- The wave that a slot given out by SHARE goes to (R187): of the group with the least pass, of its waves in turn. -/
def shareSlot (s : State) (core : Nat) (here : AMap Wave) : Option Nat :=
  let g := here.foldl (fun (b : Option Nat) e => match b with
    | none => some e.2.group
    | some x => if passOf s core e.2.group < passOf s core x then some e.2.group else some x) none
  let ws := here.filter fun e => some e.2.group = g
  let k := leastAfter ((g.map fun x => (groupOf s x).lastWave).getD 0) (ws.map fun e => e.2.waveId)
  (ws.find? fun e => some e.2.waveId = k).map (·.1)

/-- Give the next issue slot of a core to one of the waves that can take it (R187, R209, log 15). -/
def giveSlot (s : State) (c : Nat) (here : AMap Wave) : State :=
  let k := coreOf s c
  let (u, k) := match noticeSlot s c here, turnSlot s c here with
    | some u, _ => (u, { k with lastNotice := u, kept := true })
    | none, some u => (u, { k with lastTurn := (waveOf s u).wslot, kept := true })
    | none, none => ((shareSlot s c here).getD s.cur, { k with kept := false })
  { setCore s c k with cur := u, turnCore := c }

/-- The next wave to issue (log 15): the cores in turn, on each the wave to which its next slot goes. -/
def nextWave (s : State) : State :=
  let l := s.waves.filter fun e => canTurn s e.1 e.2
  match leastAfter s.turnCore (l.map fun e => coreNo s e.2) with
  | none => s
  | some c => giveSlot s c (l.filter fun e => coreNo s e.2 = c)

/-- Whether the current wave can take a turn. -/
def curReady (s : State) : Bool :=
  match lookup s.waves s.cur with
  | some w => canTurn s s.cur w
  | none => false

/-- The wave whose turn comes next: another one after a wave's turn, and whenever the current one cannot take its turn. -/
def passTurn (turn : Bool) (s : State) : State :=
  let s := if turn then chargeSlot s s.cur else s
  if !turn && curReady s then s else nextWave s

/-- Whether no cycle is counted for a wave: its group is FROZEN or its core stretched (R245, R395). -/
def pausedWave (s : State) (w : Wave) : Bool := (groupOf s w.group).frozen || (coreOf s (coreNo s w)).stretch

/-- The wait of a YIELD ends once 64 cycles have passed (R363). -/
def countYield (n : Nat) (w : Wave) : Wave :=
  match w.stall with
  | some (.yield ws left) => { w with stall := if left ≤ n then none else some (.yield ws (left - n)) }
  | _ => w

/-- Delivered cycles of a step (R245, log 4): CYC of every wave that is not FROZEN or STOPPED, and `.parkcyc` of the PARKED ones. -/
def advanceWave (n core : Nat) (frozen : Bool) (w : Wave) : Wave :=
  let d := if frozen then 0#64 else BitVec.ofNat 64 (Config.deliveredCycles n core)
  let w := if frozen then w else countYield (Config.deliveredCycles n core) w
  match w.status with
  | .ready => { w with cyc := w.cyc + d }
  | .parked _ => { w with cyc := w.cyc + d, ctr := { w.ctr with parkcyc := w.ctr.parkcyc + d } }
  | _ => w

/-- The end of every step: TSC and the cycle counters advance (log 4), the control threads hold word addresses (R212), what waited for the instant to pass or
for room goes on (R154, R303, R310), the slices of the L2s hold no more than they have room for (Table 0.1), and the next wave is chosen; `turn` says that the step was a wave's. -/
def tick (turn : Bool) (s : State) : State :=
  let s : State := { s with
    tsc := s.tsc + BitVec.ofNat 64 (Config.elapsedNs s.stepNo)
    waves := s.waves.map fun (e : Nat × Wave) => (e.1, alignControl (advanceWave s.stepNo (coreNo s e.2) (pausedWave s e.2) e.2))
    stepNo := s.stepNo + 1 }
  passTurn turn (admitWaits (settleChoices (resolveSnaps (trimSlices s)) s.tsc.toNat))

end Sys2Proof.Machine
end

