-- ==== Sys2Proof/Machine/SaveImage.lean ====
section
/-! DEFINITION. Sys2Proof/Machine/SaveImage.lean: settling and the save image (R83, R380-R384, R447): which transfers and groups it holds, its bytes,
and how it is written. -/
namespace Sys2Proof.Machine

/-- A flag bit as a number. -/
def bitNat (b : Bool) (i : Nat) : Nat := if b then 2 ^ i else 0

/-- EVSLOTn as it is read (Table 11.6). -/
def slotWord (e : EvSlot) : Nat := e.kind.toNat + bitNat e.bound 4 + 256 * e.src.toNat

/-- A list of bytes cut or filled with zeros to a length. -/
def padTo (n : Nat) (l : List Byte) : List Byte := l.take n ++ zeroBytes (n - l.length)

/-- Bytes 8,736 to 8,943 of a wave record (Table 14.8). -/
def waveControl (w : Wave) : List Byte :=
  bytesOf 8 w.pc.toNat
  ++ bytesOf 1 (bitNat w.c 0 + bitNat w.z 1 + bitNat w.vf 2 + bitNat w.replay 3 + bitNat w.lastFault.isSome 4 + bitNat w.debugHold 5)
  ++ zeroBytes 1 ++ bytesOf 2 w.mode.toNat ++ zeroBytes 4 ++ bytesOf 8 w.bt.toNat ++ bytesOf 8 w.lt.toNat ++ bytesOf 4 w.lc.toNat
  ++ bytesOf 4 w.live.toNat ++ bytesOf 1 w.pev.toNat ++ bytesOf 1 w.evm.toNat ++ bytesOf 1 w.waveId ++ bytesOf 1 w.mailbox.length
  ++ bytesOf 2 w.pslot ++ zeroBytes 2
  ++ (List.range 8).flatMap (fun i => bytesOf 8 (slotWord (w.slot i)))
  ++ (List.range 8).flatMap (fun i => bytesOf 4 (if (w.slot i).kind = 1#4 then (w.slot i).gen.toNat else 0))
  ++ padTo 64 (w.members.flatMap fun m => bytesOf 8 m.1.toNat)

/-- Bytes 8,944 to 9,255 of a wave record: mailbox, CBAR, COPYERR, counters, trap registers, shadow and fault replay. -/
def waveRest (w : Wave) : List Byte :=
  padTo 128 (w.mailbox.flatMap fun m => bytesOf 8 m.1.toNat ++ bytesOf 1 m.2.toNat ++ zeroBytes 7)
  ++ bytesOf 8 w.cbar.toNat ++ bytesOf 1 w.copyErr.toNat ++ zeroBytes 7 ++ bytesOf 8 w.cyc.toNat
  ++ (List.range 8).flatMap (fun i => bytesOf 8 (counterOf w.ctr i).toNat)
  ++ bytesOf 8 w.trap.tpc.toNat ++ bytesOf 8 w.trap.tcause.toNat ++ bytesOf 8 w.trap.tinfo.toNat ++ bytesOf 8 w.trap.tmask.toNat
  ++ bytesOf 2 w.shadow.mode.toNat ++ bytesOf 1 (bitNat w.shadow.c 0 + bitNat w.shadow.z 1 + bitNat w.shadow.vf 2) ++ zeroBytes 5
  ++ bytesOf 8 w.shadow.bt.toNat ++ bytesOf 8 w.shadow.lt.toNat ++ bytesOf 4 w.shadow.lc.toNat ++ zeroBytes 4
  ++ (match w.lastFault with
      | none => zeroBytes 16
      | some (va, kind, token) => bytesOf 8 va.toNat ++ [kind] ++ zeroBytes 3 ++ bytesOf 4 token)
  ++ zeroBytes 16

/-- Bytes 9,256 to 10,303 of a wave record: the sheaf and its tasks. -/
def waveSheaf (w : Wave) : List Byte :=
  match w.sheaf with
  | none => zeroBytes 1048
  | some sh =>
    bytesOf 8 1 ++ bytesOf 8 sh.entry.toNat ++ bytesOf 8 sh.region.toNat
    ++ (List.range 32).flatMap fun l => match lookup sh.tasks l with
      | none => zeroBytes 32
      | some t => bytesOf 8 t.argp.toNat ++ bytesOf 8 t.val.toNat ++ bytesOf 8 t.future.toNat ++ zeroBytes 8

/-- A wave record (Table 14.8). -/
def waveBytes (w : Wave) : List Byte :=
  (List.range 64).flatMap (fun i => bytesOf 8 (w.sreg i).toNat)
  ++ (List.range 64).flatMap (fun x => (List.range 32).flatMap fun l => bytesOf 4 (w.lane x l).toNat)
  ++ (List.range 8).flatMap (fun k => bytesOf 4 (w.preg k).toNat)
  ++ waveControl w ++ waveRest w ++ waveSheaf w ++ zeroBytes 1984

/-- The opcode that started a transfer (Table 14.7a). -/
def xferOpcode (o : XferOp) : Nat :=
  match o with
  | .cpy => 0x97
  | .cpyt => 0x98
  | .cpyim => 0x99
  | .cpym => 0x9A
  | .cpyout => 0x9B
  | .xeng => 0x9D
  | .mcadr .. => 0

/-- A transfer record (Table 14.7a). -/
def xferBytes (t : Transfer) : List Byte :=
  let x := t.op == .xeng
  let z := fun (d : DWord) => bytesOf 8 (if x then 0 else d.toNat)
  bytesOf 1 (xferOpcode t.op) ++ bytesOf 1 (if x then 0 else t.sub.toNat) ++ zeroBytes 2 ++ bytesOf 4 t.lanes.toNat ++ z t.base ++ z t.ref0 ++ z t.ref1
  ++ z t.opnd ++ bytesOf 8 t.done ++ bytesOf 8 t.bara.toNat ++ zeroBytes 8 ++ padTo 64 t.cmd ++ padTo 128 (t.rowoff.flatMap fun o => bytesOf 4 o.toNat)

/-- The contents of a plot region (Table 14.7): each plot's bytes at its granules, zero elsewhere. DESIGN CHOICE (log 65): a plot of a narrow format, whose
parcels the store cuts into bit planes (R65), has its parcel images slot after slot in the image. -/
def regionBytes (gr : Group) : List Byte :=
  (List.range gr.pngran).flatMap fun k =>
    match gr.plots.find? fun e => decide (e.2.base ≤ k) && decide (k < e.2.base + e.2.ngran) with
    | none => zeroBytes 8192
    | some (_, p) => plotSlice p ((k - p.base) * 8192) 8192

/-- Bits [255:64] of a slot-table entry (Table 7.6). -/
def slotRecord (gr : Group) : Nat :=
  gr.grpid % 2 ^ 48 + gr.launchId.toNat * 2 ^ 48 + gr.lslot % 256 * 2 ^ 80 + gr.prio % 8 * 2 ^ 88 + gr.share % 256 * 2 ^ 91 + gr.ypos % 8 * 2 ^ 99
    + gr.gang % 65536 * 2 ^ 102

/-- Groups of a launch on one cluster that share a group's cluster-level plots, the group among them (R78, R83). -/
def shareSet (s : State) (g : Nat) : List Nat :=
  let gr := groupOf s g
  let mine := s.groups.filter fun e => e.2.launch == gr.launch && gr.launch != 0 && e.2.core / 4 == gr.core / 4 && e.2.state != .saved
  if mine.any fun e => e.2.plots.any fun p => p.2.level then (mine.filter fun e => e.2.gslot != 4).map (·.1) else []

/-- The record of one group (R382), `last` when no record follows; `n` is the offset of the next one. -/
def groupBytes (s : State) (g : Nat) (tag : Nat) (next : Nat) : List Byte :=
  let gr := groupOf s g
  let ws := (s.waves.filter fun e => e.2.group == g && e.2.status != .retired).map (·.2)
  let byId := (List.range 16).flatMap fun i => ws.filter fun w => w.waveId == i
  let xs := (s.transfers.filter fun e => e.2.group == g).map (·.2)
  let shape := ((lookup s.launches gr.launch).map (·.shape)).getD 0#32
  let cols := shapeCols shape.toNat
  let copied := !gr.garnerCopy.isEmpty
  let holder := gr.plots.any fun p => p.2.level
  bytesOf 8 next ++ bytesOf 24 (slotRecord gr) ++ bytesOf 8 gr.region.toNat ++ zeroBytes 24
  ++ bytesOf 4 byId.length ++ bytesOf 4 gr.pngran ++ bytesOf 4 xs.length
  ++ bytesOf 1 (bitNat gr.hadLease 0 + bitNat copied 1 + (if copied then (cols - 1) * 4 else 0)) ++ zeroBytes 3
  ++ bytesOf 8 shape.toNat ++ bytesOf 8 gr.gbar.toNat
  ++ bytesOf 8 (if tag = 0 then 0 else 1 + bitNat holder 1 + tag * 2 ^ 32) ++ zeroBytes 152
  ++ byId.flatMap waveBytes
  ++ (List.range 64).flatMap (fun h => match lookup gr.plots h with
      | none => zeroBytes 32
      | some p => bytesOf 32 (tableEntry gr h p))
  ++ regionBytes gr
  ++ xs.flatMap xferBytes
  ++ gr.garnerCopy

/-- The tag of the share set of a group among the sets of an image, 0 for none: its place among the distinct sets. -/
def shareTagOf (sets : List (List Nat)) (g : Nat) : Nat :=
  match sets.findIdx? fun l => l.contains g with
  | some i => i + 1
  | none => 0

/-- The group records of an image from offset `off` on. -/
def recordsFrom (s : State) (sets : List (List Nat)) (off : Nat) (gs : List Nat) : List Byte :=
  match gs with
  | [] => []
  | g :: rest =>
    let n := (groupBytes s g 0 0).length
    groupBytes s g (shareTagOf sets g) (if rest.isEmpty then 0 else off + n) ++ recordsFrom s sets (off + n) rest

/-- The header (Table 14.6). -/
def headerBytes (s : State) (groups waves len : Nat) (part : Bool) : List Byte :=
  bytesOf 4 1 ++ bytesOf 4 1 ++ bytesOf 8 s.tsc.toNat ++ bytesOf 4 groups ++ bytesOf 4 waves ++ bytesOf 8 4096 ++ bytesOf 8 len
    ++ bytesOf 4 (if part then 1 else 0) ++ zeroBytes 4052

/-- The groups that an image saves: those in scope with a wave that has not retired. -/
def savedGroups (s : State) (ctag : Nat) : List Nat :=
  (scopeGroups s ctag).filter fun g => (groupOf s g).state == .resident && !allRetired s g

/-- The groups of a context that have ended and left their slots, but whose cluster-level plots groups share that are saved (R80, R83). -/
def orphanGroups (s : State) (ctag : Nat) : AMap Group :=
  s.groups.filter fun e => e.2.ctag == ctag && e.2.gslot == 4 && (shareSet s e.1).any (savedGroups s ctag).contains

/-- A granule run for a plot that a group adopts, and the granules that its region then has. DESIGN CHOICE (log 65): the lowest free run of its region, and where there
is none the granules after it. -/
def adoptRun (gr : Group) (n : Nat) : Nat × Nat :=
  match (firstFit gr n).filter fun b => !runHeld gr b n with
  | some b => (b, gr.pngran)
  | none => (gr.pngran, gr.pngran + n)

/-- A cluster-level plot whose holder has ended moves into the region of the sharing group with the lowest GRPID (R83), as the image gives it: on the core the
plot stays where it is until the groups are removed. -/
def adoptPlots (s : State) (ctag : Nat) : State :=
  (orphanGroups s ctag).foldl (fun s e =>
    let set := shareSet s e.1
    match set.foldl (fun b g => match b with
      | none => some g
      | some x => if (groupOf s g).grpid < (groupOf s x).grpid then some g else some x) (none : Option Nat) with
    | none => s
    | some g =>
      let s := (e.2.plots.filter fun p => p.2.level).foldl (fun s p =>
        let gr := groupOf s g
        let r := adoptRun gr p.2.ngran
        if (lookup gr.plots p.1).isSome then s
        else setGroup s g { gr with plots := put gr.plots p.1 { p.2 with base := r.1 }, pngran := r.2 }) s
      { s with
        groups := erase s.groups e.1
        transfers := mapVals s.transfers fun t => { t with plots := t.plots.map fun q => if q.1 = e.1 then (g, q.2) else q } }) s

/-- Whether a transfer belongs to what is being saved: issued by a group in scope, or moving into or out of its plots. -/
def ownTransfer (s : State) (ctag : Nat) (t : Transfer) : Bool :=
  t.ctag == ctag && (inScope s ctag (groupOf s t.group) || (ctxOf s ctag).evac.isNone || t.plots.any fun q => inScope s ctag (groupOf s q.1))

/-- The conditions of R380, but for the writing itself: every transfer has ended, or is parked and recorded; reads have been taken; leases have gone. -/
def settled (s : State) (ctag : Nat) : Bool :=
  let gs := savedGroups s ctag
  let kept := fun (t : Transfer) => t.parked.isSome && gs.contains t.group && (match t.op with
    | .mcadr .. => false
    | _ => true)
  (s.transfers.all fun e => !ownTransfer s ctag e.2 || kept e.2)
    && ((gs ++ (orphanGroups s ctag).map (·.1)).all fun g => (groupOf s g).plots.all fun p => p.2.access.all fun a => match a with
        | .xfer _ => true
        | _ => false)
    && (gs.all fun g => !((yokeOf s g).any fun e => holdsLease e.2 g))
    && ((scopeGroups s ctag).all fun g => (groupOf s g).gslot == 4 || gs.contains g)

/-- Whether a plot outlives its group, which has ended, for the groups that share it and are saved (R80, R83). -/
def outlives (s : State) (ctag g h : Nat) : Bool :=
  ((lookup (groupOf s g).plots h).any fun p => p.level) && (shareSet s g).any fun k => (savedGroups s ctag).contains k

/-- Entering SETTLING (Table 14.4): transfers into plots of groups that have ended are cancelled (R380), but for shared plots that are saved all the
same (R83). The deadline of a drain that has done its work is over. -/
def startSettling (s : State) (ctag : Nat) : State :=
  let c := ctxOf s ctag
  let s := setCtx s ctag { c with deadline := if c.cstate = .draining then none else c.deadline }
  let s := setCState s ctag .settling 0
  let gone := (scopeGroups s ctag).filter fun g => (groupOf s g).state == .ending
  let xs := (s.transfers.filter fun e => e.2.op.intoPlot && e.2.plots.any fun q => gone.contains q.1 && !outlives s ctag q.1 q.2).map (·.1)
  xs.foldl cancelTransfer s

/-- Whether SETTLING is to begin: DRAINING with no group left, or TRAPPING with every wave STOPPED or RETIRED. -/
def settlingDue (s : State) (ctag : Nat) : Bool :=
  match (ctxOf s ctag).cstate with
  | .draining => (scopeGroups s ctag).isEmpty
  | .trapping => (scopeWaves s ctag).all fun u => let st := (waveOf s u).status; st == .stopped || st == .retired
  | _ => false

/-- Why an image write cannot be made now: the first page that fails (R384). DESIGN CHOICE (log 74): the write translates at die 0. -/
def writeFails (s : State) (ctag va n : Nat) : Option (XFail × Nat) :=
  (chunksOf va n).findSome? fun e => match translate s (.die 0) ctag e.1 1 true with
    | .error x => some (x, e.1)
    | .ok _ => none

/-- What tells a group of a context from the others across a save: the lowest private slot of its waves (R41). -/
def placeKey (s : State) (g : Nat) : Nat :=
  ((s.waves.filter fun e => e.2.group == g && e.2.status != .retired).map fun e => e.2.pslot).foldl min (2 ^ 16)

/-- The copies of a group that credit a fill which its plot has yet to begin (R72, R77): by the number of the record and the place of the target in it. -/
def youngCopies (s : State) (g : Nat) : List (Nat × Nat × Nat) :=
  let l := s.transfers.filter fun e => e.2.group == g
  ((List.range l.length).zip l).flatMap fun e =>
    (((List.range e.2.2.plots.length).zip e.2.2.plots).filter fun q => e.2.2.op.intoPlot
      && (lookup (groupOf s q.2.1).plots q.2.2).any fun p => p.state == 3#2 && !p.access.contains (.xfer e.2.1)).map fun q => (placeKey s g, e.1, q.1)

/-- The failures held with pending arms of a group's plots (R76): by the plot's handle. -/
def heldErrors (s : State) (g : Nat) : List (Nat × Nat × BitVec 2) :=
  ((groupOf s g).plots.filter fun e => e.2.armErr != 0#2).map fun e => (placeKey s g, e.1, e.2.armErr)

/-- The waves of a group with a READSR pair open (R246), by their private slots. -/
def openPairs (s : State) (g : Nat) : AMap ReadPair :=
  s.waves.filterMap fun e => if e.2.group = g && e.2.status != .retired then e.2.pair.map fun p => (e.2.pslot, p) else none

/-- What the image has no place for is kept with the context (log 69): the PLACE of each saved group, which snapshot each SNAP streams, which copies credit a
fill that a DRAINING plot has yet to begin, which failures are held for one, and the READSR pairs that are open. -/
def keepAside (s : State) (ctag : Nat) (gs : List Nat) : State :=
  let c := ctxOf s ctag
  let s := setCtx s ctag { c with
    young := gs.flatMap (youngCopies s), armErrs := gs.flatMap (heldErrors s), pairs := gs.flatMap (openPairs s)
    places := gs.foldl (fun m g => put m (placeKey s g) (groupOf s g).place) c.places }
  { s with snaps := s.snaps.map fun p => match lookup s.transfers p.xfer with
    | none => p
    | some t => if !gs.contains t.group then p
      else { p with saved := some (placeKey s t.group, ((s.transfers.filter fun e => e.2.group == t.group).map (·.1)).findIdx (· == p.xfer)) } }

/-- What a save leaves of the groups that it has written: nothing on the device (R167, R380). -/
def removeSaved (s : State) (gs : List Nat) : State :=
  let ys := (s.yokes.filter fun e => e.2.members.any fun m => gs.contains m.group).map (·.1)
  let s := ys.foldl dropYoke s
  { s with
    groups := s.groups.filter fun e => !gs.contains e.1
    waves := s.waves.filter fun e => !gs.contains e.2.group
    transfers := s.transfers.filter fun e => !gs.contains e.2.group
    faults := s.faults.map fun f => { f with
      waves := f.waves.filter fun u => !gs.contains (waveOf s u).group
      xfers := f.xfers.filter fun x => match lookup s.transfers x with
        | some t => !gs.contains t.group
        | none => true } }

/-- The context is swapped out (Table 14.4): SAVED, its CTX free, its bindings ended (R422), its translations gone. -/
def swapOut (s : State) (ctag : Nat) : State :=
  let s := setCtx s ctag { ctxOf s ctag with ctx := none, deadline := none, notice := false, image := (ctxOf s ctag).savearea }
  let s := setCState s ctag .saved 1
  serveIdle (dropTlbAll { s with binds := s.binds.filter fun b => b.2.2 != ctag } ctag)

/-- The image of a context (R381, R382), with its group records and its header. -/
def imageBytes (s : State) (ctag : Nat) : List Byte × List Byte :=
  let gs := savedGroups s ctag
  let sets := ((gs.map (shareSet s)).filter fun l => decide (l.length > 1) || !l.isEmpty).dedup
  let recs := recordsFrom s sets 4096 gs
  let waves := (gs.map fun g => (s.waves.filter fun e => e.2.group == g && e.2.status != .retired).length).sum
  (headerBytes s gs.length waves (4096 + recs.length) (ctxOf s ctag).evac.isSome, recs)

/-- What accesses that wait are performed before a save (R156): the paths and the barrier units. The cores of the groups saved give up their OWNED lines, as at
a freeze (R113). -/
def quiesce (s : State) (ctag : Nat) : State := (savedGroups s ctag).foldl (fun s g => leaveCore s (groupOf s g).core) (performAll s)

/-- The image written (R380, R384): the records, and then the header with a release at system scope. -/
def writeImage (s : State) (ctag : Nat) : Option State :=
  let a := (ctxOf s ctag).savearea.toNat
  let (hdr, recs) := imageBytes s ctag
  match ctxWrite s ctag (a + 4096) recs true with
  | none => none
  | some t => ctxWrite (drainAll t) ctag a hdr true

/-- The save of a context whose conditions hold (R380, R384, R387): every wave's outstanding results are written first (R221); the image is written, or its fault posted and waited for, or a fatal failure forces
a reset. A partial image is restored at once. DESIGN CHOICE (log 74): SRC[0] of the write's fault record names die 0, for which R53 and R384 give no die. -/
def saveNow (s : State) (ctag : Nat) : State :=
  let s := quiesce ((scopeWaves s ctag).foldl settleWave s) ctag
  let t := adoptPlots s ctag
  let gs := savedGroups s ctag
  let a := (ctxOf s ctag).savearea.toNat
  match writeFails s ctag a (4096 + (imageBytes t ctag).2.length) with
  | some (.fatal _, _) => forceReset s ctag
  | some (.recoverable nw, va) =>
    let (s, tok) := raiseFault s ctag 0 .save { va := BitVec.ofNat 64 va, kind := 1, nw }
    postFaults (setCtx s ctag { ctxOf s ctag with saveWait := some tok })
  | none =>
    match writeImage t ctag with
    | none => forceReset s ctag
    | some s =>
      let s := removeSaved (keepAside s ctag gs) gs
      if (ctxOf s ctag).evac.isNone then swapOut s ctag
      else setCtx s ctag { ctxOf s ctag with deadline := none, image := (ctxOf s ctag).savearea }

end Sys2Proof.Machine
end

