-- ==== Sys2Proof/Machine/Restore.lean ====
section
/-! DEFINITION. Sys2Proof/Machine/Restore.lean: reading a save image (R381-R383, R386, R447), binding saved groups (R385, R83, R387), writing back
what it holds (R315, R156, R112), and the ends of a save and of a restore (Table 14.4). -/
namespace Sys2Proof.Machine

/-- A core number that stands for none: the place of a group that is saved. -/
def noCore : Nat := 72

/-- A 64-bit field of a record. -/
def wordAt (r : List Byte) (off : Nat) : DWord := BitVec.ofNat 64 (fieldOf r off 8)

/-- Event slot `i` of a wave record (Table 14.8): a timer's deadline takes its high byte from TSC. -/
def parseSlot (s : State) (r : List Byte) (i : Nat) : EvSlot :=
  let x := fieldOf r (8784 + 8 * i) 8
  let src := bitsAt x 8 56
  { kind := BitVec.ofNat 4 x, bound := bitsAt x 4 1 == 1, src := BitVec.ofNat 56 src, gen := BitVec.ofNat 32 (fieldOf r (8848 + 4 * i) 4),
    obj := if bitsAt x 0 4 = 4 then bitsAt s.tsc.toNat 56 8 * 2 ^ 56 + src else 0 }

/-- The tasks of a sheaf wave's record. -/
def parseTasks (r : List Byte) : AMap LaneTask :=
  (List.range 32).filterMap fun l =>
    let t : LaneTask := ⟨wordAt r (9280 + 32 * l), wordAt r (9288 + 32 * l), wordAt r (9296 + 32 * l)⟩
    if t.future = 0#64 then none else some (l, t)

/-- The performance counters of a wave record. -/
def parseCounters (r : List Byte) : Counters :=
  { instr := wordAt r 9096, parkcyc := wordAt r 9104, l1miss := wordAt r 9112, faratom := wordAt r 9120, sbwait := wordAt r 9128, copyb := wordAt r 9136,
    mrows := wordAt r 9144, droops := wordAt r 9152 }

/-- The wave of a record (Table 14.8), STOPPED until its group is bound. -/
def parseWave (s : State) (ctag g : Nat) (r : List Byte) : Wave :=
  let f := fieldOf r 8744 1
  let sf := fieldOf r 9194 1
  let sheaf : Option SheafInfo := if bitsAt (fieldOf r 9256 8) 0 1 = 1 then some ⟨wordAt r 9264, wordAt r 9272, parseTasks r⟩ else none
  { ctag, group := g, waveId := fieldOf r 8778 1 % 16,
    s := tab 64 fun i => if i = 0 then 0#64 else wordAt r (8 * i),
    v := tab 64 fun x => tab 32 fun l => BitVec.ofNat 32 (fieldOf r (512 + 128 * x + 4 * l) 4),
    p := tab 8 fun k => BitVec.ofNat 32 (fieldOf r (8704 + 4 * k) 4),
    c := bitsAt f 0 1 == 1, z := bitsAt f 1 1 == 1, vf := bitsAt f 2 1 == 1,
    pc := wordAt r 8736 &&& ~~~3#64, bt := wordAt r 8752 &&& ~~~3#64, lt := wordAt r 8760 &&& ~~~3#64,
    lc := BitVec.ofNat 32 (fieldOf r 8768 4), mode := modeBits (BitVec.ofNat 64 (fieldOf r 8746 2)),
    live := BitVec.ofNat 32 (fieldOf r 8772 4), pev := BitVec.ofNat 8 (fieldOf r 8776 1), evm := BitVec.ofNat 8 (fieldOf r 8777 1),
    slots := tab 8 (parseSlot s r), cyc := wordAt r 9088, cbar := wordAt r 9072, copyErr := BitVec.ofNat 8 (fieldOf r 9080 1),
    trap := ⟨wordAt r 9160, wordAt r 9168 &&& 0x3FF#64, wordAt r 9176, wordAt r 9184 &&& 0xFFFFFFFF#64⟩,
    shadow := ⟨modeBits (BitVec.ofNat 64 (fieldOf r 9192 2)), bitsAt sf 0 1 == 1, bitsAt sf 1 1 == 1, bitsAt sf 2 1 == 1, wordAt r 9200, wordAt r 9208,
      BitVec.ofNat 32 (fieldOf r 9216 4)⟩,
    replay := bitsAt f 3 1 == 1, debugHold := bitsAt f 5 1 == 1, pslot := fieldOf r 8780 2,
    mailbox := (List.range (min 8 (fieldOf r 8779 1))).map fun i => (wordAt r (8944 + 16 * i), BitVec.ofNat 4 (fieldOf r (8952 + 16 * i) 1)),
    members := ((List.range 8).map fun i => wordAt r (8880 + 8 * i)).filterMap fun a => if a = 0#64 then none else some (a, 0),
    ctr := parseCounters r, status := .stopped, sheaf }

/-- The plot of a table entry (Table 2.2) with the granules of its region. -/
def parsePlot (e : Nat) (region : List Byte) : Plot :=
  let p : Plot := {
    level := bitsAt e 1 1 == 1, state := BitVec.ofNat 2 (bitsAt e 12 2), err := BitVec.ofNat 2 (bitsAt e 14 2), fmt := BitVec.ofNat 4 (bitsAt e 16 4),
    rows := bitsAt e 20 16 + 1, cols := bitsAt e 36 16 + 1, base := bitsAt e 52 9, quota := bitsAt e 64 32, issued := bitsAt e 96 32,
    arrived := bitsAt e 128 32, ngran := bitsAt e 160 10, armpend := bitsAt e 170 1 == 1, pendq := bitsAt e 192 32, armErr := 0#2, data := [], access := [] }
  let b := sliceBytes region (8192 * p.base) (8192 * p.ngran)
  { p with data := (b.zip (List.range b.length)).filterMap fun x => if x.1 = plotByte p x.2 then none else some (x.2, x.1) }

/-- The plots of a group record by handle: `t` is its table. -/
def parsePlots (t region : List Byte) : AMap Plot :=
  (List.range 64).filterMap fun h =>
    let e := fieldOf t (32 * h) 32
    if bitsAt e 0 1 = 1 then some (h, parsePlot e region) else none

/-- What a group record gives (R382): the group, its waves and the shape word of its yoke. -/
structure GroupRec where
  group : Group
  waves : List (List Byte)
  shape : Word

/-- A group record from its bytes `b` (Table 14.7). -/
def parseGroup (ctag : Nat) (b : List Byte) : GroupRec :=
  let e := fieldOf b 8 24
  let nw := fieldOf b 64 4
  let ng := fieldOf b 68 4
  let w := sliceBytes b 256 (12288 * nw)
  let rest := b.drop (256 + 12288 * nw)
  let region := sliceBytes rest 2048 (8192 * ng)
  let xs := rest.drop (2048 + 8192 * ng)
  let cl := fieldOf b 96 8
  { group := {
      ctag, state := .saved, core := noCore, gslot := 0, nwave := nw, wmask := 0#16, pngran := ng, grpid := bitsAt e 0 48,
      launchId := BitVec.ofNat 32 (bitsAt e 48 32), lslot := bitsAt e 80 8, prio := bitsAt e 88 3, share := bitsAt e 91 8, ypos := bitsAt e 99 3,
      gang := bitsAt e 102 16, region := wordAt b 32, plots := parsePlots (sliceBytes rest 0 2048) region, gbar := BitVec.ofNat 16 (fieldOf b 88 8),
      shareTag := if bitsAt cl 0 1 = 1 then bitsAt cl 32 32 else 0, xferRecs := (List.range (fieldOf b 72 4)).map fun i => sliceBytes xs (256 * i) 256 }
    waves := (List.range nw).map fun i => sliceBytes w (12288 * i) 12288
    shape := BitVec.ofNat 32 (fieldOf b 80 4) }

/-- Whether a group record needs no more than one core holds (R386), and has the form of R382. -/
def groupRecOk (b : List Byte) : Bool :=
  decide (1 ≤ fieldOf b 64 4) && decide (fieldOf b 64 4 ≤ 16) && decide (fieldOf b 68 4 ≤ Config.plotGranules) && decide (fieldOf b 72 4 ≤ 512)
    && decide (256 + 12288 * fieldOf b 64 4 + 2048 + 8192 * fieldOf b 68 4 + 256 * fieldOf b 72 4 ≤ b.length)

/-- The records of an image from offset `off` on, `n` of them: none where one is not well formed. -/
def parseChain (n ctag : Nat) (img : List Byte) (off : Nat) : Option (List GroupRec) :=
  match n with
  | 0 => some []
  | k + 1 =>
    let b := img.drop off
    if off < 4096 || !groupRecOk b then none
    else (parseChain k ctag img (fieldOf b 0 8)).map fun l => parseGroup ctag b :: l

/-- The group records of an image as the context's tables reach it now (R386), none for BAD_IMAGE. -/
def readImage (s : State) (ctag va : Nat) : Option (List GroupRec) :=
  match ctxRead s ctag va 4096 with
  | none => none
  | some h =>
    if fieldOf h 0 4 ≠ 1 || fieldOf h 4 4 ≠ 1 then none
    else match ctxRead s ctag va (fieldOf h 32 8) with
      | none => none
      | some img => parseChain (fieldOf h 16 4) ctag img (fieldOf h 24 8)

/-- No launch table: that of a launch built for an image, until the first of its groups is bound. -/
def noTable : Nat := 2

/-- The launch of a restored group (R385): the one known under its LAUNCHID, or one built for the image's groups; a sheaf has none. -/
def launchFor (s : State) (ctag : Nat) (r : GroupRec) (count : Nat) : State × Nat :=
  let id := r.group.launchId
  if id = 0xFFFFFFFF#32 then (s, 0)
  else match s.launches.find? fun e => e.2.ctag == ctag && e.2.launchId == id with
    | some e => (s, e.1)
    | none =>
      let l : Launch := {
        ctag, launchId := id, die := noTable, waves := r.group.nwave, yoke := r.group.gang != 0, shape := r.shape, serial := false, daff := 3#8, entry := 0#64,
        argp := 0#64, gx := 0, gy := 0, gz := 0, region := r.group.region, plotb := 8192 * r.group.pngran, cpla := 0#64, queue := none, index := 0, dep := none,
        next := count, ended := 0, faults := 0, killed := false, restored := true, headSince := none, tslot := 0 }
      ({ s with uid := s.uid + 1, launches := put s.launches s.uid l }, s.uid)

/-- What was kept of a saved group beside its image (log 69) is its own again: its PLACE (R184), the failures held with its pending arms (R76), and the READSR
pairs of its waves (R246). -/
def takeAside (s : State) (ctag g : Nat) : State :=
  let c := ctxOf s ctag
  let k := placeKey s g
  let gr := groupOf s g
  let err := fun (h : Nat) => ((c.armErrs.find? fun e => e.1 == k && e.2.1 == h).map (·.2.2)).getD 0#2
  let s := setGroup s g { gr with
    place := (lookup c.places k).getD 0#32
    plots := gr.plots.map fun e => (e.1, if e.2.armpend then { e.2 with armErr := err e.1 } else e.2) }
  let s : State := { s with waves := mapVals s.waves fun w => if w.group = g then { w with pair := lookup c.pairs w.pslot } else w }
  setCtx s ctag { c with
    places := erase c.places k
    armErrs := c.armErrs.filter fun e => e.1 != k
    pairs := c.pairs.filter fun e => !(s.waves.any fun w => w.2.group == g && w.2.pslot == e.1) }

/-- One record becomes a saved group with its waves, and with what was kept aside of it. -/
def addGroup (s : State) (ctag : Nat) (all : List GroupRec) (r : GroupRec) : State :=
  let n := (all.filter fun x => x.group.launchId == r.group.launchId).length
  let (s, k) := launchFor s ctag r n
  let g := s.uid
  let waves := match lookup s.launches k with
    | some l => l.waves
    | none => r.group.nwave
  let s := { s with uid := s.uid + 1, groups := put s.groups g { r.group with launch := k, nwave := waves } }
  let s := r.waves.foldl (fun s b => { s with uid := s.uid + 1, waves := put s.waves s.uid (parseWave s ctag g b) }) s
  let s := takeAside s ctag g
  let c := ctxOf s ctag
  setCtx s ctag { c with toBind := c.toBind ++ [g] }

/-- The waves of a saved group, by WAVEID. -/
def savedWaves (s : State) (g : Nat) : List Nat :=
  (List.range 16).flatMap fun i => (s.waves.filter fun e => e.2.group == g && e.2.waveId == i).map (·.1)

/-- The item that stands for a saved group in the placement rules (R206, R207). -/
def savedItem (s : State) (g : Nat) : Item :=
  let gr := groupOf s g
  let daff := match lookup s.launches gr.launch with
    | some l => l.daff
    | none => 3#8
  { id := 0, ctag := gr.ctag, region := gr.region, waves := (wavesOf s g).length, granules := gr.pngran, shape := none, launch := gr.launch, daff,
    sheafDie := none }

/-- A saved group takes its place on a core, when it fits. -/
def takePlace (s : State) (g core : Nat) : Option State :=
  let it := savedItem s g
  if !coreFits s it core then none
  else (fitOn (holdings s core) it.waves it.granules).map fun p => setGroup s g { groupOf s g with core, gslot := p.1, wmask := p.2.1, pbase := p.2.2 }

/-- Every present core, die 0 first, in logical order. -/
def allCores (s : State) : List Nat := logicalCores s 0 ++ logicalCores s 1

/-- Cores ordered by how few groups of a launch they hold, ties in the order given (R207). -/
def byLoad (s : State) (launch : Nat) (l : List Nat) : List Nat :=
  let load := fun (c : Nat) => (s.groups.filter fun e => launch != 0 && e.2.launch == launch && e.2.core == c && e.2.gslot != 4).length
  (List.range (maxOf 0 (l.map load) + 1)).flatMap fun n => l.filter fun c => load c == n

/-- Whether a placement keeps every share set of the groups placed on one cluster (R83). -/
def sharesTogether (s : State) (gs : List Nat) : Bool :=
  gs.all fun a => gs.all fun b =>
    let x := groupOf s a
    let y := groupOf s b
    x.shareTag == 0 || x.shareTag != y.shareTag || x.core == noCore || y.core == noCore || x.core / 4 == y.core / 4

/-- The shape of a saved gang's launch. -/
def gangShape (s : State) (g : Nat) : Nat := ((lookup s.launches (groupOf s g).launch).map fun l => l.shape.toNat).getD 0

/-- The cores that one part of a unit can take, in the order in which they are tried: for a single group each core, for a gang each legal placement
by its headland (R207, R208). -/
def partPlaces (s : State) (part : List Nat) : List (List Nat) :=
  match part with
  | [] => []
  | g :: _ =>
    let gr := groupOf s g
    if gr.gang = 0 then (byLoad s gr.launch (allCores s)).map fun c => [c]
    else (allCores s).filterMap fun h =>
      (gangCores (gangShape s g) h).bind fun cs =>
        let l := part.filterMap fun k => cs[(groupOf s k).ypos]?
        if l.length = part.length && cs.all (corePresent s) then some l else none

/-- The groups of one part take one placement. -/
def placePart (s : State) (part cores : List Nat) : Option State :=
  (part.zip cores).foldl (fun acc e => acc.bind fun t => takePlace t e.1 e.2) (some s)

/-- All parts of a unit take places in one step, or none does. -/
def placeUnit (s : State) (all : List Nat) (parts : List (List Nat)) : Option State :=
  match parts with
  | [] => some s
  | p :: rest => (partPlaces s p).findSome? fun cs =>
      (placePart s p cs).bind fun t => if sharesTogether t all then placeUnit t all rest else none

/-- Whether two saved groups must be bound together (R385): one gang, or one share set. -/
def boundTogether (s : State) (a b : Nat) : Bool :=
  let x := groupOf s a
  let y := groupOf s b
  a == b || (x.launch == y.launch && ((x.gang != 0 && x.gang == y.gang) || (x.shareTag != 0 && x.shareTag == y.shareTag)))

/-- The unit of a saved group: all that must be bound with it. -/
def unitOf (fuel : Nat) (s : State) (all u : List Nat) : List Nat :=
  match fuel with
  | 0 => u
  | n + 1 => unitOf n s all (all.filter fun k => u.any fun g => boundTogether s g k)

/-- The parts of a unit: its gangs, and its single groups. -/
def partsOf (s : State) (u : List Nat) : List (List Nat) :=
  u.filterMap fun g =>
    let gr := groupOf s g
    if gr.gang = 0 then some [g]
    else
      let gang := u.filter fun k => (groupOf s k).gang == gr.gang && (groupOf s k).launch == gr.launch
      if gang.head? = some g then some gang else none

/-- The launches of a unit enter a die's launch table, where they are in none yet (R205): none while both tables are full. -/
def enterTables (s : State) (u : List Nat) : Option State :=
  u.foldl (fun acc g => acc.bind fun t =>
    let k := (groupOf t g).launch
    match lookup t.launches k with
    | none => some t
    | some l =>
      if l.die ≠ noTable then some t
      else ([0, 1].find? (tableRoom t)).map fun d => { t with launches := put t.launches k { l with die := d, tslot := freeTslot t d } }) (some s)

/-- The saved groups that a restore has still to bind. -/
def stillToBind (s : State) (ctag : Nat) : List Nat := (ctxOf s ctag).toBind.filter fun g => (lookup s.groups g).isSome

/-- The first unit of a restoring context, in the order of the group records, that has room (R385, R205): its groups, and the state with their places. -/
def bindable (s : State) (ctag : Nat) : Option (List Nat × State) :=
  let l := stillToBind s ctag
  l.findSome? fun g =>
    let u := unitOf l.length s l [g]
    ((placeUnit s u (partsOf s u)).bind fun t => enterTables t u).map fun t => (u, t)

/-- The place of a barrier object as it is reached now, or none at all. -/
def objectPlace (s : State) (core ctag : Nat) (va : Nat) : BarObj := (objectAt s (.die (dieNo core)) ctag va).getD ⟨2 ^ 60, 0⟩

/-- A restored wave's slots and memberships find their objects again, and the postings of R315 are made. -/
def repost (s : State) (core : Nat) (w : Wave) : Wave :=
  let object := fun (e : EvSlot) => objectPlace s core w.ctag ((e.src.extractLsb' 0 50 ++ 0#6).signExtend 64).toNat
  let place := fun (e : EvSlot) => if e.kind = 1#4 && e.bound then { e with obj := (object e).key } else e
  let w : Wave := { w with slots := tab 8 fun i => place (w.slot i), members := w.members.map fun m => (m.1, (objectPlace s core w.ctag m.1.toNat).key) }
  let due : EvSlot → Bool := fun e => match e.kind.toNat with
    | 0 => (match findPlot s w.group (e.src.toNat % 64) with
        | some (_, p) => p.state == 2#2
        | none => false)
    | 1 => barField s (object e) 0 4 != e.gen.toNat
    | 2 => !w.mailbox.isEmpty
    | 3 => futureState s w.ctag (BitVec.ofNat 64 (e.src.toNat % 2 ^ 45)) != FutureAnswer.pending
    | 4 => decide (e.obj ≤ s.tsc.toNat)
    | _ => false
  let w := w.latch due
  { w with slots := tab 8 fun i =>
      let e := w.slot i
      if e.bound && (e.kind == 3#4 || e.kind == 4#4) then ({ e with gen := if due e then 1#32 else 0#32 } : EvSlot) else e }

/-- The slots of a group's waves are posted and back on their objects (R315), and futures of other devices are asked for (R179). -/
def repostGroup (s : State) (core g : Nat) : State :=
  (wavesOf s g).foldl (fun s u =>
    let w := repost s core (waveOf s u)
    askRemotes (setWave s u w) w (((List.range 8).filter fun i => (w.slot i).bound && (w.slot i).kind == 3#4).map fun i =>
      BitVec.ofNat 64 ((w.slot i).src.toNat % 2 ^ 45))) s

/-- The groups at the yoke positions that a mask selects, of the gang of a group (R447). -/
def maskGroups (s : State) (g mask : Nat) : List Nat :=
  let gr := groupOf s g
  (gangGroups s gr.launch gr.gang).filter fun k => bitsAt mask (groupOf s k).ypos 1 == 1

/-- The operation of a transfer record (Table 14.7a). -/
def recordOp (b : List Byte) : XferOp :=
  match fieldOf b 0 1 with
  | 0x98 => .cpyt
  | 0x99 => .cpyim
  | 0x9A => .cpym
  | 0x9B => .cpyout
  | 0x9D => .xeng
  | _ => .cpy

/-- The plots of a restored transfer: its targets, or the plot that it reads. DESIGN CHOICE (log 65): a copy into a plot that was freed before the save (R62) goes on
into what its handle then names, for its record names no granules. -/
def recordPlots (s : State) (g : Nat) (op : XferOp) (h mask : Nat) (reads : Bool) : List (Nat × Nat) :=
  let one := fun (k : Nat) => match findPlot s k h with
    | some (q, _) => (q, h)
    | none => (k, noPlot)
  if op = .cpym then (maskGroups s g mask).map one else if op.intoPlot || reads then [one g] else []

/-- The transfer of a record (R447), issued as it was by a wave of its group (log 25). DESIGN CHOICE (log 65): of a read whose plot was freed before the
save (R62) the record names no granules, and it goes on with what the handle then names. -/
def parseXfer (s : State) (g : Nat) (b : List Byte) : Transfer :=
  let gr := groupOf s g
  let die := dieNo gr.core
  let op := recordOp b
  let cmd := if op = .xeng then sliceBytes b 64 64 else []
  let ref0 := if op = .xeng then cmdWord cmd 8 else wordAt b 16
  let ref1 := if op = .xeng then cmdWord cmd 24 else wordAt b 24
  let r := plotRef ref0 ref1
  let reads := op == .cpyout || (op == .xeng && cmdPsrc cmd && cmdOpc cmd == 1)
  let plots := recordPlots s g op r.handle (bitsAt (fieldOf b 32 8) 32 32) reads
  let src := plots.findSome? fun q => lookup (groupOf s q.1).plots q.2
  let fmt := match src with
    | some p => p.fmt
    | none => 0#4
  let wave := (savedWaves s g).headD 0
  let engine := match (if op = .xeng then cmdEngine s die cmd else pickEngine s die) with
    | some e => e
    | none => Config.enginesPerDie * die
  { op, engine, ctag := gr.ctag, wave, group := g, launch := gr.launch, sub := BitVec.ofNat 4 (fieldOf b 1 1), lanes := BitVec.ofNat 32 (fieldOf b 4 4),
    base := wordAt b 8, ref0, ref1, opnd := wordAt b 32, rowoff := if op = .cpy then (List.range 32).map fun i => BitVec.ofNat 32 (fieldOf b (128 + 4 * i) 4) else [],
    cmd, bara := wordAt b 48, plots, fmt, rows := r.nrows,
    rowBytes := windowRow fmt.toNat r.ncols,
    image := match src with
      | some p => if reads then windowImage p r else []
      | none => [],
    done := fieldOf b 40 8, parked := none, pause := false, region := waveRegion s (waveOf s wave), peer := [] }

/-- The snapshot that a restored SNAP goes on streaming (R155): the one that was kept for its record. -/
def adoptSnap (s : State) (x i : Nat) (t : Transfer) : State :=
  let mine := fun (p : Snap) => p.ctag == t.ctag && p.saved == some (placeKey s t.group, i)
  if s.snaps.any mine then { s with snaps := s.snaps.map fun p => if mine p then { p with xfer := x, saved := none } else p }
  else snapPoint s x t

/-- One transfer record of a group written back, the `i`-th (R447). A copy into a plot that is DRAINING belongs to the fill that failed before, and the drain waits for
it (R77), but for one that credits the fill to come (R72, log 69). -/
def restoreXfer (s : State) (g i : Nat) (b : List Byte) : State :=
  let t := parseXfer s g b
  let x := s.uid
  let s := if t.op = .xeng && cmdOpc t.cmd = 3 then adoptSnap s x i t else s
  let s := { s with uid := s.uid + 1, transfers := put s.transfers x t }
  let young := (ctxOf s t.ctag).young
  ((List.range t.plots.length).zip t.plots).foldl (fun s q =>
    let old := ((lookup (groupOf s q.2.1).plots q.2.2).any fun p => p.state == 3#2) && !young.contains (placeKey s g, i, q.1)
    if !t.op.intoPlot || old then addAccess s q.2.1 q.2.2 (.xfer x) else s) s

/-- The waves of a bound group take their slots. -/
def seatWaves (s : State) (g : Nat) : State :=
  let gr := groupOf s g
  ((savedWaves s g).zip (bitsOf gr.wmask)).foldl (fun s e => setWave s e.1 { repost s gr.core (waveOf s e.1) with wslot := e.2 }) s

/-- The waves of a bound group become READY, or held for debugging (R385 step 3). -/
def readyWaves (s : State) (g : Nat) : State :=
  { s with waves := mapVals s.waves fun w =>
      if w.group = g && w.status == .stopped then { w with status := if w.debugHold then .parked .debug else .ready } else w }

/-- The last step of a restore (R385 step 3): the waves of all groups bound by it become READY. -/
def readyAll (s : State) (ctag : Nat) : State :=
  ((s.groups.filter fun e => e.2.ctag == ctag && e.2.state == .resident).map (·.1)).foldl readyWaves s

/-- The caches of a receiving core (R156, R112). -/
def receiveCore (s : State) (core ctag : Nat) : State := dropCode (dropShared (drainPath s core) core) core ctag

/-- A restored gang keeps the GANG of its image, but for one that another gang has taken meanwhile (R205, log 9). -/
def retagGang (s : State) (part : List Nat) : State :=
  let gang := (groupOf s (part.headD 0)).gang
  if gang = 0 || !(s.groups.any fun e => !part.contains e.1 && e.2.state != .saved && e.2.gang == gang) then s
  else
    let t := gangTag s gang
    part.foldl (fun s g => setGroup s g { groupOf s g with gang := t }) s

/-- A unit that has its places becomes RESIDENT (R385 step 2). The waves of a whole context wait until all its groups are bound; a group restored from a
partial image goes on at once, as the context's other groups do (R387, log 73). -/
def bindUnit (s : State) (u : List Nat) : State :=
  let s := (partsOf s u).foldl retagGang s
  let s := u.foldl (fun s g =>
    let gr := groupOf s g
    let s := { s with launches := s.launches.map fun e => if e.1 = gr.launch then (e.1, { e.2 with seen := gr.core :: e.2.seen }) else e }
    let lslot := ((lookup s.launches gr.launch).map (·.tslot)).getD 0
    receiveCore (leaveCore (setGroup s g { gr with state := .resident, place := gr.place + 1#32, lslot }) gr.core) gr.core gr.ctag) s
  let s := u.foldl (fun s g =>
    let l := (groupOf s g).xferRecs
    ((List.range l.length).zip l).foldl (fun s e => restoreXfer s g e.1 e.2) s) s
  let s := u.foldl (fun s g => (groupOf s g).plots.foldl (fun s e => drainEnd s g e.1) (setGroup s g { groupOf s g with xferRecs := [] })) s
  let s := u.foldl seatWaves s
  u.foldl (fun s g => if (ctxOf s (groupOf s g).ctag).evac.isSome then readyWaves s g else s) s

/-- RESTORING ends (Table 14.4): queues leave HELD, waiting tasks go to the former (R172), and binding resumes. Where an evacuation has held up a drain, that
goes on instead (log 38). -/
def endRestore (s : State) (ctag : Nat) : State :=
  let s := readyAll s ctag
  match (ctxOf s ctag).drain with
  | some t =>
    let s := setCState s ctag .draining 0
    evacuateLate (setCtx s ctag { ctxOf s ctag with evac := none, deadline := some t, drain := none, young := [], armErrs := [], pairs := [] }) ctag
  | none =>
    let s := setCState s ctag .resident 0
    let s := setCtx s ctag { ctxOf s ctag with evac := none, young := [], armErrs := [], pairs := [] }
    evacuateLate (requeueTasks (serveContext s ctag) ctag) ctag

/-- Whether a restore has nothing left to bind. -/
def restoreOver (s : State) (ctag : Nat) : Bool := (ctxOf s ctag).cstate == .restoring && (stillToBind s ctag).isEmpty

/-- RESTORE_BIND (R385): the first saved unit that has room is bound; RESTORING ends after the last. -/
def execRestoreBind (ctag : Nat) (s : State) : Out :=
  .next (if (lookup s.contexts ctag).isNone || (ctxOf s ctag).cstate != .restoring then s
    else if restoreOver s ctag then endRestore s ctag
    else match bindable s ctag with
      | none => s
      | some (u, t) =>
        let t := bindUnit t u
        let c := ctxOf t ctag
        let t := setCtx t ctag { c with toBind := c.toBind.filter fun g => !u.contains g }
        if restoreOver t ctag then endRestore t ctag else t)

/-- The groups of an image become saved groups of a RESTORING context. All their slots are posted before any of their waves issues (R315, log 73). -/
def startRestore (s : State) (ctag : Nat) (l : List GroupRec) : State :=
  let s := setCState s ctag .restoring 0
  let s := l.foldl (fun s r => addGroup s ctag l r) s
  (stillToBind s ctag).foldl (fun s g => repostGroup s 0 g) s

/-- A partial image is restored at once (R387). -/
def restorePartial (s : State) (ctag : Nat) : State :=
  if (ctxOf s ctag).cstate != .settling || (ctxOf s ctag).evac.isNone || (ctxOf s ctag).saveWait.isSome then s
  else match readImage s ctag (ctxOf s ctag).savearea.toNat with
    | none => forceReset s ctag
    | some l => startRestore s ctag l

/-- CONTEXT_SAVE_COMPLETE (R380, R387): SETTLING begins when it is due; once its conditions hold, the image is written and the context is SAVED. -/
def execContextSaveComplete (ctag : Nat) (s : State) : Out :=
  .next (match lookup s.contexts ctag with
    | none => s
    | some c =>
      if settlingDue s ctag then startSettling s ctag
      else if c.cstate != .settling || c.saveWait.isSome || !settled s ctag then s
      else checkEmergency (restorePartial (saveNow s ctag) ctag))

end Sys2Proof.Machine
end

