-- ==== Sys2Proof/Machine/Power.lean ====
section
/-! DEFINITION. Sys2Proof/Machine/Power.lean: telemetry and ICAD (R390-R393), droop (R395), thermal limits (R396, R398), watchdogs (R397, R415),
rotation (R399-R401, R81, R113, R184), ageing (R402), and timers of event slots and SLEEP (R307, R313). -/
namespace Sys2Proof.Machine

/-- PLIMIT as it acts (Table 15.1). -/
def plimit (s : State) : Nat := min (bitsAt s.bar.pwrcfg.toNat 0 12) 3000
/-- GUARD. -/
def guardBand (s : State) : Nat := bitsAt s.bar.pwrcfg.toNat 12 8
/-- THOT. -/
def thot (s : State) : Nat := bitsAt s.bar.thermcfg.toNat 0 8
/-- TEMERG as it acts. -/
def temerg (s : State) : Nat := min (bitsAt s.bar.thermcfg.toNat 8 8) 104

/-- A throttle notice to a context (R393, R209): at most one in any millisecond; without a slot to take it, it stays latched. -/
def throttleNotice (s : State) (ctag : Nat) : State :=
  let c := ctxOf s ctag
  let recent := match c.noticeAt with
    | some t => decide (s.tsc.toNat < t + 1000000)
    | none => false
  if recent then s
  else
    let holds := s.waves.any fun e => e.2.ctag == ctag && (List.range 8).any fun i => (e.2.slot i).bound && (e.2.slot i).kind == 5#4
    let s := setCtx s ctag { c with noticeAt := some s.tsc.toNat, notice := c.notice || !holds }
    post s fun _ w e => w.ctag == ctag && e.kind == 5#4

/-- ICAD of some cores written (R392, R393): a written 0 is taken as 1, contexts with a resident group on a core whose ICAD rises get a notice, and
the throttle levels are looked at again (R200). -/
def writeIcad (s : State) (cores : List Nat) (v : Nat → Nat) : State :=
  let val := fun (c : Nat) => BitVec.ofNat 8 (max 1 (min (v c) 255))
  let rose := cores.filter fun c => decide ((coreOf s c).icad.toNat < (val c).toNat)
  let s := cores.foldl (fun s c => setCore s c { coreOf s c with icad := val c }) s
  let ctags := ((s.groups.filter fun e => e.2.state == .resident && e.2.gslot != 4 && rose.contains e.2.core).map fun e => e.2.ctag).dedup
  noteThrottle (ctags.foldl throttleNotice s)

/-- The present cores of a die as core numbers. -/
def dieCores (s : State) (die : Nat) : List Nat := logicalCores s die

/-- The least ICAD that the PWC keeps: 2 from when the ageing margin was first used up (R402). -/
def leastIcad (s : State) : Nat := if s.aged || decide (bitsAt s.bar.agestat.toNat 16 8 ≥ 100) then 2 else 1

/-- PWC firmware writes one value to the cores of a die; ignored while the trip holds (R391, R398). -/
def setIcad (s : State) (die v : Nat) : State :=
  if (dieOf s die).trip then s else writeIcad s (dieCores s die) fun _ => max (leastIcad s) (min v 255)

/-- The power step of R391 on the ICAD of the two dies: the die with the larger array power is slowed, or the one with the larger ICAD is let go
faster. -/
def powerStep (s : State) (i : Nat × Nat) : Nat × Nat :=
  if s.power + guardBand s > plimit s then
    if (dieOf s 1).arrayPower > (dieOf s 0).arrayPower then (i.1, min (i.2 + 1) 255) else (min (i.1 + 1) 255, i.2)
  else if s.power + 2 * guardBand s < plimit s then
    if i.2 > i.1 then (i.1, max (i.2 - 1) 1) else (max (i.1 - 1) 1, i.2)
  else i

/-- The thermal step of R391 for one die. -/
def thermalStep (s : State) (die i : Nat) : Nat := if hottest s die > thot s then min (i + 1) 255 else i

/-- The steps of R391: the new ICAD of each die is written once. -/
def stepIcad (s : State) : State :=
  let i := powerStep s (throttleLevel s 0, throttleLevel s 1)
  setIcad (setIcad s 0 (thermalStep s 0 i.1)) 1 (thermalStep s 1 i.2)

/-- The hottest of a die's 40 sensors, of its cores and of its L2 quadrants (R396, R398). -/
def hottestOf (s : State) (die : Nat) : Nat := max (hottest s die) (maxOf 0 (dieOf s die).quads)

/-- The thermal trip strikes (R398): every core of the die has ICAD 255, and the die is in thermal emergency. -/
def strikeTrip (s : State) (die : Nat) : State :=
  if (dieOf s die).trip then s
  else writeIcad (setDie s die { dieOf s die with trip := true, emerg := true, coolSince := none }) (dieCores s die) fun _ => 255

/-- The samples of one die (R390): its array power, which is the sum over its band rails, and its sensors, with what they say of an emergency's beginning
and end (R396) and of the trip (R398). -/
def sampleDie (s : State) (die : Nat) (bands temps quads : List Nat) : State :=
  let s := (List.range 36).foldl (fun s i =>
    let c := 36 * die + i
    setCore s c { coreOf s c with temp := temps.getD c (coreOf s c).temp }) s
  let d := dieOf s die
  let s := setDie s die { d with arrayPower := bands.sum, bandPower := bands, quads := (List.range 4).map fun i => quads.getD (4 * die + i) (d.quads.getD i 25) }
  let n := if hottest s die ≥ temerg s then d.hotSamples + 1 else 0
  let top := hottestOf s die
  let s := setDie s die { dieOf s die with
    hotSamples := n, emerg := d.emerg || decide (n ≥ 2), trip := d.trip && decide (top ≥ 95)
    coolSince := if top + 15 < temerg s then (if d.coolSince.isSome then d.coolSince else some s.tsc.toNat) else none }
  if top ≥ 105 then strikeTrip s die else s

/-- TELEMETRY_SAMPLE (R390, R391, R396): the samples, module power the sum over every rail, then the PWC firmware's steps. The firmware runs, so a
firmware update has ended (R397). -/
def execTelemetrySample (rails bands0 bands1 temps quads : List Nat) (s : State) : Out :=
  let s := { s with power := rails.sum + bands0.sum + bands1.sum, rails, bar := { s.bar with wdstat := s.bar.wdstat &&& ~~~2#64 } }
  let s := sampleDie (sampleDie s 0 bands0 temps quads) 1 bands1 temps quads
  .next (checkEmergency (stepIcad s))

/-- What the host reads of the latest samples (R390): the module's rails, the band rails of each die, the core sensors by CORE, and the quadrant sensors. -/
def hostSamples (s : State) : List Nat × List Nat × List Nat × List Nat × List Nat :=
  (s.rails, (dieOf s 0).bandPower, (dieOf s 1).bandPower, (List.range 72).map fun c => (coreOf s c).temp, (dieOf s 0).quads ++ (dieOf s 1).quads)

/-- EMERGENCY_EXIT (R396): 100 ms below TEMERG − 15 °C. -/
def emergencyOver (s : State) (die : Nat) : Bool :=
  (dieOf s die).emerg && (match (dieOf s die).coolSince with
    | some t => decide (t + 100000000 ≤ s.tsc.toNat)
    | none => false)

/-- A die returns to the online set (R201, Table 7.5), or goes over to thermal emergency where one has begun meanwhile (R396). Its next rotation is that
of the next period tick. -/
def returnDie (s : State) (die : Nat) : State :=
  let hot := (dieOf s die).emerg
  let s := setDie s die { dieOf s die with state := if hot then .emergency else .online, lastTick := s.tsc.toNat }
  let s := noteThrottle (postEvent s 0 3 [BitVec.ofNat 8 die, if hot then 2#8 else 0#8])
  if hot then s else dieReturned s die

/-- EMERGENCY_EXIT (R396): of the lowest die for which it is due; one that had been evacuated for it returns to the online set, and a die that
waited for it may be next. -/
def execEmergencyExit (s : State) : Out :=
  .next (match [0, 1].find? (emergencyOver s) with
    | none => s
    | some d =>
      let s := setDie s d { dieOf s d with emerg := false, hotSamples := 0 }
      checkEmergency (if (dieOf s d).state = .emergency then returnDie s d else s))

/-- THERMAL_TRIP (R398): the comparator acts on what the die's sensors read: at 105 °C or more on any of them it trips. -/
def execThermalTrip (sensors : DieSensors) (s : State) : Out :=
  .next (if sensors.die < 2 && sensors.temps.any (fun t => decide (t ≥ 105)) then checkEmergency (strikeTrip s sensors.die) else s)

/-- THERMAL_TRIP_RELEASE (R398): once each of the die's 40 sensors reads below 95 °C, ICAD can be written again. -/
def execThermalTripRelease (sensors : DieSensors) (s : State) : Out :=
  .next (if (dieOf s sensors.die).trip && decide (sensors.temps.length = 40) && sensors.temps.all (fun t => decide (t < 95)) then
      setDie s sensors.die { dieOf s sensors.die with trip := false }
    else s)

/-- THR of a die's droop detectors as it acts (Table 15.1). -/
def droopThr (s : State) (die : Nat) : Nat :=
  let t := bitsAt (if die = 0 then s.bar.droopcfg0 else s.bar.droopcfg1).toNat 0 6
  if t = 0 then 1 else min t 24

/-- A resident wave counts a droop trip (Table 13.5). -/
def countDroop (w : Wave) : Wave := if w.status = .retired then w else { w with ctr := { w.ctr with droops := w.ctr.droops + 1#64 } }

/-- A core of a yoke is about to be stretched: the rows injected so far are past it, while those that follow will wait at its edge (R395, log 41). While another
core of the yoke is stretched already, those that passed that one are. -/
def markRows (s : State) (core : Nat) : State :=
  { s with yokes := mapVals s.yokes fun k =>
      if (k.members.any fun m => m.core == core) && !yokeStretched s k then { k with runs := k.runs.map fun r => { r with past := r.inj } } else k }

/-- DROOP_TRIP (R395): a core's supply has fallen. From THR × 5 mV on, its clock is stretched, halved issue starts again from the
stretch's end, and each resident wave counts the trip. -/
def execDroopTrip (fall : SupplyDrop) (s : State) : Out :=
  .next (if fall.drop < 5 * droopThr s (dieNo fall.core) then s
    else
      let s := markRows s fall.core
      let s := setCore s fall.core { coreOf s fall.core with stretch := true, halved := false }
      { s with waves := mapVals s.waves fun w => if coreNo s w = fall.core then countDroop w else w })

/-- STRETCH_END (R395): halved issue begins. -/
def execStretchEnd (core : Nat) (s : State) : Out :=
  .next (if (coreOf s core).stretch then setCore s core { coreOf s core with stretch := false, halved := true } else s)

/-- HALVED_ISSUE_END (R395). -/
def execHalvedIssueEnd (core : Nat) (s : State) : Out :=
  .next (if (coreOf s core).halved then setCore s core { coreOf s core with halved := false } else s)

/-- The hardware's answer when PWC firmware is not running (R397): ICAD of every core is 4, but where the trip holds it. -/
def holdIcad (s : State) : State :=
  writeIcad s (([0, 1].filter fun d => !(dieOf s d).trip).flatMap (dieCores s)) fun _ => 4

/-- A watchdog resets a die (Table 16.7): its work is moved first (R415). -/
def resetDie (s : State) (die : Nat) : State :=
  if decide (die < 2) && (dieOf s die).state != .lost && (dieOf s die).state != .reset then evacuateDie s die .reset 4 else s

/-- PWC_WATCHDOG_EXPIRY (R397), with the die reset of Table 16.7 on the PWC's die (log 70). -/
def execPwcWatchdogExpiry (s : State) : Out :=
  .next (resetDie (holdIcad (postEvent { s with bar := { s.bar with wdstat := s.bar.wdstat ||| 1#64 } } 0 4 [])) Config.pwcDie)

/-- REEVE_WATCHDOG_EXPIRY (R415): the die is to be reset, and its work is moved first. -/
def execReeveWatchdogExpiry (die : Nat) (s : State) : Out :=
  .next (if decide (die < 2) && (dieOf s die).state != .lost && (dieOf s die).state != .reset then resetDie (postEvent s (1 + die) 4 []) die else s)

/-- Every dirty line of a die is written back (Table 16.7). -/
def writeBackDie (s : State) (die : Nat) : State :=
  (((s.l2.filter fun c => homeOf c.1 == die).map fun c => lineOf c.1).dedup).foldl evictLine s

/-- Whether a die that is being reset holds nothing more. -/
def resetReady (s : State) (die : Nat) : Bool :=
  (dieOf s die).state == .reset && !(s.groups.any fun e => e.2.gslot != 4 && e.2.state != .saved && e.2.core / 36 == die)

/-- What a die reset wipes (R415, Table 16.7), dirty lines written back first: the caches, with the proxy lines that the die holds or is home of and the host's grants
to its slices, and the plots of groups that have ended there. -/
def resetCaches (s : State) (die : Nat) : State :=
  let s := (List.range 36).foldl (fun s i => drainPath s (36 * die + i)) s
  let s := ((s.groups.filter fun e => e.2.gslot == 4 && e.2.core / 36 == die).map (·.1)).foldl removeGroup s
  let s := writeBackDie s die
  let s := { s with remote := [], granted := if die = 0 then [] else s.granted }
  (List.range 36).foldl (fun s i =>
    let c := 36 * die + i
    setCore s c { coreOf s c with l1 := [], owned := [], icache := [], path := [], stretch := false, halved := false }) s

/-- Whether a drained die holds nothing more, so that the host can have it reset (Table 16.7). -/
def drainReady (s : State) (die : Nat) : Bool :=
  (dieOf s die).state == .drained && !(s.groups.any fun e => e.2.gslot != 4 && e.2.state != .saved && e.2.core / 36 == die)

/-- DIE_RESET_DONE (R415): the caches of the lowest die that is ready have been wiped, and it is online again. Where no watchdog has had a die reset, it is the
reset that follows DIE_DRAIN (Table 16.7, log 39): the drained die is wiped and stays drained. -/
def execDieResetDone (s : State) : Out :=
  .next (match [0, 1].find? (resetReady s) with
    | some d => returnDie (resetCaches s d) d
    | none => match [0, 1].find? (drainReady s) with
      | some d => resetCaches s d
      | none => s)

/-- AGESTAT with DAYS, MARGIN and ASTATE. -/
def ageWord (days margin astate : Nat) : DWord := BitVec.ofNat 64 (days % 65536 + margin % 256 * 2 ^ 16 + astate % 4 * 2 ^ 24)

/-- AGESTAT written, with its event (R402, R417). -/
def setAge (s : State) (days margin astate : Nat) : State :=
  let a := ageWord days margin astate
  postEvent { s with bar := { s.bar with agestat := a } } 0 6 (bytesOf 8 a.toNat)

/-- AGEING_REPLAN (R402): every 30 days it begins, and it ends with the new margin; when the margin is used up every ICAD is kept at 2 or above. -/
def execAgeingReplan (margin : BitVec 8) (done : Bool) (s : State) : Out :=
  let x := s.bar.agestat.toNat
  let days := bitsAt x 0 16
  let m := bitsAt x 16 8
  .next (if !done then (if days ≥ 30 && bitsAt x 24 2 != 1 then setAge s days m 1 else s)
    else if bitsAt x 24 2 = 1 then
      let m := min margin.toNat 100
      let s := setAge { s with planTsc := s.tsc.toNat, aged := s.aged || decide (m ≥ 100) } 0 m (if m ≥ 100 then 2 else 0)
      [0, 1].foldl (fun s d => if throttleLevel s d < leastIcad s then setIcad s d (leastIcad s) else s) s
    else s)

/-- Whether a whole day has passed that DAYS does not count (R390). -/
def dayDue (s : State) : Bool := decide (bitsAt s.bar.agestat.toNat 0 16 < min 65535 ((s.tsc.toNat - s.planTsc) / 86400000000000))

/-- AGESTAT_DAYS_INCREMENT (R390, R417). -/
def execAgestatDaysIncrement (s : State) : Out :=
  let x := s.bar.agestat.toNat
  .next (if dayDue s then setAge s (bitsAt x 0 16 + 1) (bitsAt x 16 8) (bitsAt x 24 2) else s)

/-- The deadline of a timer slot that has not posted (Table 11.7). -/
def timerDeadline (e : EvSlot) : Option Nat := if e.bound && e.kind == 4#4 && e.gen == 0#32 then some e.obj else none

/-- The deadline of a wave's SLEEP, unless its group is FROZEN (R313, R314). -/
def sleepDeadline (s : State) (w : Wave) : Option Nat :=
  match w.status with
  | .parked (.sleep _ t _) => if (groupOf s w.group).frozen then none else some t
  | _ => none

/-- The timer deadlines of a wave. -/
def timerDeadlines (w : Wave) : List Nat := (List.range 8).filterMap fun i => timerDeadline (w.slot i)

/-- Whether a slot's timer is the next of its wave to post: TSC has reached it, and nothing of the wave comes before (R310, R313). -/
def timerDue (s : State) (w : Wave) (i : Nat) : Bool :=
  match timerDeadline (w.slot i) with
  | none => false
  | some t => decide (t ≤ s.tsc.toNat) && (timerDeadlines w).all (fun x => decide (t ≤ x)) && ((sleepDeadline s w).all fun x => decide (t ≤ x))

/-- EVENT_TIMER_EXPIRY (R307, R310): the slot is posted, with every timer of the wave whose deadline is the same nanosecond. -/
def execEventTimerExpiry (w slot : Nat) (s : State) : Out :=
  .next (match lookup s.waves w with
    | none => s
    | some x =>
      if timerDue s x slot then
        let t := (x.slot slot).obj
        let hit := (List.range 8).filter fun i => timerDeadline (x.slot i) == some t
        let s := settleChoices s t
        recheckAt (setWave s w (hit.foldl (fun x i => (x.setSlot i { x.slot i with gen := 1#32 }).postSlot i) (waveOf s w))) w t
      else s)

/-- Whether a wave's SLEEP ends by time: TSC has reached its deadline, and no timer of the wave comes before it (R313). -/
def sleepDue (s : State) (w : Wave) : Bool :=
  match sleepDeadline s w with
  | none => false
  | some t => decide (t ≤ s.tsc.toNat) && (timerDeadlines w).all fun x => decide (t < x)

/-- SLEEP_EXPIRY (R313). -/
def execSleepExpiry (w : Nat) (s : State) : Out :=
  .next (match lookup s.waves w with
    | none => s
    | some x => if sleepDue s x then recheck s w else s)

/-- Whether R185 keeps a group where it is. -/
def pinned (s : State) (g : Nat) : Bool :=
  let gr := groupOf s g
  ((yokeOf s g).any fun e => holdsLease e.2 g)
    || (s.groups.any fun e => e.2.launch == gr.launch && gr.launch != 0 && e.2.core / 4 == gr.core / 4 && e.2.plots.any fun p => p.2.level)
    || (gr.plots.any fun p => p.2.level)
    || (gr.gang != 0 && (s.groups.any fun e => e.2.launch == gr.launch && e.2.gang == gr.gang && (e.2.state == .staged || e.2.state == .saved)))

/-- Whether a group is eligible for rotation (R399). -/
def rotatable (s : State) (g : Nat) : Bool :=
  let gr := groupOf s g
  gr.state == .resident && isResident s gr.ctag && !pinned s g && !gr.frozen && gr.moving.isNone && s.waves.all fun e => e.2.group != g || !e.2.handler

/-- The groups on a core, in ascending group slot. -/
def coreGroups (s : State) (core : Nat) : List Nat :=
  (List.range 4).flatMap fun i => (s.groups.filter fun e => e.2.core == core && e.2.gslot == i && e.2.state != .saved).map (·.1)

/-- Whether a core takes part in a rotation (R399): all its groups are eligible, and none is on its way there. -/
def coreRotates (s : State) (core : Nat) : Bool :=
  (s.groups.all fun e => e.2.core != core || e.2.state == .saved || (e.2.gslot != 4 && rotatable s e.1))
    && s.groups.all fun e => match e.2.moving with
      | some m => m.core != core
      | none => true

/-- Insert a core into a list sorted from hottest to coolest, lower logical numbers first on ties. -/
def insertHot (s : State) (c : Nat) (l : List Nat) : List Nat :=
  match l with
  | [] => [c]
  | x :: rest => if (coreOf s x).temp ≥ (coreOf s c).temp then x :: insertHot s c rest else c :: l

/-- The pairs of R399: hottest with coolest and so on, up to the first difference below DELTA. -/
def hotPairs (s : State) (delta n : Nat) (l : List Nat) : List (Nat × Nat) :=
  match n with
  | 0 => []
  | k + 1 =>
    match l with
    | a :: rest =>
      match rest.getLast? with
      | none => []
      | some b => if (coreOf s a).temp < (coreOf s b).temp + delta then [] else (a, b) :: hotPairs s delta k rest.dropLast
    | [] => []

/-- The period of rotation in nanoseconds, 0 for off (Table 15.1). -/
def rotPeriod (s : State) : Nat :=
  match bitsAt s.bar.rotcfg.toNat 0 3 with
  | 1 => 250000
  | 2 => 500000
  | 3 => 1000000
  | 4 => 2000000
  | _ => 0

/-- DELTA. -/
def rotDelta (s : State) : Nat := bitsAt s.bar.rotcfg.toNat 8 5

/-- Whether a period tick of an online die has come (R399). -/
def tickDue (s : State) (die : Nat) : Bool :=
  isOnline s die && rotPeriod s != 0 && decide ((dieOf s die).lastTick / rotPeriod s < s.tsc.toNat / rotPeriod s)

/-- A pair exchanges its groups: each is to move to the other core. -/
def planPair (s : State) (p : Nat × Nat) : State :=
  let go := fun (s : State) (g core : Nat) => setGroup s g { groupOf s g with moving := some ⟨core, 0, 0#16, 0, false⟩ }
  let xs := coreGroups s p.1
  let ys := coreGroups s p.2
  ys.foldl (fun s g => go s g p.1) (xs.foldl (fun s g => go s g p.2) s)

/-- The moves of one die at a period tick (R399). -/
def rotateDie (s : State) (die : Nat) : State :=
  let cores := ((dieCores s die).filter (coreRotates s)).foldl (fun l c => insertHot s c l) []
  let s := setDie s die { dieOf s die with lastTick := s.tsc.toNat }
  (hotPairs s (rotDelta s) 18 cores).foldl planPair s

/-- ROTATION_TICK (R399): on the lowest die for which it is due. -/
def execRotationTick (s : State) : Out :=
  .next (match [0, 1].find? (tickDue s) with
    | none => s
    | some d => rotateDie s d)

/-- Whether a planned move can still begin (R401, R185). -/
def stillMoves (s : State) (g : Nat) : Bool :=
  let gr := groupOf s g
  gr.moving.isSome && gr.state == .resident && isResident s gr.ctag && !pinned s g && isOnline s (dieNo gr.core)

/-- Places for movers in ascending group slot, on cores where every other group remains: those who fit, with their places. -/
def fitMovers (s : State) (movers : List Nat) : List (Nat × Move) :=
  let held := fun (core : Nat) => (s.groups.filter fun e => e.2.core == core && e.2.state != .saved && !movers.contains e.1).map fun e =>
    (⟨e.2.gslot, e.2.wmask, e.2.pbase, e.2.pngran⟩ : Holding)
  movers.foldl (fun acc g =>
    let gr := groupOf s g
    match gr.moving with
    | none => acc
    | some m =>
      let here := held m.core ++ (acc.filter fun e => e.2.core == m.core).map fun e =>
        (⟨e.2.gslot, e.2.wmask, e.2.pbase, (groupOf s e.1).pngran⟩ : Holding)
      match fitOn here (popCount gr.wmask) gr.pngran with
      | none => acc
      | some (gslot, wmask, pbase) => acc ++ [(g, ⟨m.core, gslot, wmask, pbase, true⟩)]) []

/-- The movers of an exchange (R399): those that fit once every other mover has left; one that does not fit stays. -/
def settleMovers (fuel : Nat) (s : State) (movers : List Nat) : List (Nat × Move) :=
  match fuel with
  | 0 => []
  | n + 1 =>
    let fit := fitMovers s movers
    if fit.length = movers.length then fit else settleMovers n s (fit.map (·.1))

/-- The groups that are to move between two cores, or are on their way (R399), each core's in ascending group slot. -/
def exchange (s : State) (a b : Nat) (fixed : Bool) : List Nat :=
  (coreGroups s a ++ coreGroups s b).filter fun g => match (groupOf s g).moving with
    | some m => m.fixed == fixed && ((m.core == a && (groupOf s g).core == b) || (m.core == b && (groupOf s g).core == a))
    | none => false

/-- The exchange in which a group moves. -/
def exchangeOf (s : State) (g : Nat) (fixed : Bool) : List Nat :=
  match (groupOf s g).moving with
  | none => []
  | some m => exchange s (groupOf s g).core m.core fixed

/-- The start of an exchange: the groups that move, and where to, are fixed (R399); the others stay. -/
def startExchange (s : State) (cand : List Nat) : State :=
  let plan := settleMovers (cand.length + 1) s (cand.filter (stillMoves s))
  cand.foldl (fun s g => setGroup s g { groupOf s g with moving := (plan.find? fun e => e.1 == g).map (·.2) }) s

/-- Whether a wave is between the two instructions of a CORE and PLACE pair, which delays its group's freeze by one instruction (R246, R400): it is to
issue the second, or is parked on a fetch that may bring it. -/
def pairOpen (s : State) (g : Nat) : Bool :=
  s.waves.any fun e => e.2.group == g && (match e.2.status with
    | .ready => pairNext s e.2 || pairWaits s e.2
    | .parked p => e.2.pair.isSome && p.atFetch
    | _ => false)

/-- The freeze itself (R400, R113, R81): results are written, the caches act, and the copies of its plots pause. -/
def freezeGroup (s : State) (g dest : Nat) : State :=
  let s := (wavesOf s g).foldl settleWave s
  let gr := groupOf s g
  let s := leaveCore s gr.core
  let s := receiveCore s dest gr.ctag
  let s := { s with transfers := mapVals s.transfers fun t => if t.plots.any fun q => q.1 == g then { t with pause := true } else t }
  setGroup s g { groupOf s g with frozen := true }

/-- Whether the exchange of a group can begin: no mover has a pair open (R246), and none waits for a result that a yoke owes (R221). -/
def freezeReady (s : State) (g : Nat) : Bool :=
  (exchangeOf s g false).all fun k => !stillMoves s k
    || (!pairOpen s k && (wavesOf s k).all fun u => !outstanding (settleWave s u) u)

/-- FREEZE_BEGIN (R399, R400, R401): the exchange of a group begins, and all that move in it are frozen at the same time; a planned move that cannot be
made is given up. -/
def execFreezeBegin (g : Nat) (s : State) : Out :=
  .next (if (groupOf s g).frozen || !freezeReady s g then s
    else
      let cand := exchangeOf s g false
      let s := startExchange s cand
      cand.foldl (fun s k => match (groupOf s k).moving with
        | none => s
        | some m => freezeGroup s k m.core) s)

/-- A frozen group stands on its new core (R400, R184, R82). -/
def landGroup (s : State) (g : Nat) (m : Move) : State :=
  let gr := groupOf s g
  let s := receiveCore s m.core gr.ctag
  let s := setGroup s g { gr with
    core := m.core, gslot := m.gslot, wmask := m.wmask, pbase := m.pbase, place := gr.place + 1#32, frozen := false, moving := none, pass := 0 }
  ((savedWaves s g).zip (bitsOf m.wmask)).foldl (fun s e => setWave s e.1 { waveOf s e.1 with wslot := e.2 }) s

/-- A frozen group that cannot move after all goes on where it is (R399, R185). -/
def thawGroup (s : State) (g : Nat) : State := setGroup s g { groupOf s g with frozen := false, moving := none }

/-- What was latched or held for a group while it was frozen acts (R401, R57): answers to its waves' faults, then a PREEMPT. -/
def releaseGroup (s : State) (g : Nat) : State :=
  let s := (wavesOf s g).foldl finishFault s
  let gr := groupOf s g
  let c := ctxOf s gr.ctag
  if c.cstate == .trapping && inScope s gr.ctag gr then deliverGroup s (preemptReason s gr.ctag) ((c.deadline).getD 0) g else s

/-- FREEZE_END (R400, R184, R82, R57): the groups of an exchange stand on their new cores; what was latched or held meanwhile acts there. One that R185
has come to exclude, or that finds no room because another mover has stayed, stays. -/
def execFreezeEnd (g : Nat) (s : State) : Out :=
  .next (if !(groupOf s g).frozen then s
    else
      let l := exchangeOf s g true
      let plan := settleMovers (l.length + 1) s (l.filter fun k => !pinned s k)
      let s := l.foldl (fun s k => match plan.find? fun e => e.1 == k with
        | some e => landGroup s k e.2
        | none => thawGroup s k) s
      l.foldl releaseGroup (recheckAll (releaseTransfers s)))

end Sys2Proof.Machine
end

