-- ==== Sys2Proof/Machine/Management.lean ====
section
/-! DEFINITION. Sys2Proof/Machine/Management.lean: the commands of the management queue about contexts, regions, dies, debug sessions and peers
(R158, R159, R372, R373, R385, R407-R409, R421, R422; Table 16.4). Their addresses are host physical addresses unless a rule says otherwise (log 22). -/
namespace Sys2Proof.Machine

/-- `n` bytes of host memory, as the device reads them over CXL. -/
def hostRead (s : State) (a : DWord) (n : Nat) : List Byte := physBytes s (hostKey a.toNat) n

/-- A command completes (R407): its record at CPLA, then MQHEAD. -/
def completeCommand (s : State) (cpla : DWord) (status result : Nat) : State :=
  let s := agentWrite s 0 (hostKey cpla.toNat) (bytesOf 4 status ++ bytesOf 4 result ++ bytesOf 8 s.tsc.toNat ++ zeroBytes 16)
  { s with bar := { s.bar with mqhead := s.bar.mqhead + 1#32 } }

/-- What a command answers: it is not complete yet, or completes with a status and a result. -/
abbrev Answer := State × Option (Nat × Nat)

/-- A command carried out: while RECOVERY is set it completes with REFUSED (R410). -/
def command (s : State) (cpla : DWord) (f : State → Answer) : Out :=
  .next (if s.bar.recovery then completeCommand s cpla 6 0
    else match f s with
      | (t, none) => t
      | (t, some (status, result)) => completeCommand t cpla status result)

/-- A command that changes nothing and completes with a status. -/
def refuse (s : State) (status : Nat) : Answer := (s, some (status, 0))

/-- A command that is done. -/
def done (s : State) (result : Nat) : Answer := (s, some (0, result))

/-- The context that holds a context number. -/
def ctxTag (s : State) (n : DWord) : Option Nat := (s.contexts.find? fun e => e.2.ctx == some n.toNat).map (·.1)

/-- A command on a context by its number: BAD_ARG above 63, NOT_FOUND where no context holds it. -/
def onContext (s : State) (n : DWord) (f : Nat → Context → Answer) : Answer :=
  if n.toNat > 63 then refuse s 1
  else match ctxTag s n with
    | none => refuse s 5
    | some c => f c (ctxOf s c)

/-- CTAG of a context descriptor (Table 6.1). -/
def descTag (b : List Byte) : Nat := fieldOf b 58 2

/-- Whether a context descriptor is well formed and its key slot LOADED (R158). -/
def descriptorOk (s : State) (b : List Byte) : Bool :=
  zeroField b 57 1 && zeroField b 60 68 && decide (descTag b < 4096) && fieldOf b 24 8 % 4 == 0 && fieldOf b 32 8 % 64 == 0
    && (keyId s (fieldOf b 56 1)).isSome

/-- A context's registers and descriptor fields loaded from a descriptor; reserved bits of the registers read zero (Table 1.5, R13). -/
def loadDescriptor (c : Context) (desc : DWord) (b : List Byte) : Context :=
  { c with
    desc, ptbase := wordAt b 0 &&& 0xFFFFFFFFFFC01#64, privbase := wordAt b 8 &&& ~~~0x7F#64, privcfg := wordAt b 16 &&& 0xFF#64, tbase := wordAt b 24,
    rootrcb := wordAt b 32, qset := wordAt b 40, savearea := wordAt b 48, savekey := BitVec.ofNat 8 (fieldOf b 56 1) }

/-- The queue-set header as the device reads it when a context becomes resident (R191): one that cannot be read or is not well formed gives no
queues and no dependence table (log 27). -/
def loadQueues (s : State) (ctag : Nat) : State :=
  let c := ctxOf s ctag
  let none' := { c with nhq := 0, hqd := 0#64, ntq := 0, tqd := 0#64, ndep := 0, depbase := 0#64 }
  setCtx s ctag (match (if c.qset.toNat % 64 = 0 then ctxRead s ctag c.qset.toNat 64 else none) with
    | none => none'
    | some b =>
      if zeroField b 4 4 && zeroField b 20 4 && zeroField b 36 4 && zeroField b 48 16 && decide (fieldOf b 0 4 ≤ 32768) && decide (fieldOf b 16 4 ≤ 65536)
          && decide (fieldOf b 32 4 ≤ 65536) && fieldOf b 8 8 % 64 == 0 && fieldOf b 24 8 % 64 == 0 && fieldOf b 40 8 % 128 == 0 then
        { c with nhq := fieldOf b 0 4, hqd := wordAt b 8, ntq := fieldOf b 16 4, tqd := wordAt b 24, ndep := fieldOf b 32 4, depbase := wordAt b 40 }
      else none')

/-- The lowest free context number (R158, log 9). -/
def freeCtx (s : State) : Option Nat := (List.range 64).find? fun n => s.contexts.all fun e => e.2.ctx != some n

/-- Whether a CTX_LOAD or RESTORE must complete with BUSY (R159, R181, R408). -/
def loadBusy (s : State) (fresh : Bool) : Bool :=
  (freeCtx s).isNone || (fresh && decide (s.contexts.length ≥ Config.directoryEntries))
    || (isOnline s 0 && !s.bar.frtbase0.getLsbD 0) || (isOnline s 1 && !s.bar.frtbase1.getLsbD 0)

/-- CTX_LOAD (R158, R159, R191). -/
def ctxLoad (s : State) (desc : DWord) : Answer :=
  let b := hostRead s desc 128
  let ctag := descTag b
  if !descriptorOk s b || (lookup s.contexts ctag).isSome then refuse s 3
  else if loadBusy s true then refuse s 2
  else
    let n := (freeCtx s).getD 0
    let s := dropTlbAll (setCtx s ctag { loadDescriptor { } desc b with ctx := some n }) ctag
    let lost := meetsLoss s ctag (ctxOf s ctag).qset.toNat 64
    done (killIfLost (serveContext (setCState (loadQueues s ctag) ctag .resident 0) ctag) ctag lost) n

/-- CTX_LOAD (Table 16.4). -/
def execCtxLoad (desc cpla : BitVec 64) (s : State) : Out := command s cpla fun s => ctxLoad s desc

/-- Queues of a context go IDLE (Table 7.5), as it is destroyed. -/
def idleQueues (s : State) (ctag : Nat) : State :=
  (ctxOf s ctag).queues.foldl (fun s e => setLeader s ctag e.1 e.2.1 { e.2.2 with state := .idle }) s

/-- A context destroyed (R164, R159, R57): every group is killed, and whatever it held is freed. An evacuation that so ends lets the next begin (R396). -/
def destroyContext (s : State) (ctag : Nat) : State :=
  let s := idleQueues (killContext s ctag) ctag
  let mine := fun (g : Nat) => (groupOf s g).ctag == ctag
  let gs := (s.groups.filter fun e => e.2.ctag == ctag).map (·.1)
  let ys := (s.yokes.filter fun e => e.2.ctag == ctag || e.2.members.any fun m => mine m.group && gs.contains m.group).map (·.1)
  let s := ys.foldl dropYoke s
  let s := freeContextSlots (withdrawTasks s ctag) ctag
  let s : State := { s with
    waves := s.waves.filter fun e => e.2.ctag != ctag
    groups := s.groups.filter fun e => e.2.ctag != ctag
    launches := s.launches.filter fun e => e.2.ctag != ctag
    transfers := s.transfers.filter fun e => e.2.ctag != ctag
    publishes := s.publishes.filter fun e => e.2.ctag != ctag
    snaps := s.snaps.filter fun p => p.ctag != ctag
    faults := s.faults.filter fun f => f.ctag != ctag
    binds := s.binds.filter fun b => b.2.2 != ctag
    cores := mapVals s.cores fun c => { c with icache := c.icache.filter fun e => e.2.1 != ctag }
    contexts := erase s.contexts ctag }
  checkEmergency (postFaults (serveIdle (dropTlbAll s ctag)))

/-- CTX_DESTROY (Table 16.4). -/
def execCtxDestroy (ctx cpla : BitVec 64) (s : State) : Out := command s cpla fun s => onContext s ctx fun c _ => done (destroyContext s c) 0

/-- Whether a deadline in µs is one that PREEMPT accepts (R408). -/
def deadlineOk (d : DWord) : Bool := decide (1 ≤ d.toNat) && decide (d.toNat ≤ 1000000)

/-- PREEMPT (R373, R387): it waits while a partial image of the context is pending. -/
def preempt (s : State) (ctx d1 d2 : DWord) : Answer :=
  if !(deadlineOk d1 && deadlineOk d2) then refuse s 1
  else onContext s ctx fun ctag c =>
    if c.evac.isSome then (s, none)
    else if c.cstate = .resident then done (startDraining s ctag d1.toNat d2.toNat) 0
    else refuse s 2

/-- PREEMPT (Table 16.4). -/
def execPreempt (ctx d1 d2 cpla : BitVec 64) (s : State) : Out := command s cpla fun s => preempt s ctx d1 d2

/-- RESTORE (R385, R386, R159): the context of the descriptor becomes resident under its new number, and the image's groups wait to be bound. -/
def restore (s : State) (desc image : DWord) : Answer :=
  let b := hostRead s desc 128
  let ctag := descTag b
  let known := lookup s.contexts ctag
  let saved := known.isNone || (known.map (·.cstate)) == some .saved
  if !descriptorOk s b || !saved then refuse s 3
  else if loadBusy s known.isNone then refuse s 2
  else
    let c := { loadDescriptor (known.getD { }) desc b with ctx := freeCtx s, deadline := none, image, toBind := [], evac := none, saveWait := none }
    let t := loadQueues (dropTlbAll (setCtx s ctag c) ctag) ctag
    match readImage t ctag image.toNat with
    | none => refuse s 4
    | some l => done (killIfLost (startRestore t ctag l) ctag (meetsLoss t ctag (ctxOf t ctag).qset.toNat 64)) 0

/-- RESTORE (Table 16.4). -/
def execRestore (desc image cpla : BitVec 64) (s : State) : Out := command s cpla fun s => restore s desc image

/-- KILL_REGION (R164): the subtree of the block named. -/
def execKillRegion (ctx rcb cpla : BitVec 64) (s : State) : Out :=
  command s cpla fun s => onContext s ctx fun c _ => if rcb.toNat % 64 ≠ 0 then refuse s 1 else done (killDomain s c rcb.toNat) 0

/-- TLBINV over the management path (R46, R47): length 0 means everything. It waits for what the context's earlier accesses to peers still owe. -/
def execTlbinvCommand (ctx base len cpla : BitVec 64) (s : State) : Out :=
  command s cpla fun s => onContext s ctx fun c _ =>
    if len ≠ 0#64 && !(checkRange base.toNat len.toNat).isOk then refuse s 1
    else if peersOut s c then (s, none)
    else done (invalidate s c (if len = 0#64 then none else some (base.toNat, len.toNat))) 0

/-- Whether a group counts as resident in SUMMARY (Table 7.6). -/
def summaryGroup (gr : Group) : Bool := gr.state == .resident

/-- The fault records that have been posted and not answered (R52, R409). -/
def outstandingFaults (s : State) : List FaultRec := s.faults.filter fun f => f.posted.isSome

/-- A context entry (Table 14.10). -/
def summaryContext (s : State) (ctag : Nat) (c : Context) : List Byte :=
  let gs := (s.groups.filter fun e => e.2.ctag == ctag && summaryGroup e.2).map (·.1)
  let ws := (s.waves.filter fun e => gs.contains e.2.group && e.2.status != .retired).map (·.2)
  let parked := fun (p : Park → Bool) => (ws.filter fun w => match w.status with
    | .parked x => p x
    | _ => false).length
  bytesOf 1 (c.ctx.getD 0xFF) ++ bytesOf 1 (cstateCode c.cstate) ++ bytesOf 2 gs.length ++ bytesOf 2 ws.length
    ++ bytesOf 2 (ws.filter (·.handler)).length
    ++ bytesOf 2 (parked fun x => match x with
        | .fault .. => true
        | _ => false)
    ++ bytesOf 2 (ws.filter (·.debugHold)).length
    ++ bytesOf 4 ((outstandingFaults s).filter fun f => f.ctag == ctag).length
    ++ bytesOf 8 c.savearea.toNat ++ bytesOf 8 c.tscchg ++ bytesOf 8 (c.deadline.getD 0) ++ bytesOf 2 ctag ++ zeroBytes 22

/-- The contexts that SUMMARY reports, ascending in CTX, those without a number last (R389). -/
def summaryContexts (s : State) : List (Nat × Context) :=
  ((residentCtags s).map fun c => (c, ctxOf s c)) ++ s.contexts.filter fun e => e.2.ctx.isNone

/-- The queue entries (R409). -/
def summaryQueues (s : State) : List (List Byte) :=
  (summaryContexts s).flatMap fun e =>
    (e.2.queues.filter fun q => q.2.2.state == .led || q.2.2.state == .moving || q.2.2.state == .held).map fun q =>
      let head := ((readDesc s e.1 q.1 q.2.1).map descHead).getD 0
      bytesOf 2 (e.2.ctx.getD 0xFF) ++ bytesOf 2 q.2.1 ++ bytesOf 1 (leaderCode q.2.2.state) ++ bytesOf 1 q.2.2.die ++ zeroBytes 2 ++ bytesOf 4 head ++ zeroBytes 4

/-- The group entries (R409). -/
def summaryGroups (s : State) : List (List Byte) :=
  (s.groups.filter fun e => summaryGroup e.2).map fun e =>
    bytesOf 1 ((ctxOf s e.2.ctag).ctx.getD 0xFF) ++ bytesOf 1 e.2.core ++ bytesOf 1 e.2.gslot
      ++ bytesOf 1 (s.waves.filter fun w => w.2.group == e.1 && w.2.status != .retired).length ++ bytesOf 4 e.2.grpid

/-- The header of SUMMARY (R409). -/
def summaryHeader (s : State) : List Byte :=
  let set := fun (p : Die → Bool) => bitNat (p (dieOf s 0)) 0 + bitNat (p (dieOf s 1)) 1
  bytesOf 8 s.tsc.toNat ++ bytesOf 1 (set fun d => d.state == .online) ++ bytesOf 1 (set fun d => d.emerg) ++ bytesOf 2 (summaryContexts s).length
    ++ bytesOf 4 (summaryQueues s).length ++ bytesOf 4 (outstandingFaults s).length ++ zeroBytes 4 ++ bytesOf 8 s.bar.agestat.toNat ++ bytesOf 8 s.bar.wdstat.toNat
    ++ zeroBytes 24

/-- The entries that fit in what is left of a buffer. -/
def fitEntries (room : Nat) (l : List (List Byte)) : List Byte :=
  match l with
  | [] => []
  | e :: rest => if e.length ≤ room then e ++ fitEntries (room - e.length) rest else []

/-- SUMMARY (R409): the result is the number of bytes that the whole answer needs. -/
def summary (s : State) (buf len : DWord) : Answer :=
  let entries := ((summaryContexts s).map fun e => summaryContext s e.1 e.2) ++ summaryQueues s ++ summaryGroups s
  let need := 64 + (entries.map (·.length)).sum
  let bytes := (summaryHeader s ++ fitEntries (len.toNat - 64) entries).take len.toNat
  done (agentWrite s 0 (hostKey buf.toNat) bytes) need

/-- SUMMARY (Table 16.4). -/
def execSummary (buf len cpla : BitVec 64) (s : State) : Out := command s cpla fun s => summary s buf len

/-- Whether no group is left on a die that has gone offline. -/
def dieEmpty (s : State) (die : Nat) : Bool := !(s.groups.any fun e => e.2.gslot != 4 && e.2.state != .saved && e.2.core / 36 == die)

/-- DIE_DRAIN (R387, R408): the die goes offline and is evacuated; the command completes when that is done. -/
def dieDrain (s : State) (die : DWord) : Answer :=
  let d := die.toNat
  if d > 1 then refuse s 1
  else if s.draining = some d then (if dieEmpty s d then done { s with draining := none } 0 else (s, none))
  else if !isOnline s d then refuse s 2
  else
    let s := evacuateDie s d .drained 1
    if dieEmpty s d then done s 0 else ({ s with draining := some d }, none)

/-- DIE_DRAIN (Table 16.4). -/
def execDieDrain (die cpla : BitVec 64) (s : State) : Out := command s cpla fun s => dieDrain s die

/-- DIE_ONLINE (R201, R408): a drained die returns; while it is in thermal emergency (R396) the answer is BUSY, and nothing changes (log 42). -/
def dieOnline (s : State) (die : DWord) : Answer :=
  if die.toNat > 1 then refuse s 1
  else if (dieOf s die.toNat).state = .drained && !(dieOf s die.toNat).emerg then done (returnDie s die.toNat) 0
  else refuse s 2

/-- DIE_ONLINE (Table 16.4). -/
def execDieOnline (die cpla : BitVec 64) (s : State) : Out := command s cpla fun s => dieOnline s die

/-- DEBUG_ATTACH (R372). -/
def execDebugAttach (ctx cpla : BitVec 64) (s : State) : Out :=
  command s cpla fun s => onContext s ctx fun c x => if x.debug then refuse s 2 else done (setCtx s c { x with debug := true }) 0

/-- Whether a wave is held for a debug session. -/
def isHeld (w : Wave) : Bool :=
  w.debugHold && (match w.status with
    | .parked .debug => true
    | _ => false)

/-- A held wave goes into its handler (R372). -/
def resumeHandler (s : State) (u : Nat) : State :=
  let w := waveOf s u
  setWave s u (enterHandler w (ctxOf s w.ctag).tbase false)

/-- Detaching resumes every held wave (R372): into its handler, or as tret.next where there is none. -/
def resumeHeld (s : State) (ctag : Nat) : State :=
  ((s.waves.filter fun e => e.2.ctag == ctag && isHeld e.2).map (·.1)).foldl (fun s u =>
    if (ctxOf s ctag).tbase = 0#64 then returnTrap s u 1 else resumeHandler s u) s

/-- DEBUG_DETACH (R372). -/
def execDebugDetach (ctx cpla : BitVec 64) (s : State) : Out :=
  command s cpla fun s => onContext s ctx fun c x =>
    if !x.debug then refuse s 2 else done (resumeHeld (setCtx s c { x with debug := false }) c) 0

/-- DEBUG_RESUME (R372): as TRET would, or into the handler, which a context with TBASE = 0 has not. -/
def debugResume (s : State) (ctx core wslot mode : DWord) : Answer :=
  if core.toNat > 71 || wslot.toNat > 15 || mode.toNat > 1 then refuse s 1
  else onContext s ctx fun c x =>
    if !x.debug then refuse s 2
    else match s.waves.find? fun e => e.2.ctag == c && e.2.wslot == wslot.toNat && coreNo s e.2 == core.toNat && isHeld e.2 with
      | none => refuse s 5
      | some (u, _) =>
        if mode = 0#64 then done (returnTrap s u 0) 0
        else if x.tbase = 0#64 then refuse s 1
        else done (resumeHandler s u) 0

/-- DEBUG_RESUME (Table 16.4). -/
def execDebugResume (ctx core wslot mode cpla : BitVec 64) (s : State) : Out := command s cpla fun s => debugResume s ctx core wslot mode

/-- PEER_WINDOW (R421): base and length in 64 KiB units. -/
def execPeerWindow (idx node die base len perm cpla : BitVec 64) (s : State) : Out :=
  command s cpla fun s =>
    if idx.toNat > 15 || node.toNat > 0xFFF || die.toNat > 1 || !(perm == 0#64 || perm == 1#64 || perm == 3#64) then refuse s 1
    else done { s with windows := put s.windows idx.toNat ⟨node.toNat, die.toNat, base.toNat * 65536, len.toNat * 65536, perm.toNat⟩ } 0

/-- PEER_BIND (R422): local CTX 0xFF unbinds; another must be resident. -/
def peerBind (s : State) (node peerCtx localCtx : DWord) : Answer :=
  if node.toNat > 4094 then refuse s 1
  else
    let rest := s.binds.filter fun b => !(b.1 == node.toNat && b.2.1 == peerCtx.toNat)
    if localCtx = 0xFF#64 then done { s with binds := rest } 0
    else onContext s localCtx fun c x =>
      if x.cstate != .resident then refuse s 2 else done { s with binds := rest ++ [(node.toNat, peerCtx.toNat, c)] } 0

/-- PEER_BIND (Table 16.4). -/
def execPeerBind (node peerCtx localCtx cpla : BitVec 64) (s : State) : Out := command s cpla fun s => peerBind s node peerCtx localCtx

/-- A management record with an unlisted OPC or a non-zero reserved byte (R407). -/
def execMgmtBadRecord (cpla : BitVec 64) (s : State) : Out := .next (completeCommand s cpla 1 0)

end Sys2Proof.Machine
end

