-- ==== Sys2Proof/Machine/HostEvents.lean ====
section
/-! DEFINITION. Sys2Proof/Machine/HostEvents.lean: keys (R38, R412), firmware (R410, R411), life cycle (R414), resets (R415), die loss (R388), the
registers of BAR0 (R404-R406, R12, R13), the event queue (R416, R417), links (R418) and SPDM (R413). -/
namespace Sys2Proof.Machine

/-- KEY_LOAD (R412): needs a session and a key that unwraps under its key; the slot's key is replaced. -/
def keyLoad (s : State) (slot addr : DWord) : Answer :=
  if slot.toNat = 0 || slot.toNat > 255 then refuse s 1
  else match s.sec.session.bind fun n => Config.unwrapKey n (hostRead s addr 72) with
    | none => refuse s 6
    | some k => done { s with sec := { s.sec with keys := put s.sec.keys slot.toNat (2 * k + 1) } } 0

/-- KEY_LOAD (Table 16.4). -/
def execKeyLoad (slot addr cpla : BitVec 64) (s : State) : Out := command s cpla fun s => keyLoad s slot addr

/-- KEY_EMPTY (R38, R39): lines tagged with the slot stay as they are. -/
def execKeyEmpty (slot cpla : BitVec 64) (s : State) : Out :=
  command s cpla fun s =>
    if slot.toNat = 0 || slot.toNat > 255 then refuse s 1
    else done { s with sec := { s.sec with keys := erase s.sec.keys slot.toNat } } 0

/-- Whether an image passes the ROM's check (R410): its signature, and a version at least the rollback counter. -/
def imageOk (s : State) (b : List Byte) : Bool := Config.signatureOk b && decide (s.sec.rollback ≤ Config.imageVersion b)

/-- A firmware image accepted (R411): a PWC image is applied at once, with the ICAD of R397 held and UPDATE shown, and is the one that runs from then on; a Reeve
image is staged. -/
def applyImage (s : State) (target : Nat) (b : List Byte) : State :=
  if target = 0 then
    let m := s.sec.measurements.set 2 (measure (s.sec.measurements.getD 2 0#512) b)
    holdIcad { s with sec := { s.sec with measurements := m, rollback := max s.sec.rollback (Config.imageVersion b), pwc := b },
                      bar := { s.bar with wdstat := s.bar.wdstat ||| 2#64 } }
  else { s with sec := { s.sec with staged := b } }

/-- FW_UPDATE (R410, R411), which RECOVERY allows. -/
def execFwUpdate (addr len target cpla : BitVec 64) (s : State) : Out :=
  let b := hostRead s addr len.toNat
  .next (if target.toNat > 1 then completeCommand s cpla 1 0
    else if !imageOk s b then completeCommand s cpla 6 0
    else completeCommand (applyImage s target.toNat b) cpla 0 0)

/-- The moves of Table 16.6. -/
def lifeMove (a b : Nat) : Bool :=
  match a with
  | 0 => b == 1
  | 1 => b == 2 || b == 4
  | 2 => b == 1 || b == 3 || b == 4
  | 3 => b == 2 || b == 4
  | _ => false

/-- Key slots as a reset or a life-cycle change leaves them (R414, Table 16.7): slot 0 new, slots 1-255 EMPTY. -/
def freshKeys (x : Security) : Security := { x with keys := [(0, 2 * x.nextKey)], nextKey := x.nextKey + 1 }

/-- A core without anything that a wipe removes (R415). -/
def wipeCore (c : Core) : Core := { c with l1 := [], owned := [], icache := [], path := [], stretch := false, halved := false, bands := 0#4 }

/-- Wiping (R415): plots and garners, with the groups and yokes that hold them, and every cache. -/
def wipe (s : State) : State :=
  { s with
    waves := [], groups := [], launches := [], yokes := [], transfers := [], publishes := [], snaps := [], faults := [], l2 := [], remote := [], granted := [],
    predictor := [], tlb := [],
    cores := mapVals s.cores wipeCore }

/-- The key of slot 0. -/
def slotKey0 (x : Security) : Nat := (lookup x.keys 0).getD 0

/-- A die whose future table is zeroed: no slot is in use, and none is granted (R181, R406). -/
def clearFrt (d : Die) : Die := { d with frt := [], pools := [] }

/-- Both dies' HBM written with zeros, under slot 0 as it now is (R414), with the future tables that lie in it (R181). -/
def zeroHbm (s : State) : State :=
  { s with mem := s.mem.filter fun c => isHostKey c.1, l2 := [], tags := [], tagBase := slotKey0 s.sec, dies := mapVals s.dies clearFrt }

/-- No context survives a reset, and its queues read IDLE afterwards (R415): LSTATE is written in each descriptor, through to memory. -/
def idleAtReset (s : State) (ctag : Nat) : State :=
  ((ctxOf s ctag).queues.map fun e => (e.1, e.2.1)).foldl (fun s q =>
    match translate s (.die 0) ctag (descAddr (ctxOf s ctag) q.1 q.2 + 32) 1 false with
    | .ok p => if p.loc = 2 then s else evictLine s (lineOf p.key)
    | .error _ => s) (idleQueues s ctag)

/-- LC_CHANGE's steps (R414). -/
def changeLife (s : State) (next : Nat) : State :=
  let t := (s.contexts.map (·.1)).foldl (fun t c => destroyContext (idleAtReset t c) c) s
  let t := wipe (zeroHbm { t with sec := freshKeys s.sec, contexts := [] })
  { t with bar := { t.bar with lcstate := BitVec.ofNat 3 next } }

/-- LC_CHANGE (R414), which RECOVERY allows. -/
def execLcChange (token cpla : BitVec 64) (s : State) : Out :=
  let b := hostRead s token 256
  let (cur, next) := Config.tokenStates b
  .next (if Config.signatureOk b && cur == s.bar.lcstate.toNat && lifeMove cur next then completeCommand (changeLife s next) cpla 0 0
    else completeCommand s cpla 6 0)

/-- The Reeve image that runs after a reset: the last one staged, or the one that the device shipped with. -/
def reeveImage (x : Security) : List Byte := if x.reeve.isEmpty then Config.componentBytes 1 else x.reeve
/-- The PWC image that runs after a reset. -/
def pwcImage (x : Security) : List Byte := if x.pwc.isEmpty then Config.componentBytes 2 else x.pwc

/-- The measurements after the ROM has run (R413): of the images that run, of the fuses and of the life cycle. -/
def bootMeasurements (x : Security) (hmap0 hmap1 : BitVec 36) (devid : DWord) (lcstate : BitVec 3) : List (BitVec 512) :=
  [measure 0#512 (Config.componentBytes 0), measure 0#512 (reeveImage x),
    measure 0#512 (pwcImage x), measure 0#512 (bytesOf 8 hmap0.toNat ++ bytesOf 8 hmap1.toNat ++ bytesOf 8 devid.toNat),
    measure 0#512 (bytesOf 1 lcstate.toNat)]

/-- What the ROM does at a cold or warm reset (R410-R413): it verifies both images that are to run, each of which raises the rollback counter when it first
runs, and measures them; slot 0 has a new key, slots 1-255 are EMPTY, and no session stands. The answer says whether RECOVERY is set. -/
def boot (s : State) (x : Security) (hmap0 hmap1 : BitVec 36) (devid : DWord) (lcstate : BitVec 3) : Security × Bool :=
  let ok := imageOk s (reeveImage x) && imageOk s (pwcImage x)
  let up := if ok then max s.sec.rollback (max (Config.imageVersion (reeveImage x)) (Config.imageVersion (pwcImage x))) else s.sec.rollback
  ({ freshKeys x with rollback := up, staged := [], session := none, measurements := bootMeasurements x hmap0 hmap1 devid lcstate }, !ok)

/-- AGESTAT as the plan gives it at a reset (Table 15.1): DAYS 0, MARGIN as consumed. -/
def ageReset (margin : Nat) : DWord := ageWord 0 (min margin 100) (if margin ≥ 100 then 2 else 0)

/-- A warm reset (R415, Table 16.7): every register but those of the fuses, TSC, NODEID and the fault and event queues takes its reset value; HBM is kept
under the tags of its old keys; a staged Reeve image begins to run (R411). -/
def warmReset (s : State) : State :=
  let r := State.reset
  let b := s.bar
  let t := (s.contexts.map (·.1)).foldl idleAtReset s
  let (sec, recovery) := boot s { s.sec with reeve := if s.sec.staged.isEmpty then s.sec.reeve else s.sec.staged } b.hmap0 b.hmap1 b.devid b.lcstate
  { r with
    tsc := s.tsc, stepNo := s.stepNo, agenda := s.agenda, uid := s.uid, mem := t.mem, tags := t.tags, tagBase := t.tagBase, aged := s.aged, decays := t.decays, planTsc := s.planTsc,
    dies := [(0, { lastTick := s.tsc.toNat }), (1, { lastTick := s.tsc.toNat })],
    bar := { r.bar with
      devid := b.devid, nodeid := b.nodeid, nodeidNext := b.nodeidNext, hmap0 := b.hmap0, hmap1 := b.hmap1, lcstate := b.lcstate,
      recovery, fqbase := b.fqbase, fqcfg := b.fqcfg, eqbase := b.eqbase, eqcfg := b.eqcfg, agestat := ageReset (bitsAt b.agestat.toNat 16 8) },
    sec }

/-- Argument `i` of a management record (R407). -/
def mgmtArg (b : List Byte) (i : Nat) : DWord := BitVec.ofNat 64 (fieldOf b (8 + 8 * i) 8)

/-- Whether the management queue holds a record to execute (R407). -/
def mgmtWaits (s : State) : Bool :=
  let lg := ringLog s.bar.mqcfg
  ringOn s.bar.mqcfg && decide (4 ≤ lg) && decide (lg ≤ 12) && s.bar.mqhead != s.bar.mqtail

/-- The next management record. -/
def mgmtRecord (s : State) : List Byte :=
  physBytes s (ringBase s.bar.mqbase + 64 * (s.bar.mqhead.toNat % 2 ^ ringLog s.bar.mqcfg)) 64

/-- Whether the management queue's next record is WARM_RESET: without one, the reset is a PCIe hot reset. -/
def warmCommanded (s : State) : Bool := mgmtWaits s && fieldOf (mgmtRecord s) 0 2 == 0x14

/-- WARM_RESET (Table 16.4, R410, R415): the command, which RECOVERY refuses, or a PCIe hot reset. -/
def execWarmReset (s : State) : Out :=
  .next (if s.bar.recovery && warmCommanded s then completeCommand s (mgmtArg (mgmtRecord s) 6) 6 0 else warmReset s)

/-- COLD_RESET (R415, R405, R410): power-on with what the fuses hold, and the firmware images that the device has. Host memory is not the device's and
stays. -/
def execColdReset (fuses : Fuses) (s : State) : Out :=
  let r := State.reset
  let t := (s.contexts.map (·.1)).foldl idleAtReset s
  let devid := BitVec.ofNat 64 (0x0A02 + fuses.step.toNat * 2 ^ 16 + bitNat fuses.bin 20)
  let (sec, recovery) := boot s s.sec fuses.hmap0 fuses.hmap1 devid fuses.lcstate
  .next { r with
    stepNo := s.stepNo, agenda := s.agenda, mem := t.mem.filter fun c => isHostKey c.1, tagBase := slotKey0 sec, aged := s.aged || decide (fuses.margin.toNat ≥ 100),
    bar := { r.bar with
      devid, hmap0 := fuses.hmap0, hmap1 := fuses.hmap1, lcstate := fuses.lcstate, recovery, agestat := ageReset fuses.margin.toNat },
    sec }

/-- Whether the die-loss path kills a context at once (R388): a group, a yoke member or a transfer of it is on the die. -/
def onLostDie (s : State) (ctag die : Nat) : Bool :=
  (s.groups.any fun e => e.2.ctag == ctag && e.2.state != .saved && e.2.core / 36 == die)
    || (s.transfers.any fun e => e.2.ctag == ctag && engineDie e.2 == die)

/-- Whether a place has its home on a die (R114): a line of the host has it on die 0. -/
def homedOn (die k : Nat) : Bool := if isHostKey k then die == 0 else homeOf k == die

/-- The place that an entry of a core's path goes to, and its wave. -/
def PathEntry.goal (e : PathEntry) : Nat × Nat :=
  match e with
  | .load u k _ _ _ _ => (u, k)
  | .store u k _ _ => (u, k)
  | .l1atomic u k _ _ _ => (u, k)
  | .atomic u k _ _ _ _ _ _ _ _ _ => (u, k)

/-- The contexts with an access on its way to a die, which meets LOST_MEMORY there (R118, R388): on a core's path, or at the die's barrier unit. -/
def onTheWay (s : State) (die : Nat) : List Nat :=
  let us := s.cores.flatMap (fun e => (e.2.path.filter fun x => homedOn die x.goal.2).map fun x => x.goal.1)
    ++ (dieOf s die).barrierQ.filterMap fun e => e.2.2.2.map (·.1)
  us.filterMap fun u => (lookup s.waves u).map (·.ctag)

/-- Whether what the Reeve itself reads of a resident context is lost (R388): a descriptor that it serves, a fired entry, or a region of a launch. -/
def reeveMeetsLoss (s : State) (ctag : Nat) : Bool :=
  let c := ctxOf s ctag
  isResident s ctag
    && ((c.queues.any fun e => (e.2.2.state == .led || e.2.2.state == .moving) && descLost s ctag e.1 e.2.1)
      || (c.fired.any fun f => meetsLoss s ctag (depAddr s ctag f.2.2) 64)
      || s.launches.any fun e => e.2.ctag == ctag && chainLost (treeFuel s) s ctag e.2.region.toNat)

/-- Every future that is PENDING on a die breaks (R179, R199, R388). -/
def breakDie (s : State) (die : Nat) (cause : DWord) : State :=
  let l := ((dieOf s die).frt.filter fun e => e.2.state == 1#2).map (·.1)
  breakSlots ((dieOf s die).frt.length + l.length + 1) s die l cause

/-- A die's memory is gone, with every copy of its lines and every request on its way there (R118). -/
def loseMemory (s : State) (die : Nat) : State :=
  let gone := homedOn die
  let s := setDie s die { dieOf s die with
    state := .lost, former := [], ready := [], tasks := [], forwards := [], drops := [], ends := [], grantReqs := [], barrierQ := [] }
  let s : State := { s with
    mem := s.mem.filter fun c => isHostKey c.1 || !gone c.1
    l2 := s.l2.filter fun c => !gone c.1
    remote := s.remote.filter fun e => !gone (e.1 * 128)
    granted := s.granted.filter fun e => !gone (e.1 * 128)
    cores := mapVals s.cores fun c => { c with path := c.path.filter fun x => !homedOn die x.goal.2 } }
  dropLines s fun l => gone (l * 128)

/-- DIE_LOSS (R388, R118): the die's memory is gone; contexts on it, or with an access to it, are killed, leadership moves, and futures homed there
report LOST. -/
def execDieLoss (die : Nat) (s : State) : Out :=
  .next (if die > 1 || isLost s die then s
    else
      let hit := (s.contexts.map (·.1)).filter fun c => onLostDie s c die || (onTheWay s die).contains c
      let s := loseMemory (breakDie s die (brokenCause 5 0)) die
      let s := moveFrom (postEvent s 0 3 [BitVec.ofNat 8 die, 3#8]) die
      let s := hit.foldl killContext s
      let s := ((s.contexts.map (·.1)).filter fun c => !hit.contains c && reeveMeetsLoss s c).foldl killContext s
      recheckAll (postFutures s))

/-- A die's future table lies elsewhere (R406): it holds what its new region holds, and no slot of it is granted. -/
def moveFrt (s : State) (die : Nat) : State :=
  let s := setDie s die { dieOf s die with frt := [] }
  [0, 1].foldl (fun s d => setDie s d { dieOf s d with pools := erase (dieOf s d).pools die }) s

/-- WRITES of BAR0: FRTBASE (R406): only while no context is loaded, and only with a BASE below 1,536. -/
def writeFrtbase (s : State) (die : Nat) (v : DWord) : State :=
  if !s.contexts.isEmpty || bitsAt v.toNat 27 11 ≥ 1536 then s
  else
    let v := v &&& 0x3FF8000001#64
    let s := moveFrt s die
    if die = 0 then { s with bar := { s.bar with frtbase0 := v } } else { s with bar := { s.bar with frtbase1 := v } }

/-- FRTBASE_WRITE (R406). -/
def execFrtbaseWrite (die : Nat) (v : BitVec 64) (s : State) : Out := .next (if die < 2 then writeFrtbase s die v else s)

/-- A write of NODEID (R405): it takes effect when the ports next train. -/
def writeNodeid (s : State) (v : DWord) : State := { s with bar := { s.bar with nodeidNext := v &&& 0xFFF#64 } }

/-- NODEID_WRITE (R405). -/
def execNodeidWrite (v : BitVec 64) (s : State) : Out := .next (writeNodeid s v)

/-- A write of ROTCFG (Table 15.1): a PERIOD of 5-7 is ignored and keeps the old value. The next rotation is that of the next tick of a new period. -/
def writeRotcfg (s : State) (v : DWord) : State :=
  let old := s.bar.rotcfg &&& 7#64
  let period := if bitsAt v.toNat 0 3 ≥ 5 then old else v &&& 7#64
  let s := if period = old then s else [0, 1].foldl (fun s d => setDie s d { dieOf s d with lastTick := s.tsc.toNat }) s
  { s with bar := { s.bar with rotcfg := period ||| (v &&& 0x1F00#64) } }

/-- ROTCFG_WRITE (R390). -/
def execRotcfgWrite (v : BitVec 64) (s : State) : Out := .next (writeRotcfg s v)

/-- A host write to a management register by its offset (R404, R12, R13): reserved bits are not stored, read-only registers and unlisted offsets ignore
it. -/
def writeRegister (s : State) (off : Nat) (v : DWord) : State :=
  let b := s.bar
  let ring := v &&& 0xFFFFFFFFFF000#64
  let cfg := v &&& 0x11F#64
  match off with
  | 0x008 => writeNodeid s v
  | 0x100 => { s with bar := { b with fqbase := ring } }
  | 0x108 => postFaults { s with bar := { b with fqcfg := cfg } }
  | 0x110 => { s with bar := { b with eqbase := ring } }
  | 0x118 => { s with bar := { b with eqcfg := cfg } }
  | 0x120 => writeFrtbase s 0 v
  | 0x128 => writeFrtbase s 1 v
  | 0x200 => { s with bar := { b with mqbase := ring } }
  | 0x208 => { s with bar := { b with mqcfg := cfg } }
  | 0x210 => { s with bar := { b with mqtail := v.extractLsb' 0 32 } }
  | 0x300 => noteThrottle { s with bar := { b with schedcfg := v &&& 0xFFFFFF#64 } }
  | 0x400 => { s with bar := { b with pwrcfg := v &&& 0xFFFFF#64 } }
  | 0x408 => { s with bar := { b with thermcfg := v &&& 0xFFFF#64 } }
  | 0x410 => writeRotcfg s v
  | 0x418 => { s with bar := { b with droopcfg0 := v &&& 0x3F#64 } }
  | 0x420 => { s with bar := { b with droopcfg1 := v &&& 0x3F#64 } }
  | 0x428 => { s with bar := { b with wdstat := b.wdstat &&& ~~~(v &&& 1#64) } }
  | _ => s

/-- What the host's read of a register of BAR0 returns (R12, R404, R405): the current value, with the limits that Table 15.1 gives for a read, reserved bits
zero; an unlisted offset returns 0. -/
def readRegister (s : State) (off : Nat) : DWord :=
  let b := s.bar
  let n := fun (x : Nat) => BitVec.ofNat 64 x
  match off with
  | 0x000 => b.devid
  | 0x008 => b.nodeidNext
  | 0x010 => b.hmap0.zeroExtend 64
  | 0x018 => b.hmap1.zeroExtend 64
  | 0x020 => n (b.lcstate.toNat + bitNat b.recovery 3)
  | 0x100 => b.fqbase
  | 0x108 => b.fqcfg
  | 0x110 => b.eqbase
  | 0x118 => b.eqcfg
  | 0x120 => b.frtbase0
  | 0x128 => b.frtbase1
  | 0x200 => b.mqbase
  | 0x208 => b.mqcfg
  | 0x210 => b.mqtail.zeroExtend 64
  | 0x218 => b.mqhead.zeroExtend 64
  | 0x300 => b.schedcfg
  | 0x400 => n (plimit s + guardBand s * 2 ^ 12)
  | 0x408 => n (thot s + temerg s * 2 ^ 8)
  | 0x410 => b.rotcfg
  | 0x418 => n (droopThr s 0)
  | 0x420 => n (droopThr s 1)
  | 0x428 => b.wdstat
  | 0x430 => b.agestat
  | _ => 0#64

/-- REGISTER_WRITE (R12, R13, R404). -/
def execRegisterWrite (off : Nat) (v : BitVec 64) (s : State) : Out := .next (writeRegister s off v)

/-- An event record's bytes (R416). -/
def eventBytes (e : EventRec) : List Byte := bytesOf 8 e.tsc ++ bytesOf 2 e.source ++ bytesOf 2 e.kind ++ zeroBytes 4 ++ padTo 16 e.data

/-- The event to be written next: the earliest, and among those of one time the one with the lowest source (R417). -/
def nextEvent (s : State) : Option EventRec :=
  s.events.foldl (fun b e => match b with
    | none => some e
    | some x => if e.tsc < x.tsc || (e.tsc == x.tsc && decide (e.source < x.source)) then some e else some x) none

/-- Whether the event queue can take a record now (R407). -/
def eventRoom (s : State) : Bool :=
  let b := ringBase s.bar.eqbase
  let lg := ringLog s.bar.eqcfg
  ringOn s.bar.eqcfg && decide (4 ≤ lg) && decide (lg ≤ 20) && decide ((hostWord s b + 2 ^ 32 - hostWord s (b + 64)) % 2 ^ 32 < 2 ^ lg)

/-- The event that can be written now (R417): no earlier than 10 µs after its time. -/
def eventDue (s : State) : Option EventRec := (nextEvent s).filter fun e => eventRoom s && decide (e.tsc + 10000 ≤ s.tsc.toNat)

/-- When space has returned, the records dropped are counted in one of kind 7 (R417). -/
def noteDropped (s : State) : State :=
  if s.dropped = 0 || s.events.length ≥ Config.eventBuffer then s
  else postEvent { s with dropped := 0, dropSource := 0 } s.dropSource 7 (bytesOf 4 s.dropped)

/-- EVENT_RECORD_WRITE (R417): the record, then TAIL. -/
def execEventRecordWrite (s : State) : Out :=
  .next (match eventDue s with
    | none => s
    | some e =>
      let b := ringBase s.bar.eqbase
      let tail := hostWord s b
      let s := agentWrite s 0 (b + 128 + 32 * (tail % 2 ^ ringLog s.bar.eqcfg)) (eventBytes e)
      let s := agentWrite s 0 b (bytesOf 4 ((tail + 1) % 2 ^ 32))
      noteDropped { s with events := s.events.erase e })

/-- EVENT_QUEUE_HEAD_UPDATE (R407, R417). -/
def execEventQueueHeadUpdate (head : BitVec 32) (s : State) : Out := .next (agentWrite s 0 (ringBase s.bar.eqbase + 64) (bytesOf 4 head.toNat))

/-- SOURCE of a port (Table 16.8): Nawalink ports 0-95, then Ethernet ports as 96-103 (log 28). -/
def portSource (port : Nat) : Nat := if port < 96 then 16 + port else 4 + (port - 96)

/-- Whether a port is up. -/
def portUp (s : State) (port : Nat) : Bool := (lookup s.ports port).getD false

/-- A port goes down, with its event (R417). -/
def dropPort (s : State) (port : Nat) : State :=
  if portUp s port then postEvent { s with ports := put s.ports port false } (portSource port) 5 [0#8] else s

/-- NODEID takes effect as the ports train (R405); while it names no node, every Nawalink port stays down. -/
def trainNode (s : State) : State :=
  let s := { s with bar := { s.bar with nodeid := s.bar.nodeidNext } }
  if nodeId s = 0xFFF then (List.range 96).foldl dropPort s else s

/-- LINK_UP (R418, R405): a Nawalink port trains when NODEID names a node, which takes effect now, and stays down when its far end fails
authentication. -/
def execLinkUp (port : Nat) (auth : Bool) (s : State) : Out :=
  .next (if port > 103 || portUp s port then s
    else
      let s := if port < 96 then trainNode s else s
      if port < 96 && (!auth || nodeId s == 0xFFF) then s
      else postEvent { s with ports := put s.ports port true } (portSource port) 5 [1#8])

/-- LINK_DOWN (R417, R418). -/
def execLinkDown (port : Nat) (s : State) : Out :=
  .next (dropPort s port)

/-- The session after an SPDM request (R413): none, the one before, or a new one with a number of its own. -/
def nextSession (x : Security) (req : List (BitVec 8)) : Security :=
  match Config.spdmSession x.session.isSome req with
  | none => { x with session := none }
  | some false => x
  | some true => { x with session := some x.sessions, sessions := x.sessions + 1 }

/-- SPDM_REQUEST (R413): the answer leaves as a packet. -/
def execSpdmRequest (req : List (BitVec 8)) (s : State) : Out :=
  .next { s with packets := s.packets ++ [.spdm (Config.spdmAnswer s.sec.measurements req)], sec := nextSession s.sec req }

end Sys2Proof.Machine
end

