-- ==== Sys2Proof/Machine/Vector.lean ====
section
/-! DEFINITION. Sys2Proof/Machine/Vector.lean: element-wise vector instructions, conversions, moves, and the long-latency functions (R257-R277,
R281-R283). -/
namespace Sys2Proof.Machine

/-- Types 0-7. -/
def okInt (t : Nat) : Bool := isInt t
/-- Types 8-10. -/
def okFp (t : Nat) : Bool := isFp t
/-- Types 0-10. -/
def okAny (t : Nat) : Bool := isInt t || isFp t
/-- The types of VPACK and VUNPK. -/
def okPack (t : Nat) : Bool := (2 ≤ t && t ≤ 5) || t == 9 || t == 10

/-- A vector instruction that accepts the types `ok` (R223, R260) and changes only the wave's registers. -/
def vecOp (s : State) (nx : BitVec 2) (ok : Nat → Bool) (f : Wave → Wave) : Out :=
  checked s (fun _ w => if ok w.ty then .ok () else .error (modeInvalid s w)) fun u w _ => setWave s u ((f w).finish nx)

/-- A floating-point result of MODE's type (R259). -/
def Wave.fres (w : Wave) (t : Nat) (v : FVal) : Nat := resultF (fmtOf t) w.rnd w.sat w.flush v
/-- An operand as an exact value. -/
def Wave.fval (w : Wave) (x : Nat) : FVal := elemVal w.ty w.flush x

/-- An element-wise result of two operands: `fi` on integers (R258), `ff` on floating point (R259). -/
def Wave.arith2 (w : Wave) (fi : Int → Int → Int) (ff : FVal → FVal → FVal) (x y : Nat) : Nat :=
  if isInt w.ty then intResult w.ty w.sat (fi (intVal w.ty x) (intVal w.ty y)) else w.fres w.ty (ff (w.fval x) (w.fval y))

/-- Write every ACTIVE lane of v[D] from the elements of v[A] and v[B]. -/
def Wave.map2 (w : Wave) (d a b : BitVec 6) (f : Nat → Nat → Nat) : Wave :=
  w.putElems w.ty d.toNat w.active fun i => f (w.elem w.ty a.toNat i) (w.elem w.ty b.toNat i)
/-- Write every ACTIVE lane of v[D] from the elements of v[A]. -/
def Wave.map1 (w : Wave) (d a : BitVec 6) (f : Nat → Nat) : Wave :=
  w.putElems w.ty d.toNat w.active fun i => f (w.elem w.ty a.toNat i)

/-- VADD (R262). -/
def execVadd (nx : BitVec 2) (d a b : BitVec 6) (s : State) : Out :=
  vecOp s nx okAny fun w => w.map2 d a b (w.arith2 (· + ·) (addV w.rnd))
/-- VSUB (R262). -/
def execVsub (nx : BitVec 2) (d a b : BitVec 6) (s : State) : Out :=
  vecOp s nx okAny fun w => w.map2 d a b (w.arith2 (· - ·) fun x y => addV w.rnd x (negV y))
/-- VMUL (R262). -/
def execVmul (nx : BitVec 2) (d a b : BitVec 6) (s : State) : Out :=
  vecOp s nx okAny fun w => w.map2 d a b (w.arith2 (· * ·) mulV)
/-- One lane of VMAD (Table 10.2): a × b + d, or d − a × b, with one rounding. -/
def Wave.madElem (w : Wave) (neg : Bool) (x y z : Nat) : Nat :=
  if isInt w.ty then
    let p := intVal w.ty x * intVal w.ty y
    intResult w.ty w.sat (intVal w.ty z + (if neg then -p else p))
  else
    let p := mulV (w.fval x) (w.fval y)
    w.fres w.ty (addV w.rnd (w.fval z) (if neg then negV p else p))
/-- VMAD (R262). -/
def execVmad (nx : BitVec 2) (d a b : BitVec 6) (g : BitVec 1) (s : State) : Out :=
  vecOp s nx okAny fun w => w.putElems w.ty d.toNat w.active fun i =>
    w.madElem (g == 1#1) (w.elem w.ty a.toNat i) (w.elem w.ty b.toNat i) (w.elem w.ty d.toNat i)
/-- The smaller or larger of two elements (R263): one of the operands, as read. -/
def Wave.pickElem (w : Wave) (mx : Bool) (x y : Nat) : Nat :=
  if isInt w.ty then
    (if mx then (if intVal w.ty x < intVal w.ty y then y else x) else (if intVal w.ty y < intVal w.ty x then y else x))
  else resultF (fmtOf w.ty) 0 false false (minMaxV mx (w.fval x) (w.fval y))
/-- VMIN (R263). -/
def execVmin (nx : BitVec 2) (d a b : BitVec 6) (s : State) : Out := vecOp s nx okAny fun w => w.map2 d a b (w.pickElem false)
/-- VMAX (R263). -/
def execVmax (nx : BitVec 2) (d a b : BitVec 6) (s : State) : Out := vecOp s nx okAny fun w => w.map2 d a b (w.pickElem true)
/-- |a| (Table 10.2). -/
def Wave.absElem (w : Wave) (x : Nat) : Nat :=
  if isInt w.ty then intResult w.ty w.sat ((intVal w.ty x).natAbs : Int)
  else
    let v := w.fval x
    w.fres w.ty (if signV v then negV v else v)
/-- VABS (R262). -/
def execVabs (nx : BitVec 2) (d a : BitVec 6) (s : State) : Out := vecOp s nx okAny fun w => w.map1 d a w.absElem
/-- −a (Table 10.2). -/
def Wave.negElem (w : Wave) (x : Nat) : Nat :=
  if isInt w.ty then intResult w.ty w.sat (-intVal w.ty x) else w.fres w.ty (negV (w.fval x))
/-- VNEG (R262). -/
def execVneg (nx : BitVec 2) (d a : BitVec 6) (s : State) : Out := vecOp s nx okAny fun w => w.map1 d a w.negElem
/-- Bits [2w − 1:w] of the exact product (Table 10.2). -/
def mulHighElem (t x y : Nat) : Nat := wrapOf (typeBits t) ((intVal t x * intVal t y) / ((2 ^ typeBits t : Nat) : Int))
/-- VMULH (R262). -/
def execVmulh (nx : BitVec 2) (d a b : BitVec 6) (s : State) : Out := vecOp s nx okInt fun w => w.map2 d a b (mulHighElem w.ty)
/-- An immediate as an element of MODE's type: modulo 2^N, or by R101 with RND (R269, R274). -/
def Wave.immElem (w : Wave) (k : Int) : Nat :=
  if isInt w.ty then wrapOf (typeBits w.ty) k else w.fres w.ty (valOfInt k)
/-- VADDI (R262). -/
def execVaddi (nx : BitVec 2) (d a : BitVec 6) (i : BitVec 10) (s : State) : Out :=
  vecOp s nx okAny fun w => w.map1 d a fun x =>
    if isInt w.ty then intResult w.ty w.sat (intVal w.ty x + i.toInt)
    else w.fres w.ty (addV w.rnd (w.fval x) (w.fval (w.immElem i.toInt)))

/-- A long-latency vector instruction (R265): sources read at issue, results written in every ACTIVE lane at once, later. -/
def llVec (s : State) (nx : BitVec 2) (la : BitVec 4) (ok : Nat → Bool) (regs : Wave → List RegName) (writes : Wave → List RegWrite) : Out :=
  checked s (fun _ w => if ok w.ty then .ok () else .error (modeInvalid s w)) fun u w _ =>
    setWave { s with uid := s.uid + 1 } u (((w.openWindow la (regs w)).addResult s.uid (regs w) (writes w)).finish nx)
/-- One lane of VDIV (R264). -/
def Wave.divElem (w : Wave) (x y : Nat) : Nat :=
  if isInt w.ty then wrapOf (typeBits w.ty) (quotInt w.ty (intVal w.ty x) (intVal w.ty y)) else w.fres w.ty (divV (w.fval x) (w.fval y))
/-- VDIV (R264). -/
def execVdiv (nx : BitVec 2) (d a b : BitVec 6) (l : BitVec 4) (s : State) : Out :=
  llVec s nx l okAny (fun w => vW w.ty d) fun w =>
    elemWrites w.ty d.toNat w.active fun i => w.divElem (w.elem w.ty a.toNat i) (w.elem w.ty b.toNat i)
/-- VREM (R264). -/
def execVrem (nx : BitVec 2) (d a b : BitVec 6) (s : State) : Out :=
  vecOp s nx okInt fun w => w.map2 d a b fun x y => wrapOf (typeBits w.ty) (remInt (intVal w.ty x) (intVal w.ty y))
/-- A floating-point function of one operand (R266). -/
def llFun (s : State) (nx : BitVec 2) (d a : BitVec 6) (l : BitVec 4) (f : Wave → Nat → Nat) : Out :=
  llVec s nx l okFp (fun _ => vN d) fun w => elemWrites w.ty d.toNat w.active fun i => f w (w.elem w.ty a.toNat i)
/-- A function of Table 10.3 by its number, in MODE's format. -/
def Wave.tableFun (w : Wave) (fn x : Nat) : Nat := llResult (fmtOf w.ty) w.rnd w.sat w.flush fn x
/-- VSQRT (R266). -/
def execVsqrt (nx : BitVec 2) (d a : BitVec 6) (l : BitVec 4) (s : State) : Out :=
  llFun s nx d a l fun w x => w.fres w.ty (sqrtV (w.fval x))
/-- VRCP (R266). -/
def execVrcp (nx : BitVec 2) (d a : BitVec 6) (l : BitVec 4) (s : State) : Out := llFun s nx d a l fun w x => w.tableFun 0 x
/-- VRSQ (R266). -/
def execVrsq (nx : BitVec 2) (d a : BitVec 6) (l : BitVec 4) (s : State) : Out := llFun s nx d a l fun w x => w.tableFun 1 x
/-- VEXP2 (R266). -/
def execVexp2 (nx : BitVec 2) (d a : BitVec 6) (l : BitVec 4) (s : State) : Out := llFun s nx d a l fun w x => w.tableFun 2 x
/-- VLOG2 (R266). -/
def execVlog2 (nx : BitVec 2) (d a : BitVec 6) (l : BitVec 4) (s : State) : Out := llFun s nx d a l fun w x => w.tableFun 3 x
/-- VSINCOS (R266): sin to v[D], cos to v[D + 1]. -/
def execVsincos (nx : BitVec 2) (d a : BitVec 6) (l : BitVec 4) (s : State) : Out :=
  llVec s nx l okFp (fun _ => vQ d) fun w =>
    (elemWrites w.ty d.toNat w.active fun i => w.tableFun 4 (w.elem w.ty a.toNat i))
      ++ elemWrites w.ty (d.toNat + 1) w.active fun i => w.tableFun 5 (w.elem w.ty a.toNat i)

/-- Raw lanes (R267, R270, R274, R275): every ACTIVE lane of v[D], and of the second register of a pair, from `f` of register offset and lane. -/
def Wave.rawLanes (w : Wave) (d : BitVec 6) (f : Nat → Nat → Word) : Wave :=
  let w1 := w.setLanes d.toNat w.active (f 0)
  if isWide w.ty then w1.setLanes (d.toNat + 1) w.active (f 1) else w1
/-- A raw function of two registers. -/
def Wave.raw2 (w : Wave) (d a b : BitVec 6) (f : Word → Word → Word) : Wave :=
  w.rawLanes d fun k i => f (w.lane (a.toNat + k) i) (w.lane (b.toNat + k) i)
/-- VAND (R267). -/
def execVand (nx : BitVec 2) (d a b : BitVec 6) (s : State) : Out := vecOp s nx okAny fun w => w.raw2 d a b (· &&& ·)
/-- VOR (R267). -/
def execVor (nx : BitVec 2) (d a b : BitVec 6) (s : State) : Out := vecOp s nx okAny fun w => w.raw2 d a b (· ||| ·)
/-- VXOR (R267). -/
def execVxor (nx : BitVec 2) (d a b : BitVec 6) (s : State) : Out := vecOp s nx okAny fun w => w.raw2 d a b (· ^^^ ·)
/-- VNOT (R267). -/
def execVnot (nx : BitVec 2) (d a : BitVec 6) (s : State) : Out := vecOp s nx okAny fun w => w.rawLanes d fun k i => ~~~(w.lane (a.toNat + k) i)
/-- A shift (R267): the count is v[B][lane] MOD w. -/
def Wave.shift (w : Wave) (d a b : BitVec 6) (f : Nat → Nat → Nat) : Wave :=
  w.putElems w.ty d.toNat w.active fun i => f (w.elem w.ty a.toNat i) ((w.lane b.toNat i).toNat % typeBits w.ty)
/-- VSHL (R267). -/
def execVshl (nx : BitVec 2) (d a b : BitVec 6) (s : State) : Out :=
  vecOp s nx okInt fun w => w.shift d a b fun x c => (x <<< c) % 2 ^ typeBits w.ty
/-- VSHR (R267). -/
def execVshr (nx : BitVec 2) (d a b : BitVec 6) (s : State) : Out := vecOp s nx okInt fun w => w.shift d a b fun x c => x >>> c
/-- VSRA (R267). -/
def execVsra (nx : BitVec 2) (d a b : BitVec 6) (s : State) : Out :=
  vecOp s nx okInt fun w => w.shift d a b fun x c =>
    wrapOf (typeBits w.ty) (signedOf (typeBits w.ty) x / ((2 ^ c : Nat) : Int))

/-- A lane function that ignores TYPE (R268). -/
def laneOp (s : State) (nx : BitVec 2) (d : BitVec 6) (f : Wave → Nat → Word) : Out :=
  regOp s nx fun w => w.setLanes d.toNat w.active (f w)
/-- POS and e of a bit field (R268). -/
def fieldAt (b : Word) : Nat × Nat :=
  let pos := bitsAt b.toNat 0 5
  (pos, min (bitsAt b.toNat 8 6) (32 - pos))
/-- One lane of VBFE (R268). -/
def extractField (signed : Bool) (a b : Word) : Word :=
  let (pos, e) := fieldAt b
  let f := bitsAt a.toNat pos e
  if signed && decide (e > 0) then BitVec.ofInt 32 (signedOf e f) else BitVec.ofNat 32 f
/-- VBFE (R268). -/
def execVbfe (nx : BitVec 2) (d a b : BitVec 6) (g : BitVec 1) (s : State) : Out :=
  laneOp s nx d fun w i => extractField (g == 1#1) (w.lane a.toNat i) (w.lane b.toNat i)
/-- One lane of VBFI (R268). -/
def insertField (d a b : Word) : Word :=
  let (pos, e) := fieldAt b
  let m : Word := BitVec.ofNat 32 ((2 ^ e - 1) <<< pos)
  (d &&& ~~~m) ||| ((a <<< pos) &&& m)
/-- VBFI (R268). -/
def execVbfi (nx : BitVec 2) (d a b : BitVec 6) (s : State) : Out :=
  laneOp s nx d fun w i => insertField (w.lane d.toNat i) (w.lane a.toNat i) (w.lane b.toNat i)
/-- The counts of VCNT (R268). -/
def countLane (sub : Nat) (x : Word) : Word :=
  BitVec.ofNat 32 (match sub with
    | 0 => popCount x
    | 1 => leadingZeros x
    | _ => trailingZeros x)
/-- VCNT (R268). -/
def execVcnt (nx : BitVec 2) (d a : BitVec 6) (k : BitVec 2) (s : State) : Out := laneOp s nx d fun w i => countLane k.toNat (w.lane a.toNat i)

/-- A predicate from a condition of each lane; inactive lanes get 0 (R269). -/
def Wave.comparePred (w : Wave) (p : BitVec 3) (cc : BitVec 3) (x y : Nat → Nat) : Wave :=
  w.setP p.toNat (maskOf fun i => w.active.getLsbD i && condElem w.ty w.flush cc.toNat (x i) (y i))
/-- VCMP (R269). -/
def execVcmp (nx : BitVec 2) (d : BitVec 3) (a b : BitVec 6) (c : BitVec 3) (s : State) : Out :=
  vecOp s nx okAny fun w => w.comparePred d c (w.elem w.ty a.toNat) (w.elem w.ty b.toNat)
/-- VCMPI (R269). -/
def execVcmpi (nx : BitVec 2) (c p : BitVec 3) (a : BitVec 6) (i : BitVec 10) (s : State) : Out :=
  vecOp s nx okAny fun w => w.comparePred p c (w.elem w.ty a.toNat) fun _ => w.immElem i.toInt
/-- VSEL (R270). DESIGN CHOICE (log 74): of a narrow type too, all 32 bits of the lane are copied. -/
def execVsel (nx : BitVec 2) (d a b : BitVec 6) (k : BitVec 3) (s : State) : Out :=
  vecOp s nx okAny fun w => w.rawLanes d fun j i =>
    if (w.preg k.toNat).getLsbD i then w.lane (a.toNat + j) i else w.lane (b.toNat + j) i
/-- VCVT (R271): from the source type in B to TYPE. -/
def execVcvt (nx : BitVec 2) (d a : BitVec 6) (t : BitVec 4) (x : BitVec 1) (r : BitVec 2) (s : State) : Out :=
  vecOp s nx okAny fun w => w.putElems w.ty d.toNat w.active fun i =>
    convert t.toNat w.ty (if x = 1#1 then r.toNat else w.rnd) w.sat w.flush (w.elem t.toNat a.toNat i)
/-- The class of an element (R272). -/
def classOf (f : FFmt) (x : Nat) : Nat :=
  match decodeF f x with
  | .nan => 8
  | .inf n => if n then 0 else 7
  | .fin n m _ =>
    if m = 0 then (if n then 3 else 4)
    else if isSubnormal f x then (if n then 2 else 5)
    else if n then 1 else 6
/-- VCLASS (R272). -/
def execVclass (nx : BitVec 2) (d a : BitVec 6) (s : State) : Out :=
  vecOp s nx okFp fun w => w.setLanes d.toNat w.active fun i => 1#32 <<< classOf (fmtOf w.ty) (w.elem w.ty a.toNat i)
/-- floor(log2 |x|) and its special values (R273). -/
def exponentOf (v : FVal) : Word :=
  match v with
  | .fin _ m e => if m = 0 then 0x80000000#32 else BitVec.ofInt 32 ((bitLen m : Int) - 1 + e)
  | _ => 0x7FFFFFFF#32
/-- VEXPO (R273). -/
def execVexpo (nx : BitVec 2) (d a : BitVec 6) (s : State) : Out :=
  vecOp s nx okFp fun w => w.setLanes d.toNat w.active fun i => exponentOf (w.fval (w.elem w.ty a.toNat i))
/-- x × 2^n; past ±4,096 every result is the same overflow or underflow (R273). -/
def scaleV (v : FVal) (n : Int) : FVal :=
  match v with
  | .fin s m e => .fin s m (e + max (-4096) (min n 4096))
  | x => x
/-- VLDEXP (R273). -/
def execVldexp (nx : BitVec 2) (d a b : BitVec 6) (s : State) : Out :=
  vecOp s nx okFp fun w => w.putElems w.ty d.toNat w.active fun i =>
    w.fres w.ty (scaleV (w.fval (w.elem w.ty a.toNat i)) (w.lane b.toNat i).toInt)

/-- VMOV (R274). -/
def execVmov (nx : BitVec 2) (d a : BitVec 6) (s : State) : Out := vecOp s nx okAny fun w => w.rawLanes d fun k i => w.lane (a.toNat + k) i
/-- VMOVS (R274). -/
def execVmovs (nx : BitVec 2) (d a : BitVec 6) (s : State) : Out :=
  vecOp s nx okAny fun w => w.putElems w.ty d.toNat w.active fun _ => (w.sreg a.toNat).toNat
/-- VMOVI (R274). -/
def execVmovi (nx : BitVec 2) (d : BitVec 6) (i : BitVec 16) (s : State) : Out :=
  vecOp s nx okAny fun w => w.putElems w.ty d.toNat w.active fun _ => w.immElem i.toInt
/-- VLANE (R274). -/
def execVlane (nx : BitVec 2) (d : BitVec 6) (s : State) : Out := laneOp s nx d fun _ i => BitVec.ofNat 32 i
/-- VPERM (R275). -/
def execVperm (nx : BitVec 2) (d a b : BitVec 6) (s : State) : Out :=
  vecOp s nx okAny fun w => w.putElems w.ty d.toNat w.active fun i => w.elem w.ty a.toNat ((w.lane b.toNat i).toNat % 32)
/-- The source lane of VSHFL (R275). -/
def shuffleLane (sub k i : Nat) : Nat :=
  match sub with
  | 0 => i ^^^ k
  | 1 => if i < k then i else i - k
  | 2 => if i + k > 31 then i else i + k
  | _ => (i + k) % 32
/-- VSHFL (R275). -/
def execVshfl (nx : BitVec 2) (d a : BitVec 6) (k : BitVec 5) (m : BitVec 2) (s : State) : Out :=
  vecOp s nx okAny fun w => w.putElems w.ty d.toNat w.active fun i => w.elem w.ty a.toNat (shuffleLane m.toNat k.toNat i)
/-- VEXTR (R276). -/
def execVextr (nx : BitVec 2) (d a b : BitVec 6) (s : State) : Out :=
  vecOp s nx okAny fun w => w.setS d.toNat (scalarForm w.ty (w.elem w.ty a.toNat ((w.sreg b.toNat).toNat % 32)))
/-- VINSR (R276): one lane, whatever GUARD and LIVE hold. -/
def execVinsr (nx : BitVec 2) (d a b : BitVec 6) (s : State) : Out :=
  vecOp s nx okAny fun w => w.putElems w.ty d.toNat (1#32 <<< ((w.sreg b.toNat).toNat % 32)) fun _ => (w.sreg a.toNat).toNat
/-- The narrow element of VPACK (R277) from a 32-bit lane. -/
def Wave.packElem (w : Wave) (sat : Bool) (x : Nat) : Nat :=
  if isInt w.ty then
    (if sat then intResult w.ty true (if isSigned w.ty then signedOf 32 x else (x : Int)) else x % 2 ^ typeBits w.ty)
  else resultF (fmtOf w.ty) w.rnd (w.sat || sat) w.flush (readF fF32 w.flush x)
/-- A slot of a lane replaced (R277). -/
def putSlot (old : Word) (bits j x : Nat) : Word :=
  let m : Word := BitVec.ofNat 32 ((2 ^ bits - 1) <<< (bits * j))
  (old &&& ~~~m) ||| (BitVec.ofNat 32 (x <<< (bits * j)) &&& m)
/-- VPACK (R277). -/
def execVpack (nx : BitVec 2) (d a : BitVec 6) (t : BitVec 1) (j : BitVec 2) (s : State) : Out :=
  vecOp s nx okPack fun w => w.setLanes d.toNat w.active fun i =>
    putSlot (w.lane d.toNat i) (typeBits w.ty) j.toNat (w.packElem (t == 1#1) (w.lane a.toNat i).toNat)
/-- A slot as a 32-bit element (R277): the exact FP32 value of a narrow float. DESIGN CHOICE (log 66): FLUSH does not act here, so a subnormal slot keeps its value. -/
def unpackElem (t x : Nat) : Nat := if isInt t then extendElem t x else resultF fF32 0 false false (decodeF (fmtOf t) x)
/-- VUNPK (R277). -/
def execVunpk (nx : BitVec 2) (d a : BitVec 6) (j : BitVec 2) (s : State) : Out :=
  vecOp s nx okPack fun w => w.setLanes d.toNat w.active fun i =>
    BitVec.ofNat 32 (unpackElem w.ty (bitsAt (w.lane a.toNat i).toNat (typeBits w.ty * j.toNat) (typeBits w.ty)))

/-- Σ a_j × b_j over the narrow elements of two lanes (R281). -/
def dotInt (t : Nat) (x y : Word) : Int :=
  let b := typeBits t
  ((List.range (32 / b)).map fun j => intVal t (bitsAt x.toNat (b * j) b) * intVal t (bitsAt y.toNat (b * j) b)).sum
/-- One lane of an integer dot product: the accumulator is i32 or n32 (R281). -/
def Wave.dotLane (w : Wave) (x y z : Word) : Word :=
  let acc := if isSigned w.ty then 0 else 1
  BitVec.ofNat 32 (intResult acc w.sat (intVal acc z.toNat + dotInt w.ty x y))
/-- VDOT4 (R281). -/
def execVdot4 (nx : BitVec 2) (d a b : BitVec 6) (s : State) : Out :=
  vecOp s nx (fun t => t == 4 || t == 5) fun w => w.setLanes d.toNat w.active fun i =>
    w.dotLane (w.lane a.toNat i) (w.lane b.toNat i) (w.lane d.toNat i)
/-- One lane of a floating-point VDOT2 (R281): one rounding. -/
def Wave.dotFp (w : Wave) (x y z : Word) : Word :=
  let e := fun (v : Word) (j : Nat) => w.fval (bitsAt v.toNat (16 * j) 16)
  let p := fun (j : Nat) => mulV (e x j) (e y j)
  BitVec.ofNat 32 (w.fres 8 (addV w.rnd (addV w.rnd (readF fF32 w.flush z.toNat) (p 0)) (p 1)))
/-- VDOT2 (R281). -/
def execVdot2 (nx : BitVec 2) (d a b : BitVec 6) (s : State) : Out :=
  vecOp s nx (fun t => t == 2 || t == 3 || t == 9 || t == 10) fun w => w.setLanes d.toNat w.active fun i =>
    let x := w.lane a.toNat i
    let y := w.lane b.toNat i
    let z := w.lane d.toNat i
    if isInt w.ty then w.dotLane x y z else w.dotFp x y z

/-- The sources of VTILTH (R282): inactive lanes count as +0. -/
def Wave.tilthSource (w : Wave) (a : BitVec 6) : List Nat :=
  (List.range (32 * tilthRegs w.ty)).map fun i => if w.active.getLsbD (i % 32) then (w.lane (a.toNat + i / 32) (i % 32)).toNat else 0
/-- VTILTH (R282): all 32 lanes of v[D] are written. -/
def execVtilth (nx : BitVec 2) (d a b : BitVec 6) (s : State) : Out :=
  vecOp s nx isTilth fun w =>
    let p := tilthEnc w.ty ((w.sreg b.toNat).toNat % 256) w.rnd (w.tilthSource a)
    w.setV d.toNat (tab 32 fun i => if i < 16 then BitVec.ofNat 32 (fieldOf p (4 * i) 4) else 0#32)
/-- The parcel in lanes 0-15 of a register (R283). -/
def Wave.parcel (w : Wave) (a : BitVec 6) : List Byte := (List.range 16).flatMap fun i => bytesOf 4 (w.lane a.toNat i).toNat
/-- Registers written from a list of elements, 32 each. -/
def Wave.spread (w : Wave) (d n : Nat) (f : Nat → Word) : Wave :=
  (List.range n).foldl (fun w k => w.setV (d + k) (tab 32 fun i => f (32 * k + i))) w
/-- VUNTILTH (R283): PARCEL_FORMAT 2 naming register A when the FMT byte is not TYPE's code. -/
def execVuntilth (nx : BitVec 2) (d a : BitVec 6) (s : State) : Out :=
  checked s (fun _ w =>
    if !isTilth w.ty then .error (modeInvalid s w)
    else if fieldOf (w.parcel a) 0 1 = tilthCode w.ty then .ok () else .error (.trap ⟨7, 2, a.toNat, 0#32⟩)) fun u w _ =>
    let p := w.parcel a
    setWave s u ((w.spread d.toNat (tilthRegs w.ty) fun i => BitVec.ofNat 32 (resultF fF32 0 false w.flush (tilthElem w.ty p i))).finish nx)

end Sys2Proof.Machine
end

