-- ==== Sys2Proof/Machine/Reduce.lean ====
section
/-! DEFINITION. Sys2Proof/Machine/Reduce.lean: reductions, scans, votes (R278-R280) and the predicate instructions (R284). -/
namespace Sys2Proof.Machine

/-- The types of an op of VRED and VSCAN (R278): integers for and, or and xor. -/
def okReduce (op t : Nat) : Bool := if op ≤ 2 then okAny t else okInt t

/-- An integer op on exact values, and bit patterns for and, or and xor. -/
def reduceInt (op t : Nat) (x y : Int) : Int :=
  let b := fun (f : Nat → Nat → Nat) => (f (wrapOf (typeBits t) x) (wrapOf (typeBits t) y) : Int)
  match op with
  | 0 => x + y
  | 1 => min x y
  | 2 => max x y
  | 3 => b (· &&& ·)
  | 4 => b (· ||| ·)
  | _ => b (· ^^^ ·)

/-- The identity of an integer op (R278). -/
def identityInt (op t : Nat) : Int :=
  match op with
  | 1 => intMax t
  | 2 => intMin t
  | 3 => ((2 ^ typeBits t - 1 : Nat) : Int)
  | _ => 0

/-- The element of an exact total: SAT or wrap for add, min and max; the pattern for the bitwise ops (R258). -/
def Wave.totalElem (w : Wave) (op : Nat) (x : Int) : Nat :=
  if op ≤ 2 then intResult w.ty w.sat x else wrapOf (typeBits w.ty) x

/-- COMBINE on floating point (R278). -/
def Wave.combineFp (w : Wave) (op : Nat) (x y : Nat) : Nat :=
  match op with
  | 0 => w.fres w.ty (addV w.rnd (w.fval x) (w.fval y))
  | 1 => w.pickElem false x y
  | _ => w.pickElem true x y

/-- An element as read (R278): a subnormal as zero under FLUSH, a NaN canonical, else its bits. -/
def Wave.readElem (w : Wave) (x : Nat) : Nat := resultF (fmtOf w.ty) 0 false false (w.fval x)

/-- The identity of a floating-point op (R278). -/
def identityFp (op t : Nat) : Nat :=
  match op with
  | 0 => 0
  | 1 => resultF (fmtOf t) 0 false false (.inf false)
  | _ => resultF (fmtOf t) 0 false false (.inf true)

/-- One level of the tree: neighbours combine, and a node passes up over an EMPTY one (R278). -/
def treeLevel (f : Nat → Nat → Nat) (l : List (Option Nat)) : List (Option Nat) :=
  match l with
  | x :: y :: t =>
    (match x, y with
      | none, z => z
      | z, none => z
      | some p, some q => some (f p q)) :: treeLevel f t
  | l => l

/-- The five levels over 32 lanes (R278). -/
def treeReduce (f : Nat → Nat → Nat) (l : List (Option Nat)) : Option Nat :=
  ((treeLevel f (treeLevel f (treeLevel f (treeLevel f (treeLevel f l))))).headD none)

/-- The reduction of the ACTIVE lanes (R278). -/
def Wave.reduce (w : Wave) (op : Nat) (a : BitVec 6) : Nat :=
  if isInt w.ty then
    w.totalElem op ((bitsOf w.active).foldl (fun acc i => reduceInt op w.ty acc (intVal w.ty (w.elem w.ty a.toNat i))) (identityInt op w.ty))
  else
    (treeReduce (w.combineFp op) ((List.range 32).map fun i =>
      if w.active.getLsbD i then some (w.readElem (w.elem w.ty a.toNat i)) else none)).getD (identityFp op w.ty)

/-- VRED (R278). -/
def execVred (nx : BitVec 2) (d a : BitVec 6) (o : BitVec 3) (s : State) : Out :=
  vecOp s nx (okReduce o.toNat) fun w => w.setS d.toNat (scalarForm w.ty (w.reduce o.toNat a))

/-- Exact integer prefixes over lanes in order: lane, value before, value after. -/
def scanInt (op t : Nat) (acc : Int) (l : List (Nat × Int)) : List (Nat × Int × Int) :=
  match l with
  | [] => []
  | (i, x) :: r =>
    let y := reduceInt op t acc x
    (i, acc, y) :: scanInt op t y r

/-- Floating-point prefixes in lane order, one rounding each (R279). -/
def scanFp (f : Nat → Nat → Nat) (acc : Option Nat) (l : List (Nat × Nat)) : List (Nat × Option Nat × Nat) :=
  match l with
  | [] => []
  | (i, x) :: r =>
    let y := match acc with
      | none => x
      | some p => f p x
    (i, acc, y) :: scanFp f (some y) r

/-- The scan of the ACTIVE lanes: each lane's result (R279). -/
def Wave.scan (w : Wave) (op : Nat) (excl : Bool) (a : BitVec 6) : AMap Nat :=
  let lanes := bitsOf w.active
  if isInt w.ty then
    (scanInt op w.ty (identityInt op w.ty) (lanes.map fun i => (i, intVal w.ty (w.elem w.ty a.toNat i)))).map fun e =>
      (e.1, w.totalElem op (if excl then e.2.1 else e.2.2))
  else
    (scanFp (w.combineFp op) none (lanes.map fun i => (i, w.readElem (w.elem w.ty a.toNat i)))).map fun e =>
      (e.1, if excl then e.2.1.getD (identityFp op w.ty) else e.2.2)

/-- VSCAN (R279). -/
def execVscan (nx : BitVec 2) (d a : BitVec 6) (x : BitVec 1) (o : BitVec 3) (s : State) : Out :=
  vecOp s nx (okReduce o.toNat) fun w =>
    let r := w.scan o.toNat (x == 1#1) a
    w.putElems w.ty d.toNat w.active fun i => (lookup r i).getD 0

/-- The ballot (R280). -/
def Wave.ballot (w : Wave) (a : BitVec 6) : Word := maskOf fun i => w.active.getLsbD i && w.lane a.toNat i != 0#32
/-- VVOTE (R280). -/
def execVvote (nx : BitVec 2) (d a : BitVec 6) (m : BitVec 2) (s : State) : Out :=
  regOp s nx fun w =>
    let b := w.ballot a
    let one := fun (x : Bool) => if x then 1#64 else 0#64
    w.setS d.toNat (match m.toNat with
      | 0 => b.setWidth 64
      | 1 => one (b != 0#32)
      | _ => one (b == w.active))
/-- VVOTE.pballot (R280). -/
def execVvotePballot (nx : BitVec 2) (d : BitVec 3) (a : BitVec 6) (s : State) : Out := regOp s nx fun w => w.setP d.toNat (w.ballot a)

/-- A predicate of two predicates, the second complemented by `.n` (R284). -/
def pred2 (s : State) (nx : BitVec 2) (d a b : BitVec 3) (n : BitVec 1) (f : Word → Word → Word) : Out :=
  regOp s nx fun w =>
    let y := w.preg b.toNat
    w.setP d.toNat (f (w.preg a.toNat) (if n = 1#1 then ~~~y else y))
/-- PAND (R284). -/
def execPand (nx : BitVec 2) (d a b : BitVec 3) (n : BitVec 1) (s : State) : Out := pred2 s nx d a b n (· &&& ·)
/-- POR (R284). -/
def execPor (nx : BitVec 2) (d a b : BitVec 3) (n : BitVec 1) (s : State) : Out := pred2 s nx d a b n (· ||| ·)
/-- PXOR (R284). -/
def execPxor (nx : BitVec 2) (d a b : BitVec 3) (n : BitVec 1) (s : State) : Out := pred2 s nx d a b n (· ^^^ ·)
/-- PNOT (R284). -/
def execPnot (nx : BitVec 2) (d a : BitVec 3) (s : State) : Out := regOp s nx fun w => w.setP d.toNat (~~~(w.preg a.toNat))
/-- PMOV (R284). -/
def execPmov (nx : BitVec 2) (d a : BitVec 3) (s : State) : Out := regOp s nx fun w => w.setP d.toNat (w.preg a.toNat)
/-- PMOV.fs (R284). -/
def execPmovFs (nx : BitVec 2) (d : BitVec 3) (a : BitVec 6) (s : State) : Out :=
  regOp s nx fun w => w.setP d.toNat ((w.sreg a.toNat).extractLsb' 0 32)
/-- PMOV.ts (R284). -/
def execPmovTs (nx : BitVec 2) (d : BitVec 6) (a : BitVec 3) (s : State) : Out :=
  regOp s nx fun w => w.setS d.toNat ((w.preg a.toNat).setWidth 64)
/-- PCNT (R284). -/
def execPcnt (nx : BitVec 2) (d : BitVec 6) (a : BitVec 3) (s : State) : Out :=
  regOp s nx fun w => w.setS d.toNat (BitVec.ofNat 64 (popCount (w.preg a.toNat)))
/-- The lowest or highest one bit; 32 when there is none (R284). -/
def firstBit (hi : Bool) (x : Word) : Nat := if x = 0#32 then 32 else if hi then 31 - leadingZeros x else trailingZeros x
/-- PFIRST (R284). -/
def execPfirst (nx : BitVec 2) (d : BitVec 6) (a : BitVec 3) (h : BitVec 1) (s : State) : Out :=
  regOp s nx fun w => w.setS d.toNat (BitVec.ofNat 64 (firstBit (h == 1#1) (w.preg a.toNat)))
/-- The mask of PSETI (R284). -/
def setMask (hi : Bool) (n : Nat) : Word := maskOf fun i => if hi then decide (32 - n ≤ i) else decide (i < n)
/-- PSETI (R284). -/
def execPseti (nx : BitVec 2) (d : BitVec 3) (h : BitVec 1) (c : BitVec 6) (s : State) : Out :=
  regOp s nx fun w => w.setP d.toNat (setMask (h == 1#1) c.toNat)
/-- PLANES (R284). -/
def execPlanes (nx : BitVec 2) (d : BitVec 3) (m : BitVec 1) (s : State) : Out :=
  regOp s nx fun w => w.setP d.toNat (if m = 1#1 then w.active else w.live)

end Sys2Proof.Machine
end

