-- ==== Sys2Proof/Machine/Scalar.lean ====
section
/-! DEFINITION. Sys2Proof/Machine/Scalar.lean: scalar compare, constants, arithmetic, logic and shifts (R242-R252), and scalar memory
(R253-R256). -/
namespace Sys2Proof.Machine

/-- A result of two scalar registers. -/
def scalarRR (s : State) (nx : BitVec 2) (d a b : BitVec 6) (f : DWord → DWord → DWord) : Out :=
  regOp s nx fun w => w.setS d.toNat (f (w.sreg a.toNat) (w.sreg b.toNat))
/-- A result of one scalar register. -/
def scalarR (s : State) (nx : BitVec 2) (d a : BitVec 6) (f : DWord → DWord) : Out :=
  regOp s nx fun w => w.setS d.toNat (f (w.sreg a.toNat))
/-- Write the three flags. -/
def Wave.setFlags (w : Wave) (f : FlagSet) : Wave := { w with c := f.c, z := f.z, vf := f.v }
/-- SEXT(IMM10). -/
def imm10 (i : BitVec 10) : DWord := i.signExtend 64

/-- SCMP (R242): type 0 is i64, 1 is n64. -/
def execScmp (nx : BitVec 2) (t : BitVec 1) (a b : BitVec 6) (c : BitVec 3) (s : State) : Out :=
  regOp s nx fun w => w.setFlags (cmpFlags c.toNat (t == 1#1) (w.sreg a.toNat) (w.sreg b.toNat))
/-- SCMPI (R242). -/
def execScmpi (nx : BitVec 2) (u : BitVec 1) (c : BitVec 3) (a : BitVec 6) (i : BitVec 10) (s : State) : Out :=
  regOp s nx fun w => w.setFlags (cmpFlags c.toNat (u == 1#1) (w.sreg a.toNat) (imm10 i))
/-- SSEL (R243). -/
def execSsel (nx : BitVec 2) (d a b : BitVec 6) (f : BitVec 2) (s : State) : Out :=
  regOp s nx fun w =>
    let flag := match f.toNat with
      | 0 => w.c
      | 1 => w.z
      | _ => w.vf
    w.setS d.toNat (if flag then w.sreg a.toNat else w.sreg b.toNat)

/-- SMOVI (R247). -/
def execSmovi (nx : BitVec 2) (d : BitVec 6) (i : BitVec 16) (s : State) : Out := regOp s nx fun w => w.setS d.toNat (i.signExtend 64)
/-- One 16-bit field of a register replaced (R247). -/
def putField (x : DWord) (k : Nat) (i : BitVec 16) : DWord :=
  (x &&& ~~~(0xFFFF#64 <<< (16 * k))) ||| (i.setWidth 64 <<< (16 * k))
/-- SMOVK1 (R247). -/
def execSmovk1 (nx : BitVec 2) (d : BitVec 6) (i : BitVec 16) (s : State) : Out := scalarR s nx d d fun x => putField x 1 i
/-- SMOVK2 (R247). -/
def execSmovk2 (nx : BitVec 2) (d : BitVec 6) (i : BitVec 16) (s : State) : Out := scalarR s nx d d fun x => putField x 2 i
/-- SMOVK3 (R247). -/
def execSmovk3 (nx : BitVec 2) (d : BitVec 6) (i : BitVec 16) (s : State) : Out := scalarR s nx d d fun x => putField x 3 i

/-- SADD (R248), flags by R244 when SUB is 1. -/
def execSadd (nx : BitVec 2) (d a b : BitVec 6) (f : BitVec 1) (s : State) : Out :=
  regOp s nx fun w =>
    let x := w.sreg a.toNat
    let y := w.sreg b.toNat
    let w1 := w.setS d.toNat (x + y)
    if f = 1#1 then w1.setFlags (addFlags x y) else w1
/-- SSUB (R248), flags by R244 when SUB is 1. -/
def execSsub (nx : BitVec 2) (d a b : BitVec 6) (f : BitVec 1) (s : State) : Out :=
  regOp s nx fun w =>
    let x := w.sreg a.toNat
    let y := w.sreg b.toNat
    let w1 := w.setS d.toNat (x - y)
    if f = 1#1 then w1.setFlags (subFlags x y) else w1
/-- SMUL (R248). -/
def execSmul (nx : BitVec 2) (d a b : BitVec 6) (s : State) : Out := scalarRR s nx d a b fun x y => x * y
/-- Bits [127:64] of the product (R248). -/
def mulHigh (unsigned : Bool) (x y : DWord) : DWord := BitVec.ofInt 64 ((scalarInt unsigned x * scalarInt unsigned y) / (2 ^ 64 : Nat))
/-- SMULH (R248). -/
def execSmulh (nx : BitVec 2) (d a b : BitVec 6) (u : BitVec 1) (s : State) : Out := scalarRR s nx d a b (mulHigh (u == 1#1))
/-- Quotient of SDIV (R249, R97). -/
def divScalar (unsigned : Bool) (x y : DWord) : DWord :=
  BitVec.ofInt 64 (quotInt (if unsigned then 7 else 6) (scalarInt unsigned x) (scalarInt unsigned y))
/-- Remainder of SREM (R249, R97). -/
def remScalar (unsigned : Bool) (x y : DWord) : DWord := BitVec.ofInt 64 (remInt (scalarInt unsigned x) (scalarInt unsigned y))
/-- SDIV (R249). -/
def execSdiv (nx : BitVec 2) (d a b : BitVec 6) (u : BitVec 1) (s : State) : Out := scalarRR s nx d a b (divScalar (u == 1#1))
/-- SREM (R249). -/
def execSrem (nx : BitVec 2) (d a b : BitVec 6) (u : BitVec 1) (s : State) : Out := scalarRR s nx d a b (remScalar (u == 1#1))
/-- SAND (R248). -/
def execSand (nx : BitVec 2) (d a b : BitVec 6) (s : State) : Out := scalarRR s nx d a b fun x y => x &&& y
/-- SOR (R248). -/
def execSor (nx : BitVec 2) (d a b : BitVec 6) (s : State) : Out := scalarRR s nx d a b fun x y => x ||| y
/-- SXOR (R248). -/
def execSxor (nx : BitVec 2) (d a b : BitVec 6) (s : State) : Out := scalarRR s nx d a b fun x y => x ^^^ y
/-- A shift count: bits [5:0] (R248). -/
def shiftCount (y : DWord) : Nat := y.toNat % 64
/-- SSHL (R248). -/
def execSshl (nx : BitVec 2) (d a b : BitVec 6) (s : State) : Out := scalarRR s nx d a b fun x y => x <<< shiftCount y
/-- SSHR (R248). -/
def execSshr (nx : BitVec 2) (d a b : BitVec 6) (s : State) : Out := scalarRR s nx d a b fun x y => x >>> shiftCount y
/-- SSRA (R248). -/
def execSsra (nx : BitVec 2) (d a b : BitVec 6) (s : State) : Out := scalarRR s nx d a b fun x y => x.sshiftRight (shiftCount y)
/-- The smaller of two registers (R248). -/
def minScalar (unsigned : Bool) (x y : DWord) : DWord := if scalarInt unsigned y < scalarInt unsigned x then y else x
/-- The larger of two registers (R248). -/
def maxScalar (unsigned : Bool) (x y : DWord) : DWord := if scalarInt unsigned x < scalarInt unsigned y then y else x
/-- SMIN (R248). -/
def execSmin (nx : BitVec 2) (d a b : BitVec 6) (u : BitVec 1) (s : State) : Out := scalarRR s nx d a b (minScalar (u == 1#1))
/-- SMAX (R248). -/
def execSmax (nx : BitVec 2) (d a b : BitVec 6) (u : BitVec 1) (s : State) : Out := scalarRR s nx d a b (maxScalar (u == 1#1))

/-- SADDI (R250). -/
def execSaddi (nx : BitVec 2) (d a : BitVec 6) (i : BitVec 10) (s : State) : Out := scalarR s nx d a fun x => x + imm10 i
/-- SANDI (R250). -/
def execSandi (nx : BitVec 2) (d a : BitVec 6) (i : BitVec 10) (s : State) : Out := scalarR s nx d a fun x => x &&& imm10 i
/-- SORI (R250). -/
def execSori (nx : BitVec 2) (d a : BitVec 6) (i : BitVec 10) (s : State) : Out := scalarR s nx d a fun x => x ||| imm10 i
/-- SMULI (R250). -/
def execSmuli (nx : BitVec 2) (d a : BitVec 6) (i : BitVec 10) (s : State) : Out := scalarR s nx d a fun x => x * imm10 i
/-- SSHLI (R250). -/
def execSshli (nx : BitVec 2) (d a : BitVec 6) (i : BitVec 6) (s : State) : Out := scalarR s nx d a fun x => x <<< i.toNat
/-- SSHRI (R250). -/
def execSshri (nx : BitVec 2) (d a : BitVec 6) (i : BitVec 6) (s : State) : Out := scalarR s nx d a fun x => x >>> i.toNat
/-- SSRAI (R250). -/
def execSsrai (nx : BitVec 2) (d a : BitVec 6) (i : BitVec 6) (s : State) : Out := scalarR s nx d a fun x => x.sshiftRight i.toNat

/-- The counts of SCNT (R251). -/
def countBits (sub : Nat) (x : DWord) : Nat :=
  match sub with
  | 0 => popCount x
  | 1 => leadingZeros x
  | _ => trailingZeros x
/-- SCNT (R251). -/
def execScnt (nx : BitVec 2) (d a : BitVec 6) (c : BitVec 2) (s : State) : Out := scalarR s nx d a fun x => BitVec.ofNat 64 (countBits c.toNat x)
/-- The low `n` bits of a value extended to 64 bits, with their sign or with zeros (R252, R255). -/
def extendTo64 (signed : Bool) (n x : Nat) : DWord := if signed then BitVec.ofInt 64 (signedOf n x) else BitVec.ofNat 64 (x % 2 ^ n)
/-- SEXT (R252, Table 9.5): codes 0-2 signed, 4-6 zero-extended, widths 8, 16, 32. -/
def execSext (nx : BitVec 2) (d a : BitVec 6) (w : BitVec 3) (s : State) : Out :=
  scalarR s nx d a fun x => extendTo64 (decide (w.toNat < 4)) (8 * 2 ^ (w.toNat % 4)) x.toNat

/-- s[A] + s[B] (R254). -/
def indexedAddr (a b : BitVec 6) (w : Wave) : Nat := (w.sreg a.toNat + w.sreg b.toNat).toNat
/-- The size of WS (Table 9.6). -/
def wsSize (ws : BitVec 3) : Nat := 2 ^ (ws.toNat / 2)
/-- s[A] + SEXT(offset) × size (R255). -/
def offsetAddr (a : BitVec 6) (ws : BitVec 3) (i : BitVec 7) (w : Wave) : Nat :=
  (w.sreg a.toNat + i.signExtend 64 * BitVec.ofNat 64 (wsSize ws)).toNat
/-- SLD (R254). -/
def execSld (nx : BitVec 2) (d a b : BitVec 6) (l : BitVec 4) (s : State) : Out :=
  scalarLoad s nx d 8 l (indexedAddr a b) false
/-- SST (R254). -/
def execSst (nx : BitVec 2) (d a b : BitVec 6) (l : BitVec 4) (s : State) : Out := scalarStore s nx d 8 l (indexedAddr a b)
/-- SLDI (R255, Table 9.6): odd codes extend with the sign. -/
def execSldi (nx : BitVec 2) (d a : BitVec 6) (ws : BitVec 3) (i : BitVec 7) (s : State) : Out :=
  scalarLoad s nx d (wsSize ws) 0#4 (offsetAddr a ws i) (ws.toNat % 2 == 1)
/-- SSTI (R255, Table 9.6). -/
def execSsti (nx : BitVec 2) (d a : BitVec 6) (ws : BitVec 3) (i : BitVec 7) (s : State) : Out :=
  scalarStore s nx d (wsSize ws) 0#4 (offsetAddr a ws i)
/-- SATOM (R256): an i64 atomic. -/
def execSatom (nx : BitVec 2) (d a : BitVec 6) (p : BitVec 3) (o : BitVec 3) (s : State) : Out := scalarAtomic s nx d a 6 o.toNat p.toNat
/-- SATOMF (R292). -/
def execSatomf (nx : BitVec 2) (d a : BitVec 6) (t p : BitVec 3) (o : BitVec 4) (s : State) : Out :=
  scalarAtomic s nx d a (satomfType t.toNat) o.toNat p.toNat

end Sys2Proof.Machine
end

