-- ==== Sys2Proof/Machine/VectorMemory.lean ====
section
/-! DEFINITION. Sys2Proof/Machine/VectorMemory.lean: vector loads, stores and atomics, FENCE, PREFETCH, CFLUSH and LOCQ (R287-R297). -/
namespace Sys2Proof.Machine

/-- Act on the current wave after checks that fail lane by lane (R174 names the five instructions). -/
def checkedLanes {α : Type} (s : State) (c : Nat → Wave → Check α) (f : Nat → Wave → α → State) : Out :=
  onWave s fun u w =>
    match c u w with
    | .error e => stopWave s u e true
    | .ok a => f u w a

/-- The accesses of the ACTIVE lanes. -/
def laneAccs (w : Wave) (n : Nat) (ea : Nat → Nat) : List LaneAcc := (bitsOf w.active).map fun i => ⟨i, ea i, n⟩

/-- The checks of R288: the type, alignment of every ACTIVE lane, then translation of every one (R49). -/
def checkVector (s : State) (w : Wave) (ok : Nat → Bool) (kind : AccKind) (ea : Nat → Nat) : Check Placed :=
  if !ok w.ty then .error (modeInvalid s w)
  else
    let l := laneAccs w (typeBytes w.ty) ea
    match checkAligned l with
    | .error e => .error e
    | .ok _ => checkLanes s w kind l

/-- s[A] + SEXT(v[B][lane]) (R288, R291). -/
def gatherAddr (w : Wave) (a b : Nat) (i : Nat) : Nat := (w.sreg a + (w.lane b i).signExtend 64).toNat
/-- s[A] + lane × s[B] (R288). -/
def strideAddr (w : Wave) (a b : Nat) (i : Nat) : Nat := (w.sreg a + BitVec.ofNat 64 i * w.sreg b).toNat

/-- VLD and VLDS (R288): each ACTIVE lane reads its element; the results wait for their write (R290). -/
def vectorLoad (s : State) (nx : BitVec 2) (d : BitVec 6) (la : BitVec 4) (ea : Wave → Nat → Nat) : Out :=
  checkedLanes s (fun _ w => checkVector s w okAny 0 (ea w)) fun u w l =>
    loadAt s u w nx la false true (vW w.ty d) (.lanes w.ty d.toNat w.active) l

/-- VST and VSTS (R288). -/
def vectorStore (s : State) (nx : BitVec 2) (d : BitVec 6) (la : BitVec 4) (ea : Wave → Nat → Nat) : Out :=
  checkedLanes s (fun _ w => checkVector s w okAny 1 (ea w)) fun u w l =>
    let data := l.map fun e => (e, bytesOf e.1.n (w.elem w.ty d.toNat e.1.lane))
    withPeers s u w l (writeAsks (data.map fun e => ([e.1], e.2))) true fun s _ =>
      let s := data.foldl (fun t e => writeLane t (coreNo t w) u e.1.2 e.2) s
      setWave s u (((waveOf s u).openWindow la (vW w.ty d)).finish nx)

/-- VLD (R288). -/
def execVld (nx : BitVec 2) (d a b : BitVec 6) (l : BitVec 4) (s : State) : Out := vectorLoad s nx d l fun w i => gatherAddr w a.toNat b.toNat i
/-- VST (R288). -/
def execVst (nx : BitVec 2) (d a b : BitVec 6) (l : BitVec 4) (s : State) : Out := vectorStore s nx d l fun w i => gatherAddr w a.toNat b.toNat i
/-- VLDS (R288). -/
def execVlds (nx : BitVec 2) (d a b : BitVec 6) (l : BitVec 4) (s : State) : Out := vectorLoad s nx d l fun w i => strideAddr w a.toNat b.toNat i
/-- VSTS (R288). -/
def execVsts (nx : BitVec 2) (d a b : BitVec 6) (l : BitVec 4) (s : State) : Out := vectorStore s nx d l fun w i => strideAddr w a.toNat b.toNat i

/-- The checks of VLDB (R289): one access as lane 0, none when no lane is ACTIVE. -/
def checkBroadcast (s : State) (w : Wave) (a b : Nat) : Check Placed :=
  if !okAny w.ty then .error (modeInvalid s w)
  else if w.active = 0#32 then .ok []
  else checkScalar s w 0 (w.sreg a + w.sreg b).toNat (typeBytes w.ty)

/-- VLDB (R289). -/
def execVldb (nx : BitVec 2) (d a b : BitVec 6) (la : BitVec 4) (s : State) : Out :=
  checked s (fun _ w => checkBroadcast s w a.toNat b.toNat) fun u w l =>
    loadAt s u w nx la true false (vW w.ty d) (.one w.ty d.toNat w.active) l

/-- The types of VATOM (R291). -/
def okAtomic (op t : Nat) : Bool := (t ≤ 1 || t == 6 || t == 7 || t == 8) && atomAllowed t op

/-- One lane of VATOM (R291): performed now, its old value written at once, or put on the core's path. -/
def atomicLane (s : State) (u id : Nat) (d ty op scope : Nat) (a : LaneAcc) (p : Place) (dat cmp : Nat) : State :=
  let w := waveOf s u
  let (s, old) := atomLane s (coreNo s w) scope p ⟨u, id, .v d, a.lane, a.n, op, ty, dat, cmp⟩
  let w := waveOf s u
  match old with
  | some x => setWave s u ((countFar w (if leafSC p.leaf then 1 else 0)).setAtomicDst (.v d) a.n ty a.lane x)
  | none => setWave s u (countFar w 1)

/-- VATOM (R291): the lanes in ascending order. -/
def execVatom (nx : BitVec 2) (d a : BitVec 6) (p k : BitVec 3) (o : BitVec 4) (s : State) : Out :=
  checkedLanes s (fun _ w => checkVector s w (okAtomic o.toNat) 3 fun i => gatherAddr w a.toNat k.toNat i) fun u w l =>
    let ty := w.ty
    let dat := fun (i : Nat) => w.elem ty d.toNat i
    let cmp := fun (i : Nat) => w.elem ty (d.toNat + wideN ty) i
    withPeers s u w l (atomAsks l o.toNat ty dat cmp) true fun s ans =>
      let id := s.uid
      let s := { s with uid := s.uid + 1 }
      let s := l.foldl (fun t e =>
        match e.2 with
        | (q, _) :: _ =>
          if q.loc = 2 then
            setWave t u ((countFar (waveOf t u) 1).setAtomicDst (.v d.toNat) e.1.n ty e.1.lane (atomAnswer l e.1.n ans e.1.lane q))
          else atomicLane t u id d.toNat ty o.toNat p.toNat e.1 q (dat e.1.lane) (cmp e.1.lane)
        | [] => t) s
      let w := waveOf s u
      let w := if atomicWaits (coreOf s (coreNo s w)).path id then { w with pending := w.pending ++ [Pending.mk id (vW ty d) [] false] } else w
      setWave s u (w.finish nx)

/-- FENCE (R294, R111): kinds 0 acq, 1 rel, 2 acqrel, 3 sc. -/
def execFence (nx : BitVec 2) (p : BitVec 3) (k : BitVec 2) (s : State) : Out :=
  onWave s fun u w =>
    let c := coreNo s w
    let s := flushResults s u
    let s := if k = 0#2 then s else fenceRelease s c p.toNat
    let s := if k = 1#2 then s else fenceAcquire s c p.toNat
    setWave s u ((waveOf s u).finish nx)

/-- A line brought into the L2 of a core's die (R295): to the proxy slice where it is homed across the seam, and granted by the host where it is the host's. Any
OWNED copy is recalled first (R115). -/
def prefetchL2 (s : State) (c : Nat) (p : Place) : State := (sliceRead s (some c) p.kid (lineOf p.key * 128) 128).1

/-- A line brought into a core's L1 whole, SHARED (R295). -/
def prefetchL1 (s : State) (c : Nat) (p : Place) : State :=
  let base := lineOf p.key * 128
  (coreRead (coreRead (settleLine s c (lineOf p.key)) c p.kid base 1).1 c p.kid (base + 64) 1).1

/-- PREFETCH (R295): the line goes into the die's L2, or into the L1. -/
def execPrefetch (nx : BitVec 2) (a b : BitVec 6) (m : BitVec 1) (s : State) : Out :=
  onWave s fun u w =>
    let va := (w.sreg a.toNat + w.sreg b.toNat).toNat
    let s := match translate s (askerOf s w) w.ctag va 0 false with
      | .error _ => s
      | .ok p =>
        if p.loc = 2 then s
        else if m = 0#1 then prefetchL2 s (coreNo s w) p
        else if leafSC p.leaf then s
        else prefetchL1 s (coreNo s w) p
    setWave s u ((waveOf s u).finish nx)

/-- CFLUSH (R296): the wave stalls until CFLUSH_COMPLETE has acted on the range; a length of 0 does nothing. -/
def execCflush (nx : BitVec 2) (a b : BitVec 6) (m : BitVec 2) (s : State) : Out :=
  onWave s fun u w =>
    let n := bitsAt (w.sreg b.toNat).toNat 0 32
    if n = 0 then setWave s u (w.finish nx) else setWave s u { w with stall := some (.cflush nx (w.sreg a.toNat) n m.toNat) }

/-- LOCQ (R297, R58). -/
def execLocq (nx : BitVec 2) (d a : BitVec 6) (s : State) : Out :=
  regOp s nx fun w => w.setS d.toNat (localityWord s w (w.sreg a.toNat).toNat)

/-- One line of a CFLUSH: `.l1`, `.ic`, `.wb`, `.wbinv` (R296). -/
def flushLine (s : State) (c line k : Nat) : State :=
  let drop := fun (x : Core) => { x with l1 := erase x.l1 line, owned := x.owned.filter (· != line) }
  match k with
  | 0 => setCore s c (drop (coreOf s c))
  | 1 => setCore s c { coreOf s c with icache := erase (coreOf s c).icache line }
  | 2 => cleanLine s line
  | _ => { evictLine s line with cores := mapVals s.cores drop }

/-- The physical lines of a page's part of a range: both frames of a SHADOW page; pages that cannot be reached and PEER pages give none (R296). -/
def flushLines (s : State) (w : Wave) (va n : Nat) : List Nat :=
  match leafFor s (askerOf s w) w.ctag va with
  | .error _ => []
  | .ok (leaf, size) =>
    match checkLeaf s leaf 0 with
    | .error _ => []
    | .ok kid =>
      let run := fun (eng : Bool) =>
        let p := placeOf leaf size kid va eng
        if p.loc = 2 then [] else linesOf p.key n
      if leafShadow leaf then run false ++ run true else run false

/-- CFLUSH_COMPLETE (R296): every line of the range is done, and the stalled wave resumes. DESIGN CHOICE (log 72): addresses of the private half in the range
are passed over, as those that fail translation are; R296 does not name them. -/
def execCflushComplete (u : Nat) (s : State) : Out :=
  .next (match lookup s.waves u with
    | none => s
    | some w =>
      match w.stall with
      | some (.cflush nx a n k) =>
        let lines := ((chunksOf a.toNat n).filter fun e => !isPrivate e.1 && canonical e.1).flatMap fun e => flushLines s w e.1 e.2
        let s := drainPath s (coreNo s w)
        let s := lines.foldl (fun t l => flushLine t (coreNo t w) l k) s
        setWave s u ({ waveOf s u with stall := none }.finish nx)
      | _ => s)

end Sys2Proof.Machine
end

