-- ==== Sys2Proof/Machine/Dispatch.lean ====
section
/-! DEFINITION. Sys2Proof/Machine/Dispatch.lean: one arm for each row of the opcode table, each a call of that instruction's meaning. -/
namespace Sys2Proof.Machine

def exec (i : Instr) (s : State) : Host.Outcome State Fault Refusal :=
  match i with
  | .nop nx => Sys2Proof.Machine.execNop nx s
  | .halt => Sys2Proof.Machine.execHalt s
  | .setbt nx i_ => Sys2Proof.Machine.execSetbt nx i_ s
  | .setbts nx a => Sys2Proof.Machine.execSetbts nx a s
  | .setlt nx i_ => Sys2Proof.Machine.execSetlt nx i_ s
  | .setlc nx a => Sys2Proof.Machine.execSetlc nx a s
  | .savepc nx d s_ => Sys2Proof.Machine.execSavepc nx d s_ s
  | .setmode nx a => Sys2Proof.Machine.execSetmode nx a s
  | .getmode nx d => Sys2Proof.Machine.execGetmode nx d s
  | .scmp nx t a b c => Sys2Proof.Machine.execScmp nx t a b c s
  | .scmpi nx u c a i_ => Sys2Proof.Machine.execScmpi nx u c a i_ s
  | .readsr nx d i_ => Sys2Proof.Machine.execReadsr nx d i_ s
  | .ssel nx d a b f => Sys2Proof.Machine.execSsel nx d a b f s
  | .smovi nx d i_ => Sys2Proof.Machine.execSmovi nx d i_ s
  | .smovk1 nx d i_ => Sys2Proof.Machine.execSmovk1 nx d i_ s
  | .sadd nx d a b f => Sys2Proof.Machine.execSadd nx d a b f s
  | .ssub nx d a b f => Sys2Proof.Machine.execSsub nx d a b f s
  | .smul nx d a b => Sys2Proof.Machine.execSmul nx d a b s
  | .smulh nx d a b u => Sys2Proof.Machine.execSmulh nx d a b u s
  | .sdiv nx d a b u => Sys2Proof.Machine.execSdiv nx d a b u s
  | .srem nx d a b u => Sys2Proof.Machine.execSrem nx d a b u s
  | .sand nx d a b => Sys2Proof.Machine.execSand nx d a b s
  | .sor nx d a b => Sys2Proof.Machine.execSor nx d a b s
  | .sxor nx d a b => Sys2Proof.Machine.execSxor nx d a b s
  | .sshl nx d a b => Sys2Proof.Machine.execSshl nx d a b s
  | .sshr nx d a b => Sys2Proof.Machine.execSshr nx d a b s
  | .ssra nx d a b => Sys2Proof.Machine.execSsra nx d a b s
  | .smin nx d a b u => Sys2Proof.Machine.execSmin nx d a b u s
  | .smax nx d a b u => Sys2Proof.Machine.execSmax nx d a b u s
  | .sld nx d a b l => Sys2Proof.Machine.execSld nx d a b l s
  | .sldi nx d a w i_ => Sys2Proof.Machine.execSldi nx d a w i_ s
  | .sst nx d a b l => Sys2Proof.Machine.execSst nx d a b l s
  | .ssti nx d a w i_ => Sys2Proof.Machine.execSsti nx d a w i_ s
  | .satom nx d a p o => Sys2Proof.Machine.execSatom nx d a p o s
  | .scnt nx d a c => Sys2Proof.Machine.execScnt nx d a c s
  | .saddi nx d a i_ => Sys2Proof.Machine.execSaddi nx d a i_ s
  | .sandi nx d a i_ => Sys2Proof.Machine.execSandi nx d a i_ s
  | .sori nx d a i_ => Sys2Proof.Machine.execSori nx d a i_ s
  | .sshli nx d a i_ => Sys2Proof.Machine.execSshli nx d a i_ s
  | .sshri nx d a i_ => Sys2Proof.Machine.execSshri nx d a i_ s
  | .ssrai nx d a i_ => Sys2Proof.Machine.execSsrai nx d a i_ s
  | .smuli nx d a i_ => Sys2Proof.Machine.execSmuli nx d a i_ s
  | .sext nx d a w => Sys2Proof.Machine.execSext nx d a w s
  | .smovk2 nx d i_ => Sys2Proof.Machine.execSmovk2 nx d i_ s
  | .smovk3 nx d i_ => Sys2Proof.Machine.execSmovk3 nx d i_ s
  | .vadd nx d a b => Sys2Proof.Machine.execVadd nx d a b s
  | .vsub nx d a b => Sys2Proof.Machine.execVsub nx d a b s
  | .vmul nx d a b => Sys2Proof.Machine.execVmul nx d a b s
  | .vmad nx d a b g => Sys2Proof.Machine.execVmad nx d a b g s
  | .vmin nx d a b => Sys2Proof.Machine.execVmin nx d a b s
  | .vmax nx d a b => Sys2Proof.Machine.execVmax nx d a b s
  | .vabs nx d a => Sys2Proof.Machine.execVabs nx d a s
  | .vneg nx d a => Sys2Proof.Machine.execVneg nx d a s
  | .vdiv nx d a b l => Sys2Proof.Machine.execVdiv nx d a b l s
  | .vrem nx d a b => Sys2Proof.Machine.execVrem nx d a b s
  | .vsqrt nx d a l => Sys2Proof.Machine.execVsqrt nx d a l s
  | .vrcp nx d a l => Sys2Proof.Machine.execVrcp nx d a l s
  | .vrsq nx d a l => Sys2Proof.Machine.execVrsq nx d a l s
  | .vexp2 nx d a l => Sys2Proof.Machine.execVexp2 nx d a l s
  | .vlog2 nx d a l => Sys2Proof.Machine.execVlog2 nx d a l s
  | .vsincos nx d a l => Sys2Proof.Machine.execVsincos nx d a l s
  | .vand nx d a b => Sys2Proof.Machine.execVand nx d a b s
  | .vor nx d a b => Sys2Proof.Machine.execVor nx d a b s
  | .vxor nx d a b => Sys2Proof.Machine.execVxor nx d a b s
  | .vnot nx d a => Sys2Proof.Machine.execVnot nx d a s
  | .vshl nx d a b => Sys2Proof.Machine.execVshl nx d a b s
  | .vshr nx d a b => Sys2Proof.Machine.execVshr nx d a b s
  | .vsra nx d a b => Sys2Proof.Machine.execVsra nx d a b s
  | .vmulh nx d a b => Sys2Proof.Machine.execVmulh nx d a b s
  | .vcmp nx d a b c => Sys2Proof.Machine.execVcmp nx d a b c s
  | .vsel nx d a b k => Sys2Proof.Machine.execVsel nx d a b k s
  | .vcvt nx d a t x r => Sys2Proof.Machine.execVcvt nx d a t x r s
  | .vclass nx d a => Sys2Proof.Machine.execVclass nx d a s
  | .vaddi nx d a i_ => Sys2Proof.Machine.execVaddi nx d a i_ s
  | .vmovs nx d a => Sys2Proof.Machine.execVmovs nx d a s
  | .vmovi nx d i_ => Sys2Proof.Machine.execVmovi nx d i_ s
  | .vmov nx d a => Sys2Proof.Machine.execVmov nx d a s
  | .vlane nx d => Sys2Proof.Machine.execVlane nx d s
  | .vperm nx d a b => Sys2Proof.Machine.execVperm nx d a b s
  | .vshfl nx d a k s_ => Sys2Proof.Machine.execVshfl nx d a k s_ s
  | .vred nx d a o => Sys2Proof.Machine.execVred nx d a o s
  | .vscan nx d a x o => Sys2Proof.Machine.execVscan nx d a x o s
  | .vextr nx d a b => Sys2Proof.Machine.execVextr nx d a b s
  | .vinsr nx d a b => Sys2Proof.Machine.execVinsr nx d a b s
  | .vvote nx d a s_ => Sys2Proof.Machine.execVvote nx d a s_ s
  | .vvotePballot nx d a => Sys2Proof.Machine.execVvotePballot nx d a s
  | .vpack nx d a t s_ => Sys2Proof.Machine.execVpack nx d a t s_ s
  | .vunpk nx d a s_ => Sys2Proof.Machine.execVunpk nx d a s_ s
  | .vcmpi nx c p a i_ => Sys2Proof.Machine.execVcmpi nx c p a i_ s
  | .vdot4 nx d a b => Sys2Proof.Machine.execVdot4 nx d a b s
  | .vdot2 nx d a b => Sys2Proof.Machine.execVdot2 nx d a b s
  | .vbfe nx d a b g => Sys2Proof.Machine.execVbfe nx d a b g s
  | .vbfi nx d a b => Sys2Proof.Machine.execVbfi nx d a b s
  | .vcnt nx d a s_ => Sys2Proof.Machine.execVcnt nx d a s_ s
  | .vtilth nx d a b => Sys2Proof.Machine.execVtilth nx d a b s
  | .vuntilth nx d a => Sys2Proof.Machine.execVuntilth nx d a s
  | .vexpo nx d a => Sys2Proof.Machine.execVexpo nx d a s
  | .vldexp nx d a b => Sys2Proof.Machine.execVldexp nx d a b s
  | .pand nx d a b s_ => Sys2Proof.Machine.execPand nx d a b s_ s
  | .por nx d a b s_ => Sys2Proof.Machine.execPor nx d a b s_ s
  | .pxor nx d a b s_ => Sys2Proof.Machine.execPxor nx d a b s_ s
  | .pnot nx d a => Sys2Proof.Machine.execPnot nx d a s
  | .pmov nx d a => Sys2Proof.Machine.execPmov nx d a s
  | .pmovFs nx d a => Sys2Proof.Machine.execPmovFs nx d a s
  | .pmovTs nx d a => Sys2Proof.Machine.execPmovTs nx d a s
  | .pcnt nx d a => Sys2Proof.Machine.execPcnt nx d a s
  | .pfirst nx d a h => Sys2Proof.Machine.execPfirst nx d a h s
  | .pseti nx d h c => Sys2Proof.Machine.execPseti nx d h c s
  | .planes nx d s_ => Sys2Proof.Machine.execPlanes nx d s_ s
  | .vld nx d a b l => Sys2Proof.Machine.execVld nx d a b l s
  | .vst nx d a b l => Sys2Proof.Machine.execVst nx d a b l s
  | .vlds nx d a b l => Sys2Proof.Machine.execVlds nx d a b l s
  | .vsts nx d a b l => Sys2Proof.Machine.execVsts nx d a b l s
  | .vldb nx d a b l => Sys2Proof.Machine.execVldb nx d a b l s
  | .vatom nx d a p k o => Sys2Proof.Machine.execVatom nx d a p k o s
  | .satomf nx d a t p o => Sys2Proof.Machine.execSatomf nx d a t p o s
  | .fence nx p k => Sys2Proof.Machine.execFence nx p k s
  | .prefetch nx a b s_ => Sys2Proof.Machine.execPrefetch nx a b s_ s
  | .cflush nx a b s_ => Sys2Proof.Machine.execCflush nx a b s_ s
  | .locq nx d a => Sys2Proof.Machine.execLocq nx d a s
  | .palloc nx v a b t => Sys2Proof.Machine.execPalloc nx v a b t s
  | .pfree nx a => Sys2Proof.Machine.execPfree nx a s
  | .parm nx a b => Sys2Proof.Machine.execParm nx a b s
  | .pld nx d a l => Sys2Proof.Machine.execPld nx d a l s
  | .pst nx d a l => Sys2Proof.Machine.execPst nx d a l s
  | .pstate nx d a => Sys2Proof.Machine.execPstate nx d a s
  | .pwait nx a => Sys2Proof.Machine.execPwait nx a s
  | .cpy nx d a b c => Sys2Proof.Machine.execCpy nx d a b c s
  | .cpyt nx d a b c => Sys2Proof.Machine.execCpyt nx d a b c s
  | .cpyim nx d a b c => Sys2Proof.Machine.execCpyim nx d a b c s
  | .cpym nx d a b c => Sys2Proof.Machine.execCpym nx d a b c s
  | .cpyout nx d a b c r => Sys2Proof.Machine.execCpyout nx d a b c r s
  | .publish nx a b => Sys2Proof.Machine.execPublish nx a b s
  | .xeng nx d a => Sys2Proof.Machine.execXeng nx d a s
  | .cpybar nx d a => Sys2Proof.Machine.execCpybar nx d a s
  | .pinfo nx d a k => Sys2Proof.Machine.execPinfo nx d a k s
  | .yacq nx a => Sys2Proof.Machine.execYacq nx a s
  | .yrel nx => Sys2Proof.Machine.execYrel nx s
  | .ystat nx d => Sys2Proof.Machine.execYstat nx d s
  | .mloadb nx d q r => Sys2Proof.Machine.execMloadb nx d q r s
  | .mrun nx d a r => Sys2Proof.Machine.execMrun nx d a r s
  | .mzero nx a => Sys2Proof.Machine.execMzero nx a s
  | .mreadg nx d a => Sys2Proof.Machine.execMreadg nx d a s
  | .mhalt nx d => Sys2Proof.Machine.execMhalt nx d s
  | .mdrain nx => Sys2Proof.Machine.execMdrain nx s
  | .msave nx a => Sys2Proof.Machine.execMsave nx a s
  | .mrest nx a => Sys2Proof.Machine.execMrest nx a s
  | .mbands nx a => Sys2Proof.Machine.execMbands nx a s
  | .mcadr nx d a b c t => Sys2Proof.Machine.execMcadr nx d a b c t s
  | .maccg nx d a => Sys2Proof.Machine.execMaccg nx d a s
  | .barrive nx d a b => Sys2Proof.Machine.execBarrive nx d a b s
  | .bwait nx a b => Sys2Proof.Machine.execBwait nx a b s
  | .bjoin nx d a => Sys2Proof.Machine.execBjoin nx d a s
  | .bleave nx d a => Sys2Proof.Machine.execBleave nx d a s
  | .binit nx a b p => Sys2Proof.Machine.execBinit nx a b p s
  | .evbind nx k a b t => Sys2Proof.Machine.execEvbind nx k a b t s
  | .evunb nx k => Sys2Proof.Machine.execEvunb nx k s
  | .evmask nx a s_ => Sys2Proof.Machine.execEvmask nx a s_ s
  | .evpend nx d => Sys2Proof.Machine.execEvpend nx d s
  | .evclr nx a => Sys2Proof.Machine.execEvclr nx a s
  | .waitany d a => Sys2Proof.Machine.execWaitany d a s
  | .mbsend nx d a b t => Sys2Proof.Machine.execMbsend nx d a b t s
  | .mbrecv nx d a => Sys2Proof.Machine.execMbrecv nx d a s
  | .sleep nx a => Sys2Proof.Machine.execSleep nx a s
  | .sleepEv nx d a => Sys2Proof.Machine.execSleepEv nx d a s
  | .gbar nx => Sys2Proof.Machine.execGbar nx s
  | .invoke nx d a b => Sys2Proof.Machine.execInvoke nx d a b s
  | .invokef nx d a b => Sys2Proof.Machine.execInvokef nx d a b s
  | .fget nx d a b => Sys2Proof.Machine.execFget nx d a b s
  | .fpoll nx d a b => Sys2Proof.Machine.execFpoll nx d a b s
  | .fdrop nx a => Sys2Proof.Machine.execFdrop nx a s
  | .taskarg nx d s_ => Sys2Proof.Machine.execTaskarg nx d s_ s
  | .taskret nx a => Sys2Proof.Machine.execTaskret nx a s
  | .taskbrk nx a => Sys2Proof.Machine.execTaskbrk nx a s
  | .launch nx d a b => Sys2Proof.Machine.execLaunch nx d a b s
  | .depsig nx d a => Sys2Proof.Machine.execDepsig nx d a s
  | .regroup nx a b => Sys2Proof.Machine.execRegroup nx a b s
  | .trap i_ => Sys2Proof.Machine.execTrap i_ s
  | .tret s_ => Sys2Proof.Machine.execTret s_ s
  | .ctlr nx d i_ => Sys2Proof.Machine.execCtlr nx d i_ s
  | .ctlw nx d i_ => Sys2Proof.Machine.execCtlw nx d i_ s
  | .tlbinv nx a b => Sys2Proof.Machine.execTlbinv nx a b s
  | .tlbinvAll nx => Sys2Proof.Machine.execTlbinvAll nx s
  | .brk i_ => Sys2Proof.Machine.execBrk i_ s
  | .perfr nx d c => Sys2Proof.Machine.execPerfr nx d c s
  | .yield nx => Sys2Proof.Machine.execYield nx s
  | .llResultWrite w => Sys2Proof.Machine.execLlResultWrite w s
  | .writeThroughPerform path => Sys2Proof.Machine.execWriteThroughPerform path s
  | .sliceAtomicPerform path => Sys2Proof.Machine.execSliceAtomicPerform path s
  | .barrierUnitOperation die => Sys2Proof.Machine.execBarrierUnitOperation die s
  | .transferBlock x => Sys2Proof.Machine.execTransferBlock x s
  | .plotAccessEnd g h => Sys2Proof.Machine.execPlotAccessEnd g h s
  | .publishPoint x => Sys2Proof.Machine.execPublishPoint x s
  | .rowInjection y => Sys2Proof.Machine.execRowInjection y s
  | .rowGarnerUpdate y => Sys2Proof.Machine.execRowGarnerUpdate y s
  | .bandUp y => Sys2Proof.Machine.execBandUp y s
  | .leaseEnd y => Sys2Proof.Machine.execLeaseEnd y s
  | .taskArrival die => Sys2Proof.Machine.execTaskArrival die s
  | .sheafTimeout die k => Sys2Proof.Machine.execSheafTimeout die k s
  | .poolGrant home slots => Sys2Proof.Machine.execPoolGrant home slots s
  | .frtTaskEnd die => Sys2Proof.Machine.execFrtTaskEnd die s
  | .forwardArrival die => Sys2Proof.Machine.execForwardArrival die s
  | .dropArrival die => Sys2Proof.Machine.execDropArrival die s
  | .recordTake ctag q => Sys2Proof.Machine.execRecordTake ctag q s
  | .taskRecordTake ctag q => Sys2Proof.Machine.execTaskRecordTake ctag q s
  | .overflowMove ctag qt q => Sys2Proof.Machine.execOverflowMove ctag qt q s
  | .leadershipMove ctag qt q => Sys2Proof.Machine.execLeadershipMove ctag qt q s
  | .groupBind die => Sys2Proof.Machine.execGroupBind die s
  | .groupResident g => Sys2Proof.Machine.execGroupResident g s
  | .gangWaitTimeout die => Sys2Proof.Machine.execGangWaitTimeout die s
  | .firedEntryTake die => Sys2Proof.Machine.execFiredEntryTake die s
  | .freezeBegin g => Sys2Proof.Machine.execFreezeBegin g s
  | .freezeEnd g => Sys2Proof.Machine.execFreezeEnd g s
  | .stretchEnd core => Sys2Proof.Machine.execStretchEnd core s
  | .halvedIssueEnd core => Sys2Proof.Machine.execHalvedIssueEnd core s
  | .ageingReplan margin done => Sys2Proof.Machine.execAgeingReplan margin done s
  | .eventTimerExpiry w slot => Sys2Proof.Machine.execEventTimerExpiry w slot s
  | .sleepExpiry w => Sys2Proof.Machine.execSleepExpiry w s
  | .preemptD1Expiry ctag => Sys2Proof.Machine.execPreemptD1Expiry ctag s
  | .preemptD2Expiry ctag => Sys2Proof.Machine.execPreemptD2Expiry ctag s
  | .autoSurrender g => Sys2Proof.Machine.execAutoSurrender g s
  | .contextSaveComplete ctag => Sys2Proof.Machine.execContextSaveComplete ctag s
  | .restoreBind ctag => Sys2Proof.Machine.execRestoreBind ctag s
  | .ctxLoad desc cpla => Sys2Proof.Machine.execCtxLoad desc cpla s
  | .ctxDestroy ctx cpla => Sys2Proof.Machine.execCtxDestroy ctx cpla s
  | .preempt ctx d1 d2 cpla => Sys2Proof.Machine.execPreempt ctx d1 d2 cpla s
  | .restore desc image cpla => Sys2Proof.Machine.execRestore desc image cpla s
  | .killRegion ctx rcb cpla => Sys2Proof.Machine.execKillRegion ctx rcb cpla s
  | .tlbinvCommand ctx base len cpla => Sys2Proof.Machine.execTlbinvCommand ctx base len cpla s
  | .summary buf len cpla => Sys2Proof.Machine.execSummary buf len cpla s
  | .dieDrain die cpla => Sys2Proof.Machine.execDieDrain die cpla s
  | .dieOnline die cpla => Sys2Proof.Machine.execDieOnline die cpla s
  | .keyLoad slot addr cpla => Sys2Proof.Machine.execKeyLoad slot addr cpla s
  | .keyEmpty slot cpla => Sys2Proof.Machine.execKeyEmpty slot cpla s
  | .debugAttach ctx cpla => Sys2Proof.Machine.execDebugAttach ctx cpla s
  | .debugDetach ctx cpla => Sys2Proof.Machine.execDebugDetach ctx cpla s
  | .debugResume ctx core wslot mode cpla => Sys2Proof.Machine.execDebugResume ctx core wslot mode cpla s
  | .peerWindow idx node die base len perm cpla => Sys2Proof.Machine.execPeerWindow idx node die base len perm cpla s
  | .peerBind node peerCtx localCtx cpla => Sys2Proof.Machine.execPeerBind node peerCtx localCtx cpla s
  | .fwUpdate addr len target cpla => Sys2Proof.Machine.execFwUpdate addr len target cpla s
  | .lcChange token cpla => Sys2Proof.Machine.execLcChange token cpla s
  | .mgmtBadRecord cpla => Sys2Proof.Machine.execMgmtBadRecord cpla s
  | .msaveMrestComplete w => Sys2Proof.Machine.execMsaveMrestComplete w s
  | .cflushComplete w => Sys2Proof.Machine.execCflushComplete w s
  | .translationWalk walker ctx va => Sys2Proof.Machine.execTranslationWalk walker ctx va s
  | .faultResponse idx resp => Sys2Proof.Machine.execFaultResponse idx resp s
  | .faultQueueHeadUpdate head => Sys2Proof.Machine.execFaultQueueHeadUpdate head s
  | .fqcfgWrite v => Sys2Proof.Machine.execFqcfgWrite v s
  | .lineEviction copy => Sys2Proof.Machine.execLineEviction copy s
  | .hostSnoop addr data => Sys2Proof.Machine.execHostSnoop addr data s
  | .hostMemAccess wr addr n data => Sys2Proof.Machine.execHostMemAccess wr addr n data s
  | .rdmaWrite addr data => Sys2Proof.Machine.execRdmaWrite addr data s
  | .peerRequest node req => Sys2Proof.Machine.execPeerRequest node req s
  | .peerResponse id ok data => Sys2Proof.Machine.execPeerResponse id ok data s
  | .futureAnswerArrival handle ans => Sys2Proof.Machine.execFutureAnswerArrival handle ans s
  | .peerTaskMessage node peerCtx msg => Sys2Proof.Machine.execPeerTaskMessage node peerCtx msg s
  | .fabricEnqueue handle bytes => Sys2Proof.Machine.execFabricEnqueue handle bytes s
  | .telemetrySample rails bands0 bands1 temps quads => Sys2Proof.Machine.execTelemetrySample rails bands0 bands1 temps quads s
  | .thermalTrip sensors => Sys2Proof.Machine.execThermalTrip sensors s
  | .thermalTripRelease sensors => Sys2Proof.Machine.execThermalTripRelease sensors s
  | .droopTrip fall => Sys2Proof.Machine.execDroopTrip fall s
  | .reeveWatchdogExpiry die => Sys2Proof.Machine.execReeveWatchdogExpiry die s
  | .eventQueueHeadUpdate head => Sys2Proof.Machine.execEventQueueHeadUpdate head s
  | .frtbaseWrite die v => Sys2Proof.Machine.execFrtbaseWrite die v s
  | .nodeidWrite v => Sys2Proof.Machine.execNodeidWrite v s
  | .rotcfgWrite v => Sys2Proof.Machine.execRotcfgWrite v s
  | .registerWrite off v => Sys2Proof.Machine.execRegisterWrite off v s
  | .coldReset fuses => Sys2Proof.Machine.execColdReset fuses s
  | .dieLoss die => Sys2Proof.Machine.execDieLoss die s
  | .linkUp port auth => Sys2Proof.Machine.execLinkUp port auth s
  | .linkDown port => Sys2Proof.Machine.execLinkDown port s
  | .spdmRequest req => Sys2Proof.Machine.execSpdmRequest req s
  | .queueDescriptorEnWrite ctag qt q en => Sys2Proof.Machine.execQueueDescriptorEnWrite ctag qt q en s
  | .predictorDecay => Sys2Proof.Machine.execPredictorDecay s
  | .peerTimeout => Sys2Proof.Machine.execPeerTimeout s
  | .leaderThrottleTimeout => Sys2Proof.Machine.execLeaderThrottleTimeout s
  | .rotationTick => Sys2Proof.Machine.execRotationTick s
  | .emergencyExit => Sys2Proof.Machine.execEmergencyExit s
  | .pwcWatchdogExpiry => Sys2Proof.Machine.execPwcWatchdogExpiry s
  | .dieResetDone => Sys2Proof.Machine.execDieResetDone s
  | .warmReset => Sys2Proof.Machine.execWarmReset s
  | .eventRecordWrite => Sys2Proof.Machine.execEventRecordWrite s
  | .agestatDaysIncrement => Sys2Proof.Machine.execAgestatDaysIncrement s

end Sys2Proof.Machine
end

