-- ==== Sys2Proof/Machine/Progress.lean ====
section
/-! DEFINITION. Sys2Proof/Machine/Progress.lean: the operations that the device takes of its own, when each is due, and which one is next (log 3). -/
namespace Sys2Proof.Machine

/-- An operation, where it is due. -/
def dueOp (b : Bool) (i : Instr) : List Instr := if b then [i] else []

/-- Operations of waves: results, but where the core is stretched (R395), and the ends of stalls. -/
def waveDue (s : State) (u : Nat) (w : Wave) : List Instr :=
  dueOp (((readyResult w).isSome || !w.loads.isEmpty) && !(coreOf s (coreNo s w)).stretch) (.llResultWrite u)
    ++ (match w.stall with
      | some (.cflush ..) => [.cflushComplete u]
      | some (.msave ..) => dueOp (imageReady s w && w.peer.all fun p => p.answer.isSome) (.msaveMrestComplete u)
      | some (.mrest ..) => dueOp (imageReady s w && w.peer.all fun p => p.answer.isSome) (.msaveMrestComplete u)
      | _ => [])

/-- The deadlines of a wave that TSC has reached, each with its operation. -/
def timesOf (s : State) (u : Nat) (w : Wave) : List (Nat × Instr) :=
  ((List.range 8).filter (timerDue s w)).map (fun i => ((w.slot i).obj, Instr.eventTimerExpiry u i))
    ++ (if sleepDue s w then [((sleepDeadline s w).getD 0, Instr.sleepExpiry u)] else [])

/-- The timer or SLEEP that ends first among those whose deadline TSC has reached: it acts before anything else does (R307, R310, R313). -/
def nextTime (s : State) : Option Instr :=
  ((s.waves.flatMap fun e => timesOf s e.1 e.2).foldl (fun (b : Option (Nat × Instr)) e => match b with
    | none => some e
    | some x => if e.1 < x.1 then some e else some x) none).map (·.2)

/-- Operations of groups: becoming RESIDENT, moving, surrender, and the ends of plot accesses. -/
def groupDue (s : State) (g : Nat) (gr : Group) : List Instr :=
  dueOp (!(residentSet s g).isEmpty) (.groupResident g)
    ++ dueOp (gr.moving.isSome && !gr.frozen && freezeReady s g) (.freezeBegin g)
    ++ dueOp (gr.moving.isSome && gr.frozen) (.freezeEnd g)
    ++ dueOp (surrenderDue s g).isSome (.autoSurrender g)
    ++ (gr.plots.map (·.1)).flatMap (fun h => dueOp (!(endables s g h).isEmpty) (.plotAccessEnd g h))
    ++ dueOp (!(endables s g 256).isEmpty) (.plotAccessEnd g 256)

/-- Operations of yokes. -/
def yokeDue (s : State) (y : Nat) (k : Yoke) : List Instr :=
  let gs := k.members.map (·.group)
  let bands := s.waves.any fun e => gs.contains e.2.group && (match e.2.stall with
    | some (.mbands _) => true
    | _ => false)
  dueOp (canInject k && !entryStretched s k) (.rowInjection y)
    ++ dueOp (canUpdate s k) (.rowGarnerUpdate y)
    ++ dueOp (allAcquired k || bands) (.bandUp y)
    ++ dueOp (canRelease k) (.leaseEnd y)

/-- Operations of a core: the first of each of its paths to a slice (R110), the ends of a stretch and of halved issue, and the replacement of a line
of its L1, each in its turn (Table 0.1, log 54). -/
def coreDue (n c : Nat) (k : Core) : List Instr :=
  ((k.path.map PathEntry.way).dedup).filterMap (fun i => (k.path.find? fun e => e.way == i).map fun e => match e with
    | .atomic .. => Instr.sliceAtomicPerform ⟨c, i⟩
    | _ => Instr.writeThroughPerform ⟨c, i⟩)
    ++ (match k.l1[n % max 1 k.l1.length]? with
      | some e => [.lineEviction ⟨some c, e.1⟩]
      | none => [])
    ++ dueOp k.stretch (.stretchEnd c) ++ dueOp (k.halved && !k.stretch) (.halvedIssueEnd c)

/-- Operations of a queue of a context. -/
def queueDue (s : State) (ctag : Nat) (e : Bool × Nat × Leader) : List Instr :=
  let (qt, q, l) := e
  dueOp (l.state == .moving) (.leadershipMove ctag qt q)
    ++ dueOp ((canTake s ctag qt q).isSome || queueAmiss s ctag qt q) (if qt then .taskRecordTake ctag q else .recordTake ctag q)
    ++ dueOp (canOverflow s ctag qt q).isSome (.overflowMove ctag qt q)

/-- Operations of a context. -/
def contextDue (s : State) (ctag : Nat) (c : Context) : List Instr :=
  c.queues.flatMap (queueDue s ctag)
    ++ dueOp (deadlineDue s ctag [.draining]) (.preemptD1Expiry ctag)
    ++ dueOp (deadlineDue s ctag [.trapping, .settling]) (.preemptD2Expiry ctag)
    ++ dueOp (settlingDue s ctag || (c.cstate == .settling && c.saveWait.isNone && settled s ctag)) (.contextSaveComplete ctag)
    ++ dueOp (c.cstate == .restoring && (restoreOver s ctag || (bindable s ctag).isSome)) (.restoreBind ctag)

/-- Operations of a die. -/
def dieDue (s : State) (d : Nat) : List Instr :=
  let x := dieOf s d
  dueOp (!x.tasks.isEmpty) (.taskArrival d) ++ dueOp (!x.ends.isEmpty) (.frtTaskEnd d) ++ dueOp (!x.forwards.isEmpty) (.forwardArrival d)
    ++ dueOp (x.drops.any (dropReady x)) (.dropArrival d) ++ dueOp (!x.grantReqs.isEmpty) (.poolGrant d [])
    ++ ((List.range x.former.length).zip x.former).flatMap (fun e => dueOp (sheafDue s e.2 && isResident s e.2.ctag) (.sheafTimeout d e.1))
    ++ dueOp (!x.barrierQ.isEmpty) (.barrierUnitOperation d)
    ++ dueOp ((firedWaits s d).isSome && isOnline s d && tableRoom s d) (.firedEntryTake d)
    ++ dueOp (pick s d).isSome (.groupBind d)
    ++ dueOp (gangNext s d).isSome (.gangWaitTimeout d)

/-- The command of a management record and the number of its arguments (Table 16.4). -/
def mgmtCommand (b : List Byte) : Option (Instr × Nat) :=
  let a := mgmtArg b
  let cpla := a 6
  match fieldOf b 0 2 with
  | 0x01 => some (.ctxLoad (a 0) cpla, 1)
  | 0x02 => some (.ctxDestroy (a 0) cpla, 1)
  | 0x03 => some (.preempt (a 0) (a 1) (a 2) cpla, 3)
  | 0x04 => some (.restore (a 0) (a 1) cpla, 2)
  | 0x05 => some (.killRegion (a 0) (a 1) cpla, 2)
  | 0x06 => some (.tlbinvCommand (a 0) (a 1) (a 2) cpla, 3)
  | 0x07 => some (.summary (a 0) (a 1) cpla, 2)
  | 0x08 => some (.dieDrain (a 0) cpla, 1)
  | 0x09 => some (.dieOnline (a 0) cpla, 1)
  | 0x0A => some (.keyLoad (a 0) (a 1) cpla, 2)
  | 0x0B => some (.keyEmpty (a 0) cpla, 1)
  | 0x0C => some (.debugAttach (a 0) cpla, 1)
  | 0x0D => some (.debugDetach (a 0) cpla, 1)
  | 0x0E => some (.debugResume (a 0) (a 1) (a 2) (a 3) cpla, 4)
  | 0x10 => some (.peerWindow (a 0) (a 1) (a 2) (a 3) (a 4) (a 5) cpla, 6)
  | 0x11 => some (.peerBind (a 0) (a 1) (a 2) cpla, 3)
  | 0x12 => some (.fwUpdate (a 0) (a 1) (a 2) cpla, 3)
  | 0x13 => some (.lcChange (a 0) cpla, 1)
  | 0x14 => some (.warmReset, 0)
  | _ => none

/-- The operation of a management record (R407): BAD_ARG for an OPC that is not listed and for a byte that is not zero where none is given. -/
def mgmtDecode (b : List Byte) : Instr :=
  match mgmtCommand b with
  | none => .mgmtBadRecord (mgmtArg b 6)
  | some (i, n) => if zeroField b 2 6 && zeroField b (8 + 8 * n) (48 - 8 * n) then i else .mgmtBadRecord (mgmtArg b 6)

/-- Whether a command that has begun still waits: PREEMPT for a partial image (R387), DIE_DRAIN for the evacuation (R408), TLBINV for accesses to peers (R47). -/
def mgmtHolds (s : State) (i : Instr) : Bool :=
  match i with
  | .preempt ctx _ _ _ => (ctxTag s ctx).any fun c => (ctxOf s c).evac.isSome
  | .dieDrain die _ => s.draining == some die.toNat && !dieEmpty s die.toNat
  | .tlbinvCommand ctx _ _ _ => (ctxTag s ctx).any (peersOut s)
  | _ => false

/-- The operation of the management queue. -/
def mgmtDue (s : State) : List Instr :=
  if mgmtWaits s then
    let i := mgmtDecode (mgmtRecord s)
    dueOp (!mgmtHolds s i) i
  else []

/-- Every operation of the device that is due. -/
def dueOps (s : State) : List Instr :=
  mgmtDue s
    ++ s.waves.flatMap (fun e => waveDue s e.1 e.2)
    ++ s.groups.flatMap (fun e => groupDue s e.1 e.2)
    ++ s.yokes.flatMap (fun e => yokeDue s e.1 e.2)
    ++ s.cores.flatMap (fun e => coreDue s.stepNo e.1 e.2)
    ++ s.transfers.flatMap (fun e => dueOp (canMove s e.1 e.2) (.transferBlock e.1))
    ++ s.publishes.flatMap (fun e => dueOp (publishReady s e.2) (.publishPoint e.1))
    ++ s.contexts.flatMap (fun e => contextDue s e.1 e.2)
    ++ dieDue s 0 ++ dieDue s 1
    ++ dueOp ((peerOpen s).any (peerLate s)) .peerTimeout
    ++ dueOp (decayDue s) .predictorDecay
    ++ dueOp ([0, 1].any (throttleDue s)) .leaderThrottleTimeout
    ++ dueOp ([0, 1].any (tickDue s)) .rotationTick
    ++ dueOp ([0, 1].any (emergencyOver s)) .emergencyExit
    ++ dueOp ([0, 1].any (resetReady s)) .dieResetDone
    ++ dueOp (eventDue s).isSome .eventRecordWrite
    ++ dueOp (dayDue s) .agestatDaysIncrement
    ++ dueOp (decide (bitsAt s.bar.agestat.toNat 0 16 ≥ 30) && bitsAt s.bar.agestat.toNat 24 2 != 1) (.ageingReplan 0#8 false)

/-- The next operation of the device: each that is due has its turn, by the number of the step (log 3). -/
def nextOp (s : State) : Option Instr :=
  let l := dueOps s
  l[s.stepNo % max 1 l.length]?

end Sys2Proof.Machine
end

