-- ==== Sys2Proof/Machine/Step.lean ====
section
/-! DEFINITION. Sys2Proof/Machine/Step.lean: one step of the machine (log 3): a timer that TSC has reached, else the head of the agenda, else by
turns an instruction of the current wave and the next operation that the device takes of its own. -/
namespace Sys2Proof.Machine

/-- What follows the execution of an operation or of a wave's turn: the end of the step. -/
def endStep (turn : Bool) (o : Host.Outcome State Fault Refusal) : Host.Outcome State Fault Refusal :=
  match o with
  | .next s => .next (tick turn s)
  | .fault r => .fault r
  | .refused r => .refused r

/-- The current wave's turn: the checks of R215, then the instruction's own meaning. -/
def waveStep (s : State) : Host.Outcome State Fault Refusal :=
  match turnOf s s.cur with
  | .done s => .next s
  | .run i t =>
    match exec i t with
    | .next r => .next (afterIssue r s.cur (waveOf s s.cur))
    | .fault r => .fault r
    | .refused r => .refused r

/-- What a step does when no timer is due and the agenda is empty. -/
def freeStep (s : State) : Host.Outcome State Fault Refusal :=
  if !s.devTurn && curReady s then endStep true (waveStep { s with devTurn := true })
  else
    match nextOp s with
    | some i => endStep false (exec i { s with devTurn := false })
    | none => if curReady s then endStep true (waveStep { s with devTurn := true }) else .next (tick false { s with devTurn := false })

/-- One step of the machine. -/
def step (s : State) : Host.Outcome State Fault Refusal :=
  match nextTime s with
  | some i => endStep false (exec i s)
  | none =>
    match s.agenda with
    | i :: rest => endStep false (exec i { s with agenda := rest })
    | [] => freeStep s

/-- The page on which `withFetchWord` places an instruction when no wave is current (log 16): 64 KiB at virtual 0x10000 on local address 0 of
die 0, present, leaf, writable and executable. -/
def fetchPage : TlbEntry := ⟨.die 0, 0, 0x10000, 0x10000, 0xF#64, false⟩

/-- A context, a group and a wave of one instruction, for a machine on which no wave is current (log 16). -/
def State.withWave (s : State) : State :=
  { s with
    uid := s.uid + 2
    cur := s.uid + 1
    contexts := put s.contexts 0 ((lookup s.contexts 0).getD { ctx := some 0 })
    groups := put s.groups s.uid { state := .resident }
    waves := put s.waves (s.uid + 1) { group := s.uid, pc := 0x10000#64 }
    tlb := fetchPage :: s.tlb }

/-- A wave whose timers and SLEEP, where TSC has reached them, no longer come before a fetch. -/
def untimed (s : State) (w : Wave) : Wave :=
  let slots := tab 8 fun i =>
    let e := w.slot i
    (if (timerDeadline e).any fun t => decide (t ≤ s.tsc.toNat) then ({ e with gen := 1#32 } : EvSlot) else e)
  let status := match w.status with
    | .parked (.sleep nx t ev) => if t ≤ s.tsc.toNat then .parked (.sleep nx (2 ^ 64) ev) else w.status
    | x => x
  { w with slots, status }

/-- `s` with the instruction of `w` where the next step fetches (log 16). -/
def State.withFetchWord (s : State) (_nbits w : Nat) : State :=
  let s : State := { s with agenda := [], devTurn := false, waves := mapVals s.waves (untimed s) }
  let s := if curReady s then s else s.withWave
  let wv := waveOf s s.cur
  let wv := { wv with stepDone := none, preempt := none, stall := none, peer := [], placed := [] }
  let s := { s with waves := put s.waves s.cur wv }
  let core := coreNo s wv
  let s := match translate s (.core core) wv.ctag wv.pc.toNat 2 false with
    | .ok _ => s
    | .error _ => { s with tlb := { fetchPage with holder := .core core, ctag := wv.ctag, base := wv.pc.toNat / 65536 * 65536 } :: s.tlb }
  match translate s (.core core) wv.ctag wv.pc.toNat 2 false with
  | .error _ => s
  | .ok p =>
    let s := setCore s core { coreOf s core with icache := erase (coreOf s core).icache (lineOf p.key) }
    l2Write (touch s p.kid p.key 4) p.key (bytesOf 4 w)

end Sys2Proof.Machine
end

