-- ==== Sys2Proof/Safety.lean ====
section
/-! DEFINITION. Sys2Proof/Safety.lean: what counts as a safe run, and the words in which claims speak of one instruction: that it completes, what
it leaves of the current wave, and what else it leaves alone. -/
namespace Sys2Proof
open Machine

/-- A step that neither stops the machine nor is refused. -/
def StepsOn (s : State) : Prop := ∃ t, step s = .next t

/-- `n` steps, each of which goes on. -/
def SafeFor : Nat → State → Prop
  | 0, _ => True
  | n + 1, s => ∃ t, step s = .next t ∧ SafeFor n t

/-- `exec` of `i` at `s` answers a next state that has the property. -/
def Completes (i : Instr) (s : State) (p : State → Prop) : Prop := ∃ t, exec i s = .next t ∧ p t

/-- Wherever a wave is current and meets `ok`, the instruction replaces that wave by `f` of it, ended with NX (R216), and changes nothing else. -/
def BecomesIf (i : Instr) (nx : BitVec 2) (ok : Wave → Prop) (f : State → Wave → Wave) : Prop :=
  ∀ s w, lookup s.waves s.cur = some w → ok w → exec i s = .next (setWave s s.cur ((f s w).finish nx))

/-- The same for an instruction that makes no check. -/
def Becomes (i : Instr) (nx : BitVec 2) (f : Wave → Wave) : Prop := BecomesIf i nx (fun _ => True) fun _ w => f w

/-- An instruction whose only effect before NX is one scalar register. -/
def WritesS (i : Instr) (nx : BitVec 2) (d : BitVec 6) (f : Wave → DWord) : Prop := Becomes i nx fun w => w.setS d.toNat (f w)

/-- An instruction whose only effect before NX is one predicate register. -/
def WritesP (i : Instr) (nx : BitVec 2) (d : BitVec 3) (f : Wave → Word) : Prop := Becomes i nx fun w => w.setP d.toNat (f w)

/-- A vector instruction (R223, R260): with a TYPE that it accepts it changes only the current wave, by `f` and NX; with any other it raises
MODE_INVALID, naming the instruction word. -/
def VectorBecomes (i : Instr) (nx : BitVec 2) (accepts : Nat → Prop) (f : Wave → Wave) : Prop :=
  BecomesIf i nx (fun w => accepts w.ty) (fun _ w => f w) ∧
  ∀ s w, lookup s.waves s.cur = some w → ¬accepts w.ty → exec i s = .next (takeTrap s s.cur ⟨3, 0, wordArg s w, 0#32⟩ true false)

/-- A long-latency vector instruction (R219, R265): it ends at issue with its results recorded as an outstanding result and its window open;
a TYPE that it does not accept raises MODE_INVALID. -/
def IssuesResult (i : Instr) (nx : BitVec 2) (la : BitVec 4) (accepts : Nat → Prop) (regs : Wave → List RegName)
    (writes : Wave → List RegWrite) : Prop :=
  ∀ s w, lookup s.waves s.cur = some w →
    (accepts w.ty → exec i s = .next (setWave { s with uid := s.uid + 1 } s.cur
      (Wave.finish { w with
        windows := if la = 0#4 then w.windows else w.windows ++ [⟨la.toNat, regs w, w.pc⟩]
        pending := w.pending ++ [⟨s.uid, regs w, writes w, true⟩] } nx))) ∧
    (¬accepts w.ty → exec i s = .next (takeTrap s s.cur ⟨3, 0, wordArg s w, 0#32⟩ true false))

/-- Every byte of memory reads as before. -/
def SameMemory (s t : State) : Prop := ∀ k, physByte t k = physByte s k

/-- Nothing of a core is on its way to memory (R110), and it has seen no store of another core that has still to perform (R138). -/
abbrev CoreQuiet (s : State) (c : Nat) : Prop := (coreOf s c).path = [] ∧ (coreOf s c).early = []

/-- The same for what concerns one slice and one line of it, of which the core has no copy either. -/
def QuietAt (s : State) (c k : Nat) : Prop :=
  (∀ e ∈ (coreOf s c).path, e.way ≠ wayOf k) ∧ lookup (coreOf s c).early (k / 128) = none ∧ lookup (coreOf s c).l1 (k / 128) = none

/-- Every line of an extent stands under a key already, or lies in host memory, so that touching it under that key changes nothing (R37, R39). -/
def UnderKey (s : State) (kid k n : Nat) : Prop :=
  ∀ line, k / 128 ≤ line → line ≤ (k + n - 1) / 128 → isHostKey (line * 128) = true ∨ (lookup s.tags line).getD s.tagBase = kid

/-- The bytes `b` were written from `k` on: they read as written, and every other byte of memory as before. -/
def Written (s t : State) (k : Nat) (b : List Byte) : Prop :=
  ∀ a, physByte t a = if k ≤ a ∧ a < k + b.length then b.getD (a - k) 0#8 else physByte s a

/-- Every place of an instruction's accesses is memory that this device reaches itself (R35): none is a peer's. -/
def OnDevice (l : Placed) : Prop := ∀ e ∈ l, ∀ p ∈ e.2, p.1.loc ≠ 2

/-- A management command is complete (R407): its record stands at CPLA, and MQHEAD has passed it. -/
def Answered (s t : State) (cpla : DWord) (status result : Nat) : Prop :=
  t.bar.mqhead = s.bar.mqhead + 1#32 ∧
  physBytes t (hostKey cpla.toNat) 32 = bytesOf 4 status ++ bytesOf 4 result ++ bytesOf 8 s.tsc.toNat ++ zeroBytes 16

end Sys2Proof
end

