-- ==== Sys2Proof/Certificates/Slice0/Obligations.lean ====
section
/-! DEFINITION. Sys2Proof/Certificates/Slice0/Obligations.lean: the statements for the provers. OBLIGATIONS.json names each one's rules. -/
open Sys2Proof Sys2Proof.Machine

/-- R216: what the control thread does after an instruction's own effect, for each value of NX, and that nothing else of the wave but the
instruction count and the marks of a single step and of a READSR pair changes. -/
def Obligations.NextAddress : Prop :=
  ∀ w : Wave,
    (w.next 0#2 = { w with pc := w.pc + 4#64 }) ∧
    (w.next 1#2 = { w with pc := if w.c then w.bt else w.pc + 4#64 }) ∧
    (w.next 2#2 = { w with
      lc := if w.lc = 0#32 then 0#32 else w.lc - 1#32
      pc := if w.lc = 0#32 ∨ w.lc = 1#32 then w.pc + 4#64 else w.lt }) ∧
    (w.next 3#2 = { w with pc := w.bt }) ∧
    ∀ nx, w.finish nx = { w.next nx with
      ctr := { w.ctr with instr := w.ctr.instr + 1#64 }
      stepDone := if w.stepArmed then some (0#8, 0) else w.stepDone
      stepArmed := false, replay := false, pair := none }

/-- R222 (s0 and p0) and the register files: s0 reads zero and p0 all ones whatever was written to them, a write is read back from the register
named, and every other register and every other part of the wave stays. -/
def Obligations.RegisterFiles : Prop :=
  ∀ (w : Wave) (d k : Nat),
    (∀ x, w.setS 0 x = w) ∧ w.sreg 0 = 0#64 ∧ (∀ x, w.setP 0 x = w) ∧ w.preg 0 = 0xFFFFFFFF#32 ∧
    (∀ x, d ≠ 0 → d < 64 → (w.setS d x).sreg d = x) ∧ (∀ x, k ≠ d → (w.setS d x).sreg k = w.sreg k) ∧
    (∀ x, d ≠ 0 → d < 8 → (w.setP d x).preg d = x) ∧ (∀ x, k ≠ d → (w.setP d x).preg k = w.preg k) ∧
    (∀ x, d < 64 → (w.setV d x).vreg d = x) ∧ (∀ x, k ≠ d → (w.setV d x).vreg k = w.vreg k) ∧
    (∀ x, ∃ r, w.setS d x = { w with s := r }) ∧ (∀ x, ∃ r, w.setP d x = { w with p := r }) ∧ (∀ x, ∃ r, w.setV d x = { w with v := r })

/-- R236, R238-R240, R241 (GETMODE), R362: the sequencing instructions and PERFR.

R241, R223: SETMODE takes bits [11:0] of s[A] but for the reserved bit 3, and a TYPE of 14 or 15 raises MODE_INVALID, which leaves MODE. -/
def Obligations.Sequencing : Prop :=
  (∀ (nx : BitVec 2) (d a : BitVec 6) (i : BitVec 16),
     Becomes (.nop nx) nx id ∧
     Becomes (.setbt nx i) nx (fun w => { w with bt := w.pc + 4#64 * i.signExtend 64 }) ∧
     Becomes (.setlt nx i) nx (fun w => { w with lt := w.pc + 4#64 * i.signExtend 64 }) ∧
     Becomes (.setbts nx a) nx (fun w => { w with bt := w.sreg a.toNat &&& ~~~3#64 }) ∧
     Becomes (.setlc nx a) nx (fun w => { w with
       lc := if (w.sreg a.toNat).toNat < 2 ^ 32 then (w.sreg a.toNat).setWidth 32 else 0xFFFFFFFF#32 }) ∧
     WritesS (.savepc nx d 0#2) nx d (fun w => w.pc + 4#64) ∧
     WritesS (.savepc nx d 1#2) nx d (fun w => w.bt) ∧
     WritesS (.savepc nx d 2#2) nx d (fun w => w.lt) ∧
     WritesS (.savepc nx d 3#2) nx d (fun w => w.lc.setWidth 64) ∧
     WritesS (.getmode nx d) nx d (fun w => w.mode.setWidth 64) ∧
     WritesS (.perfr nx d 0#3) nx d (fun w => w.ctr.instr) ∧
     WritesS (.perfr nx d 1#3) nx d (fun w => w.ctr.parkcyc) ∧
     WritesS (.perfr nx d 2#3) nx d (fun w => w.ctr.l1miss) ∧
     WritesS (.perfr nx d 3#3) nx d (fun w => w.ctr.faratom) ∧
     WritesS (.perfr nx d 4#3) nx d (fun w => w.ctr.sbwait) ∧
     WritesS (.perfr nx d 5#3) nx d (fun w => w.ctr.copyb) ∧
     WritesS (.perfr nx d 6#3) nx d (fun w => w.ctr.mrows) ∧
     WritesS (.perfr nx d 7#3) nx d (fun w => w.ctr.droops)) ∧
  (∀ (nx : BitVec 2) (a : BitVec 6),
     BecomesIf (.setmode nx a) nx (fun w => (w.sreg a.toNat).extractLsb' 5 3 ≠ 7#3)
       (fun _ w => { w with mode := (w.sreg a.toNat).extractLsb' 0 12 &&& 0xFF7#12 }) ∧
     ∀ s w, lookup s.waves s.cur = some w → (w.sreg a.toNat).extractLsb' 5 3 = 7#3 →
       exec (.setmode nx a) s = .next (takeTrap s s.cur ⟨3, 0, wordArg s w, 0#32⟩ true false))

/-- R245, R246, R184: READSR by index (Table 8.7); one of CORE or PLACE leaves the first half of a pair behind, and the second of a pair gives what the first
saw, so that both values are of one placement. -/
def Obligations.SpecialRegisters : Prop :=
  ∀ (nx : BitVec 2) (d : BitVec 6) (i : BitVec 16) (s : State) (w : Wave), lookup s.waves s.cur = some w → i.toNat ≤ 13 →
    let g := groupOf s w.group
    let half := i = 0#16 ∨ i = 3#16
    let seen : Nat × Word := match w.pair with
      | some ⟨first, core, place⟩ => if first + i.toNat = 3 then (core, place) else (g.core, g.place)
      | none => (g.core, g.place)
    exec (.readsr nx d i) s = .next (setWave s s.cur
      { (w.setS d.toNat
          (match i.toNat with
          | 0 => BitVec.ofNat 64 seen.1
          | 1 => BitVec.ofNat 64 (9 * (g.core / 36) + g.core % 36 / 4)
          | 2 => BitVec.ofNat 64 (g.core / 36)
          | 3 => seen.2.setWidth 64
          | 4 => BitVec.ofNat 64 g.grpid
          | 5 => BitVec.ofNat 64 w.waveId
          | 6 => BitVec.ofNat 64 g.nwave
          | 7 => BitVec.ofNat 64 ((List.range 32).filter fun k => w.live.getLsbD k).length
          | 8 => s.tsc
          | 9 => w.cyc
          | 10 => BitVec.ofNat 64 ((ctxOf s w.ctag).ctx.getD 0)
          | 11 => if w.sheaf.isSome then 0xFFFFFFFF#64 else g.launchId.setWidth 64
          | 12 => g.region
          | _ => (coreOf s g.core).icad.setWidth 64)).finish nx with
        pair := if half then some ⟨i.toNat, seen.1, seen.2⟩ else none })

/-- R242-R244 (flags), R248 (SADD, SSUB): the scalar instructions that read or write the flags. -/
def Obligations.ScalarFlags : Prop :=
  ∀ (nx : BitVec 2) (d a b : BitVec 6) (i : BitVec 10),
    let x := fun (w : Wave) => w.sreg a.toNat
    let y := fun (w : Wave) => w.sreg b.toNat
    let cond := fun (c : BitVec 3) (p q : Int) =>
      c = 7#3 ∨ c = 0#3 ∧ p = q ∨ c = 1#3 ∧ p ≠ q ∨ c = 2#3 ∧ p < q ∨ c = 3#3 ∧ p ≤ q ∨ c = 4#3 ∧ p > q ∨ c = 5#3 ∧ p ≥ q
    (∀ c, Becomes (.scmp nx 0#1 a b c) nx fun w =>
      { w with c := decide (cond c (x w).toInt (y w).toInt), z := x w == y w, vf := false }) ∧
    (∀ c, Becomes (.scmp nx 1#1 a b c) nx fun w =>
      { w with c := decide (cond c (x w).toNat (y w).toNat), z := x w == y w, vf := false }) ∧
    (∀ c, Becomes (.scmpi nx 0#1 c a i) nx fun w =>
      { w with c := decide (cond c (x w).toInt i.toInt), z := x w == i.signExtend 64, vf := false }) ∧
    (∀ c, Becomes (.scmpi nx 1#1 c a i) nx fun w =>
      { w with c := decide (cond c (x w).toNat (i.signExtend 64).toNat), z := x w == i.signExtend 64, vf := false }) ∧
    WritesS (.ssel nx d a b 0#2) nx d (fun w => if w.c then x w else y w) ∧
    WritesS (.ssel nx d a b 1#2) nx d (fun w => if w.z then x w else y w) ∧
    WritesS (.ssel nx d a b 2#2) nx d (fun w => if w.vf then x w else y w) ∧
    WritesS (.sadd nx d a b 0#1) nx d (fun w => x w + y w) ∧
    WritesS (.ssub nx d a b 0#1) nx d (fun w => x w - y w) ∧
    Becomes (.sadd nx d a b 1#1) nx (fun w => { w.setS d.toNat (x w + y w) with
      c := (x w).uaddOverflow (y w), z := x w + y w == 0#64, vf := (x w).saddOverflow (y w) }) ∧
    Becomes (.ssub nx d a b 1#1) nx (fun w => { w.setS d.toNat (x w - y w) with
      c := (x w).usubOverflow (y w), z := x w - y w == 0#64, vf := (x w).ssubOverflow (y w) })

/-- R247, R248, R250: constants, arithmetic, logic and shifts of scalar registers.

R249 with R97: division never traps; by zero the quotient is all ones and the remainder the dividend; else it truncates, modulo 2^64.

R251, R252: SCNT counts one bits, leading zeros and trailing zeros, 64 for zero; SEXT extends the low 8, 16 or 32 bits. -/
def Obligations.ScalarArithmetic : Prop :=
  (∀ (nx : BitVec 2) (d a b k : BitVec 6) (i : BitVec 10) (j : BitVec 16),
     let x := fun (w : Wave) => w.sreg a.toNat
     let y := fun (w : Wave) => w.sreg b.toNat
     let c := fun (w : Wave) => (w.sreg b.toNat).toNat % 64
     WritesS (.smovi nx d j) nx d (fun _ => j.signExtend 64) ∧
     WritesS (.smovk1 nx d j) nx d (fun w => (w.sreg d.toNat).extractLsb' 32 32 ++ j ++ (w.sreg d.toNat).extractLsb' 0 16) ∧
     WritesS (.smovk2 nx d j) nx d (fun w => (w.sreg d.toNat).extractLsb' 48 16 ++ j ++ (w.sreg d.toNat).extractLsb' 0 32) ∧
     WritesS (.smovk3 nx d j) nx d (fun w => j ++ (w.sreg d.toNat).extractLsb' 0 48) ∧
     WritesS (.smul nx d a b) nx d (fun w => x w * y w) ∧
     WritesS (.smulh nx d a b 0#1) nx d (fun w => BitVec.ofInt 64 (((x w).toInt * (y w).toInt) >>> 64)) ∧
     WritesS (.smulh nx d a b 1#1) nx d (fun w => BitVec.ofNat 64 (((x w).toNat * (y w).toNat) >>> 64)) ∧
     WritesS (.sand nx d a b) nx d (fun w => x w &&& y w) ∧
     WritesS (.sor nx d a b) nx d (fun w => x w ||| y w) ∧
     WritesS (.sxor nx d a b) nx d (fun w => x w ^^^ y w) ∧
     WritesS (.sshl nx d a b) nx d (fun w => x w <<< c w) ∧
     WritesS (.sshr nx d a b) nx d (fun w => x w >>> c w) ∧
     WritesS (.ssra nx d a b) nx d (fun w => (x w).sshiftRight (c w)) ∧
     WritesS (.smin nx d a b 0#1) nx d (fun w => if (y w).slt (x w) then y w else x w) ∧
     WritesS (.smin nx d a b 1#1) nx d (fun w => if (y w).ult (x w) then y w else x w) ∧
     WritesS (.smax nx d a b 0#1) nx d (fun w => if (x w).slt (y w) then y w else x w) ∧
     WritesS (.smax nx d a b 1#1) nx d (fun w => if (x w).ult (y w) then y w else x w) ∧
     WritesS (.saddi nx d a i) nx d (fun w => x w + i.signExtend 64) ∧
     WritesS (.sandi nx d a i) nx d (fun w => x w &&& i.signExtend 64) ∧
     WritesS (.sori nx d a i) nx d (fun w => x w ||| i.signExtend 64) ∧
     WritesS (.smuli nx d a i) nx d (fun w => x w * i.signExtend 64) ∧
     WritesS (.sshli nx d a k) nx d (fun w => x w <<< k.toNat) ∧
     WritesS (.sshri nx d a k) nx d (fun w => x w >>> k.toNat) ∧
     WritesS (.ssrai nx d a k) nx d (fun w => (x w).sshiftRight k.toNat)) ∧
  (∀ (nx : BitVec 2) (d a b : BitVec 6),
     let x := fun (w : Wave) => w.sreg a.toNat
     let y := fun (w : Wave) => w.sreg b.toNat
     WritesS (.sdiv nx d a b 0#1) nx d (fun w => if y w = 0#64 then -1#64 else (x w).sdiv (y w)) ∧
     WritesS (.sdiv nx d a b 1#1) nx d (fun w => if y w = 0#64 then -1#64 else x w / y w) ∧
     WritesS (.srem nx d a b 0#1) nx d (fun w => if y w = 0#64 then x w else (x w).srem (y w)) ∧
     WritesS (.srem nx d a b 1#1) nx d (fun w => if y w = 0#64 then x w else x w % y w)) ∧
  (∀ (nx : BitVec 2) (d a : BitVec 6),
     let x := fun (w : Wave) => w.sreg a.toNat
     WritesS (.scnt nx d a 0#2) nx d (fun w => BitVec.ofNat 64 ((List.range 64).countP fun i => (x w).getLsbD i)) ∧
     WritesS (.scnt nx d a 1#2) nx d (fun w => (x w).clz) ∧
     WritesS (.scnt nx d a 2#2) nx d (fun w => (x w).ctz) ∧
     WritesS (.sext nx d a 0#3) nx d (fun w => ((x w).setWidth 8).signExtend 64) ∧
     WritesS (.sext nx d a 1#3) nx d (fun w => ((x w).setWidth 16).signExtend 64) ∧
     WritesS (.sext nx d a 2#3) nx d (fun w => ((x w).setWidth 32).signExtend 64) ∧
     WritesS (.sext nx d a 4#3) nx d (fun w => ((x w).setWidth 8).setWidth 64) ∧
     WritesS (.sext nx d a 5#3) nx d (fun w => ((x w).setWidth 16).setWidth 64) ∧
     WritesS (.sext nx d a 6#3) nx d (fun w => ((x w).setWidth 32).setWidth 64))

/-- R284: the predicate instructions, on all 32 bits whatever GUARD holds, PAND, POR and PXOR with their complement forms. -/
def Obligations.Predicates : Prop :=
  ∀ (nx : BitVec 2) (d a b : BitVec 3) (e : BitVec 6) (k : BitVec 6),
    let x := fun (w : Wave) => w.preg a.toNat
    let y := fun (w : Wave) => w.preg b.toNat
    WritesP (.pand nx d a b 0#1) nx d (fun w => x w &&& y w) ∧ WritesP (.pand nx d a b 1#1) nx d (fun w => x w &&& ~~~(y w)) ∧
    WritesP (.por nx d a b 0#1) nx d (fun w => x w ||| y w) ∧ WritesP (.por nx d a b 1#1) nx d (fun w => x w ||| ~~~(y w)) ∧
    WritesP (.pxor nx d a b 0#1) nx d (fun w => x w ^^^ y w) ∧ WritesP (.pxor nx d a b 1#1) nx d (fun w => x w ^^^ ~~~(y w)) ∧
    WritesP (.pnot nx d a) nx d (fun w => ~~~(x w)) ∧
    WritesP (.pmov nx d a) nx d x ∧
    WritesP (.pmovFs nx d e) nx d (fun w => (w.sreg e.toNat).setWidth 32) ∧
    WritesS (.pmovTs nx e a) nx e (fun w => (x w).setWidth 64) ∧
    WritesS (.pcnt nx e a) nx e (fun w => BitVec.ofNat 64 ((List.range 32).countP fun i => (x w).getLsbD i)) ∧
    WritesS (.pfirst nx e a 0#1) nx e (fun w => ((x w).ctz).setWidth 64) ∧
    WritesS (.pfirst nx e a 1#1) nx e (fun w => if x w = 0#32 then 32#64 else 31#64 - ((x w).clz).setWidth 64) ∧
    (k.toNat ≤ 32 → WritesP (.pseti nx d 0#1 k) nx d (fun _ => BitVec.ofNat 32 (2 ^ k.toNat - 1))) ∧
    (k.toNat ≤ 32 → WritesP (.pseti nx d 1#1 k) nx d (fun _ => BitVec.ofNat 32 (2 ^ 32 - 2 ^ (32 - k.toNat)))) ∧
    WritesP (.planes nx d 0#1) nx d (fun w => w.live) ∧
    WritesP (.planes nx d 1#1) nx d (fun w => w.preg (w.mode.toNat % 8) &&& w.live)

/-- R257: a vector result is written into the chosen lanes of its register, or of its pair for a wide type, as elements; every other lane of them, every other register
and all else of the wave stay.

R258, R96, R16: an integer result is the exact one modulo 2^N, or under SAT the nearest value of the type.

R16, RNE32: the result is a value of FP32 that none is nearer to than the exact one, and of two that are equally near the one whose last bit is 0.

R279: an integer VSCAN.add gives each ACTIVE lane the wrapped or saturated total of the ACTIVE elements up to it, its own included unless the
scan is exclusive. -/
def Obligations.ElementsAndScans : Prop :=
  (∀ (w : Wave) (ty r k l : Nat) (m : Word) (f : Nat → Nat), ty ≤ 10 → l < 32 → r < 64 → (isWide ty = true → r + 1 < 64) →
     let t := w.putElems ty r m f
     (m.getLsbD l = true → t.elem ty r l = f l % 2 ^ typeBits ty) ∧
     (m.getLsbD l = true → typeBits ty ≤ 32 → t.lane r l = BitVec.ofNat 32 (extendElem ty (f l))) ∧
     (m.getLsbD l = false → t.lane r l = w.lane r l ∧ t.lane (r + 1) l = w.lane (r + 1) l) ∧
     (k ≠ r → (k = r + 1 → ¬isWide ty) → t.vreg k = w.vreg k) ∧ ∃ v, t = { w with v := v }) ∧
  (∀ (ty : Nat) (x : Int), ty ≤ 7 →
     let n := typeBits ty
     (intVal ty (intResult ty false x) - x) % ((2 ^ n : Nat) : Int) = 0 ∧
     (intMin ty ≤ x → x ≤ intMax ty → intVal ty (intResult ty true x) = x) ∧
     (x < intMin ty → intVal ty (intResult ty true x) = intMin ty) ∧
     (intMax ty < x → intVal ty (intResult ty true x) = intMax ty) ∧
     (ty % 2 = 0 → intMin ty = -2 ^ (n - 1) ∧ intMax ty = 2 ^ (n - 1) - 1) ∧ (ty % 2 = 1 → intMin ty = 0 ∧ intMax ty = 2 ^ n - 1)) ∧
  (let value := fun (neg : Bool) (m : Nat) (e : Int) => (if neg then -1 else 1) * (m : ℚ) * (2 : ℚ) ^ e
   ∀ (neg : Bool) (m : Nat) (e : Int) (rn : Bool) (rm : Nat) (re : Int), val32 (rne32 (.fin neg m e)) = .fin rn rm re →
     ∀ (y : Nat) (yn : Bool) (ym : Nat) (ye : Int), val32 y = .fin yn ym ye →
       let near := |value rn rm re - value neg m e|
       let other := |value yn ym ye - value neg m e|
       near ≤ other ∧ (near = other → value yn ym ye ≠ value rn rm re → rne32 (.fin neg m e) % 2 = 0)) ∧
  (∀ (w : Wave) (a : BitVec 6) (l : Nat), w.ty ≤ 7 → l < 32 → w.active.getLsbD l = true →
     let total := fun (n : Nat) => (((List.range n).filter fun k => w.active.getLsbD k).map fun k => intVal w.ty (w.elem w.ty a.toNat k)).sum
     lookup (w.scan 0 false a) l = some (intResult w.ty w.sat (total (l + 1))) ∧
     lookup (w.scan 0 true a) l = some (intResult w.ty w.sat (total l)))

/-- R262-R264: element-wise arithmetic, on integers exactly and then wrapped or saturated, on floating point with one rounding.

R267, R268, R270: bitwise logic, shifts, bit fields, counts and selection. -/
def Obligations.VectorArithmetic : Prop :=
  (∀ (nx : BitVec 2) (d a b : BitVec 6) (i : BitVec 10),
     let each2 := fun (fi : Wave → Int → Int → Nat) (ff : Wave → FVal → FVal → Nat) (w : Wave) => w.putElems w.ty d.toNat w.active fun l =>
       let x := w.elem w.ty a.toNat l
       let y := w.elem w.ty b.toNat l
       if w.ty ≤ 7 then fi w (intVal w.ty x) (intVal w.ty y) else ff w (elemVal w.ty w.flush x) (elemVal w.ty w.flush y)
     let out := fun (w : Wave) (x : Int) => intResult w.ty w.sat x
     let res := fun (w : Wave) (v : FVal) => resultF (fmtOf w.ty) w.rnd w.sat w.flush v
     VectorBecomes (.vadd nx d a b) nx (· ≤ 10) (each2 (fun w x y => out w (x + y)) fun w x y => res w (addV w.rnd x y)) ∧
     VectorBecomes (.vsub nx d a b) nx (· ≤ 10) (each2 (fun w x y => out w (x - y)) fun w x y => res w (addV w.rnd x (negV y))) ∧
     VectorBecomes (.vmul nx d a b) nx (· ≤ 10) (each2 (fun w x y => out w (x * y)) fun w x y => res w (mulV x y)) ∧
     VectorBecomes (.vmad nx d a b 0#1) nx (· ≤ 10) (fun w => w.putElems w.ty d.toNat w.active fun l =>
       let x := w.elem w.ty a.toNat l
       let y := w.elem w.ty b.toNat l
       let z := w.elem w.ty d.toNat l
       if w.ty ≤ 7 then out w (intVal w.ty x * intVal w.ty y + intVal w.ty z)
       else res w (addV w.rnd (elemVal w.ty w.flush z) (mulV (elemVal w.ty w.flush x) (elemVal w.ty w.flush y)))) ∧
     VectorBecomes (.vmad nx d a b 1#1) nx (· ≤ 10) (fun w => w.putElems w.ty d.toNat w.active fun l =>
       let x := w.elem w.ty a.toNat l
       let y := w.elem w.ty b.toNat l
       let z := w.elem w.ty d.toNat l
       if w.ty ≤ 7 then out w (intVal w.ty z - intVal w.ty x * intVal w.ty y)
       else res w (addV w.rnd (elemVal w.ty w.flush z) (negV (mulV (elemVal w.ty w.flush x) (elemVal w.ty w.flush y))))) ∧
     VectorBecomes (.vmin nx d a b) nx (· ≤ 10) (fun w => w.putElems w.ty d.toNat w.active fun l =>
       let x := w.elem w.ty a.toNat l
       let y := w.elem w.ty b.toNat l
       if w.ty ≤ 7 then (if intVal w.ty y < intVal w.ty x then y else x)
       else resultF (fmtOf w.ty) 0 false false (minMaxV false (elemVal w.ty w.flush x) (elemVal w.ty w.flush y))) ∧
     VectorBecomes (.vmax nx d a b) nx (· ≤ 10) (fun w => w.putElems w.ty d.toNat w.active fun l =>
       let x := w.elem w.ty a.toNat l
       let y := w.elem w.ty b.toNat l
       if w.ty ≤ 7 then (if intVal w.ty x < intVal w.ty y then y else x)
       else resultF (fmtOf w.ty) 0 false false (minMaxV true (elemVal w.ty w.flush x) (elemVal w.ty w.flush y))) ∧
     VectorBecomes (.vabs nx d a) nx (· ≤ 10) (fun w => w.putElems w.ty d.toNat w.active fun l =>
       let x := w.elem w.ty a.toNat l
       if w.ty ≤ 7 then out w |intVal w.ty x|
       else res w (if signV (elemVal w.ty w.flush x) then negV (elemVal w.ty w.flush x) else elemVal w.ty w.flush x)) ∧
     VectorBecomes (.vneg nx d a) nx (· ≤ 10) (fun w => w.putElems w.ty d.toNat w.active fun l =>
       let x := w.elem w.ty a.toNat l
       if w.ty ≤ 7 then out w (-intVal w.ty x) else res w (negV (elemVal w.ty w.flush x))) ∧
     VectorBecomes (.vmulh nx d a b) nx (· ≤ 7) (fun w => w.putElems w.ty d.toNat w.active fun l =>
       wrapOf (typeBits w.ty) ((intVal w.ty (w.elem w.ty a.toNat l) * intVal w.ty (w.elem w.ty b.toNat l)) >>> typeBits w.ty)) ∧
     VectorBecomes (.vaddi nx d a i) nx (· ≤ 10) (fun w => w.putElems w.ty d.toNat w.active fun l =>
       let x := w.elem w.ty a.toNat l
       if w.ty ≤ 7 then out w (intVal w.ty x + i.toInt)
       else res w (addV w.rnd (elemVal w.ty w.flush x) (elemVal w.ty w.flush (res w (valOfInt i.toInt))))) ∧
     VectorBecomes (.vrem nx d a b) nx (· ≤ 7) (fun w => w.putElems w.ty d.toNat w.active fun l =>
       let x := intVal w.ty (w.elem w.ty a.toNat l)
       let y := intVal w.ty (w.elem w.ty b.toNat l)
       wrapOf (typeBits w.ty) (if y = 0 then x else x.tmod y))) ∧
  (∀ (nx : BitVec 2) (d a b : BitVec 6) (k : BitVec 3),
     let raw2 := fun (f : Word → Word → Word) (w : Wave) => w.rawLanes d fun j l => f (w.lane (a.toNat + j) l) (w.lane (b.toNat + j) l)
     let shift := fun (f : Nat → Nat → Nat → Nat) (w : Wave) => w.putElems w.ty d.toNat w.active fun l =>
       f (typeBits w.ty) (w.elem w.ty a.toNat l) ((w.lane b.toNat l).toNat % typeBits w.ty)
     let pos := fun (w : Wave) (l : Nat) => (w.lane b.toNat l).toNat % 32
     let len := fun (w : Wave) (l : Nat) => min ((w.lane b.toNat l).toNat / 256 % 64) (32 - pos w l)
     let field := fun (w : Wave) (l : Nat) => (w.lane a.toNat l).toNat / 2 ^ pos w l % 2 ^ len w l
     VectorBecomes (.vand nx d a b) nx (· ≤ 10) (raw2 (· &&& ·)) ∧
     VectorBecomes (.vor nx d a b) nx (· ≤ 10) (raw2 (· ||| ·)) ∧
     VectorBecomes (.vxor nx d a b) nx (· ≤ 10) (raw2 (· ^^^ ·)) ∧
     VectorBecomes (.vnot nx d a) nx (· ≤ 10) (fun w => w.rawLanes d fun j l => ~~~(w.lane (a.toNat + j) l)) ∧
     VectorBecomes (.vshl nx d a b) nx (· ≤ 7) (shift fun n x c => x * 2 ^ c % 2 ^ n) ∧
     VectorBecomes (.vshr nx d a b) nx (· ≤ 7) (shift fun _ x c => x / 2 ^ c) ∧
     VectorBecomes (.vsra nx d a b) nx (· ≤ 7) (shift fun n x c => wrapOf n (signedOf n x >>> c)) ∧
     VectorBecomes (.vsel nx d a b k) nx (· ≤ 10) (fun w => w.rawLanes d fun j l =>
       if (w.preg k.toNat).getLsbD l then w.lane (a.toNat + j) l else w.lane (b.toNat + j) l) ∧
     Becomes (.vbfe nx d a b 0#1) nx (fun w => w.setLanes d.toNat w.active fun l => BitVec.ofNat 32 (field w l)) ∧
     Becomes (.vbfe nx d a b 1#1) nx (fun w => w.setLanes d.toNat w.active fun l =>
       BitVec.ofInt 32 (if 0 < len w l ∧ 2 ^ (len w l - 1) ≤ field w l then (field w l : Int) - 2 ^ len w l else field w l)) ∧
     Becomes (.vbfi nx d a b) nx (fun w => w.setLanes d.toNat w.active fun l =>
       let m := BitVec.ofNat 32 ((2 ^ len w l - 1) * 2 ^ pos w l)
       (w.lane d.toNat l &&& ~~~m) ||| ((w.lane a.toNat l <<< pos w l) &&& m)) ∧
     Becomes (.vcnt nx d a 0#2) nx (fun w => w.setLanes d.toNat w.active fun l =>
       BitVec.ofNat 32 ((List.range 32).countP fun j => (w.lane a.toNat l).getLsbD j)) ∧
     Becomes (.vcnt nx d a 1#2) nx (fun w => w.setLanes d.toNat w.active fun l => (w.lane a.toNat l).clz) ∧
     Becomes (.vcnt nx d a 2#2) nx (fun w => w.setLanes d.toNat w.active fun l => (w.lane a.toNat l).ctz))

/-- R264-R266, R218: the long-latency vector functions read their operands at issue, record every ACTIVE lane's result, and open a window over
the destination that they name. -/
def Obligations.VectorLongLatency : Prop :=
  ∀ (nx : BitVec 2) (d a b : BitVec 6) (la : BitVec 4),
    let one := fun (_ : Wave) => [RegName.v d.toNat]
    let fn := fun (f : Wave → Nat → Nat) (w : Wave) => elemWrites w.ty d.toNat w.active fun l => f w (w.elem w.ty a.toNat l)
    let table := fun (n : Nat) (w : Wave) (x : Nat) => llResult (fmtOf w.ty) w.rnd w.sat w.flush n x
    IssuesResult (.vdiv nx d a b la) nx la (· ≤ 10) (fun w => if w.ty = 6 ∨ w.ty = 7 then [.v d.toNat, .v (d.toNat + 1)] else [.v d.toNat])
      (fun w => elemWrites w.ty d.toNat w.active fun l =>
        let x := w.elem w.ty a.toNat l
        let y := w.elem w.ty b.toNat l
        if w.ty ≤ 7 then
          wrapOf (typeBits w.ty) (if intVal w.ty y = 0 then -1 else (intVal w.ty x).tdiv (intVal w.ty y))
        else resultF (fmtOf w.ty) w.rnd w.sat w.flush (divV (elemVal w.ty w.flush x) (elemVal w.ty w.flush y))) ∧
    IssuesResult (.vsqrt nx d a la) nx la (fun t => 8 ≤ t ∧ t ≤ 10) one
      (fn fun w x => resultF (fmtOf w.ty) w.rnd w.sat w.flush (sqrtV (elemVal w.ty w.flush x))) ∧
    IssuesResult (.vrcp nx d a la) nx la (fun t => 8 ≤ t ∧ t ≤ 10) one (fn (table 0)) ∧
    IssuesResult (.vrsq nx d a la) nx la (fun t => 8 ≤ t ∧ t ≤ 10) one (fn (table 1)) ∧
    IssuesResult (.vexp2 nx d a la) nx la (fun t => 8 ≤ t ∧ t ≤ 10) one (fn (table 2)) ∧
    IssuesResult (.vlog2 nx d a la) nx la (fun t => 8 ≤ t ∧ t ≤ 10) one (fn (table 3)) ∧
    IssuesResult (.vsincos nx d a la) nx la (fun t => 8 ≤ t ∧ t ≤ 10) (fun _ => [.v d.toNat, .v (d.toNat + 1)])
      (fun w => (elemWrites w.ty d.toNat w.active fun l => table 4 w (w.elem w.ty a.toNat l)) ++
        elemWrites w.ty (d.toNat + 1) w.active fun l => table 5 w (w.elem w.ty a.toNat l))

/-- R274-R277: moves, permutations, extraction and packing. That VUNPK gives a subnormal narrow float its exact value, also under FLUSH, is the model's
choice (log 66): R277 asks for the exact value, R100 and R259 flush every subnormal operand.

R269, R271-R273: comparisons into predicates, conversion, class, exponent and scaling. -/
def Obligations.VectorMovesAndComparisons : Prop :=
  (∀ (nx : BitVec 2) (d a b : BitVec 6) (i : BitVec 16) (k : BitVec 5) (t : BitVec 1) (j : BitVec 2),
     let from_ := fun (f : Wave → Nat → Nat) (w : Wave) => w.putElems w.ty d.toNat w.active fun l => w.elem w.ty a.toNat (f w l)
     let pack := fun (t : Nat) => (2 ≤ t ∧ t ≤ 5) ∨ t = 9 ∨ t = 10
     VectorBecomes (.vmov nx d a) nx (· ≤ 10) (fun w => w.rawLanes d fun n l => w.lane (a.toNat + n) l) ∧
     VectorBecomes (.vmovs nx d a) nx (· ≤ 10) (fun w => w.putElems w.ty d.toNat w.active fun _ => (w.sreg a.toNat).toNat) ∧
     VectorBecomes (.vmovi nx d i) nx (· ≤ 10) (fun w => w.putElems w.ty d.toNat w.active fun _ =>
       if w.ty ≤ 7 then wrapOf (typeBits w.ty) i.toInt else resultF (fmtOf w.ty) w.rnd w.sat w.flush (valOfInt i.toInt)) ∧
     Becomes (.vlane nx d) nx (fun w => w.setLanes d.toNat w.active fun l => BitVec.ofNat 32 l) ∧
     VectorBecomes (.vperm nx d a b) nx (· ≤ 10) (from_ fun w l => (w.lane b.toNat l).toNat % 32) ∧
     VectorBecomes (.vshfl nx d a k 0#2) nx (· ≤ 10) (from_ fun _ l => l ^^^ k.toNat) ∧
     VectorBecomes (.vshfl nx d a k 1#2) nx (· ≤ 10) (from_ fun _ l => if l < k.toNat then l else l - k.toNat) ∧
     VectorBecomes (.vshfl nx d a k 2#2) nx (· ≤ 10) (from_ fun _ l => if 31 < l + k.toNat then l else l + k.toNat) ∧
     VectorBecomes (.vshfl nx d a k 3#2) nx (· ≤ 10) (from_ fun _ l => (l + k.toNat) % 32) ∧
     VectorBecomes (.vextr nx d a b) nx (· ≤ 10) (fun w =>
       w.setS d.toNat (scalarForm w.ty (w.elem w.ty a.toNat ((w.sreg b.toNat).toNat % 32)))) ∧
     VectorBecomes (.vinsr nx d a b) nx (· ≤ 10) (fun w =>
       w.putElems w.ty d.toNat (1#32 <<< ((w.sreg b.toNat).toNat % 32)) fun _ => (w.sreg a.toNat).toNat) ∧
     VectorBecomes (.vpack nx d a t j) nx pack (fun w => w.setLanes d.toNat w.active fun l =>
       let n := typeBits w.ty
       let x := (w.lane a.toNat l).toNat
       let y :=
         if w.ty ≤ 7 then (if t = 1#1 then intResult w.ty true (if w.ty % 2 = 0 then signedOf 32 x else x) else x % 2 ^ n)
         else resultF (fmtOf w.ty) w.rnd (w.sat || t == 1#1) w.flush (readF fF32 w.flush x)
       putSlot (w.lane d.toNat l) n j.toNat y) ∧
     VectorBecomes (.vunpk nx d a j) nx pack (fun w => w.setLanes d.toNat w.active fun l =>
       let n := typeBits w.ty
       let x := (w.lane a.toNat l).toNat / 2 ^ (n * j.toNat) % 2 ^ n
       BitVec.ofNat 32 (if w.ty ≤ 7 then extendElem w.ty x else resultF fF32 0 false false (decodeF (fmtOf w.ty) x)))) ∧
  (∀ (nx : BitVec 2) (d a b : BitVec 6) (p c : BitVec 3) (i : BitVec 10) (src : BitVec 4) (rm : BitVec 2),
     let mask := fun (w : Wave) (f : Nat → Bool) => maskOf fun l => w.active.getLsbD l && f l
     let fp := fun (t : Nat) => 8 ≤ t ∧ t ≤ 10
     VectorBecomes (.vcmp nx p a b c) nx (· ≤ 10) (fun w => w.setP p.toNat (mask w fun l =>
       if w.ty ≤ 7 then condInt c.toNat (intVal w.ty (w.elem w.ty a.toNat l)) (intVal w.ty (w.elem w.ty b.toNat l))
       else condOf c.toNat (cmpV (elemVal w.ty w.flush (w.elem w.ty a.toNat l)) (elemVal w.ty w.flush (w.elem w.ty b.toNat l))))) ∧
     VectorBecomes (.vcmpi nx c p a i) nx (· ≤ 10) (fun w => w.setP p.toNat (mask w fun l =>
       if w.ty ≤ 7 then condInt c.toNat (intVal w.ty (w.elem w.ty a.toNat l)) (intVal w.ty (wrapOf (typeBits w.ty) i.toInt))
       else condOf c.toNat (cmpV (elemVal w.ty w.flush (w.elem w.ty a.toNat l))
         (elemVal w.ty w.flush (resultF (fmtOf w.ty) w.rnd w.sat w.flush (valOfInt i.toInt)))))) ∧
     VectorBecomes (.vcvt nx d a src 0#1 rm) nx (· ≤ 10) (fun w => w.putElems w.ty d.toNat w.active fun l =>
       convert src.toNat w.ty w.rnd w.sat w.flush (w.elem src.toNat a.toNat l)) ∧
     VectorBecomes (.vcvt nx d a src 1#1 rm) nx (· ≤ 10) (fun w => w.putElems w.ty d.toNat w.active fun l =>
       convert src.toNat w.ty rm.toNat w.sat w.flush (w.elem src.toNat a.toNat l)) ∧
     VectorBecomes (.vclass nx d a) nx fp (fun w => w.setLanes d.toNat w.active fun l => 1#32 <<< classOf (fmtOf w.ty) (w.elem w.ty a.toNat l)) ∧
     VectorBecomes (.vexpo nx d a) nx fp (fun w => w.setLanes d.toNat w.active fun l =>
       match elemVal w.ty w.flush (w.elem w.ty a.toNat l) with
       | .fin _ m e => if m = 0 then 0x80000000#32 else BitVec.ofInt 32 ((bitLen m : Int) - 1 + e)
       | _ => 0x7FFFFFFF#32) ∧
     VectorBecomes (.vldexp nx d a b) nx fp (fun w => w.putElems w.ty d.toNat w.active fun l =>
       resultF (fmtOf w.ty) w.rnd w.sat w.flush (scaleV (elemVal w.ty w.flush (w.elem w.ty a.toNat l)) (w.lane b.toNat l).toInt)))

/-- R278-R283: reductions, scans, votes, dot products and the Tilth conversions. -/
def Obligations.VectorReductions : Prop :=
  ∀ (nx : BitVec 2) (d a b : BitVec 6) (p : BitVec 3) (o : BitVec 3),
    let byOp := fun (t : Nat) => if o.toNat ≤ 2 then t ≤ 10 else t ≤ 7
    let lanes := fun (w : Wave) => (List.range 32).filter fun l => w.active.getLsbD l
    let ballot := fun (w : Wave) => maskOf fun l => w.active.getLsbD l && w.lane a.toNat l != 0#32
    let dot4 := fun (w : Wave) (l : Nat) => ((List.range 4).map fun j =>
      intVal w.ty ((w.lane a.toNat l).toNat / 2 ^ (8 * j) % 256) * intVal w.ty ((w.lane b.toNat l).toNat / 2 ^ (8 * j) % 256)).sum
    let dot2 := fun (w : Wave) (l : Nat) => ((List.range 2).map fun j =>
      intVal w.ty ((w.lane a.toNat l).toNat / 2 ^ (16 * j) % 65536) * intVal w.ty ((w.lane b.toNat l).toNat / 2 ^ (16 * j) % 65536)).sum
    let acc := fun (w : Wave) (l : Nat) (x : Int) =>
      let t := if w.ty % 2 = 0 then 0 else 1
      BitVec.ofNat 32 (intResult t w.sat (intVal t (w.lane d.toNat l).toNat + x))
    let half := fun (w : Wave) (r : BitVec 6) (l j : Nat) => elemVal w.ty w.flush ((w.lane r.toNat l).toNat / 2 ^ (16 * j) % 65536)
    VectorBecomes (.vred nx d a o) nx byOp (fun w => w.setS d.toNat (scalarForm w.ty (
      if w.ty ≤ 7 then
        w.totalElem o.toNat ((lanes w).foldl (fun x l => reduceInt o.toNat w.ty x (intVal w.ty (w.elem w.ty a.toNat l))) (identityInt o.toNat w.ty))
      else (treeReduce (w.combineFp o.toNat) ((List.range 32).map fun l =>
        if w.active.getLsbD l then some (w.readElem (w.elem w.ty a.toNat l)) else none)).getD (identityFp o.toNat w.ty)))) ∧
    VectorBecomes (.vscan nx d a 0#1 o) nx byOp (fun w => w.putElems w.ty d.toNat w.active fun l => (lookup (w.scan o.toNat false a) l).getD 0) ∧
    VectorBecomes (.vscan nx d a 1#1 o) nx byOp (fun w => w.putElems w.ty d.toNat w.active fun l => (lookup (w.scan o.toNat true a) l).getD 0) ∧
    WritesS (.vvote nx d a 0#2) nx d (fun w => (ballot w).setWidth 64) ∧
    WritesS (.vvote nx d a 1#2) nx d (fun w => if ballot w = 0#32 then 0#64 else 1#64) ∧
    WritesS (.vvote nx d a 2#2) nx d (fun w => if ballot w = w.active then 1#64 else 0#64) ∧
    WritesP (.vvotePballot nx p a) nx p ballot ∧
    VectorBecomes (.vdot4 nx d a b) nx (fun t => t = 4 ∨ t = 5) (fun w => w.setLanes d.toNat w.active fun l => acc w l (dot4 w l)) ∧
    VectorBecomes (.vdot2 nx d a b) nx (fun t => t = 2 ∨ t = 3 ∨ t = 9 ∨ t = 10) (fun w => w.setLanes d.toNat w.active fun l =>
      if w.ty ≤ 7 then acc w l (dot2 w l)
      else BitVec.ofNat 32 (resultF fF32 w.rnd w.sat w.flush (addV w.rnd (addV w.rnd (readF fF32 w.flush (w.lane d.toNat l).toNat)
        (mulV (half w a l 0) (half w b l 0))) (mulV (half w a l 1) (half w b l 1))))) ∧
    VectorBecomes (.vtilth nx d a b) nx (fun t => 11 ≤ t ∧ t ≤ 13) (fun w =>
      let parcel := tilthEnc w.ty ((w.sreg b.toNat).toNat % 256) w.rnd ((List.range (32 * tilthRegs w.ty)).map fun i =>
        if w.active.getLsbD (i % 32) then (w.lane (a.toNat + i / 32) (i % 32)).toNat else 0)
      w.setV d.toNat (tab 32 fun l => if l < 16 then BitVec.ofNat 32 (fieldOf parcel (4 * l) 4) else 0#32)) ∧
    (let format := fun (w : Wave) => (w.lane a.toNat 0).toNat % 256
     BecomesIf (.vuntilth nx d a) nx (fun w => 11 ≤ w.ty ∧ w.ty ≤ 13 ∧ format w = tilthCode w.ty) (fun _ w =>
        w.spread d.toNat (tilthRegs w.ty) fun i => BitVec.ofNat 32 (resultF fF32 0 false w.flush (tilthElem w.ty (w.parcel a) i))) ∧
     ∀ s w, lookup s.waves s.cur = some w → 11 ≤ w.ty → w.ty ≤ 13 → format w ≠ tilthCode w.ty →
        exec (.vuntilth nx d a) s = .next (takeTrap s s.cur ⟨7, 2, a.toNat, 0#32⟩ true false)) ∧
    ∀ s w, lookup s.waves s.cur = some w → ¬(11 ≤ w.ty ∧ w.ty ≤ 13) →
      exec (.vuntilth nx d a) s = .next (takeTrap s s.cur ⟨3, 0, wordArg s w, 0#32⟩ true false)

/-- R110, R115: bytes written at a home slice read as written there, and every other byte of memory as before.

R110, R131: a core's load gives the bytes of its last store to the same place, whether the line is in its L1, owned, or neither.

R32, R39, R110, R125: a load takes the bytes of a copy in its core's L1 only if the copy was filled under the load's key (or the line is the host's), holds
that half of the line, and no fill of the line is outstanding; of a line that the core owns it takes the bytes of memory; and otherwise it joins the end of
the core's path to the slices.

R138: a load that sees another core's store before the store has performed gives the bytes of that store and leaves memory as it is; that the model has such loads,
and remembers whose stores a core has seen, is its own form of what R138 allows (log 8). -/
def Obligations.MemoryReadsBack : Prop :=
  (∀ (s : State) (src rd : Option Nat) (kid k : Nat) (b : List Byte), UnderKey s kid k b.length → s.snaps = [] →
     let t := sliceWrite s src kid k b
     Written s t k b ∧ (sliceRead t rd kid k b.length).2 = b ∧ SameMemory t (sliceRead t rd kid k b.length).1) ∧
  (∀ (s : State) (c u kid k : Nat) (b : List Byte), 0 < b.length → k % 128 + b.length ≤ 128 → UnderKey s kid k b.length → s.snaps = [] →
     (∀ copy, lookup (coreOf s c).l1 (k / 128) = some copy → copy.bytes.length = 128) →
     ((coreOf s c).owned.contains (k / 128) = true → lookup (coreOf s c).l1 (k / 128) = none) → (coreOf s c).path = [] →
     (coreRead (coreWrite s c u kid k b) c kid k b.length).2.1 = b) ∧
  (∀ (s : State) (c u kid k n id part : Nat),
     let usable := fun (copy : L1Line) => (isHostKey k = true ∨ copy.kid = kid) ∧ copy.halves.getLsbD (k % 128 / 64) = true ∧
       ∀ e ∈ (coreOf s c).path, ∀ x y z i j l, e = .load x y z i j l → y / 128 ≠ k / 128
     (∀ copy, lookup (coreOf s c).l1 (k / 128) = some copy → usable copy →
       coreLoad s c u kid k n id part = (s, some (sliceBytes copy.bytes (k % 128) n))) ∧
     ((∀ copy, lookup (coreOf s c).l1 (k / 128) = some copy → ¬usable copy) →
       ((coreOf s c).owned.contains (k / 128) = true → UnderKey s kid k n →
         SameMemory s (coreLoad s c u kid k n id part).1 ∧ (coreLoad s c u kid k n id part).2 = some (physBytes s k n)) ∧
       ((coreOf s c).owned.contains (k / 128) = false → coreLoad s c u kid k n id part =
         (setCore s c { coreOf s c with path := (coreOf s c).path ++ [.load u k kid n id part] }, none)))) ∧
  (∀ (s : State) (c a u kid k : Nat) (b : List Byte), 0 < b.length → k % 128 + b.length ≤ 128 → UnderKey s kid k b.length →
     (coreOf s a).path = [.store u k kid b] →
     let r := readEarly s c a kid k b.length
     r.2 = b ∧ SameMemory s r.1 ∧ lookup (coreOf r.1 c).early (k / 128) = some a)

/-- R110, R39: a store on a line that its core does not own leaves every byte of memory, updates the core's copy of the line, which leaves the L1 if it
stands under another key, and joins the end of the core's path to the slices; no other core changes.

R140, R110: where a store goes, piece by piece: on a page of sequential consistency it performs at the home slice after all that the core sent
there before; on any other it goes through the core's L1.

R110, R122: WRITE_THROUGH_PERFORM makes a core's oldest store to a slice in memory, and it leaves the path; what the core has sent to other slices before
it stays where it is. -/
def Obligations.StorePath : Prop :=
  (∀ (s : State) (c u kid k : Nat) (b : List Byte), (coreOf s c).owned.contains (k / 128) = false →
     let t := coreWrite s c u kid k b
     SameMemory s t ∧ (coreOf t c).path = (coreOf s c).path ++ [.store u k kid b] ∧ (∀ d, d ≠ c → coreOf t d = coreOf s d) ∧
     (∀ copy, lookup (coreOf s c).l1 (k / 128) = some copy → isHostKey k = true ∨ copy.kid = kid →
       lookup (coreOf t c).l1 (k / 128) = some { copy with bytes := copy.bytes.take (k % 128) ++ b ++ copy.bytes.drop (k % 128 + b.length) }) ∧
     (∀ copy, lookup (coreOf s c).l1 (k / 128) = some copy → isHostKey k = false → copy.kid ≠ kid → lookup (coreOf t c).l1 (k / 128) = none) ∧
     (lookup (coreOf s c).l1 (k / 128) = none → (coreOf t c).l1 = (coreOf s c).l1) ∧ t.waves = s.waves) ∧
  (∀ (s : State) (c u n : Nat) (q : Place) (more : List (Place × Nat)) (b : List Byte), q.loc ≠ 2 →
     let one := writePiece s c u q (b.take n)
     writeLane s c u ((q, n) :: more) b = writeLane one c u more (b.drop n) ∧ writeLane s c u [] b = s ∧
     (leafSC q.leaf = true → one = homeWrite (drainWay s c (wayOf q.key)) (some c) q.kid q.key (b.take n)) ∧
     (leafSC q.leaf = false → one = coreWrite (settleLine s c (q.key / 128)) c u q.kid q.key (b.take n))) ∧
  (∀ (s : State) (c u k kid : Nat) (b : List Byte) (early rest : List PathEntry), (coreOf s c).path = early ++ .store u k kid b :: rest →
     (∀ e ∈ early, e.way ≠ wayOf k) → UnderKey s kid k b.length → s.snaps = [] →
     Completes (.writeThroughPerform ⟨c, wayOf k⟩) s fun t =>
       Written s t k b ∧ (coreOf t c).path = early ++ rest ∧ (coreOf t c).l1 = (coreOf s c).l1 ∧ t.waves = s.waves)

/-- R110, R116: LINE_EVICTION takes a line out of the L2, and every byte of memory still reads as before; or it takes a core's copy out of its L1.

R44, R45, R52, R55, R56, R119, R121, R123, R218, R219, R403, R407, R417, R423: what the memory system and the host do. A returned result is written; a load that is
on its way to a slice returns what memory holds there while no other core has a store on its way to the line; a walk, which recalls the lines that it reads and
changes no memory, caches its translation for the core or the die that asked, and that a second walk leaves the entry that is cached, which
may from then on differ from the tables, is the model's choice (log 7); the answer RETRY resumes a wave parked on a fault, and KILL makes it take PAGE_FAULT_FATAL with reason HOST_KILL; a write of FQCFG
that enables the queue posts a record that waits, at the place that the word at FQBASE counts to, the model's choice for TAIL's first value (log 73); an atomic performs at its slice and its result returns; the predictor's counters halve; host and RDMA
writes reach the memory that HDM covers on both dies, and a host read returns what it holds; an event record is written, and then TAIL. No snapshot runs. -/
def Obligations.MemorySystemEvents : Prop :=
  (∀ (s : State) (line : Nat), Memory.wf s.mem = true → risingFrom none s.l2 = true →
     (Completes (.lineEviction ⟨none, line⟩) s fun t => SameMemory s t ∧ (∀ k, k / 128 = line → cellGet t.l2 k = none) ∧
       Memory.wf t.mem = true ∧ t.waves = s.waves ∧ t.cores = s.cores) ∧
     ∀ c, Completes (.lineEviction ⟨some c, line⟩) s fun t => SameMemory s t ∧ (∀ d, d ≠ c → coreOf t d = coreOf s d) ∧
       coreOf t c = { coreOf s c with l1 := (coreOf s c).l1.filter fun e => e.1 != line } ∧ t.waves = s.waves) ∧
  (∀ (s : State), s.snaps = [] →
     (∀ u x id regs writes rest, lookup s.waves u = some x → (coreOf s (coreNo s x)).stretch = false →
       x.pending = ⟨id, regs, writes, true⟩ :: rest → (∀ q ∈ rest, q.id ≠ id) →
       exec (.llResultWrite u) s = .next (setWave s u { applyWrites x writes with pending := rest })) ∧
     (∀ u x id regs form lane k kid n rest, lookup s.waves u = some x → (coreOf s (coreNo s x)).stretch = false →
       x.pending = [⟨id, regs, [], false⟩] → x.loads = [⟨id, form, [⟨lane, none⟩]⟩] →
       (coreOf s (coreNo s x)).path = .load u k kid n id 0 :: rest → (∀ e ∈ rest, e.way ≠ wayOf k ∧ e.result ≠ some id) →
       lookup (coreOf s (coreNo s x)).early (k / 128) = none → (∀ e ∈ s.cores, e.1 ≠ coreNo s x → ∀ p ∈ e.2.path, p.key / 128 ≠ k / 128) →
       0 < n → UnderKey s kid (k / 128 * 128) 128 → Completes (.llResultWrite u) s fun t =>
         SameMemory s t ∧ (coreOf t (coreNo s x)).path = rest ∧
         waveOf t u = { applyWrites { x with loads := [] } (form.writes [⟨lane, some (physBytes s k n)⟩]) with pending := [] }) ∧
     (∀ die core ctx (va : DWord), die < 2 → (∀ c, core = some c → c / 36 = die) →
       canonical va.toNat = true → isPrivate va.toNat = false → (lookup s.contexts ctx).isSome →
       let holder := match core with
         | some c => Asker.core c
         | none => .die die
       let read := walkRecalls s ctx va.toNat
       SameMemory s read ∧ read.waves = s.waves ∧
       (∀ leaf size, walk s ctx va.toNat = .ok (leaf, size) → tlbEntry s holder ctx va.toNat = none →
         exec (.translationWalk ⟨die, core⟩ ctx va) s = .next { read with tlb := s.tlb ++ [⟨holder, ctx, va.toNat / size * size, size, leaf, false⟩] }) ∧
       (∀ leaf size e, walk s ctx va.toNat = .ok (leaf, size) → tlbEntry s holder ctx va.toNat = some e →
         exec (.translationWalk ⟨die, core⟩ ctx va) s = .next { read with tlb := s.tlb.map fun x => if x = e then { x with loose := true } else x }) ∧
       ∀ e, walk s ctx va.toNat = .error e → exec (.translationWalk ⟨die, core⟩ ctx va) s = .next read) ∧
     (∀ idx f u w lanes va va' kind, s.faults.find? (fun f => f.posted == some idx) = some f → f.waves = [u] → f.xfers = [] → f.queues = [] →
       f.entries = [] → f.save = false → lookup s.waves u = some w → (groupOf s w.group).frozen = false → w.status = .parked (.fault [(f.token, lanes, va)] [] va' kind) →
       (Completes (.faultResponse idx 0#32) s fun t => waveOf t u = w ∧ t.faults = s.faults) ∧
       (Completes (.faultResponse idx 1#32) s fun t => waveOf t u = { w with status := .ready, replay := true } ∧ ∀ g ∈ t.faults, g.token ≠ f.token) ∧
       (w.handler = false → w.sheaf = none → w.pending = [] → w.windows = [] → (ctxOf s w.ctag).tbase ≠ 0#64 → Completes (.faultResponse idx 2#32) s fun t =>
         (waveOf t u).pc = (ctxOf s w.ctag).tbase ∧ (waveOf t u).handler = true ∧ (waveOf t u).trap.tpc = w.pc ∧ (waveOf t u).trap.tcause = 521#64 ∧
           (waveOf t u).trap.tinfo = tinfoOf 7 (argAddr va.toNat))) ∧
     (∀ head : Word, (∀ f ∈ s.faults, f.posted ≠ none) →
       Completes (.faultQueueHeadUpdate head) s fun t => Written s t (ringBase s.bar.fqbase + 64) (bytesOf 4 head.toNat) ∧ t.faults = s.faults) ∧
     (∀ v : DWord, (∀ f ∈ s.faults, f.posted ≠ none) → exec (.fqcfgWrite v) s = .next { s with bar := { s.bar with fqcfg := v &&& 0x11F#64 } }) ∧
     (∀ (v : DWord) f, s.faults = [f] → f.posted = none → 0 < s.faultRoom → v.getLsbD 8 = true → 4 ≤ v.toNat % 32 → v.toNat % 32 ≤ 20 →
       let b := ringBase s.bar.fqbase
       (hostWord s b + 2 ^ 32 - hostWord s (b + 64)) % 2 ^ 32 < 2 ^ (v.toNat % 32) →
       Completes (.fqcfgWrite v) s fun t => t.faults = [{ f with posted := some (hostWord s b % 2 ^ (v.toNat % 32)) }] ∧
         hostWord t b = (hostWord s b + 1) % 2 ^ 32 ∧
         physBytes t (b + 128 + 32 * (hostWord s b % 2 ^ (v.toNat % 32))) 8 = bytesOf 8 f.va.toNat) ∧
     (∀ c u x k kid n op ty d cc id dst lane early rest, (coreOf s c).path = early ++ .atomic u k kid n op ty d cc id dst lane :: rest →
       (∀ e ∈ early, e.way ≠ wayOf k) → 0 < n → UnderKey s kid k n →
       lookup s.waves u = some x → atomicWaits (early ++ rest) id = false → Completes (.sliceAtomicPerform ⟨c, wayOf k⟩) s fun t =>
         let old := natOf (physBytes s k n)
         let r := atomOp op.toNat ty.toNat old d.toNat cc.toNat
         (r.2 = true → Written s t k (bytesOf n r.1)) ∧ (r.2 = false → SameMemory s t) ∧ (coreOf t c).path = early ++ rest ∧
         waveOf t u = { x.setAtomicDst dst n ty.toNat lane old with pending := x.pending.filter fun p => p.id != id }) ∧
     (s.decays < s.tsc.toNat / 64000 → exec .predictorDecay s =
       .next { s with decays := s.decays + 1, predictor := s.predictor.map fun e => (e.1, e.2.1 / 2, e.2.2) }) ∧
     (∀ (a : Nat) (data : List Byte), Memory.wf s.mem = true → risingFrom none s.l2 = true → Completes (.hostSnoop a data) s fun t =>
       Written s t (hostKey a) data ∧ Memory.wf t.mem = true ∧ lookup t.granted (hostKey a / 128) = none ∧ lookup t.remote (hostKey a / 128) = none) ∧
     (∀ (a : Nat) (data : List Byte), a + data.length ≤ 2 * 192 * 2 ^ 30 → isLost s 0 = false → isLost s 1 = false →
       (∀ i, i < data.length → UnderKey s (key0 s) (hdmKey (a + i)) 1) →
       let written := fun (t : State) => (∀ i, i < data.length → physByte t (hdmKey (a + i)) = data.getD i 0#8) ∧
         ∀ k, (∀ i, i < data.length → k ≠ hdmKey (a + i)) → physByte t k = physByte s k
       Completes (.hostMemAccess true a data.length data) s written ∧ Completes (.rdmaWrite a data) s written) ∧
     (∀ (a n : Nat) (data : List Byte), 0 < n → a / (192 * 2 ^ 30) = (a + n - 1) / (192 * 2 ^ 30) → a + n ≤ 2 * 192 * 2 ^ 30 →
       isLost s (a / (192 * 2 ^ 30)) = false → UnderKey s (key0 s) (hdmKey a) n →
       Completes (.hostMemAccess false a n data) s fun t => SameMemory s t ∧ t.packets = s.packets ++ [.hostData a (physBytes s (hdmKey a) n)]) ∧
     (∀ head : Word, Completes (.eventQueueHeadUpdate head) s fun t => Written s t (ringBase s.bar.eqbase + 64) (bytesOf 4 head.toNat) ∧ t.waves = s.waves) ∧
     ∀ e, eventDue s = some e → s.dropped = 0 → Completes .eventRecordWrite s fun t => t.events = s.events.erase e ∧
       let b := ringBase s.bar.eqbase
       ∃ m, Written s m (b + 128 + 32 * (hostWord s b % 2 ^ ringLog s.bar.eqcfg)) (eventBytes e) ∧ Written m t b (bytesOf 4 ((hostWord s b + 1) % 2 ^ 32)))

/-- Table 11.2, R121, R256: the integer atomics on their exact operands, and that a compare that fails writes nothing.

R121, R142: an atomic at a slice returns the bytes of memory there before it, and writes its result in the same step, or nothing when a compare
fails. -/
def Obligations.AtomicUnit : Prop :=
  (∀ (ty old d c : Nat), ty ∈ [0, 1, 6, 7] → old < 2 ^ typeBits ty → d < 2 ^ typeBits ty →
     atomOp 0 ty old d c = ((old + d) % 2 ^ typeBits ty, true) ∧
     atomOp 1 ty old d c = (if intVal ty d < intVal ty old then d else old, true) ∧
     atomOp 2 ty old d c = (if intVal ty old < intVal ty d then d else old, true) ∧
     atomOp 3 ty old d c = (old &&& d, true) ∧ atomOp 4 ty old d c = (old ||| d, true) ∧ atomOp 5 ty old d c = (old ^^^ d, true) ∧
     atomOp 6 ty old d c = (d, true) ∧ atomOp 7 ty old d c = (d, decide (old = c))) ∧
  (∀ (s : State) (src : Option Nat) (kid k n op ty d c : Nat), 0 < n → UnderKey s kid k n → s.snaps = [] →
     let r := atomicAt s src kid k n op ty d c
     let old := natOf (physBytes s k n)
     r.2 = old ∧ ((atomOp op ty old d c).2 = true → Written s r.1 k (bytesOf n (atomOp op ty old d c).1)) ∧
     ((atomOp op ty old d c).2 = false → SameMemory s r.1))

/-- R253: before a byte moves, a scalar load, store or atomic, SATOMF among them, that is not aligned to its size raises MISALIGN; the check comes before
translation.

R254, R255: a scalar load whose check passes on memory of this device ends at issue; its result, the bytes read extended as its width code says, is
outstanding for s[D], at once where they are all there and else until the pieces on their way have returned; and the core's misses are counted.

R254, R255: a scalar store whose check passes on memory of this device writes the low bytes of s[D] at its places, in order, and ends. -/
def Obligations.ScalarAccesses : Prop :=
  (∀ (nx : BitVec 2) (d a b : BitVec 6) (la : BitVec 4) (p : BitVec 3) (o ft : BitVec 3) (fo : BitVec 4) (s : State) (w : Wave), lookup s.waves s.cur = some w →
     let trap := fun (va : Nat) => (.next (takeTrap s s.cur ⟨11, 0, argAddr va, laneMask [0]⟩ true false) : Out)
     let ea := (w.sreg a.toNat + w.sreg b.toNat).toNat
     (ea % 8 ≠ 0 → exec (.sld nx d a b la) s = trap ea ∧ exec (.sst nx d a b la) s = trap ea) ∧
     ((w.sreg a.toNat).toNat % 8 ≠ 0 → exec (.satom nx d a p o) s = trap (w.sreg a.toNat).toNat) ∧
     ((w.sreg a.toNat).toNat % typeBytes (satomfType ft.toNat) ≠ 0 → exec (.satomf nx d a ft p fo) s = trap (w.sreg a.toNat).toNat) ∧
     ∀ (ws : BitVec 3) (i : BitVec 7),
       let n := 2 ^ (ws.toNat / 2)
       let va := (w.sreg a.toNat + i.signExtend 64 * BitVec.ofNat 64 n).toNat
       va % n ≠ 0 → exec (.sldi nx d a ws i) s = trap va ∧ exec (.ssti nx d a ws i) s = trap va) ∧
  (∀ (nx : BitVec 2) (d a b : BitVec 6) (la : BitVec 4) (ws : BitVec 3) (i : BitVec 7) (s : State) (w : Wave) (l : Placed),
     lookup s.waves s.cur = some w → OnDevice l →
     let r := issueLoads { s with uid := s.uid + 1 } (coreNo s w) s.cur s.uid true [] l
     let x := natOf (r.2.flatMap fun p => p.bytes.getD [])
     let back := r.2.all fun p => p.bytes.isSome
     let regs := if d = 0#6 then [] else [RegName.s d.toNat]
     let done := fun (la : BitVec 4) (form : LoadForm) (v : DWord) =>
       let w' := countMisses (waveOf r.1 s.cur) (r.2.filter fun p => p.bytes.isNone).length
       (.next (setWave r.1 s.cur (Wave.finish { w' with
         windows := if la = 0#4 then w'.windows else w'.windows ++ [⟨la.toNat, regs, w'.pc⟩]
         pending := w'.pending ++ [if back then ⟨s.uid, regs, [.s d.toNat v], true⟩ else ⟨s.uid, regs, [], false⟩]
         loads := if back then w'.loads else w'.loads ++ [⟨s.uid, form, r.2⟩] } nx)) : Out)
     let n := 2 ^ (ws.toNat / 2)
     (checkScalar s w 0 (w.sreg a.toNat + w.sreg b.toNat).toNat 8 = .ok l →
       exec (.sld nx d a b la) s = done la (.scalar d.toNat 8 false) (BitVec.ofNat 64 x)) ∧
     (checkScalar s w 0 (w.sreg a.toNat + i.signExtend 64 * BitVec.ofNat 64 n).toNat n = .ok l →
       exec (.sldi nx d a ws i) s = done 0#4 (.scalar d.toNat n (ws.toNat % 2 == 1))
         (if ws.toNat % 2 = 1 then BitVec.ofInt 64 (signedOf (8 * n) x) else BitVec.ofNat 64 (x % 2 ^ (8 * n))))) ∧
  (∀ (nx : BitVec 2) (d a b : BitVec 6) (la : BitVec 4) (ws : BitVec 3) (i : BitVec 7) (s : State) (w : Wave) (l : Placed),
     lookup s.waves s.cur = some w → OnDevice l →
     let done := fun (la : BitVec 4) (n : Nat) =>
       let t := l.foldl (fun t e => writeLane t (coreNo t w) s.cur e.2 (bytesOf n (w.sreg d.toNat).toNat)) s
       let w' := waveOf t s.cur
       let regs := if d = 0#6 then [] else [RegName.s d.toNat]
       (.next (setWave t s.cur (Wave.finish { w' with
         windows := if la = 0#4 then w'.windows else w'.windows ++ [⟨la.toNat, regs, w'.pc⟩] } nx)) : Out)
     let n := 2 ^ (ws.toNat / 2)
     (checkScalar s w 1 (w.sreg a.toNat + w.sreg b.toNat).toNat 8 = .ok l → exec (.sst nx d a b la) s = done la 8) ∧
     (checkScalar s w 1 (w.sreg a.toNat + i.signExtend 64 * BitVec.ofNat 64 n).toNat n = .ok l → exec (.ssti nx d a ws i) s = done 0#4 n))

/-- R256, R292, R121: a scalar atomic whose check passes on memory of this device is performed, or sent to its slice, as R121 places it; the old
value waits for s[D] in its scalar form.

R291: VATOM performs the atomics of its ACTIVE lanes in ascending order, each as R121 places it; while one is still on its way to a slice, an
outstanding result stands for v[D]. -/
def Obligations.CoreAtomics : Prop :=
  (∀ (nx : BitVec 2) (d a : BitVec 6) (p t : BitVec 3) (o : BitVec 3) (fo : BitVec 4) (s : State) (w : Wave) (acc : LaneAcc) (q : Place)
     (m : Nat) (ps : List (Place × Nat)) (rest : Placed),
     lookup s.waves s.cur = some w → OnDevice ((acc, (q, m) :: ps) :: rest) →
     let done := fun (ty op : Nat) =>
       let n := typeBytes ty
       let regs := if d = 0#6 then [] else [RegName.s d.toNat]
       let r := coreAtomic { s with uid := s.uid + 1 } (coreNo s w) q.kid q.key (leafSC q.leaf) p.toNat
         ⟨s.cur, s.uid, .s d.toNat, 0, n, op, ty, (w.sreg d.toNat).toNat % 2 ^ (8 * n), (w.sreg (d.toNat + 1)).toNat % 2 ^ (8 * n)⟩
       let w' := waveOf r.1 s.cur
       (.next (setWave r.1 s.cur (match r.2 with
         | some x => Wave.finish { w' with
             ctr := { w'.ctr with faratom := w'.ctr.faratom + (if leafSC q.leaf then 1#64 else 0#64) }
             pending := w'.pending ++ [⟨s.uid, regs, [.s d.toNat (scalarForm ty x)], true⟩] } nx
         | none => Wave.finish { w' with
             ctr := { w'.ctr with faratom := w'.ctr.faratom + 1#64 }
             pending := w'.pending ++ [⟨s.uid, regs, [], false⟩] } nx)) : Out)
     (checkScalar s w 3 (w.sreg a.toNat).toNat 8 = .ok ((acc, (q, m) :: ps) :: rest) → exec (.satom nx d a p o) s = done 6 o.toNat) ∧
     (let ty := satomfType t.toNat
      checkScalar s w 3 (w.sreg a.toNat).toNat (typeBytes ty) = .ok ((acc, (q, m) :: ps) :: rest) →
       exec (.satomf nx d a t p fo) s = done ty fo.toNat)) ∧
  (∀ (nx : BitVec 2) (d a : BitVec 6) (p k : BitVec 3) (o : BitVec 4) (s : State) (w : Wave) (l : Placed), lookup s.waves s.cur = some w →
     OnDevice l → checkVector s w (okAtomic o.toNat) 3 (fun i => (w.sreg a.toNat + (w.lane k.toNat i).signExtend 64).toNat) = .ok l →
     let t := l.foldl (fun t e =>
       match e.2 with
       | (q, _) :: _ => atomicLane t s.cur s.uid d.toNat w.ty o.toNat p.toNat e.1 q (w.elem w.ty d.toNat e.1.lane)
           (w.elem w.ty (d.toNat + (if w.ty = 6 ∨ w.ty = 7 then 2 else 1)) e.1.lane)
       | [] => t) { s with uid := s.uid + 1 }
     let w' := waveOf t s.cur
     let regs := if w.ty = 6 ∨ w.ty = 7 then [RegName.v d.toNat, .v (d.toNat + 1)] else [.v d.toNat]
     exec (.vatom nx d a p k o) s = .next (setWave t s.cur (Wave.finish
       (if atomicWaits (coreOf t (coreNo t w')).path s.uid then { w' with pending := w'.pending ++ [⟨s.uid, regs, [], false⟩] } else w') nx)))

/-- R288-R290: a vector load whose checks pass on memory of this device reads every ACTIVE lane's element, all as one outstanding result for v[D], ready
when every piece has returned; VLDB reads one element for all of them.

R288: a vector store whose checks pass on memory of this device writes every ACTIVE lane's element, in ascending lane order, and ends.

R253, R288, R289, R291: with an element type that the instruction accepts, a vector load, store or atomic of which some ACTIVE lane's address is not aligned to
the element raises MISALIGN for the lowest such lane, and nothing is accessed; VLDB does so for its one address. -/
def Obligations.VectorAccesses : Prop :=
  (∀ (nx : BitVec 2) (d a b : BitVec 6) (la : BitVec 4) (s : State) (w : Wave) (l : Placed), lookup s.waves s.cur = some w → OnDevice l →
     let done := fun (one : Bool) =>
       let r := issueLoads { s with uid := s.uid + 1 } (coreNo s w) s.cur s.uid one [] l
       let w' := countMisses (waveOf r.1 s.cur) (r.2.filter fun p => p.bytes.isNone).length
       let back := r.2.all fun p => p.bytes.isSome
       let regs := if w.ty = 6 ∨ w.ty = 7 then [RegName.v d.toNat, .v (d.toNat + 1)] else [.v d.toNat]
       let x := fun (k : Nat) => natOf ((r.2.filter fun p => one || p.lane == k).flatMap fun p => p.bytes.getD [])
       let form := if one then LoadForm.one w.ty d.toNat w.active else .lanes w.ty d.toNat w.active
       (.next (setWave r.1 s.cur (Wave.finish { w' with
         windows := if la = 0#4 then w'.windows else w'.windows ++ [⟨la.toNat, regs, w'.pc⟩]
         pending := w'.pending ++ [if back then ⟨s.uid, regs, elemWrites w.ty d.toNat w.active x, true⟩ else ⟨s.uid, regs, [], false⟩]
         loads := if back then w'.loads else w'.loads ++ [⟨s.uid, form, r.2⟩] } nx)) : Out)
     (checkVector s w okAny 0 (fun k => (w.sreg a.toNat + (w.lane b.toNat k).signExtend 64).toNat) = .ok l →
       exec (.vld nx d a b la) s = done false) ∧
     (checkVector s w okAny 0 (fun k => (w.sreg a.toNat + BitVec.ofNat 64 k * w.sreg b.toNat).toNat) = .ok l →
       exec (.vlds nx d a b la) s = done false) ∧
     (checkBroadcast s w a.toNat b.toNat = .ok l → exec (.vldb nx d a b la) s = done true)) ∧
  (∀ (nx : BitVec 2) (d a b : BitVec 6) (la : BitVec 4) (s : State) (w : Wave) (l : Placed), lookup s.waves s.cur = some w → OnDevice l →
     let t := l.foldl (fun t e => writeLane t (coreNo t w) s.cur e.2 (bytesOf e.1.n (w.elem w.ty d.toNat e.1.lane))) s
     let w' := waveOf t s.cur
     let regs := if w.ty = 6 ∨ w.ty = 7 then [RegName.v d.toNat, .v (d.toNat + 1)] else [.v d.toNat]
     let done := (.next (setWave t s.cur (Wave.finish { w' with
       windows := if la = 0#4 then w'.windows else w'.windows ++ [⟨la.toNat, regs, w'.pc⟩] } nx)) : Out)
     (checkVector s w okAny 1 (fun k => (w.sreg a.toNat + (w.lane b.toNat k).signExtend 64).toNat) = .ok l → exec (.vst nx d a b la) s = done) ∧
     (checkVector s w okAny 1 (fun k => (w.sreg a.toNat + BitVec.ofNat 64 k * w.sreg b.toNat).toNat) = .ok l → exec (.vsts nx d a b la) s = done)) ∧
  (∀ (nx : BitVec 2) (d a b : BitVec 6) (p k : BitVec 3) (o : BitVec 4) (la : BitVec 4) (l : Nat) (s : State) (w : Wave), lookup s.waves s.cur = some w →
     let n := typeBytes w.ty
     let bad := fun (ea : Nat → Nat) => (List.range 32).filter fun l => w.active.getLsbD l && decide (ea l % n ≠ 0)
     let trap := fun (ea : Nat → Nat) (l : Nat) =>
       (.next (takeTrap s s.cur ⟨11, 0, argAddr (ea l), maskOf fun i => (bad ea).contains i⟩ true true) : Out)
     let gather := fun (l : Nat) => (w.sreg a.toNat + (w.lane b.toNat l).signExtend 64).toNat
     let stride := fun (l : Nat) => (w.sreg a.toNat + BitVec.ofNat 64 l * w.sreg b.toNat).toNat
     let words := fun (l : Nat) => (w.sreg a.toNat + (w.lane k.toNat l).signExtend 64).toNat
     let one := (w.sreg a.toNat + w.sreg b.toNat).toNat
     (w.ty ≤ 10 → (bad gather).head? = some l → exec (.vld nx d a b la) s = trap gather l ∧ exec (.vst nx d a b la) s = trap gather l) ∧
     (w.ty ≤ 10 → (bad stride).head? = some l → exec (.vlds nx d a b la) s = trap stride l ∧ exec (.vsts nx d a b la) s = trap stride l) ∧
     (okAtomic o.toNat w.ty = true → (bad words).head? = some l → exec (.vatom nx d a p k o) s = trap words l) ∧
     (w.ty ≤ 10 → w.active ≠ 0#32 → one % n ≠ 0 →
       exec (.vldb nx d a b la) s = .next (takeTrap s s.cur ⟨11, 0, argAddr one, laneMask [0]⟩ true false)))

/-- R120, R48: an access that reaches a peer sends its requests, waits while one is unanswered, takes the fatal fault PEER_REFUSED for a refused one, and goes
on with the answers' bytes, all its accesses where they were when the requests left. That the wave stays at its PC until every answer has come, so that
successive accesses to peers are ordered, and that the trap is precise are the model's choices (logs 37 and 13). -/
def Obligations.PeerTransactions : Prop :=
  ∀ (s : State) (u : Nat) (w : Wave) (l : Placed) (asks : List PeerAsk) (lw : Bool) (k : State → List (List Byte) → State), asks ≠ [] →
    (w.peer = [] →
      let t := withPeers s u w l asks lw k
      t.packets.length = s.packets.length + asks.length ∧ (waveOf t u).peer.length = asks.length ∧ (waveOf t u).pc = w.pc ∧ (waveOf t u).placed = l ∧
      (∀ x ∈ (waveOf t u).peer, x.answer = none) ∧ SameMemory s t) ∧
    (w.peer ≠ [] → (∃ x ∈ w.peer, x.answer = none) → withPeers s u w l asks lw k = s) ∧
    (w.peer ≠ [] → (∀ x ∈ w.peer, ∃ b, x.answer = some (true, b)) →
      withPeers s u w l asks lw k = k (setWave s u { w with peer := [], placed := [] }) (w.peer.map fun x => ((x.answer.map (·.2)).getD []))) ∧
    (∀ x b, w.peer = [x] → asks.length = 1 → x.answer = some (false, b) → ∀ e, asks = [e] →
      withPeers s u w l asks lw k = takeTrap (setWave s u { w with peer := [], placed := [] }) u ⟨9, 10, argAddr e.va, 0#32 ||| e.lanes⟩ true lw)

/-- R294-R297, R111: FENCE writes every outstanding result, performs the core's path for a release and drops its SHARED lines for an acquire, at
cluster scope and beyond; PREFETCH never faults, and brings its line into the L2 of the core's die, as a read of the whole line does, or, both halves of it, into the core's L1; CFLUSH of nothing ends at once, and any other stalls its wave until CFLUSH_COMPLETE; LOCQ. -/
def Obligations.FencesAndHints : Prop :=
  ∀ (nx : BitVec 2) (d a b : BitVec 6) (p : BitVec 3) (k : BitVec 2) (m : BitVec 1) (s : State) (w : Wave), lookup s.waves s.cur = some w →
    let c := coreNo s w
    (let t0 := flushResults s s.cur
     let t1 := if k ≠ 0#2 ∧ 2 ≤ p.toNat then drainPath t0 c else t0
     let t2 := if k ≠ 1#2 ∧ 2 ≤ p.toNat then setCore t1 c { coreOf t1 c with l1 := [] } else t1
     exec (.fence nx p k) s = .next (setWave t2 s.cur ((waveOf t2 s.cur).finish nx))) ∧
    (let va := (w.sreg a.toNat + w.sreg b.toNat).toNat
     ((∃ e, translate s (.core c) w.ctag va 0 false = .error e) ∨
        (∃ q, translate s (.core c) w.ctag va 0 false = .ok q ∧ (q.loc = 2 ∨ (m = 1#1 ∧ leafSC q.leaf = true))) →
        exec (.prefetch nx a b m) s = .next (setWave s s.cur (w.finish nx))) ∧
     (∀ q, translate s (.core c) w.ctag va 0 false = .ok q → q.loc ≠ 2 → m = 0#1 →
       exec (.prefetch nx a b m) s = .next (setWave (sliceRead s (some c) q.kid (q.key / 128 * 128) 128).1 s.cur (w.finish nx))) ∧
     ∀ q, translate s (.core c) w.ctag va 0 false = .ok q → q.loc ≠ 2 → leafSC q.leaf = false → m = 1#1 →
       let line := q.key / 128 * 128
       let t := (coreRead (coreRead (settleLine s c (q.key / 128)) c q.kid line 1).1 c q.kid (line + 64) 1).1
       exec (.prefetch nx a b m) s = .next (setWave t s.cur ((waveOf t s.cur).finish nx))) ∧
    (let n := (w.sreg b.toNat).toNat % 2 ^ 32
     (n = 0 → exec (.cflush nx a b k) s = .next (setWave s s.cur (w.finish nx))) ∧
     (n ≠ 0 → exec (.cflush nx a b k) s =
       .next (setWave s s.cur { w with stall := some (.cflush nx (w.sreg a.toNat) n k.toNat) }))) ∧
    exec (.locq nx d a) s = .next (setWave s s.cur ((w.setS d.toNat (localityWord s w (w.sreg a.toNat).toNat)).finish nx))

/-- R298, R300-R304: barrier objects. BINIT writes the object whole (Table 11.3), or raises PROTECTION BUSY where a LIVE object is
waited on or bound; BARRIVE sends its count to the object's unit and s[D] waits for the
phase number; BWAIT ends at once on a phase that is complete, else it parks, with an entry of the barrier cache or, while the cache has no room, without one; BJOIN and BLEAVE count the wave in and out of EXPECT. These are stated where the barrier
unit of the object's die has nothing waiting and the core nothing on its way to the object. R132, R298: else BINIT comes after what the core has sent to the object
and after what waits at its unit. -/
def Obligations.Barriers : Prop :=
  ∀ (nx : BitVec 2) (d a b : BitVec 6) (sc : BitVec 3) (s : State) (w : Wave) (p : Place), lookup s.waves s.cur = some w →
    s.snaps = [] → UnderKey s p.kid p.key 64 →
    let va := (w.sreg a.toNat).toNat
    let n := (w.sreg b.toNat).toNat % 2 ^ 32
    let busy := barField s p.obj 13 1 = 1 ∧ (barWaiters s p.key = true ∨ 0 < barSlots s p.key)
    (checkBarrier s w va false = .ok p →
      let t := barOrder s (coreNo s w) p.key
      if initBusy t p.obj then exec (.binit nx a b sc) s = .next (takeTrap t s.cur ⟨10, 0x12, argAddr va, 0#32⟩ true false)
      else
        let o := sliceWrite t none p.kid p.key (zeroBytes 8 ++ bytesOf 4 n ++ bytesOf 1 sc.toNat ++ [1#8] ++ zeroBytes 50)
        exec (.binit nx a b sc) s = .next (setWave o s.cur ((waveOf o s.cur).finish nx))) ∧
    ((dieOf s (homeOf p.key)).barrierQ = [] → QuietAt s (coreNo s w) p.key →
    (checkBarrier s w va false = .ok p → ¬busy → Completes (.binit nx a b sc) s fun t =>
      Written s t p.key (zeroBytes 8 ++ bytesOf 4 n ++ bytesOf 1 sc.toNat ++ [1#8] ++ zeroBytes 50) ∧ waveOf t s.cur = w.finish nx) ∧
    (checkBarrier s w va false = .ok p → busy → exec (.binit nx a b sc) s = .next (takeTrap s s.cur ⟨10, 0x12, argAddr va, 0#32⟩ true false)) ∧
    (checkBarrier s w va true = .ok p →
      (Completes (.barrive nx d a b) s fun t =>
        (dieOf t (homeOf p.key)).barrierQ = [(p.obj, 0, n, some (s.cur, s.uid))] ∧ SameMemory s t ∧
        waveOf t s.cur = Wave.finish { w with
          pending := w.pending ++ [⟨s.uid, if d = 0#6 then [] else [.s d.toNat], [], false⟩] } nx) ∧
      (phaseDone s p.obj ((w.sreg b.toNat).setWidth 32) = true → exec (.bwait nx a b) s = .next (setWave s s.cur (w.finish nx))) ∧
      (phaseDone s p.obj ((w.sreg b.toNat).setWidth 32) = false → w.pending = [] → w.windows = [] →
        exec (.bwait nx a b) s =
          .next (setWave s s.cur { w with status := .parked (.bwait nx p.obj ((w.sreg b.toNat).setWidth 32) (cacheRoom s p.key)), pair := none })) ∧
      ((w.members.any (fun m => m.2 == p.key) = true ∨ 8 ≤ w.members.length) →
        exec (.bjoin nx d a) s = .next (setWave s s.cur ((w.setS d.toNat 0#64).finish nx))) ∧
      (w.members.any (fun m => m.2 == p.key) = false → w.members.length < 8 → Completes (.bjoin nx d a) s fun t =>
        t = setWave (barPut s p.obj 8 4 ((barField s p.obj 8 4 + 1) % 2 ^ 32)) s.cur
          (Wave.finish { w.setS d.toNat 1#64 with members := w.members ++ [(w.sreg a.toNat, p.key)] } nx)) ∧
      (w.members.any (fun m => m.2 == p.key) = false → exec (.bleave nx d a) s = .next (setWave s s.cur ((w.setS d.toNat 0#64).finish nx))) ∧
      (w.members.any (fun m => m.2 == p.key) = true → Completes (.bleave nx d a) s fun t =>
        t = barLeave (setWave s s.cur (Wave.finish { w.setS d.toNat 1#64 with members := w.members.filter fun m => m.2 != p.key } nx)) p.obj)))

/-- R301, R302: an arrival applied by the barrier unit adds its count to ARRIVED; when every expected and registered arrival has come the phase ends:
GEN grows by one, ARRIVED and PENDING return to zero. The object `o` stands under the key by which it is reached, no snapshot runs, and no wave
waits.

R302: BARRIER_UNIT_OPERATION applies the oldest operation that waits at a die's unit, and the waiting register of its wave gets the phase number
that was current. -/
def Obligations.BarrierUnit : Prop :=
  (∀ (s : State) (o : BarObj) (n : Nat), s.snaps = [] → s.waves = [] → UnderKey s o.kid o.key 64 → o.key % 64 = 0 →
     let t := barArrive s o n
     let arrived := (barField s o 4 4 + n) % 2 ^ 32
     (0 < arrived → barField s o 8 4 + barField s o 16 4 ≤ arrived →
       barField t o 0 4 = (barField s o 0 4 + 1) % 2 ^ 32 ∧ barField t o 4 4 = 0 ∧ barField t o 16 4 = 0 ∧ barField t o 8 4 = barField s o 8 4) ∧
     ((arrived = 0 ∨ arrived < barField s o 8 4 + barField s o 16 4) →
       barField t o 0 4 = barField s o 0 4 ∧ barField t o 4 4 = arrived ∧ barField t o 16 4 = barField s o 16 4 ∧
         barField t o 8 4 = barField s o 8 4)) ∧
  (∀ (s : State) (die n : Nat) (o : BarObj) (rest : List (BarObj × Nat × Nat × Option (Nat × Nat))),
     ((dieOf s die).barrierQ = (o, 0, n, none) :: rest →
       exec (.barrierUnitOperation die) s = .next (barArrive (setDie s die { dieOf s die with barrierQ := rest }) o n)) ∧
     ∀ (u id d : Nat) (w : Wave), (dieOf s die).barrierQ = (o, 0, n, some (u, id)) :: rest → s.waves = [(u, w)] → w.status = .ready →
       d ≠ 0 → d < 64 → w.pending = [⟨id, [.s d], [], false⟩] →
       Completes (.barrierUnitOperation die) s fun t =>
         (waveOf t u).sreg d = BitVec.ofNat 64 (barField s o 0 4) ∧ (waveOf t u).pending = [] ∧ (dieOf t die).barrierQ = rest)

/-- R309, R308 (EVUNB), Table 5.4: the instructions on PEV, EVM and unbinding; EVPEND that shows a future-ready posting acts as an acquire at system scope; a cleared mailbox slot posts again while the mailbox holds a message. Table 5.4 and R144
make the future-ready event an acquire and do not say when it acts: that it acts where EVPEND shows the posting is the model's choice (log 47).

R308, Table 11.7: EVBIND: the slot holds its kind and source, an older posting is gone, s[B] tells that it is bound, and a source that has
happened already posts at once: a FULL plot, a future that is no longer pending, a timer of zero, a throttle notice. A barrier slot records the
phase, and stays unbound, with s[B] zero, when the object or its die has no room; a future of another device of which nothing is known is asked for (R179). -/
def Obligations.EventSlots : Prop :=
  (∀ (nx : BitVec 2) (k : BitVec 3) (d a : BitVec 6),
     Becomes (.evunb nx k) nx (fun w => { w with
       slots := w.slots.setIfInBounds k.toNat { }, pev := w.pev &&& ~~~(1#8 <<< k.toNat) }) ∧
     Becomes (.evmask nx a 0#2) nx (fun w => { w with evm := (w.sreg a.toNat).setWidth 8 }) ∧
     Becomes (.evmask nx a 1#2) nx (fun w => { w with evm := w.evm ||| (w.sreg a.toNat).setWidth 8 }) ∧
     Becomes (.evmask nx a 2#2) nx (fun w => { w with evm := w.evm &&& ~~~((w.sreg a.toNat).setWidth 8) }) ∧
     (∀ s w, lookup s.waves s.cur = some w →
       let future := fun (i : Nat) => (w.slot i).bound = true ∧ (w.slot i).kind = 3#4 ∧ w.pev.getLsbD i = true
       ((∀ i, i < 8 → ¬future i) → exec (.evpend nx d) s = .next (setWave s s.cur ((w.setS d.toNat (w.pev.setWidth 64)).finish nx))) ∧
       ((∃ i, i < 8 ∧ future i) →
         let t := dropShared (flushResults s s.cur) (coreNo s w)
         exec (.evpend nx d) s = .next (setWave t s.cur (((waveOf t s.cur).setS d.toNat (w.pev.setWidth 64)).finish nx)))) ∧
     ∀ s w, lookup s.waves s.cur = some w → ∃ pev : BitVec 8,
       exec (.evclr nx a) s = .next (setWave s s.cur (Wave.finish { w with pev := pev } nx)) ∧
       ∀ i, i < 8 → pev.getLsbD i =
         if (w.sreg a.toNat).getLsbD i then (w.slot i).bound && (w.slot i).kind == 2#4 && !w.mailbox.isEmpty else w.pev.getLsbD i) ∧
  (∀ (nx : BitVec 2) (k : BitVec 3) (a b : BitVec 6) (s : State) (w : Wave), lookup s.waves s.cur = some w →
     let x := w.sreg a.toNat
     let bound := fun (kind : BitVec 4) (posted : Bool) (t : State) =>
       let w' := waveOf t s.cur
       (w'.slot k.toNat).bound = true ∧ (w'.slot k.toNat).kind = kind ∧ w'.pev.getLsbD k.toNat = posted ∧
       (b ≠ 0#6 → w'.sreg b.toNat = 1#64) ∧ SameMemory s t
     (x.toNat ≤ 63 → Completes (.evbind nx k a b 0#4) s
       (bound 0#4 (match findPlot s w.group x.toNat with | some (_, p) => p.state == 2#2 | none => false))) ∧
     Completes (.evbind nx k a b 2#4) s (bound 2#4 false) ∧
     (x.toNat < 2 ^ 45 → Completes (.evbind nx k a b 3#4) s fun t => bound 3#4 (futureState s w.ctag x != .pending) t ∧
       t.packets = s.packets ++ (if ownNode s (handleNode x) = false ∧ futureState s w.ctag x = .pending then [.query x] else [])) ∧
     (x.toNat < 2 ^ 55 → Completes (.evbind nx k a b 4#4) s fun t =>
       bound 4#4 (decide (x = 0#64)) t ∧ ((waveOf t s.cur).slot k.toNat).obj = s.tsc.toNat + x.toNat) ∧
     (Completes (.evbind nx k a b 5#4) s fun t => bound 5#4 (ctxOf s w.ctag).notice t ∧ (ctxOf t w.ctag).notice = false) ∧
     ∀ p, checkBarrier s w x.toNat true = .ok p → (dieOf s (homeOf p.key)).barrierQ = [] → QuietAt s (coreNo s w) p.key →
       let free := setWave s s.cur (w.bind k.toNat { })
       (slotRoom free p.key = true → Completes (.evbind nx k a b 1#4) s fun t => bound 1#4 false t ∧
         ((waveOf t s.cur).slot k.toNat).gen = BitVec.ofNat 32 (barField s p.obj 0 4)) ∧
       (slotRoom free p.key = false → exec (.evbind nx k a b 1#4) s =
         .next (setWave s s.cur (((w.bind k.toNat { }).setS b.toNat 0#64).finish nx))))

/-- R310: WAITANY: 8 when no slot is bound and unmasked; else the lowest posted slot, whose posting it takes, into the dispatch block of 16 bytes a
slot; else the wave parks. To take a future-ready posting, here or in SLEEP.ev, is an acquire at system scope: Table 5.4 and R144 make that event an
acquire and do not say when it acts; that it acts where the posting is taken is the model's choice (log 47).

R313, R305, R363: SLEEP of nothing ends at once and any other parks until its deadline; SLEEP.ev ends at once, with 1, when an event is posted;
GBAR of a group's last wave lets the group go on; YIELD holds its wave for at most 64 cycles, until the other ready waves of its core, but for those of frozen
groups, have issued.

R311, R312: MBRECV takes the oldest message, or 16 for none; MBSEND to no wave answers 2, to a full mailbox 1 under .try and MAILBOX_OVERFLOW
without it, and else 0, with the message last in the receiver's mailbox. -/
def Obligations.Waits : Prop :=
  (∀ (d a : BitVec 6) (s : State) (w : Wave), lookup s.waves s.cur = some w →
     let open_ := (List.range 8).filter fun i => (w.slot i).bound && !w.evm.getLsbD i
     (open_ = [] → Completes (.waitany d a) s fun t =>
       (d ≠ 0#6 → (waveOf t s.cur).sreg d.toNat = 8#64) ∧ (waveOf t s.cur).pc = w.pc + 4#64 ∧ SameMemory s t) ∧
     (∀ k, open_.find? (fun i => w.pev.getLsbD i) = some k → (w.slot k).kind ≠ 3#4 ∨ w.pending = [] → Completes (.waitany d a) s fun t =>
       let w' := waveOf t s.cur
       (d ≠ 0#6 → w'.sreg d.toNat = BitVec.ofNat 64 k) ∧ w'.pc = (w.sreg a.toNat &&& ~~~3#64) + BitVec.ofNat 64 (16 * k) ∧
       w'.pev = w.pev &&& ~~~(1#8 <<< k) ∧ SameMemory s t ∧ ((w.slot k).kind = 3#4 → (coreOf t (coreNo s w)).l1 = [])) ∧
     (open_ ≠ [] → (∀ i ∈ open_, w.pev.getLsbD i = false) → w.pending = [] → w.windows = [] →
       exec (.waitany d a) s = .next (setWave s s.cur { w with status := .parked (.waitany d a none), pair := none }))) ∧
  (∀ (nx : BitVec 2) (d a : BitVec 6) (s : State) (w : Wave), lookup s.waves s.cur = some w → w.pending = [] → w.windows = [] →
     let n := (w.sreg a.toNat).toNat % 2 ^ 32
     let park := fun (p : Park) => (.next (setWave s s.cur { w with status := .parked p, pair := none }) : Out)
     let done := fun (x : Wave) => (.next (setWave s s.cur (x.finish nx)) : Out)
     (n = 0 → exec (.sleep nx a) s = done w) ∧ (n ≠ 0 → exec (.sleep nx a) s = park (.sleep nx (s.tsc.toNat + n) none)) ∧
     (w.posted ≠ [] →
       let t := if w.posted.any (fun k => (w.slot k).kind == 3#4) then dropShared s (coreNo s w) else s
       exec (.sleepEv nx d a) s = .next (setWave t s.cur ((w.setS d.toNat 1#64).finish nx))) ∧
     (w.posted = [] → n = 0 → exec (.sleepEv nx d a) s = done (w.setS d.toNat 0#64)) ∧
     (w.posted = [] → n ≠ 0 → exec (.sleepEv nx d a) s = park (.sleep nx (s.tsc.toNat + n) (some d))) ∧
     ((∀ e ∈ s.waves, e.1 ≠ s.cur → e.2.group ≠ w.group) → (s.waves.map (·.1)).Nodup → w.waveId < 16 → w.status = .ready →
       Completes (.gbar nx) s fun t => waveOf t s.cur = w.finish nx ∧ SameMemory s t ∧ (groupOf t w.group).gbar = 0#16) ∧
     (let others := (s.waves.filter fun e => e.1 != s.cur && e.2.status == .ready && !(groupOf s e.2.group).frozen && coreNo s e.2 == coreNo s w).map (·.1)
      exec (.yield nx) s = .next (setWave s s.cur
       { w.finish nx with stall := if others = [] then none else some (.yield others 64) }))) ∧
  (∀ (nx : BitVec 2) (d a b : BitVec 6) (m : BitVec 1),
     BecomesIf (.mbrecv nx d a) nx (fun w => w.mailbox = []) (fun _ w => (w.setS d.toNat 0#64).setS a.toNat 16#64) ∧
     (∀ x f rest, BecomesIf (.mbrecv nx d a) nx (fun w => w.mailbox = (x, f) :: rest) (fun _ w =>
       { (w.setS d.toNat x).setS a.toNat (f.setWidth 64) with mailbox := rest })) ∧
     ∀ s w, lookup s.waves s.cur = some w →
       let n := (w.sreg a.toNat).toNat % 16
       (waveByWaveId s w.group n = none → exec (.mbsend nx d a b m) s = .next (setWave s s.cur ((w.setS b.toNat 2#64).finish nx))) ∧
       ∀ k r, waveByWaveId s w.group n = some (k, r) →
         (8 ≤ r.mailbox.length → exec (.mbsend nx d a b 1#1) s = .next (setWave s s.cur ((w.setS b.toNat 1#64).finish nx)) ∧
           exec (.mbsend nx d a b 0#1) s = .next (takeTrap s s.cur ⟨17, 0, n, 0#32⟩ true false)) ∧
         (r.mailbox.length < 8 → lookup s.waves k = some r → r.status = .ready → Completes (.mbsend nx d a b m) s fun t =>
           (waveOf t k).mailbox = r.mailbox ++ [(w.sreg d.toNat, BitVec.ofNat 4 w.waveId)] ∧ (b ≠ 0#6 → (waveOf t s.cur).sreg b.toNat = 0#64) ∧
           (waveOf t s.cur).pc = (w.finish nx).pc ∧ SameMemory s t))

/-- R366: taking a trap. With a handler at TBASE, outside a handler and outside a debug session, TRAP and BRK (R358) enter it as BREAKPOINT with
reason SERVICE or BRKPT and their code: TPC, TCAUSE, TINFO and TMASK are written, MODE, the flags, BT, LT and LC are copied aside, MODE becomes 0,
LIVE all ones, the wave is in handler mode and its PC is TBASE. Nothing else changes. That REPLAY is 0 in their TCAUSE is the model's choice (log 33).

R359, R366, R375: TRET outside a handler raises PROTECTION; in one it ends handler mode, LIVE loses the lanes that TMASK clears, MODE, the
flags, BT, LT and LC come back, and the wave goes on at TPC, or behind it with `.next`; the handler of a PREEMPT stops its wave, and STEP arms a
single step. -/
def Obligations.TrapEntryAndReturn : Prop :=
  (∀ (code : BitVec 16) (s : State) (w : Wave), lookup s.waves s.cur = some w → w.pending = [] → w.handler = false →
     (ctxOf s w.ctag).tbase ≠ 0#64 →
     let entered := fun (reason : Nat) => (.next (setWave s s.cur { w with
       trap := { tpc := w.pc, tcause := 14#64, tinfo := BitVec.ofNat 64 (reason + 256 * code.toNat), tmask := w.live.setWidth 64 }
       shadow := ⟨w.mode, w.c, w.z, w.vf, w.bt, w.lt, w.lc⟩
       mode := 0#12, live := 0xFFFFFFFF#32, handler := true, preemptEntry := false, pc := (ctxOf s w.ctag).tbase, status := .ready
       debugHold := false, windows := [], stepArmed := false, stepDone := none, replay := false, pair := none }) : Out)
     exec (.trap code) s = entered 2 ∧ ((ctxOf s w.ctag).debug = false → exec (.brk code) s = entered 1)) ∧
  (∀ (k : BitVec 1) (s : State) (w : Wave), lookup s.waves s.cur = some w →
     (w.handler = false → exec (.tret k) s = .next (takeTrap s s.cur ⟨10, 0x20, 0, 0#32⟩ true false)) ∧
     (w.handler = true → w.sheaf = none → yokeOf s w.group = none → w.live &&& w.trap.tmask.setWidth 32 ≠ 0#32 →
       Completes (.tret k) s fun t =>
         let w' := waveOf t s.cur
         w'.live = w.live &&& w.trap.tmask.setWidth 32 ∧ w'.handler = false ∧ w'.pc = (w.trap.tpc &&& ~~~3#64) + (if k = 1#1 then 4#64 else 0#64) ∧
         w'.mode = w.shadow.mode ∧ w'.c = w.shadow.c ∧ w'.z = w.shadow.z ∧ w'.vf = w.shadow.vf ∧ w'.bt = w.shadow.bt ∧ w'.lt = w.shadow.lt ∧
         w'.lc = w.shadow.lc ∧ w'.status = (if w.preemptEntry then .stopped else .ready) ∧
         w'.stepArmed = (w.trap.tcause.getLsbD 8 && w.preempt.isNone && !w.preemptEntry) ∧
         w'.s = w.s ∧ w'.v = w.v ∧ w'.p = w.p ∧ SameMemory s t))

/-- R163, R366: a fatal fault of a wave with a handler enters it with the cause, REPLAY and the failing PC, and is counted in its launch; one in a
handler, or in a context without a handler, kills the fault domain instead.

R174: a fatal fault of a sheaf wave enters no handler and kills nothing. PAGE_FAULT_FATAL and MISALIGN of one of the five instructions that access memory lane
by lane break the tasks of the failing lanes, which leave LIVE, and the rest replay; where no lane is left, and at every other fatal fault, which breaks the
task of every LIVE lane, the wave retires. That every other trap of a sheaf wave inside its handler does the same is the model's choice (log 35). -/
def Obligations.FatalFaults : Prop :=
  (∀ (s : State) (u : Nat) (w : Wave) (t : Trap) (sh : SheafInfo), lookup s.waves u = some w → w.pending = [] → w.windows = [] → w.sheaf = some sh →
     let ended := fun (s : State) (lanes : Word) =>
       (sh.tasks.filter fun e => lanes.getLsbD e.1).foldl (fun x e => sendEnd x w.ctag e.2.future true (brokenCause 1 t.cause)) s
     let left := fun (lanes : Word) => { w with sheaf := some { sh with tasks := sh.tasks.filter fun e => !lanes.getLsbD e.1 } }
     let gone := fun (s : State) => retireWave (setWave (ended s w.live) u (left w.live)) u (brokenCause 4 0)
     let logged := waveFault s u t.cause (tinfoOf t.reason t.arg)
     (isFatal t.cause = true → ¬(t.cause = 9 ∧ t.reason = 11) →
       (t.cause = 9 ∨ t.cause = 11 → t.lanes ≠ 0#32 →
         let rest := setWave (ended logged t.lanes) u { left t.lanes with live := w.live &&& ~~~t.lanes }
         (w.live &&& ~~~t.lanes ≠ 0#32 → takeTrap s u t true true = rest) ∧
         (w.live &&& ~~~t.lanes = 0#32 → takeTrap s u t true true = retireWave rest u (brokenCause 4 0))) ∧
       takeTrap s u t true false = gone logged) ∧
     (isFatal t.cause = false → w.handler = true → ∀ replay, takeTrap s u t replay false = gone s)) ∧
  ∀ (s : State) (u : Nat) (w : Wave) (t : Trap), lookup s.waves u = some w → w.pending = [] → w.windows = [] → w.sheaf = none →
    isFatal t.cause = true → ¬(t.cause = 9 ∧ t.reason = 11) →
    let logged := waveFault s u t.cause (tinfoOf t.reason t.arg)
    (w.handler = true → takeTrap s u t true false = killDomain logged w.ctag (domainOf logged w.ctag (groupOf logged w.group).region)) ∧
    (w.handler = false → (ctxOf s w.ctag).tbase = 0#64 →
      takeTrap s u t true false = killDomain logged w.ctag (domainOf logged w.ctag (groupOf logged w.group).region)) ∧
    (w.handler = false → (ctxOf s w.ctag).tbase ≠ 0#64 →
      let w' := waveOf (takeTrap s u t true false) u
      w'.trap = ⟨w.pc, BitVec.ofNat 64 (t.cause + 512), tinfoOf t.reason t.arg, w.live.setWidth 64⟩ ∧ w'.pc = (ctxOf s w.ctag).tbase ∧
      w'.mode = 0#12 ∧ w'.live = 0xFFFFFFFF#32 ∧ w'.handler = true ∧ w'.s = w.s ∧ w'.v = w.v ∧ w'.p = w.p)

/-- R360, Table 8.8: CTLR by index: the context's registers, the cores of a die, the logical core table, LIVE, the event slots and the trap
registers.

R360, R306: CTLW writes the trap registers but for their reserved bits, and the event slots. A slot word without BOUND, with a kind or a source that names
nothing, or with a barrier object that EVBIND would refuse, leaves it unbound with KIND and SRC as written (Table 11.6, R12); any other binds it to its kind and source,
for a plot the handle of SRC [13:8], and posts it at once when the source
has happened already: a FULL plot, a future that is no longer pending, a deadline that is past, a throttle notice. Every other register that CTLR reads is
read-only and raises PROTECTION.

R361, R46, R47: TLBINV needs 64 KiB alignment of its start and its length, MISALIGN otherwise, and a range within the translated half, BAD_RANGE otherwise; it
leaves no translation of its context that touches the range, nor with .all any at all; a length of zero invalidates nothing, wherever it starts; translations
of other contexts stay; and while an access of the context to a peer is unanswered, it waits. -/
def Obligations.ControlRegisters : Prop :=
  (∀ (nx : BitVec 2) (d : BitVec 6) (i : BitVec 16) (s : State) (w : Wave), lookup s.waves s.cur = some w → ctlIndex i.toNat = true →
     let c := ctxOf s w.ctag
     ∃ v : DWord, exec (.ctlr nx d i) s = .next (setWave s s.cur ((w.setS d.toNat v).finish nx)) ∧
       (i = 0#16 → v = c.tbase) ∧ (i = 1#16 → v = c.ptbase) ∧ (i = 2#16 → v = c.privbase) ∧ (i = 3#16 → v = c.privcfg) ∧
       (i = 0x10#16 → v = s.bar.hmap0.setWidth 64) ∧ (i = 0x11#16 → v = s.bar.hmap1.setWidth 64) ∧
       (∀ k j, k < 9 → j < 8 → i.toNat = 0x18 + k → v.extractLsb' (8 * j) 8 =
         match ((List.range 36).filter fun n => (if 8 * k + j < 36 then s.bar.hmap0 else s.bar.hmap1).getLsbD n)[(8 * k + j) % 36]? with
         | some n => BitVec.ofNat 8 (0x80 + n)
         | none => 0#8) ∧
       (i = 0x28#16 → v = w.live.setWidth 64) ∧
       (∀ n, n < 8 → i.toNat = 0x40 + n →
         v = BitVec.ofNat 64 ((w.slot n).kind.toNat + (if (w.slot n).bound then 16 else 0) + 256 * (w.slot n).src.toNat)) ∧
       (i = 0x50#16 → v = w.trap.tpc) ∧ (i = 0x51#16 → v = w.trap.tcause) ∧ (i = 0x52#16 → v = w.trap.tinfo) ∧ (i = 0x53#16 → v = w.trap.tmask)) ∧
  (∀ (nx : BitVec 2) (d : BitVec 6) (s : State) (w : Wave), lookup s.waves s.cur = some w →
     let x := w.sreg d.toNat
     let done := fun (t : TrapRegs) => (.next (setWave s s.cur (Wave.finish { w with trap := t } nx)) : Out)
     exec (.ctlw nx d 0x50#16) s = done { w.trap with tpc := x } ∧
     exec (.ctlw nx d 0x51#16) s = done { w.trap with tcause := x &&& 0x3FF#64 } ∧
     exec (.ctlw nx d 0x52#16) s = done { w.trap with tinfo := x } ∧
     exec (.ctlw nx d 0x53#16) s = done { w.trap with tmask := x &&& 0xFFFFFFFF#64 } ∧
     (∀ i : BitVec 16, i.toNat < 0x40 → exec (.ctlw nx d i) s = .next (takeTrap s s.cur ⟨10, 0x21, 0, 0#32⟩ true false)) ∧
     ∀ i : BitVec 16, 0x40 ≤ i.toNat → i.toNat < 0x48 →
       let k := i.toNat - 0x40
       let kind := x.toNat % 16
       let src := x.toNat / 256
       let unbound := (.next (setWave s s.cur ((w.bind k { kind := BitVec.ofNat 4 kind, src := BitVec.ofNat 56 src }).finish nx)) : Out)
       let bound := fun (posted : Bool) (t : State) =>
         let w' := waveOf t s.cur
         (w'.slot k).bound = true ∧ (w'.slot k).kind.toNat = kind ∧ (w'.slot k).src.toNat = src ∧ w'.pev.getLsbD k = posted ∧
           w'.pc = (w.finish nx).pc ∧ SameMemory s t
       (x.getLsbD 4 = false → exec (.ctlw nx d i) s = unbound) ∧
       (5 < kind ∨ ((kind = 2 ∨ kind = 5) ∧ src ≠ 0) → exec (.ctlw nx d i) s = unbound) ∧
       (x.getLsbD 4 = true →
         (kind = 0 → Completes (.ctlw nx d i) s
           (bound (match findPlot s w.group (src % 64) with | some (_, p) => p.state == 2#2 | none => false))) ∧
         (kind = 2 → src = 0 → Completes (.ctlw nx d i) s (bound false)) ∧
         (kind = 3 → Completes (.ctlw nx d i) s (bound (futureState s w.ctag (BitVec.ofNat 64 (src % 2 ^ 45)) != .pending))) ∧
         (kind = 4 → let deadline := s.tsc.toNat / 2 ^ 56 * 2 ^ 56 + src
           Completes (.ctlw nx d i) s fun t => bound (decide (deadline ≤ s.tsc.toNat)) t ∧ ((waveOf t s.cur).slot k).obj = deadline) ∧
         (kind = 5 → src = 0 → Completes (.ctlw nx d i) s fun t => bound (ctxOf s w.ctag).notice t ∧ (ctxOf t w.ctag).notice = false) ∧
         (kind = 1 → (∀ tr, checkBarrier s w (slotObject x) true = .error (.trap tr) → exec (.ctlw nx d i) s = unbound) ∧
           ∀ p, checkBarrier s w (slotObject x) true = .ok p → (dieOf s (homeOf p.key)).barrierQ = [] → QuietAt s (coreNo s w) p.key →
             let free := setWave s s.cur (w.bind k { })
             (slotRoom free p.key = true → Completes (.ctlw nx d i) s fun t => bound false t ∧
               ((waveOf t s.cur).slot k).gen = BitVec.ofNat 32 (barField s p.obj 0 4)) ∧
             (slotRoom free p.key = false → exec (.ctlw nx d i) s = unbound)))) ∧
  (∀ (nx : BitVec 2) (a b : BitVec 6) (s : State) (w : Wave), lookup s.waves s.cur = some w →
     let base := (w.sreg a.toNat).toNat
     let n := (w.sreg b.toNat).toNat
     (base % 65536 ≠ 0 → exec (.tlbinv nx a b) s = .next (takeTrap s s.cur ⟨11, 0, argAddr base, 0#32⟩ true false)) ∧
     (base % 65536 = 0 → n % 65536 ≠ 0 → exec (.tlbinv nx a b) s = .next (takeTrap s s.cur ⟨11, 0, argAddr n, 0#32⟩ true false)) ∧
     (base % 65536 = 0 → n % 65536 = 0 → n ≠ 0 → 2 ^ 55 < base + n →
       exec (.tlbinv nx a b) s = .next (takeTrap s s.cur ⟨10, 0x23, argAddr base, 0#32⟩ true false)) ∧
     (base % 65536 = 0 → n = 0 → Completes (.tlbinv nx a b) s fun t => t.tlb = s.tlb) ∧
     (base % 65536 = 0 → n % 65536 = 0 → n ≠ 0 → base + n ≤ 2 ^ 55 →
       (peersOut s w.ctag = false → Completes (.tlbinv nx a b) s fun t =>
         t.tlb = s.tlb.filter fun e => decide (e.ctag ≠ w.ctag ∨ base + n ≤ e.base ∨ e.base + e.size ≤ base)) ∧
       (peersOut s w.ctag = true → exec (.tlbinv nx a b) s = .next s)) ∧
     (peersOut s w.ctag = false → Completes (.tlbinvAll nx) s fun t => t.tlb = s.tlb.filter fun e => e.ctag != w.ctag) ∧
     (peersOut s w.ctag = true → exec (.tlbinvAll nx) s = .next s))

/-- R237, R221: HALT writes the outstanding results and retires its wave; with other waves of its group still running, and no barrier joined, the wave
keeps its registers, loses its event bindings and postings, and the group goes on. That its mailbox is emptied, and that the record of the retired wave stays, are
the model's choices (log 58). -/
def Obligations.Halt : Prop :=
  ∀ (s : State) (w : Wave), lookup s.waves s.cur = some w → w.pending = [] → w.members = [] → w.sheaf = none →
    (∃ e ∈ s.waves, e.1 ≠ s.cur ∧ e.2.group = w.group ∧ e.2.status = .ready ∧ (groupOf s w.group).gbar.getLsbD e.2.waveId = false) →
    (s.waves.map (·.1)).Nodup →
    Completes .halt s fun t =>
      let w' := waveOf t s.cur
      w'.status = .retired ∧ w'.s = w.s ∧ w'.v = w.v ∧ w'.p = w.p ∧ w'.pev = 0#8 ∧ w'.mailbox = [] ∧ (∀ i, i < 8 → (w'.slot i).bound = false) ∧
      w'.ctr.instr = w.ctr.instr + 1#64 ∧ SameMemory s t ∧ groupOf t w.group = groupOf s w.group

/-- R349, R350, R176: INVOKE and INVOKEF. With no lane ACTIVE they only end. When each home's pool holds enough slots they release as FENCE at
system scope does, take a slot and send a message for each lane in ascending order, and leave the handles in v[D]; when a pool is short, the home
is asked for a grant and the wave parks. -/
def Obligations.TaskCreation : Prop :=
  ∀ (nx : BitVec 2) (d a b : BitVec 6) (s : State) (w : Wave), lookup s.waves s.cur = some w →
    let die := dieNo (coreNo s w)
    let done := fun (l : List TaskAsk) (fixed : List (Nat × DWord)) =>
      let r := sendAllAsks (releaseAt s s.cur w 4) s.cur w die (w.sreg a.toNat) l
      (.next (setWave r.1 s.cur ((((waveOf r.1 s.cur).setPairs d.toNat (r.2 ++ fixed)).next nx).complete 2#8 d.toNat)) : Out)
    let wait := fun (short : List (Nat × Nat)) =>
      (.next (parkWave (short.foldl (fun s k => askGrant s die w.ctag k.1) s) s.cur (.grant short [])) : Out)
    (w.active = 0#32 → exec (.invoke nx d a b) s = .next (setWave s s.cur ((w.next nx).complete 2#8 d.toNat)) ∧
      exec (.invokef nx d a b) s = .next (setWave s s.cur ((w.next nx).complete 2#8 d.toNat))) ∧
    (∀ l, l ≠ [] → checkInvoke s w d.toNat a.toNat b.toNat = .ok l →
      (shortHomes s die l = [] → exec (.invoke nx d a b) s = done l []) ∧
      (shortHomes s die l ≠ [] → exec (.invoke nx d a b) s = wait (shortHomes s die l))) ∧
    (∀ l stale, l ≠ [] ∨ stale ≠ [] → checkInvokef s w d.toNat a.toNat b.toNat = .ok (l, stale) →
      (shortHomes s die l = [] → exec (.invokef nx d a b) s = done l (stale.map fun i => (i, 0#64))) ∧
      (shortHomes s die l ≠ [] → exec (.invokef nx d a b) s = wait (shortHomes s die l)))

/-- R349, R350, Table 6.7: what one lane of INVOKE or INVOKEF sends to a home on this device: the next slot of the pool becomes PENDING with the
task's fields under its TAG, its handle is the answer, its line in HBM holds them (R181) and no other byte of memory changes, and the task goes to the home's
sheaf former, the forward to its target. A home that is lost
gives the handle of an absent slot, and one on another device a packet, whose future is unknown from then on. -/
def Obligations.TaskSlots : Prop :=
  ∀ (s : State) (u die : Nat) (w : Wave) (entry : DWord) (a : TaskAsk),
    (homeLost s a.home = true → sendAsk s u w die entry a = (s, homeBits a.home ||| 1#64)) ∧
    ∀ low rest, homeLost s a.home = false → lookup (dieOf s die).pools (homeKey s a.home) = some (low :: rest) →
      let key := homeKey s a.home
      let h := homeBits a.home ||| BitVec.ofNat 64 low
      let r := sendAsk s u w die entry a
      r.2 = h ∧ lookup (dieOf r.1 die).pools key = some rest ∧
      (key < 2 → s.snaps = [] →
        (∀ p kid, frtPlace s key (handleSlot h) = some p → keyId s (ctxOf s w.ctag).savekey.toNat = some kid →
          physBytes r.1 p 128 = frtLine r.1 key (handleSlot h)) ∧
        ∀ k, (∀ p, frtPlace s key (handleSlot h) = some p → k < p ∨ p + 128 ≤ k) → physByte r.1 k = physByte s k) ∧
      (key < 2 →
        let f := frtOf r.1 key (handleSlot h)
        f.state = 1#2 ∧ f.tag = (frtOf s key (handleSlot h)).tag ∧ f.ctag = w.ctag ∧ f.entry = entry ∧ f.argp = a.argp ∧ f.dropped = false ∧
        f.fwd = a.target.isSome ∧ f.target = a.target.map handleSlot ∧ f.waits = false ∧
        (a.target = none → (dieOf r.1 key).tasks = (dieOf s key).tasks ++ [.task (handleSlot h)]) ∧
        (∀ t, a.target = some t → (dieOf r.1 key).forwards = (dieOf s key).forwards ++ [.forward t (handleSlot h)])) ∧
      (2 ≤ key → r.1.packets.length = s.packets.length + 1 ∧ SameMemory s r.1 ∧ ∀ x ∈ r.1.remotes, x.handle ≠ h)

/-- R351, R352, Table 13.2: FPOLL reports every ACTIVE lane's future at once, FGET once none is pending, and parks before that; a reported future
that is complete or was broken by TASKBRK makes it an acquire, as FENCE acq at system scope: what the wave has outstanding is written, and its core's SHARED
lines go. FDROP sends a drop to each future's home.

R351: the report itself, lane by lane, in registers that do not overlap: the value in the pair, the status of Table 13.2 in v[B], and lanes that are
not ACTIVE unchanged. -/
def Obligations.Futures : Prop :=
  (∀ (nx : BitVec 2) (d a b : BitVec 6) (s : State) (w : Wave), lookup s.waves s.cur = some w →
     let hs := ((List.range 32).filter fun l => w.active.getLsbD l).map fun l => w.pair64 a.toNat l
     let acquire := fun (t : State) =>
       if hs.any (fun h => futureAcquires (futureState t w.ctag h)) then dropShared (flushResults t s.cur) (coreNo t w) else t
     let report := fun (t : State) =>
       (.next (setWave (acquire t) s.cur ((reportFutures (acquire t) (waveOf (acquire t) s.cur) d.toNat a.toNat b.toNat).finish nx)) : Out)
     let asked := { s with packets := s.packets ++
       (hs.filter fun h => !ownNode s (handleNode h) && futureState s w.ctag h == .pending).dedup.map Packet.query }
     exec (.fpoll nx d a b) s = report asked ∧
     ((∀ h ∈ hs, futureState s w.ctag h ≠ .pending) → exec (.fget nx d a b) s = report s) ∧
     ((∃ h ∈ hs, futureState s w.ctag h = .pending) → exec (.fget nx d a b) s = .next (parkWave asked s.cur (.fget nx d a b))) ∧
     exec (.fdrop nx a) s = .next (setWave (hs.foldl (fun t h => sendDrop t w h) s) s.cur (w.finish nx))) ∧
  (∀ (s : State) (w : Wave) (d a b l : Nat), d + 1 < 64 → b < 64 → b ≠ d → b ≠ d + 1 → l < 32 →
     let t := reportFutures s w d a b
     let ans := futureState s w.ctag (w.pair64 a l)
     (w.active.getLsbD l = true →
       (ans = .pending → (t.lane b l).toNat = 0) ∧ (∀ v, ans = .complete v → t.lane b l = 1#32 ∧ t.pair64 d l = v) ∧
       (∀ v, ans = .broken v → t.lane b l = 2#32 ∧ t.pair64 d l = v) ∧ (ans = .stale → t.lane b l = 3#32)) ∧
     (w.active.getLsbD l = false → t.lane b l = w.lane b l ∧ t.pair64 d l = w.pair64 d l))

/-- R353, R354, R173: TASKARG gives each ACTIVE lane its task's argument; TASKRET and TASKBRK, outside a sheaf wave, raise PROTECTION; in one they
release, send each ACTIVE lane's result, or its break with kind TASKBRK, to the future's home, and take those lanes out of LIVE. -/
def Obligations.LaneTasks : Prop :=
  ∀ (nx : BitVec 2) (d a : BitVec 6) (k : BitVec 1) (s : State) (w : Wave), lookup s.waves s.cur = some w →
    let lanes := (List.range 32).filter fun l => w.active.getLsbD l
    exec (.taskarg nx d k) s = .next (setWave s s.cur ((w.setPairs d.toNat (lanes.map fun l =>
      (l, match w.sheaf.bind fun sh => lookup sh.tasks l with
        | some t => if k = 0#1 then t.argp else t.val
        | none => 0#64))).finish nx)) ∧
    (w.sheaf = none → exec (.taskret nx a) s = .next (takeTrap s s.cur ⟨10, 0x22, 0, 0#32⟩ true false) ∧
      exec (.taskbrk nx a) s = .next (takeTrap s s.cur ⟨10, 0x22, 0, 0#32⟩ true false)) ∧
    ∀ sh, w.sheaf = some sh → w.live &&& ~~~w.active ≠ 0#32 → w.pending = [] → CoreQuiet s (coreNo s w) →
      let done := fun (broken : Bool) (v : Nat → DWord) =>
        let t := lanes.foldl (fun t l => match lookup sh.tasks l with
          | some x => sendEnd t w.ctag x.future broken (v l)
          | none => t) s
        (.next (setWave t s.cur (Wave.finish { w with
          live := w.live &&& ~~~w.active
          sheaf := some { sh with tasks := sh.tasks.filter fun e => !w.active.getLsbD e.1 } } nx)) : Out)
      exec (.taskret nx a) s = done false (fun l => w.pair64 a.toNat l) ∧
      exec (.taskbrk nx a) s = done true (fun _ => brokenCause 2 (w.sreg a.toNat).toNat)

/-- R355, R210: LAUNCH on the context's dependence table: beyond NDEP it answers 2 and on an entry that is not FREE 1, and writes nothing; a FREE
entry gets the record, PRED and ESTATE in one step, answers 0, and fires at once when PRED is zero; LAUNCH and DEPSIG leave their core no copy of an entry that they have read (R132).
The core holds no copy of the record's lines.

R356, R210: DEPSIG: beyond NDEP, or on an entry that does not wait, the signal is lost and the answer all ones; on a waiting entry it takes one
from PRED, answers the value before, and the signal that reaches zero fires the launch. -/
def Obligations.DependenceTable : Prop :=
  (∀ (nx : BitVec 2) (d a b : BitVec 6) (s : State) (w : Wave) (l : Placed),
     lookup s.waves s.cur = some w → w.pending = [] → CoreQuiet s (coreNo s w) → s.snaps = [] → OnDevice l →
     (∀ e ∈ l, ∀ p ∈ e.2, 0 < p.2 ∧ p.1.key % 64 + p.2 ≤ 64 ∧ UnderKey s p.1.kid p.1.key p.2 ∧
       lookup (coreOf s (coreNo s w)).l1 (p.1.key / 128) = none) →
     let record := (l.flatMap (·.2)).flatMap fun p => physBytes s p.1.key p.2
     let idx := (w.sreg b.toNat).toNat % 65536
     let pred := (w.sreg b.toNat).toNat / 2 ^ 32
     let check := checkLaunchOp s w (w.sreg a.toNat).toNat idx
     let answers := fun (x : DWord) (t : State) =>
       ∃ i, (waveOf t s.cur).pending = [⟨i, if d = 0#6 then [] else [.s d.toNat], [.s d.toNat x], true⟩]
     (check = .ok (l, none) → Completes (.launch nx d a b) s fun t => answers 2#64 t ∧ SameMemory s t) ∧
     ∀ p, check = .ok (l, some p) → p.key % 128 = 0 → UnderKey s p.kid p.key 128 →
       (physByte s (p.key + 68) ≠ 0#8 → Completes (.launch nx d a b) s fun t => answers 1#64 t ∧ SameMemory s t ∧
         lookup (coreOf t (coreNo s w)).l1 (p.key / 128) = none) ∧
       (physByte s (p.key + 68) = 0#8 → Completes (.launch nx d a b) s fun t => answers 0#64 t ∧
         Written s t p.key (sliceBytes record 0 64 ++ bytesOf 4 pred ++ [if pred = 0 then 2#8 else 1#8] ++ zeroBytes 59) ∧
         lookup (coreOf t (coreNo s w)).l1 (p.key / 128) = none ∧
         ∃ n, (ctxOf t w.ctag).fired = (ctxOf s w.ctag).fired ++ (if pred = 0 then [(n, dieNo (coreNo s w), idx)] else []))) ∧
  (∀ (nx : BitVec 2) (d a : BitVec 6) (s : State) (w : Wave), lookup s.waves s.cur = some w → w.pending = [] →
     CoreQuiet s (coreNo s w) →
     (checkDepsig s w ((w.sreg a.toNat).toNat % 65536) = .ok none →
       exec (.depsig nx d a) s = .next (setWave s s.cur ((w.setS d.toNat (BitVec.allOnes 64)).finish nx))) ∧
     ∀ p, checkDepsig s w ((w.sreg a.toNat).toNat % 65536) = .ok (some p) → p.key % 128 = 0 → UnderKey s p.kid p.key 128 → s.snaps = [] →
       let pred := natOf (physBytes s (p.key + 64) 4)
       let waiting := physByte s (p.key + 68) = 1#8 ∧ 0 < pred
       (¬waiting → Completes (.depsig nx d a) s fun t => (d ≠ 0#6 → (waveOf t s.cur).sreg d.toNat = BitVec.allOnes 64) ∧ SameMemory s t ∧
         lookup (coreOf t (coreNo s w)).l1 (p.key / 128) = none) ∧
       (waiting → Completes (.depsig nx d a) s fun t => (d ≠ 0#6 → (waveOf t s.cur).sreg d.toNat = BitVec.ofNat 64 pred) ∧
         Written s t (p.key + 64) (bytesOf 4 (pred - 1) ++ [if pred = 1 then 2#8 else 1#8]) ∧
         lookup (coreOf t (coreNo s w)).l1 (p.key / 128) = none ∧
         ∃ n, (ctxOf t w.ctag).fired = (ctxOf s w.ctag).fired ++
           (if pred = 1 then [(n, dieNo (coreNo s w), (w.sreg a.toNat).toNat % 65536)] else [])))

/-- R182, R183: REGROUP. A wave whose partner cannot come goes on at once with C cleared; one whose partner has not come parks, but where another wave has parked
to wait for it, and it names a third, the two do not name each other, and both go on with C cleared; partners that do not
match go on with C cleared; partners that match fuse: the one of the lower WAVEID receives, with C set and its LIVE lanes packed from lane 0, and
the other retires.

R183: the fused receiver's lanes: the registers that the mask selects, and p1 to p7, hold the receiver's ACTIVE lanes and then the donor's, in order; all other
lanes and registers are zero; each of its eight counters is the sum. -/
def Obligations.Regroup : Prop :=
  (∀ (nx : BitVec 2) (a b : BitVec 6) (s : State) (w : Wave), lookup s.waves s.cur = some w →
     let p := (w.sreg a.toNat).toNat % 16
     let mask := w.sreg b.toNat
     let waiting := (s.waves.filter fun e => e.1 != s.cur && e.2.group == w.group && (match e.2.status with
       | .parked (.regroup _ q _) => q == w.waveId
       | _ => false)).map (·.1)
     let alone := setWave (waiting.foldl endRegroup s) s.cur (Wave.finish { w with c := false } nx)
     ((w.sheaf.isSome ∨ p = w.waveId ∨ (groupOf s w.group).nwave ≤ p ∨ waveByWaveId s w.group p = none) → exec (.regroup nx a b) s = .next alone) ∧
     ∀ k x, w.sheaf = none → p ≠ w.waveId → p < (groupOf s w.group).nwave → waveByWaveId s w.group p = some (k, x) →
       ((∀ xnx q m, x.status ≠ .parked (.regroup xnx q m)) →
         (waiting = [] → exec (.regroup nx a b) s = .next (parkWave s s.cur (.regroup nx p mask))) ∧
         (waiting ≠ [] → exec (.regroup nx a b) s = .next alone)) ∧
       ∀ xnx q xmask, x.status = .parked (.regroup xnx q xmask) →
         let fits := x.pc = w.pc ∧ q = w.waveId ∧ xmask = mask ∧ x.mode.setWidth 3 = w.mode.setWidth 3 ∧
           popCount w.active + popCount x.active ≤ 32
         (¬fits → w.pending = [] → exec (.regroup nx a b) s = .next (endRegroup alone k)) ∧
         (fits → w.status = .ready → lookup s.waves k = some x → k ≠ s.cur → w.waveId ≠ x.waveId → x.group = w.group → x.sheaf = none →
           w.pending = [] → x.pending = [] → w.windows = [] → x.windows = [] → w.members = [] → x.members = [] →
           Completes (.regroup nx a b) s fun t =>
             let r := if w.waveId < x.waveId then s.cur else k
             let d := if w.waveId < x.waveId then k else s.cur
             (waveOf t r).c = true ∧ (waveOf t r).status = .ready ∧ (waveOf t d).status = .retired ∧
             ∀ j, j < 32 → (waveOf t r).live.getLsbD j = decide (j < popCount w.active + popCount x.active))) ∧
  (∀ (s : State) (k q : Nat) (x : Wave) (nx : BitVec 2) (m : DWord), lookup s.waves k = some x → x.status = .parked (.regroup nx q m) →
     endRegroup s k = setWave s k (Wave.finish { x with status := .ready, c := false } nx)) ∧
  (∀ (r d : Wave) (mask : DWord) (x j : Nat), x < 64 → j < 32 →
     let t := fuseWaves r d mask
     let la := (List.range 32).filter fun l => r.active.getLsbD l
     let lb := (List.range 32).filter fun l => d.active.getLsbD l
     (mask.getLsbD x = true → ∀ i, la[j]? = some i → t.lane x j = r.lane x i) ∧
     (mask.getLsbD x = true → ∀ i, la.length ≤ j → lb[j - la.length]? = some i → t.lane x j = d.lane x i) ∧
     ((mask.getLsbD x = false ∨ la.length + lb.length ≤ j) → t.lane x j = 0#32) ∧
     (∀ k, 1 ≤ k → k < 8 →
       (∀ i, la[j]? = some i → (t.preg k).getLsbD j = (r.preg k).getLsbD i) ∧
       (∀ i, la.length ≤ j → lb[j - la.length]? = some i → (t.preg k).getLsbD j = (d.preg k).getLsbD i) ∧
       (la.length + lb.length ≤ j → (t.preg k).getLsbD j = false)) ∧
     t.s = r.s ∧ t.c = true ∧
     t.ctr = ⟨r.ctr.instr + d.ctr.instr, r.ctr.parkcyc + d.ctr.parkcyc, r.ctr.l1miss + d.ctr.l1miss, r.ctr.faratom + d.ctr.faratom,
       r.ctr.sbwait + d.ctr.sbwait, r.ctr.copyb + d.ctr.copyb, r.ctr.mrows + d.ctr.mrows, r.ctr.droops + d.ctr.droops⟩)

/-- R172, R177-R179: messages about tasks reach their homes. TASK_ARRIVAL opens a sheaf, or takes the next lane of the open one of the same context,
region and entry, which is released when all 32 are taken, and lets go of a task that cannot run now; SHEAF_TIMEOUT releases a sheaf that has waited 2 µs if
its context is resident; FRT_TASK_END ends a future of the task's own incarnation and context, and no other; DROP_ARRIVAL frees an ended one under its next TAG;
FORWARD_ARRIVAL starts a forward whose target is complete and queues one whose target is pending; and FUTURE_ANSWER_ARRIVAL records what another device's home
says.

R176, R349, R422: POOL_GRANT of a home on this device gives the die that asked first slots that are FREE and in no pool, at most 64 with those that its pool
holds, and at least one while there is one and room; of another device's home, what it sent. A peer's task or forward for a binding that stands takes its
granted slot and goes to the former or to its target; without a binding it is answered as broken with kind LOST; a peer's drop joins the drops if the bound
context holds the future; and a peer that asks gets slots by the same rule. -/
def Obligations.TaskMessages : Prop :=
  (∀ (s : State) (die slot : Nat) (rest : List Msg),
     let d := dieOf s die
     let f := frtOf s die slot
     let lane : LaneTask := ⟨f.argp, f.val, mkHandle (nodeId s) die slot f.tag⟩
     let same := fun (o : OpenSheaf) => o.ctag = f.ctag ∧ o.region = f.region ∧ o.entry = f.entry
     let runs := f.state = 1#2 ∧ f.started = false ∧ isResident s f.ctag = true
     (d.tasks = .task slot :: rest → runs → (∀ o ∈ d.former, ¬same o) →
       Completes (.taskArrival die) s fun t => (dieOf t die).tasks = rest ∧ (frtOf t die slot).started = true ∧
         (dieOf t die).former = d.former ++ [⟨f.ctag, f.region, f.entry, [lane], s.tsc.toNat⟩]) ∧
     (∀ early o late, d.tasks = .task slot :: rest → runs → d.former = early ++ o :: late → (∀ x ∈ early, ¬same x) → same o →
       let o' := { o with tasks := o.tasks ++ [lane] }
       Completes (.taskArrival die) s fun t => (dieOf t die).tasks = rest ∧ (frtOf t die slot).started = true ∧
         (o.tasks.length + 1 < 32 → (dieOf t die).former = early ++ o' :: late ∧ (dieOf t die).ready = d.ready) ∧
         (32 ≤ o.tasks.length + 1 → (dieOf t die).former = early ++ late ∧
           (dieOf t die).ready = d.ready ++ [(s.uid, o.ctag, ⟨o.entry, o.region, (List.range (o.tasks.length + 1)).zip o'.tasks⟩)])) ∧
     (d.tasks = .task slot :: rest → ¬runs → exec (.taskArrival die) s = .next (setDie s die { d with tasks := rest })) ∧
     (∀ k o, d.former[k]? = some o →
       let due := o.since + 2000 ≤ s.tsc.toNat ∧ isResident s o.ctag = true
       (due → Completes (.sheafTimeout die k) s fun t => (dieOf t die).former = d.former.eraseIdx k ∧
         (dieOf t die).ready = d.ready ++ [(s.uid, o.ctag, ⟨o.entry, o.region, (List.range o.tasks.length).zip o.tasks⟩)]) ∧
       (¬due → exec (.sheafTimeout die k) s = .next s)) ∧
     (∀ broken v, d.ends = .finish slot f.tag f.ctag broken v :: rest → f.state = 1#2 → f.fifo = [] → f.waits = false → f.resa = 0#64 →
       f.dropped = false → s.waves = [] → Completes (.frtTaskEnd die) s fun t => (dieOf t die).ends = rest ∧
         (frtOf t die slot).state = (if broken then 3#2 else 2#2) ∧ (frtOf t die slot).value = v ∧ (frtOf t die slot).tag = f.tag) ∧
     (∀ tag ctag broken v, d.ends = .finish slot tag ctag broken v :: rest → tag ≠ f.tag ∨ ctag ≠ f.ctag → s.waves = [] →
       Completes (.frtTaskEnd die) s fun t => (dieOf t die).ends = rest ∧ SameMemory s t ∧ ∀ d' k, (dieOf t d').frt = (dieOf s d').frt ∧ frtOf t d' k = frtOf s d' k) ∧
     (∀ h, d.forwards = [] → d.drops = .drop h :: rest → handleDie h = die → handleSlot h = slot → handleTag h = f.tag → 2#2 ≤ f.state →
       f.fifo = [] → s.waves = [] → Completes (.dropArrival die) s fun t => (dieOf t die).drops = rest ∧
         (frtOf t die slot).state = 0#2 ∧ (frtOf t die slot).tag = if f.tag = 4095#12 then 1#12 else f.tag + 1#12) ∧
     (∀ target, d.forwards = .forward target slot :: rest → f.state = 1#2 → handleSlot target ≠ slot → s.waves = [] →
       let g := frtOf s die (handleSlot target)
       g.tag = handleTag target → g.ctag = f.ctag →
       (g.state = 2#2 → Completes (.forwardArrival die) s fun t =>
         (dieOf t die).forwards = rest ∧ (frtOf t die slot).val = g.value ∧ (dieOf t die).tasks = d.tasks ++ [.task slot]) ∧
       (g.state = 1#2 → Completes (.forwardArrival die) s fun t => (dieOf t die).forwards = rest ∧ (dieOf t die).tasks = d.tasks ∧
         (frtOf t die (handleSlot target)).fifo = g.fifo ++ [slot] ∧ (frtOf t die slot).target = some (handleSlot target) ∧
         (frtOf t die slot).waits = true)) ∧
     (∀ h ans, ownNode s (handleNode h) = false → ans ≠ .pending → s.waves = [] → Completes (.futureAnswerArrival h ans) s fun t =>
       (⟨h, ans⟩ : RemoteFuture) ∈ t.remotes ∧ ∀ r ∈ t.remotes, r.handle = h → r.ans = ans)) ∧
  (∀ (s : State) (home die : Nat) (rest : List Nat), home < 2 → s.waves = [] →
     let idle := fun (k : Nat) => (frtOf s home k).state = 0#2 ∧ (frtOf s home k).granted = false
     ((dieOf s home).grantReqs = die :: rest →
       let old := (lookup (dieOf s die).pools home).getD []
       Completes (.poolGrant home []) s fun t => (dieOf t home).grantReqs = rest ∧
         ∃ new, (lookup (dieOf t die).pools home).getD [] = old ++ new ∧ new.length ≤ 64 - old.length ∧
           (∀ x ∈ new, idle (x / 4096) ∧ (frtOf t home (x / 4096)).granted = true ∧ x % 4096 = (frtOf s home (x / 4096)).tag.toNat) ∧
           (old.length < 64 → (∃ k, k < 2 ^ 20 ∧ idle k) → new ≠ [])) ∧
     ((dieOf s home).grantReqs = [] → exec (.poolGrant home []) s = .next s) ∧
     (∀ far (sent : List (BitVec 32)), sent ≠ [] → sent.length ≤ 64 → lookup (dieOf s 0).pools (2 + far) = none →
       Completes (.poolGrant (2 + far) sent) s fun t => lookup (dieOf t 0).pools (2 + far) = some (sent.map (·.toNat))) ∧
     ∀ (node : BitVec 12) (ctx slot c : Nat) (entry argp : DWord) (tag : BitVec 12),
       let f := frtOf s home slot
       let taken := fun (t : State) (fwd : Bool) => (frtOf t home slot).state = 1#2 ∧ (frtOf t home slot).ctag = c ∧ (frtOf t home slot).entry = entry ∧
         (frtOf t home slot).argp = argp ∧ (frtOf t home slot).fwd = fwd ∧ (frtOf t home slot).peer = some node.toNat
       (boundCtx s node.toNat ctx = some c → f.state = 0#2 → f.granted = true → f.tag = tag →
         (Completes (.peerTaskMessage node ctx (.task home entry argp slot tag)) s fun t =>
           taken t false ∧ (dieOf t home).tasks = (dieOf s home).tasks ++ [.task slot]) ∧
         ∀ target, handleDie target = home → Completes (.peerTaskMessage node ctx (.forward target entry argp slot tag)) s fun t =>
           taken t true ∧ (dieOf t home).forwards = (dieOf s home).forwards ++ [.forward target slot]) ∧
       (boundCtx s node.toNat ctx = none →
         (∀ msg, msg = .task home entry argp slot tag ∨ (∃ target, msg = .forward target entry argp slot tag) →
           Completes (.peerTaskMessage node ctx msg) s fun t =>
             t.packets = s.packets ++ [.future node.toNat slot tag (.broken (brokenCause 5 0))]) ∧
         ∀ h, exec (.peerTaskMessage node ctx (.drop h)) s = .next s) ∧
       (∀ h, handleDie h = home → boundCtx s node.toNat ctx = some c → (frtOf s home (handleSlot h)).ctag = c →
         exec (.peerTaskMessage node ctx (.drop h)) s =
           .next (setDie s home { dieOf s home with drops := (dieOf s home).drops ++ [.drop h] })) ∧
       Completes (.peerTaskMessage node ctx (.grant home)) s fun t => ∃ new : List Nat,
         t.packets = s.packets ++ [.grant node.toNat home (new.map fun k => k * 2 ^ 12 + (frtOf s home k).tag.toNat)] ∧ new.length ≤ 64 ∧
           (∀ k ∈ new, idle k ∧ (frtOf t home k).granted = true) ∧ ((∃ k, k < 2 ^ 20 ∧ idle k) → new ≠ []))

/-- R61: the granules that PALLOC takes: the lowest run of the group's region that no plot holds.

R320, R321, R61, R62: PALLOC with room sets C and makes the plot, IDLE and empty, under its handle; without room it clears C and makes none; a
failed check is answered with its trap. PFREE takes the plot away. No other handle of the group changes. -/
def Obligations.PlotAllocation : Prop :=
  (∀ (gr : Group) (n b : Nat), firstFit gr n = some b →
     b + n ≤ gr.pngran ∧ (∀ e ∈ gr.plots, b + n ≤ e.2.base ∨ e.2.base + e.2.ngran ≤ b) ∧
     ∀ c, c < b → ∃ e ∈ gr.plots, ¬(c + n ≤ e.2.base ∨ e.2.base + e.2.ngran ≤ c)) ∧
  (∀ (nx : BitVec 2) (v : BitVec 1) (a b : BitVec 6) (f : BitVec 4) (s : State) (w : Wave), lookup s.waves s.cur = some w →
     let h := (w.sreg a.toNat).toNat
     let rows := (w.sreg b.toNat).toNat % 2 ^ 32
     let cols := (w.sreg b.toNat).toNat / 2 ^ 32
     let check := checkPalloc s w h (v == 1#1) rows cols f.toNat
     (check = .ok none → exec (.palloc nx v a b f) s = .next (setWave s s.cur (Wave.finish { w with c := false } nx))) ∧
     (∀ base, check = .ok (some base) → Completes (.palloc nx v a b f) s fun t =>
       waveOf t s.cur = Wave.finish { w with c := true } nx ∧ SameMemory s t ∧
       (∀ k, k ≠ h → lookup (groupOf t w.group).plots k = lookup (groupOf s w.group).plots k) ∧
       ∃ p, lookup (groupOf t w.group).plots h = some p ∧ p.state = 0#2 ∧ p.level = (v == 1#1) ∧ p.fmt = f ∧ p.rows = rows ∧ p.cols = cols ∧
         p.base = base ∧ p.ngran = (plotBytes f.toNat rows cols + 8191) / 8192 ∧ p.quota = 0 ∧ p.data = [] ∧ p.access = []) ∧
     (∀ e, check = .error e → exec (.palloc nx v a b f) s = .next (stopWave s s.cur e false)) ∧
     (∀ p, checkPfree s w h = .ok (w.group, p) → Completes (.pfree nx a) s fun t =>
       (∀ q ∈ (groupOf t w.group).plots, q.1 ≠ h) ∧
       ((∀ e ∈ s.groups, e.2.state ≠ .ending) → SameMemory s t ∧
         ∀ k, k ≠ h → lookup (groupOf t w.group).plots k = lookup (groupOf s w.group).plots k)) ∧
     (∀ e, checkPfree s w h = .error e → exec (.pfree nx a) s = .next (stopWave s s.cur e false)))

/-- R321, R71, R77, Table 2.4: PARM takes a FREE plot to FILLING with its quota, to FULL when the quota is zero; a FULL plot that nothing reads, and into which, if
it holds an error, no copy is in flight, drains at once and is armed the same; one that is read, or drains, is armed and keeps what it holds until the drain ends; a
plot that is FILLING, or armed already, raises PLOT_STATE with reason WRONGSTATE (R70).

R322, Table 2.2, R59, R69: PSTATE and PINFO report a plot, or zero for a handle without one, and trap, with BADHANDLE, only for a value that is no handle; PWAIT
parks while the plot is FILLING; PWAIT and PARM raise UNALLOCATED for a handle without a plot. Of a value above 63, which does not fit the 6 bits that TINFO has
for a handle, TINFO shows the value modulo 64: that is the model's choice (log 65). -/
def Obligations.PlotArmingAndReports : Prop :=
  (∀ (nx : BitVec 2) (a b : BitVec 6) (s : State) (w : Wave) (p : Plot), lookup s.waves s.cur = some w →
     let h := (w.sreg a.toNat).toNat
     let q := (w.sreg b.toNat).toNat % 2 ^ 32
     h ≤ 63 → lookup (groupOf s w.group).plots h = some p →
     let now := fun (t : State) (f : Plot → Prop) => ∃ r, lookup (groupOf t w.group).plots h = some r ∧ f r
     (p.state = 0#2 → Completes (.parm nx a b) s fun t => SameMemory s t ∧ now t fun r =>
       r.state = (if q = 0 then 2#2 else 1#2) ∧ r.quota = q ∧ r.issued = 0 ∧ r.arrived = 0 ∧ r.err = 0#2 ∧ r.data = p.data) ∧
     (p.state = 2#2 → p.err = 0#2 ∨ s.transfers = [] → p.access = [] → Completes (.parm nx a b) s fun t => SameMemory s t ∧ now t fun r =>
       r.state = (if q = 0 then 2#2 else 1#2) ∧ r.quota = q ∧ r.issued = 0 ∧ r.arrived = 0 ∧ r.err = 0#2 ∧ r.armpend = false ∧ r.data = p.data) ∧
     (p.state = 2#2 ∨ (p.state = 3#2 ∧ p.armpend = false) → p.access ≠ [] → Completes (.parm nx a b) s fun t => SameMemory s t ∧ now t fun r =>
       r.state = 3#2 ∧ r.armpend = true ∧ r.pendq = q ∧ r.issued = 0 ∧ r.quota = p.quota ∧ r.arrived = p.arrived ∧ r.err = p.err ∧ r.data = p.data) ∧
     (p.state = 1#2 ∨ (p.state = 3#2 ∧ p.armpend = true) → exec (.parm nx a b) s = .next (takeTrap s s.cur ⟨6, 5, h % 64, 0#32⟩ true false))) ∧
  (∀ (nx : BitVec 2) (d a b : BitVec 6) (k : BitVec 2) (s : State) (w : Wave), lookup s.waves s.cur = some w →
     let h := (w.sreg a.toNat).toNat
     let done := fun (x : Wave) => (.next (setWave s s.cur (x.finish nx)) : Out)
     let trap := fun (cause reason : Nat) => (.next (takeTrap s s.cur ⟨cause, reason, h % 64, 0#32⟩ true false) : Out)
     (63 < h → exec (.pstate nx d a) s = trap 6 1 ∧ exec (.pinfo nx d a k) s = trap 6 1 ∧ exec (.pwait nx a) s = trap 6 1 ∧ exec (.parm nx a b) s = trap 6 1) ∧
     (h ≤ 63 → findPlot s w.group h = none →
       exec (.pstate nx d a) s = done (w.setS d.toNat 0#64) ∧ exec (.pinfo nx d a k) s = done (w.setS d.toNat 0#64) ∧
       exec (.pwait nx a) s = trap 6 2 ∧ exec (.parm nx a b) s = trap 6 2) ∧
     ∀ g p, h ≤ 63 → findPlot s w.group h = some (g, p) →
       exec (.pstate nx d a) s = done (w.setS d.toNat (BitVec.ofNat 64
         (p.state.toNat + 4 + 8 * p.err.toNat + (if p.armpend then 32 else 0) + (if p.level then 64 else 0)))) ∧
       exec (.pinfo nx d a k) s = done (w.setS d.toNat (BitVec.ofNat 64 (tableEntry (groupOf s g) h p / 2 ^ (64 * k.toNat) % 2 ^ 64))) ∧
       (p.state ≠ 1#2 → exec (.pwait nx a) s = done w) ∧
       (p.state = 1#2 → exec (.pwait nx a) s = .next (parkWave s s.cur (.pwait nx h))))

/-- R323, R70, R72: PLD reads its window of a plot that may be read into an outstanding result for v[D], and stays in flight until it ends; PST writes its
window at once, and into a FILLING plot its bytes are credited and delivered. Failed checks take their trap.

R65, R66, R319: what PST writes into a plot PLD reads back: bytes put at a place read as put, and every other byte of the plot as before.

R72, R73, Table 2.4: a delivery into a FILLING plot adds to ARRIVED, and the one that reaches the quota makes the plot FULL. -/
def Obligations.PlotContents : Prop :=
  (∀ (nx : BitVec 2) (d a : BitVec 6) (la : BitVec 4) (s : State) (w : Wave), lookup s.waves s.cur = some w →
     let r := plotRef (w.sreg a.toNat) (w.sreg (a.toNat + 1))
     let regs := fun (p : Plot) => if p.fmt = 6#4 ∨ p.fmt = 7#4 then [RegName.v d.toNat, .v (d.toNat + 1)] else [.v d.toNat]
     let opened := fun (p : Plot) => if la = 0#4 then w.windows else w.windows ++ [⟨la.toNat, regs p, w.pc⟩]
     (∀ g p, checkWindow s w d.toNat r checkRead = .ok (g, p) → exec (.pld nx d a la) s =
       .next (acceptRead (setWave { s with uid := s.uid + 1 } s.cur (Wave.finish { w with
         windows := opened p, pending := w.pending ++ [⟨s.uid, regs p, pldWrites w p r d.toNat, true⟩] } nx)) g r.handle false .pld)) ∧
     (∀ e, checkWindow s w d.toNat r checkRead = .error e → exec (.pld nx d a la) s = .next (stopWave s s.cur e false)) ∧
     (∀ g p, checkPst s w d.toNat r = .ok (g, p) →
       let n := (pstBytes w p r d.toNat).2
       let q := (pstBytes w p r d.toNat).1.foldl (fun q c => plotPut q c.1 c.2) p
       let t := setWave s s.cur (Wave.finish { w with windows := opened p } nx)
       exec (.pst nx d a la) s = .next (
         if q.state = 1#2 ∧ 0 < n then deliver (setPlot t g r.handle { q with issued := q.issued + n }) g r.handle n else setPlot t g r.handle q)) ∧
     (∀ e, checkPst s w d.toNat r = .error e → exec (.pst nx d a la) s = .next (stopWave s s.cur e false))) ∧
  (∀ (p : Plot) (k a : Nat) (b : List Byte),
     plotByte (plotPut p k b) a = (if k ≤ a ∧ a < k + b.length then b.getD (a - k) 0#8 else plotByte p a) ∧
     (plotPut p k b).state = p.state ∧ (plotPut p k b).rows = p.rows ∧ (plotPut p k b).fmt = p.fmt) ∧
  (∀ (s : State) (g h n : Nat) (p : Plot), lookup (groupOf s g).plots h = some p → p.state = 1#2 →
     ∃ r, lookup (groupOf (deliver s g h n) g).plots h = some r ∧ r.arrived = p.arrived + n ∧ r.quota = p.quota ∧ r.data = p.data ∧
       r.state = if p.arrived + n = p.quota then 2#2 else 1#2)

/-- R324-R326, R72: a copy into plots whose checks pass takes an engine at issue with its operands as they stand, credits its bytes to the window's
plot, and ends; nothing of memory or of the plot's contents has changed yet. A failed check is answered with its trap, its park or its wait. -/
def Obligations.CopiesIntoPlots : Prop :=
  ∀ (nx : BitVec 2) (d a b : BitVec 6) (c : BitVec 1) (s : State) (w : Wave), lookup s.waves s.cur = some w → CoreQuiet s (coreNo s w) →
    let r := plotRef (w.sreg d.toNat) (w.sreg (d.toNat + 1))
    let into := fun (op : XferOp) (run : Out) =>
      let args : CopyArgs := ⟨op, c ++ 0#3, d, a, b, c == 1#1⟩
      (∀ p, checkCopy s s.cur w args = .ok p → totalBytes p.xfer ≠ 0 → ∃ t, run = .next t ∧ SameMemory s t ∧
        waveOf t s.cur = (Wave.next { w with ctr := { w.ctr with copyb := w.ctr.copyb + BitVec.ofNat 64 (p.n * p.targets.length) } } nx).complete 1#8
          (r.handle % 64) ∧
        (∃ x, lookup t.transfers s.uid = some x ∧ x.op = op ∧ x.wave = s.cur ∧ x.ctag = w.ctag ∧ x.base = w.sreg a.toNat ∧ x.ref0 = w.sreg d.toNat ∧
          x.ref1 = w.sreg (d.toNat + 1) ∧ x.bara = (if c = 1#1 then w.cbar else 0#64) ∧ x.done = 0 ∧
          (op ≠ .cpy → x.opnd = w.sreg b.toNat) ∧
          (op = .cpy → x.lanes = w.active ∧ ∀ i, i < 32 → w.active.getLsbD i = true → x.rowoff[i]? = some (w.lane b.toNat i))) ∧
        ∀ g q, p.targets = [(g, q)] → lookup (groupOf s g).plots r.handle = some q →
          lookup (groupOf t g).plots r.handle = some { q with issued := q.issued + p.n }) ∧
      ∀ e, checkCopy s s.cur w args = .error e → run = .next (stopWave s s.cur e false)
    into .cpy (exec (.cpy nx d a b c) s) ∧ into .cpyt (exec (.cpyt nx d a b c) s) ∧ into .cpyim (exec (.cpyim nx d a b c) s) ∧
    into .cpym (exec (.cpym nx d a b c) s)

/-- R324, R325, R70, R330: CPYOUT takes the window's bytes at issue and is in flight on the plot, which drains when it was FULL and the copy releases it;
CPYBAR answers and clears COPYERR and names the object that counts later copies. -/
def Obligations.CopiesOutOfPlots : Prop :=
  ∀ (nx : BitVec 2) (d a b : BitVec 6) (c rel : BitVec 1) (s : State) (w : Wave), lookup s.waves s.cur = some w → CoreQuiet s (coreNo s w) →
    let r := plotRef (w.sreg d.toNat) (w.sreg (d.toNat + 1))
    let check := checkCopyOut s s.cur w ⟨.cpyout, c ++ 0#2 ++ rel, d, a, b, c == 1#1⟩
    (∀ p g q, check = .ok p → p.targets = [(g, q)] → lookup (groupOf s g).plots r.handle = some q → totalBytes p.xfer ≠ 0 →
      Completes (.cpyout nx d a b c rel) s fun t => SameMemory s t ∧ waveOf t s.cur = (w.next nx).complete 1#8 (r.handle % 64) ∧
        (∃ x, lookup t.transfers s.uid = some x ∧ x.op = .cpyout ∧ x.base = w.sreg a.toNat ∧ x.opnd = w.sreg b.toNat ∧ x.done = 0 ∧
          x.image = windowBytes q r.row0 r.col0 r.nrows r.ncols ∧ x.bara = (if c = 1#1 then w.cbar else 0#64)) ∧
        lookup (groupOf t g).plots r.handle =
          some { q with state := if rel = 1#1 ∧ q.state = 2#2 then 3#2 else q.state, access := q.access ++ [.xfer s.uid] }) ∧
    (∀ e, check = .error e → exec (.cpyout nx d a b c rel) s = .next (stopWave s s.cur e false)) ∧
    ((w.sreg a.toNat = 0#64 ∨ ∃ p, checkBarrier s w (w.sreg a.toNat).toNat true = .ok p) →
      exec (.cpybar nx d a) s = .next (setWave s s.cur (Wave.finish { w.setS d.toNat (w.copyErr.setWidth 64) with
        copyErr := 0#8, cbar := w.sreg a.toNat } nx)))

/-- R332, R331, R151: XENG gives its 64-byte record, as a load of the wave reads it, to an engine and writes the engine's number; PUBLISH of nothing is a
fence, and of a range, taken with the whole of each leaf that it overlaps, its wave stalls until the copies into those leaves that had been accepted have
ended; at PUBLISH_POINT SPHASE of a SHADOW leaf is inverted in memory, no cached translation of the range is left, the wave goes on, and its core
keeps no older copy; the point waits while an instruction that waits for a peer has accesses to the context's SHADOW pages to perform (R150, R48). -/
def Obligations.CommandsAndPublish : Prop :=
  (∀ (nx : BitVec 2) (d a b : BitVec 6) (s : State) (w : Wave), lookup s.waves s.cur = some w → CoreQuiet s (coreNo s w) → w.pending = [] →
    (∀ l : Placed, checkXeng s w (w.sreg a.toNat).toNat = .ok l → OnDevice l → s.snaps = [] →
      (∀ e ∈ l, ∀ p ∈ e.2, 0 < p.2 ∧ p.1.key % 64 + p.2 ≤ 64 ∧ UnderKey s p.1.kid p.1.key p.2 ∧
        lookup (coreOf s (coreNo s w)).l1 (p.1.key / 128) = none) →
      let record := (l.flatMap (·.2)).flatMap fun p => physBytes s p.1.key p.2
      let r := readPlaces s (coreNo s w) [] true [] (l.flatMap (·.2))
      r.2 = record ∧
      ∀ plan, checkCommand r.1 w record = .ok plan → plan.source = none → cmdOpc record ≠ 3 → Completes (.xeng nx d a) s fun t =>
        SameMemory s t ∧ waveOf t s.cur = ((w.setS d.toNat (BitVec.ofNat 64 plan.engine)).next nx).complete 6#8 plan.engine ∧
        ∃ x, lookup t.transfers s.uid = some x ∧ x.op = .xeng ∧ x.cmd = record ∧ x.engine = plan.engine ∧ x.done = 0) ∧
    (let base := (w.sreg a.toNat).toNat
     let n := (w.sreg b.toNat).toNat
     (base % 65536 ≠ 0 → exec (.publish nx a b) s = .next (takeTrap s s.cur ⟨11, 0, argAddr base, 0#32⟩ true false)) ∧
     ∀ l, checkPublish s w base n = .ok l → Completes (.publish nx a b) s fun t =>
       SameMemory s t ∧ (coreOf t (coreNo s w)).l1 = [] ∧ waveOf t s.cur = (if n = 0 then w.finish nx else { w with stall := some (.publish nx s.uid) }) ∧
       (n ≠ 0 → let span := leafSpan s w.ctag base n
         span.1 ≤ base ∧ base + n ≤ span.1 + span.2 ∧
         ∃ p, lookup t.publishes s.uid = some p ∧ p.wave = s.cur ∧ p.ctag = w.ctag ∧ p.base = BitVec.ofNat 64 span.1 ∧ p.len = span.2 ∧
         ∀ x, x ∈ p.waits ↔ ∃ q, (x, q) ∈ s.transfers ∧ writesInto w.ctag span.1 span.2 q = true))) ∧
  ∀ (s : State) (x : Nat) (p : Publish) (w : Wave) (nx : BitVec 2), lookup s.publishes x = some p → p.waits = [] → lookup s.waves p.wave = some w →
    w.stall = some (.publish nx x) →
    (shadowPlaced s p.ctag = true → exec (.publishPoint x) s = .next s) ∧
    (shadowPlaced s p.ctag = false → (∀ c, CoreQuiet s c) →
     Completes (.publishPoint x) s fun t => waveOf t p.wave = Wave.finish { w with stall := none } nx ∧ lookup t.publishes x = none ∧
      (coreOf t (coreNo s w)).l1 = [] ∧
      (∀ e ∈ t.tlb, ¬(e.ctag = p.ctag ∧ e.base < p.base.toNat + p.len ∧ p.base.toNat < e.base + e.size)) ∧
      ∀ k leaf size, rangeLeaves s p.ctag p.base.toNat p.len = [(k, leaf, size)] → leafShadow leaf = true → UnderKey s (key0 s) k 8 → s.snaps = [] →
        Written s t k (bytesOf 8 (leaf ^^^ 0x400#64).toNat))

/-- R447, R128, R146, R151, R325, R72, R70, R81, R295: TRANSFER_BLOCK moves the next piece of a transfer: a piece of CPYOUT, which takes every byte that its
rows put into one block, is written in memory; the elements of a block of CPY, read once, go into a FILLING plot, which counts them; a transfer that is parked,
paused, or excluded by a PUBLISH moves nothing; PLOT_ACCESS_END ends the read of a PLD, and the last one ends a drain, but not in a freeze; CFLUSH_COMPLETE ends
the wait of a CFLUSH. Each before the transfer's last piece. -/
def Obligations.TransfersAdvance : Prop :=
  (∀ (s : State) (x : Nat) (t : Transfer), lookup s.transfers x = some t →
    (t.parked ≠ none ∨ t.pause = true ∨ afterPublish s x t = true → exec (.transferBlock x) s = .next s) ∧
    (t.op = .cpyout → 0 < t.rowBytes → t.done < totalBytes t →
      let va := t.base + BitVec.ofNat 64 (t.done / t.rowBytes) * (BitVec.ofNat 32 t.opnd.toNat).signExtend 64 + BitVec.ofNat 64 (t.done % t.rowBytes)
      let m := min (t.rowBytes - t.done % t.rowBytes) (64 - va.toNat % 64)
      let n := pieceLen s t
      steady t = true → (∀ p, engineAt s t va true = .ok p → leafSC p.leaf = false) → m ≤ n ∧ (t.done % t.rowBytes + m < t.rowBytes → n = m)) ∧
    ∀ p : Place, t.parked = none → t.pause = false → t.peer = [] → afterPublish s x t = false → s.snaps = [] → p.loc ≠ 2 →
    (let va := t.base + BitVec.ofNat 64 (t.done / t.rowBytes) * (BitVec.ofNat 32 t.opnd.toNat).signExtend 64 + BitVec.ofNat 64 (t.done % t.rowBytes)
     let n := pieceLen s t
     t.op = .cpyout → 0 < n → t.done % t.rowBytes + n ≤ t.rowBytes → va.toNat % 64 + n ≤ 64 → t.done + n ≤ t.image.length →
      engineAt s t va true = .ok p → UnderKey s p.kid p.key n → t.done + n < totalBytes t →
      Completes (.transferBlock x) s fun u =>
        Written s u p.key (sliceBytes t.image t.done n) ∧ (lookup u.transfers x).map (·.done) = some (t.done + n) ∧ u.waves = s.waves) ∧
    (let piece := copyPiece t
     let n := piece.elems.length * unitBytes t.fmt.toNat
     let a := piece.va &&& ~~~63#64
     ∀ g h q blk, t.op = .cpy → t.plots = [(g, h)] →
      lookup t.blocks a.toNat = some blk ∨
        (lookup t.blocks a.toNat = none ∧ engineAt s t a false = .ok p ∧ UnderKey s p.kid p.key 64 ∧ blk = physBytes s p.key 64) →
      lookup (groupOf s g).plots h = some q → q.state = 1#2 → isTilth q.fmt.toNat = false → q.arrived + n < q.quota → t.done + n < totalBytes t →
      Completes (.transferBlock x) s fun u => SameMemory s u ∧ u.waves = s.waves ∧ (lookup u.transfers x).map (·.done) = some (t.done + n) ∧
        ∃ k, lookup (groupOf u g).plots h = some k ∧ k.state = 1#2 ∧ k.arrived = q.arrived + n ∧
          k.data = (putElems q (plotRef t.ref0 t.ref1) (pieceElems t piece blk)).data)) ∧
  (∀ (s : State) (g h : Nat) (gr : Group) (p : Plot) (rest : List Access), lookup s.groups g = some gr → lookup gr.plots h = some p →
    (gr.frozen = true → exec (.plotAccessEnd g h) s = .next s) ∧
    (p.access = .pld :: rest → gr.zombies = [] → gr.frozen = false → Completes (.plotAccessEnd g h) s fun t =>
      SameMemory s t ∧ (p.state ≠ 3#2 → lookup (groupOf t g).plots h = some { p with access := rest }) ∧
      (p.state = 3#2 → rest = [] → p.armpend = false → lookup (groupOf t g).plots h = some { p with access := [], state := 0#2 }))) ∧
  ∀ (s : State) (u : Nat) (w : Wave) (nx kind : BitVec 2) (va : DWord) (n : Nat), lookup s.waves u = some w → w.stall = some (.cflush nx va n kind.toNat) →
    CoreQuiet s (coreNo s w) → Memory.wf s.mem = true → risingFrom none s.l2 = true →
    Completes (.cflushComplete u) s fun t => waveOf t u = Wave.finish { w with stall := none } nx ∧ SameMemory s t

/-- R337, R338, R339, R394, Tables 12.6 and 12.7: leases. A first YACQ starts the formation and parks; one that follows joins it; one whose shape differs ends
it, and so does one for which a group of the gang has already ended; BAND_UP forms the yoke once every group has executed YACQ, and each parked YACQ ends with C set; YREL without a yoke only ends, and by the headland takes the yoke to
RELEASING and parks; LEASE_END ends the next lease; YSTAT reports the yoke and clears OUTERR; MBANDS drops bands at once, and waits for bands it adds
until BAND_UP. That a lease which its group has not given up waits for LEASE_END is the model's choice (log 63). -/
def Obligations.Leases : Prop :=
  (∀ (nx : BitVec 2) (d a : BitVec 6) (s : State) (w : Wave), lookup s.waves s.cur = some w → w.pending = [] → w.windows = [] → w.status = .ready →
    let shape := (w.sreg a.toNat).extractLsb' 0 32
    let check := checkYacq s w ((w.sreg a.toNat).toNat % 2 ^ 32)
    (check = .ok .holds → exec (.yacq nx a) s = .next (setWave s s.cur (Wave.finish { w with c := false } nx))) ∧
    let short := (gangGroups s (groupOf s w.group).launch (groupOf s w.group).gang).length < shapeCores shape.toNat ∨
      ∃ g ∈ gangGroups s (groupOf s w.group).launch (groupOf s w.group).gang, (groupOf s g).state = .ending
    (check = .ok (.join none) → short →
      exec (.yacq nx a) s = .next (setWave { s with uid := s.uid + 1 } s.cur (Wave.finish { w with c := false } nx))) ∧
    (check = .ok (.join none) → ¬short → Completes (.yacq nx a) s fun t =>
      waveOf t s.cur = { w with status := .parked (.yacq nx shape), pair := none } ∧ SameMemory s t ∧
      ∃ k, lookup t.yokes s.uid = some k ∧ k.state = .forming ∧ k.shape = shape ∧ ∀ m ∈ k.members, m.acq = if m.group = w.group then some shape else none) ∧
    (∀ y k, check = .ok (.join (some (y, k))) → lookup s.yokes y = some k →
      (k.shape ≠ shape ∨ short → Completes (.yacq nx a) s fun t => waveOf t s.cur = Wave.finish { w with c := false } nx ∧ lookup t.yokes y = none) ∧
      (k.shape = shape → ¬short → Completes (.yacq nx a) s fun t =>
        waveOf t s.cur = { w with status := .parked (.yacq nx shape), pair := none } ∧ SameMemory s t ∧
        lookup t.yokes y = some { k with members := k.members.map fun m => if m.group = w.group then { m with acq := some shape } else m })) ∧
    (∀ e, check = .error e → exec (.yacq nx a) s = .next (stopWave s s.cur e false)) ∧
    (yokeOf s w.group = none → exec (.yrel nx) s = .next (setWave s s.cur (w.finish nx))) ∧
    (∀ y k m rest, yokeOf s w.group = some (y, k) → k.state = .idle ∨ k.state = .running ∨ k.state = .halted → k.members = m :: rest → m.group = w.group →
      m.lease = true → Completes (.yrel nx) s fun t =>
        lookup t.yokes y = some { k with state := .releasing } ∧ waveOf t s.cur = { w with status := .parked (.yrel nx), pair := none }) ∧
    (∀ y k, yokeOf s w.group = some (y, k) → Completes (.ystat nx d) s fun t =>
      lookup t.yokes y = some { k with outerr := false } ∧ ∃ v : DWord, waveOf t s.cur = (w.setS d.toNat v).finish nx ∧
        v.toNat % 8 = (match k.state with | .forming => 1 | .idle => 2 | .running => 3 | .halted => 4 | .releasing => 5 | .lost => 6) ∧
        v.getLsbD 3 = k.held ∧ v.getLsbD 48 = k.outerr) ∧
    ∀ y k, arrayCheck s w = .ok (y, k) →
      let m := (w.sreg a.toNat).extractLsb' 0 4
      k.state = .idle → m ≠ 0#4 → Completes (.mbands nx a) s fun t =>
        lookup t.yokes y = some { k with ashape := m, b := [], qb := 1 } ∧
        waveOf t s.cur = if m &&& ~~~k.ashape = 0#4 then w.finish nx else { w with stall := some (.mbands nx) }) ∧
  ∀ (s : State) (y : Nat) (k : Yoke), lookup s.yokes y = some k →
    (allAcquired k = true → Completes (.bandUp y) s fun t =>
      (∃ f, lookup t.yokes y = some f ∧ f.state = .idle ∧ f.garner = [] ∧ ∀ m ∈ f.members, m.lease = true) ∧
      ∀ u x n sh, (u, x) ∈ s.waves → (k.members.map (·.group)).contains x.group = true → x.status = .parked (.yacq n sh) →
        (u, Wave.finish { x with status := .ready, c := true } n) ∈ t.waves) ∧
    (allAcquired k = false → ∀ u x n, (u, x) ∈ s.waves → (k.members.map (·.group)).contains x.group = true → x.stall = some (.mbands n) →
      Completes (.bandUp y) s fun t => (u, Wave.finish { x with stall := none } n) ∈ t.waves) ∧
    ∀ g, canRelease k = true → nextLease k = some g → (∀ e ∈ s.groups, e.2.state ≠ .ending) → Completes (.leaseEnd y) s fun t =>
      (∀ f, lookup t.yokes y = some f → ∀ m ∈ f.members, m.group = g → m.lease = false) ∧
      ((∀ m ∈ k.members, m.group ≠ g → m.lease = false) → lookup t.yokes y = none) ∧
      ∀ u x n, (u, x) ∈ s.waves → x.group = g → x.status = .parked (.yrel n) → (u, Wave.finish { x with status := .ready } n) ∈ t.waves

/-- R337, R340-R344, R84-R87: the array instructions of a group that holds the headland's lease; without a yoke each of them raises YOKE_LOST. MLOADB takes
every position's window as B; MRUN queues a run with A, its depth, its garner rows, its precision and the B loaded for it; the garner reads, sums and
zeroes; MCADR sends garner rows out; MHALT, MDRAIN, MSAVE and MREST.

R87: what a garner instruction does to a row that an earlier run or instruction still owes waits, in the order of issue, while the instruction itself ends: the
operation joins those that the yoke holds, and on a row that nothing owes it has its effect. A stalled MSAVE or MREST owes every row. `blocked` says that none of those already held could act. That the
instruction ends at issue while its rows wait with the yoke is the model's choice (log 62). -/
def Obligations.ArrayInstructions : Prop :=
  ∀ (nx : BitVec 2) (d a b : BitVec 6) (q t2 : BitVec 2) (c r : BitVec 1) (s : State) (w : Wave), lookup s.waves s.cur = some w → w.status = .ready →
    w.stall = none →
    (yokeOf s w.group = none →
      ∀ i ∈ [Instr.mbands nx a, .mloadb nx d q r, .mrun nx d a r, .mzero nx a, .mreadg nx d a, .maccg nx d a, .mcadr nx d a b c t2, .mhalt nx d,
        .mdrain nx, .msave nx a, .mrest nx a], exec i s = .next (takeTrap s s.cur ⟨12, 1, 0, 0#32⟩ true false)) ∧
    ∀ y k, lookup s.yokes y = some k → (∀ e ∈ s.waves, ∀ n, e.2.stall ≠ some (.mdrain n)) →
      let ref := plotRef (w.sreg d.toNat) (w.sreg (d.toNat + 1))
      let at' := fun (t : State) (n : Yoke) => lookup t.yokes y = some n
      let ends := fun (t : State) => waveOf t s.cur = (w.next nx).complete 1#8 (ref.handle % 64)
      let x := (w.sreg a.toNat).toNat
      let row := x % 1024
      let n := x / 65536 % 65536
      let loaded := fun (p : Plot) => (⟨p.fmt, ref.nrows, ref.ncols, windowBytes p ref.row0 ref.col0 ref.nrows ref.ncols⟩ : BLoad)
      (∀ l, checkMloadb s w ref (2 ^ q.toNat) = .ok (y, k, l) → Completes (.mloadb nx d q r) s fun t => ends t ∧ SameMemory s t ∧
        at' t { k with qb := 2 ^ q.toNat, b := l.map fun p => some (loaded p.2) }) ∧
      (let prec := max 2 (min (x / 65536 % 32) 24)
       ∀ l, checkMrun s w ref row prec = .ok (y, k, l) → 0 < ref.nrows → (∀ e ∈ k.runs, e.done ≠ e.mr) → Completes (.mrun nx d a r) s fun t =>
        (waveOf t s.cur).pc = (w.next nx).pc ∧ SameMemory s t ∧ ∃ k' run, at' t k' ∧ k'.state = .running ∧ k'.runs = k.runs ++ [run] ∧
          (k.ops = [] → k' = { k with state := .running, runs := k.runs ++ [run] }) ∧
          run.mr = ref.nrows ∧ run.kw = ref.ncols ∧ run.g0 = row ∧ run.prec = prec ∧ run.b = k.b ∧ run.qb = k.qb ∧ run.bands = k.ashape ∧
          run.inj = 0 ∧ run.done = 0 ∧
          run.a = l.map fun p => ⟨p.2.fmt, windowBytes p.2 ref.row0 ref.col0 ref.nrows ref.ncols, p.1, ref.handle⟩) ∧
      let zeros := List.replicate (256 * shapeCols k.shape.toNat) 0#32
      let blocked := ∀ e ∈ k.ops, runOwes k e.1 e.2.row = true ∨ imageOwes s k e.1 = true
      let owed := fun (i : Nat) => imageOwes s k s.uid = true ∨ runOwes k s.uid i = true ∨ ∃ e ∈ k.ops, e.2.row = i
      (checkRows s w row n = .ok (y, k) → rowPending s k row n = false → Completes (.mzero nx a) s fun t =>
        waveOf t s.cur = w.finish nx ∧ SameMemory s t ∧
        ∃ k', at' t k' ∧ ∀ i, garnerRow k' i = if row ≤ i ∧ i < row + n then zeros else garnerRow k i) ∧
      (checkRows s w row n = .ok (y, k) → rowPending s k row n = true → blocked → Completes (.mzero nx a) s fun t =>
        waveOf t s.cur = w.finish nx ∧ SameMemory s t ∧ ∃ k', at' t k' ∧
          (∀ i, row ≤ i → i < row + n → owed i → garnerRow k' i = garnerRow k i ∧ (s.uid, .zero i) ∈ k'.ops) ∧
          (∀ i, row ≤ i → i < row + n → ¬owed i → garnerRow k' i = zeros) ∧ ∀ i, i < row ∨ row + n ≤ i → garnerRow k' i = garnerRow k i) ∧
      (checkRows s w row 1 = .ok (y, k) → owed row → blocked →
        (Completes (.mreadg nx d a) s fun t => SameMemory s t ∧
          waveOf t s.cur = Wave.finish { w with pending := w.pending ++ [⟨s.uid, [.v d.toNat], [], false⟩] } nx ∧
          ∃ k', at' t k' ∧ k'.garner = k.garner ∧ (s.uid, .read row n s.cur s.uid d.toNat w.active) ∈ k'.ops) ∧
        Completes (.maccg nx d a) s fun t => SameMemory s t ∧ waveOf t s.cur = w.finish nx ∧
          ∃ k', at' t k' ∧ k'.garner = k.garner ∧ (s.uid, .acc row n w.active (w.vreg d.toNat)) ∈ k'.ops) ∧
      (checkRows s w row 1 = .ok (y, k) → rowPending s k row 1 = false →
        exec (.mreadg nx d a) s = .next (setWave { s with uid := s.uid + 1 } s.cur (Wave.finish { w with
          pending := w.pending ++ [⟨s.uid, [.v d.toNat], [.v d.toNat w.active (tab 32 fun i => (garnerRow k row).getD (n + i) 0#32)], true⟩] } nx)) ∧
        Completes (.maccg nx d a) s fun t => waveOf t s.cur = w.finish nx ∧ SameMemory s t ∧ ∃ k', at' t k' ∧
          (∀ i, i ≠ row → garnerRow k' i = garnerRow k i) ∧
          ∀ i, i < (garnerRow k row).length → (garnerRow k' row)[i]? = some (
            if n ≤ i ∧ i < n + 32 ∧ w.active.getLsbD (i - n) = true then
              BitVec.ofNat 32 (rne32 (addV 0 (val32 ((garnerRow k row).getD i 0#32).toNat) (val32 (w.lane d.toNat (i - n)).toNat)))
            else (garnerRow k row).getD i 0#32)) ∧
      (let g0 := (w.sreg d.toNat).toNat % 1024
       let m := (w.sreg d.toNat).toNat / 65536 % 65536
       ∀ bar, checkMcadr s w x (w.sreg b.toNat).toNat g0 m (c == 1#1) = .ok (y, k, bar) → 0 < m → blocked → c = 0#1 ∨ CoreQuiet s (coreNo s w) → Completes (.mcadr nx d a b c t2) s fun t =>
        waveOf t s.cur = (w.next nx).complete 5#8 (g0 + m * 2 ^ 10) ∧ SameMemory s t ∧ ∃ z, lookup t.transfers s.uid = some z ∧
          z.op = .mcadr y g0 m t2 ∧ z.base = w.sreg a.toNat ∧ z.opnd = w.sreg b.toNat ∧ z.done = 0 ∧
          (∀ i, i < m → (i ∈ z.taken ↔ ¬owed (g0 + i))) ∧
          (∀ i, i < m → owed (g0 + i) → ∃ k', at' t k' ∧ (s.uid, .out (g0 + i) s.uid i) ∈ k'.ops) ∧
          (rowPending s k g0 m = false → z.image = (List.range m).flatMap fun i => (garnerRow k (g0 + i)).flatMap (outElem t2.toNat))) ∧
      (arrayCheck s w = .ok (y, k) →
        (k.state ≠ .running → exec (.mhalt nx d) s = .next (setWave s s.cur ((w.setS d.toNat (BitVec.ofNat 64 (injOf k))).finish nx))) ∧
        (k.state = .running → Completes (.mhalt nx d) s fun t => (d ≠ 0#6 → (waveOf t s.cur).sreg d.toNat = BitVec.ofNat 64 (injOf k)) ∧
          ∃ k', at' t k' ∧ k'.state = .halted ∧ ∀ e ∈ k'.runs, e.mr ≤ e.inj) ∧
        (k.runs = [] → k.ops = [] → Completes (.mdrain nx) s fun t => waveOf t s.cur = Wave.finish { w with stall := none } nx ∧
          at' t { k with held := false, state := if k.state = .idle ∨ k.state = .releasing then k.state else .idle })) ∧
      (∀ l, checkGarner s w (w.sreg a.toNat) 1 true = .ok (y, k, l) →
        exec (.msave nx a) s = .next (setWave { s with uid := s.uid + 1 } s.cur { w with stall := some (.msave nx (w.sreg a.toNat) s.uid) })) ∧
      ∀ l, checkGarner s w (w.sreg a.toNat) 0 true = .ok (y, k, l) →
        exec (.mrest nx a) s = .next (setWave { s with uid := s.uid + 1 } s.cur { w with stall := some (.mrest nx (w.sreg a.toNat) s.uid) })

/-- R104-R108, R336, R341, R344, R87, R395: ROW_INJECTION sends the next row of the run, which its wave counts; ROW_GARNER_UPDATE adds the row's sums to its
garner row, after which an operation that waited for the row has its effect, and the last row ends the run; neither acts on a held yoke, nor past a core whose
clock is stretched, nor before an MSAVE or MREST that was issued before the run. MSAVE_MREST_COMPLETE, once nothing issued before is still to act, ends the wait
of MSAVE, and for MREST makes every garner row valid; what waited for it acts then.

R107, R108: a column's sum starts at +0 and takes the products of ascending depth one by one: each product and each sum is exact, and is rounded once, as RNE32
rounds; the element of B stands at the place of R107, and that of A is cut to the run's planes. The model's choices are these: a sum may so be −0.0 after a tiny
negative product (log 66), and what waits for a row waits with the yoke (log 62). -/
def Obligations.RowsAndGarner : Prop :=
  (∀ (s : State) (y : Nat) (k : Yoke) (c : Run), lookup s.yokes y = some k → k.runs = [c] →
    (k.held = true → exec (.rowInjection y) s = .next s ∧ exec (.rowGarnerUpdate y) s = .next s) ∧
    (entryStretched s k = true → exec (.rowInjection y) s = .next s) ∧
    (garnerStretched s k = true ∨ (yokeStretched s k = true ∧ c.past ≤ c.done) ∨ imageOwes s k c.id = true → exec (.rowGarnerUpdate y) s = .next s) ∧
    (k.held = false →
      (∀ w, entryStretched s k = false → c.inj < c.mr → k.state = .running ∨ k.state = .releasing → lookup s.waves c.wave = some w →
        Completes (.rowInjection y) s fun t =>
          lookup t.yokes y = some { k with runs := [{ c with inj := c.inj + 1 }] } ∧
          waveOf t c.wave = { w with ctr := { w.ctr with mrows := w.ctr.mrows + 1#64 } } ∧ SameMemory s t) ∧
      (garnerStretched s k = false → yokeStretched s k = false ∨ c.done < c.past → imageOwes s k c.id = false → c.done < c.inj → k.state = .running → (∀ e ∈ s.waves, ∀ n, e.2.stall ≠ some (.mdrain n)) →
        let row := c.g0 + c.done
        let after := fun (k' : Yoke) => (c.done + 1 ≠ c.mr → k'.runs = [{ c with done := c.done + 1 }] ∧ k'.state = .running) ∧
          (c.done + 1 = c.mr → k'.runs = [] ∧ k'.state = .idle)
        (k.ops = [] → Completes (.rowGarnerUpdate y) s fun t =>
          ∃ k', lookup t.yokes y = some k' ∧ (∀ i, i ≠ row → garnerRow k' i = garnerRow k i) ∧ after k' ∧
            ∀ j, j < 256 * shapeCols k.shape.toNat → (garnerRow k' row)[j]? = some (BitVec.ofNat 32 (rne32 (addV 0
              (val32 ((garnerRow k row).getD j 0#32).toNat) (val32 (columnSum c (shapeCols k.shape.toNat) c.done j)))))) ∧
        (∀ i, k.ops = [(i, .zero row)] → c.id < i → imageOwes s k i = false → Completes (.rowGarnerUpdate y) s fun t =>
          ∃ k', lookup t.yokes y = some k' ∧ (∀ j, j ≠ row → garnerRow k' j = garnerRow k j) ∧ after k' ∧ k'.ops = [] ∧
            garnerRow k' row = List.replicate (256 * shapeCols k.shape.toNat) 0#32)))) ∧
  (∀ (r : Run) (cols mi n : Nat),
    let kc := 64 * ((List.range 4).countP fun i => r.bands.getLsbD i) * r.qb
    let exact := fun (v : FVal) (x : ℚ) => ∃ (neg : Bool) (m : Nat) (e : Int), v = .fin neg m e ∧ x = (if neg then -1 else 1) * (m : ℚ) * (2 : ℚ) ^ e
    ∃ psum : Nat → Nat, psum 0 = 0 ∧ psum r.kw = columnSum r cols mi n ∧ ∀ k, k < r.kw →
      let a := elemA (r.a[k / kc]?) r.prec r.kw mi k
      let b := elemB ((r.b[k / kc * cols + n / 256]?).getD none) (k % kc) (n % 256)
      ∃ z, psum (k + 1) = rne32 z ∧ (∀ p x y, exact (val32 (psum k)) p → exact a x → exact b y → exact z (p + x * y)) ∧
        (a = .nan ∨ b = .nan ∨ val32 (psum k) = .nan → z = .nan)) ∧
  ∀ (s : State) (u : Nat) (w : Wave) (nx : BitVec 2) (va : DWord) (y : Nat) (k : Yoke) (l : Placed), lookup s.waves u = some w →
    ∀ i, w.stall = some (.msave nx va i) ∨ w.stall = some (.mrest nx va i) →
    (imageReady s w = false → exec (.msaveMrestComplete u) s = .next s) ∧
    (CoreQuiet s (coreNo s w) → OnDevice l → imageOwes s k i = false → (∀ r ∈ k.runs, i < r.id) → k.ops = [] →
     (w.stall = some (.msave nx va i) → checkGarner s w va 1 false = .ok (y, k, l) → Completes (.msaveMrestComplete u) s fun t =>
      waveOf t u = Wave.finish { w with stall := none } nx ∧ t.yokes = s.yokes) ∧
     (w.stall = some (.mrest nx va i) → checkGarner s w va 0 false = .ok (y, k, l) → Completes (.msaveMrestComplete u) s fun t =>
      waveOf t u = Wave.finish { w with stall := none } nx ∧
      ∃ k', lookup t.yokes y = some k' ∧ (∀ i, i < 1024 → (lookup k'.garner i).isSome) ∧ k'.state = k.state ∧ k'.members = k.members)) ∧
    (∀ j row, CoreQuiet s (coreNo s w) → OnDevice l → s.waves = [(u, w)] → k.runs = [] → k.ops = [(j, .zero row)] → i < j →
     w.stall = some (.mrest nx va i) → checkGarner s w va 0 false = .ok (y, k, l) → Completes (.msaveMrestComplete u) s fun t =>
      ∃ k', lookup t.yokes y = some k' ∧ k'.ops = [] ∧ lookup k'.garner row = none ∧ ∀ g, g < 1024 → g ≠ row → (lookup k'.garner g).isSome)

/-- R120, R405, R413, R418-R422: other devices. A read, write or atomic whose shape is legal and that a window allows is performed and answered: a write puts the
bytes that its mask names, all of them when it has none, and an atomic returns the old value of each of its words; every other request is refused and changes nothing; an answer, or 50 ms
without one, settles a transaction; a port trains under the node number that was written, and every port of other devices goes down when that number names no
node; a window and a binding are set by command; SPDM answers by a packet, and may open or end the session, whose number and what a request does to it are the model's
choice (log 19). -/
def Obligations.PeersAndLinks : Prop :=
  ∀ (s : State), s.snaps = [] →
    (∀ (node : BitVec 12) die off n, peerShape s die off n = true → UnderKey s (key0 s) (localKey die off) n →
      (windowAllows s node.toNat die off n false = true → Completes (.peerRequest node (.read die off n)) s fun t =>
        SameMemory s t ∧ t.packets = s.packets ++ [.answer node.toNat true (physBytes s (localKey die off) n)]) ∧
      ∀ (b : List Byte) (mask : List Bool), b.length = n → windowAllows s node.toNat die off n true = true →
        Completes (.peerRequest node (.write die off b mask)) s fun t =>
          (∀ i, i < n → physByte t (localKey die off + i) =
            if mask = [] ∨ mask.getD i false = true then b.getD i 0#8 else physByte s (localKey die off + i)) ∧
          (∀ k, k < localKey die off ∨ localKey die off + n ≤ k → physByte t k = physByte s k) ∧
          t.packets = s.packets ++ [.answer node.toNat true []]) ∧
    (∀ (node : BitVec 12) (die : Nat) (op : BitVec 4) (ty : BitVec 3) (words : List (Nat × DWord × DWord)),
      let block := (words.headD (0, 0, 0)).1 / 64 * 64
      let x := peerType op ty
      let n := typeBytes x
      peerAtomicOk op ty words = true → peerShape s die block 64 = true → windowAllows s node.toNat die block 64 true = true →
      (∀ off d c, words = [(off, d, c)] → UnderKey s (key0 s) (localKey die off) n → Completes (.peerRequest node (.atomic die op ty words)) s fun t =>
        let old := natOf (physBytes s (localKey die off) n)
        let r := atomOp op.toNat x old (d.toNat % 2 ^ (8 * n)) (c.toNat % 2 ^ (8 * n))
        (r.2 = true → Written s t (localKey die off) (bytesOf n r.1)) ∧ (r.2 = false → SameMemory s t) ∧
        t.packets = s.packets ++ [.answer node.toNat true (bytesOf n old)]) ∧
      Completes (.peerRequest node (.atomic die op ty words)) s fun t =>
        ∃ old : List Byte, old.length = n * words.length ∧ t.packets = s.packets ++ [.answer node.toNat true old]) ∧
    (∀ (node : BitVec 12) req,
      let allowed := match req with
        | .read die off n => peerShape s die off n && windowAllows s node.toNat die off n false
        | .write die off b _ => peerShape s die off b.length && windowAllows s node.toNat die off b.length true
        | .atomic die op ty words => peerShape s die ((words.headD (0, 0, 0)).1 / 64 * 64) 64 && peerAtomicOk op ty words
            && windowAllows s node.toNat die ((words.headD (0, 0, 0)).1 / 64 * 64) 64 true
        | .other => false
      allowed = false → exec (.peerRequest node req) s = .next { s with packets := s.packets ++ [.answer node.toNat false []] }) ∧
    (∀ u w x ok b, s.waves = [(u, w)] → s.transfers = [] → w.peer = [x] → x.answer = none →
      exec (.peerResponse x.id ok b) s = .next { s with waves := [(u, { w with peer := [{ x with answer := some (ok, b) }] })] } ∧
      (x.sent + 50000000 ≤ s.tsc.toNat →
        exec .peerTimeout s = .next { s with waves := [(u, { w with peer := [{ x with answer := some (false, []) }] })] }) ∧
      (s.tsc.toNat < x.sent + 50000000 → exec .peerTimeout s = .next s)) ∧
    (∀ port, port < 96 → portUp s port = false → s.events.length < 1024 →
      (s.bar.nodeidNext.toNat % 4096 ≠ 0xFFF → Completes (.linkUp port true) s fun t => portUp t port = true ∧ t.bar.nodeid = s.bar.nodeidNext ∧
        t.events = s.events ++ [⟨s.tsc.toNat, 16 + port, 5, sliceBytes [1#8] 0 16⟩] ∧ t.waves = s.waves) ∧
      (s.bar.nodeidNext.toNat % 4096 ≠ 0xFFF → Completes (.linkUp port false) s fun t => portUp t port = false ∧ t.events = s.events ∧ t.waves = s.waves) ∧
      ∀ auth, s.bar.nodeidNext.toNat % 4096 = 0xFFF → Completes (.linkUp port auth) s fun t => (∀ q, q < 96 → portUp t q = false) ∧
        t.bar.nodeid = s.bar.nodeidNext ∧ t.waves = s.waves) ∧
    (∀ port, port < 96 → portUp s port = true → s.events.length < 1024 → Completes (.linkDown port) s fun t => portUp t port = false ∧
      t.events = s.events ++ [⟨s.tsc.toNat, 16 + port, 5, sliceBytes [0#8] 0 16⟩] ∧ t.waves = s.waves) ∧
    (∀ v : DWord, exec (.nodeidWrite v) s = .next { s with bar := { s.bar with nodeidNext := v &&& 0xFFF#64 } }) ∧
    (∀ req : List Byte, Completes (.spdmRequest req) s fun t => (∃ b, t.packets = s.packets ++ [.spdm b]) ∧
      t.sec = (match Config.spdmSession s.sec.session.isSome req with
        | none => { s.sec with session := none }
        | some false => s.sec
        | some true => { s.sec with session := some s.sec.sessions, sessions := s.sec.sessions + 1 }) ∧ SameMemory s t ∧ t.waves = s.waves) ∧
    (s.bar.recovery = false →
      (∀ idx node die base len perm cpla : DWord, idx.toNat ≤ 15 → node.toNat ≤ 0xFFF → die.toNat ≤ 1 → perm = 0#64 ∨ perm = 1#64 ∨ perm = 3#64 →
        Completes (.peerWindow idx node die base len perm cpla) s fun t => Answered s t cpla 0 0 ∧
          t.windows = put s.windows idx.toNat ⟨node.toNat, die.toNat, base.toNat * 65536, len.toNat * 65536, perm.toNat⟩) ∧
      ∀ (node peer localCtx cpla : DWord) (c : Nat), node.toNat ≤ 4094 →
        (localCtx.toNat ≤ 63 → ctxTag s localCtx = some c → (ctxOf s c).cstate = .resident → Completes (.peerBind node peer localCtx cpla) s fun t =>
          Answered s t cpla 0 0 ∧ (node.toNat, peer.toNat, c) ∈ t.binds ∧
            ∀ b ∈ t.binds, b.1 = node.toNat → b.2.1 = peer.toNat → b.2.2 = c) ∧
        (localCtx = 0xFF#64 → Completes (.peerBind node peer localCtx cpla) s fun t =>
          Answered s t cpla 0 0 ∧ ∀ b ∈ t.binds, ¬(b.1 = node.toNat ∧ b.2.1 = peer.toNat)))

/-- R191-R200, R203, R205, R210: queues. A record is read, TAKE advances, and the record becomes a launch under the context's next LAUNCHID, or is refused with
its completion record; one that cannot be read is refused, or waits for the answer to its fault; a task record takes a slot of its home's table and its task goes
to the former, and is refused at RESA where it is not well formed or its region is not; a leader follows a descriptor that goes bad or is mended; a region that is lost
takes the context with it.

R203, R200, R205: FABRIC_ENQUEUE writes the record at TAIL of the ring and advances TAIL, or appends it to the overflow area, or answers STALE or FULL; the oldest
overflow record moves into the ring; leadership moves to the other die under the next epoch with the launches that have not begun, and turns back from a die that has gone
offline; EN starts a queue under a leader and stops it; a fired entry is taken as a record is. The model's choices are these: a place of the ring or of the overflow
area that cannot be written counts as full, a TAKE that cannot be written takes nothing, bits [63:41] of a handle and a descriptor that cannot be read answer STALE
(log 68); the place of a launch in its die's table (log 9); a REGION off a 64-byte boundary, a task record without a slot at its home, and the launches that find no
table room at a move (log 73). -/
def Obligations.Queues : Prop :=
  ∀ (s : State) (c q : Nat),
    (canTake s c false q = none → queueAmiss s c false q = false → exec (.recordTake c q) s = .next s) ∧
    (∀ b l, canTake s c false q = some (b, l) →
      let wt := writeTake s c false q ((descHead b + 1) % 2 ^ 32) l
      let id := (ctxOf s c).nextLaunch
      let next := if id = 0xFFFFFFFE#32 then 0#32 else id + 1#32
      let read := readRecord s c l.die (recordAddr b (descHead b))
      let desc := descAddr (ctxOf s c) false q
      let take := bytesOf 4 ((descHead b + 1) % 2 ^ 32) ++ bytesOf 2 l.epoch ++ bytesOf 2 l.die
      (∀ p, s.snaps = [] → desc % 64 = 0 → translate s (.die 0) c (desc + 24) 1 false = .ok p → p.loc ≠ 2 → UnderKey s p.kid p.key 8 →
        ∃ h, wt = some h ∧ Written s h p.key take ∧ ∀ z, translate h (.die 0) c (desc + 32) 1 false = .ok z → z.loc ≠ 2 → UnderKey h z.kid z.key 1 →
          Written h (setLeader h c false q { l with kill := false }) z.key [1#8]) ∧
      (wt = none → l.kill = true ∨ (∃ r, read = .ok r) ∨ (∃ r, read = .error (.fatal r) ∧ r ≠ 11) → exec (.recordTake c q) s = .next s) ∧
      (∀ nw, l.kill = false → read = .error (.recoverable nw) → Completes (.recordTake c q) s fun t => t.launches = s.launches ∧
        ∃ tok, leaderOf (ctxOf t c) false q = some { l with waitFault := some tok }) ∧
      ∀ h, wt = some h →
      let n := setLeader h c false q { l with kill := false }
      let m := setCtx n c { ctxOf n c with nextLaunch := next }
      (l.kill = true → exec (.recordTake c q) s = .next m) ∧
      (∀ r, l.kill = false → read = .error (.fatal r) → exec (.recordTake c q) s = .next (if r = 11 then killContext m c else m)) ∧
      ∀ r, l.kill = false → read = .ok r →
        (∀ chain, checkLaunchRecord m c r (some (descHead b)) = .ok chain → Completes (.recordTake c q) s fun t =>
          lookup t.launches s.uid = some { launchFrom c l.die id r (some (false, q)) (descHead b) none (b.getD 9 0#8 &&& 2#8 != 0#8) with
            tslot := freeTslot s l.die } ∧
          (ctxOf t c).nextLaunch = next ∧ leaderOf (ctxOf t c) false q = some { l with kill := false } ∧ ∀ k, physByte t k = physByte n k) ∧
        ∀ e, checkLaunchRecord m c r (some (descHead b)) = .error e →
          let t := writeCompletion m c (BitVec.ofNat 64 (fieldOf r 48 8)) e id 0
          exec (.recordTake c q) s = .next (if e = 2 ∧ recordLost m c r = true then killContext t c else t)) ∧
    (∀ b l r, canTake s c true q = some (b, l) → l.kill = false → readRecord s c l.die (recordAddr b (descHead b)) = .ok r →
      let home := (r.getD 1 0#8).toNat % 2
      (∀ k, taskRecordOk r (descHead b) = true → checkRegion s c (BitVec.ofNat 64 (fieldOf r 32 8)) = .ok k → isLost s home = false →
        grantable s home 1 = [] → exec (.taskRecordTake c q) s = .next s) ∧
      ∀ h, writeTake s c true q ((descHead b + 1) % 2 ^ 32) l = some h →
      let n := setLeader h c true q { l with kill := false }
      (taskRecordOk r (descHead b) = false → exec (.taskRecordTake c q) s = .next (refuseRecord n c r (brokenCause 3 0))) ∧
      (∀ e, taskHeld s c r (descHead b) = false → taskRecordOk r (descHead b) = true → checkRegion n c (BitVec.ofNat 64 (fieldOf r 32 8)) = .error e →
        (e = 2 → recordLost n c r = false) → exec (.taskRecordTake c q) s = .next (refuseRecord n c r (brokenCause 3 0))) ∧
      ∀ chain slot rest, taskRecordOk r (descHead b) = true → checkRegion n c (BitVec.ofNat 64 (fieldOf r 32 8)) = .ok chain → isLost s home = false →
        grantable s home 1 = slot :: rest → Completes (.taskRecordTake c q) s fun t =>
          let f := frtOf t home slot
          f.state = 1#2 ∧ f.ctag = c ∧ f.entry = BitVec.ofNat 64 (fieldOf r 8 8) ∧ f.argp = BitVec.ofNat 64 (fieldOf r 16 8) ∧
          f.resa = BitVec.ofNat 64 (fieldOf r 48 8) ∧ (dieOf t home).tasks = (dieOf s home).tasks ++ [.task slot] ∧
          leaderOf (ctxOf t c) true q = some { l with kill := false }) ∧
    (∀ (h : DWord) (bytes : List Byte),
      let x := h.toNat
      let k := x / 2 ^ 29 % 4096
      let qt := h.getLsbD 16
      let qn := x % 65536
      let rec' := sliceBytes bytes 0 64
      let reply := fun (t : State) (stale full : Bool) => (.next { t with packets := t.packets ++ [.queueReply stale full] } : Out)
      (lookup s.contexts k = none → exec (.fabricEnqueue h bytes) s = reply s true false) ∧
      (∀ y, lookup s.contexts k = some y → readDesc s k qt qn = none → exec (.fabricEnqueue h bytes) s =
        reply (if x / 2 ^ 41 = 0 ∧ descLost s k qt qn = true then killContext s k else s) true false) ∧
      ∀ y b, lookup s.contexts k = some y → readDesc s k qt qn = some b →
        ((x / 2 ^ 41 ≠ 0 ∨ fieldOf b 10 2 ≠ x / 2 ^ 17 % 4096 ∨ descEn b = false) → exec (.fabricEnqueue h bytes) s = reply s true false) ∧
        (x / 2 ^ 41 = 0 → fieldOf b 10 2 = x / 2 ^ 17 % 4096 → descEn b = true →
          let open' := isResident s k = true ∧ descOvflc b = 0 ∧ ringRoom b = true
          (∀ t, open' → ringAppend s k qt qn b rec' = some t → exec (.fabricEnqueue h bytes) s = reply t false false) ∧
          (¬open' ∨ ringAppend s k qt qn b rec' = none →
            (∀ t, overflowAppend s k qt qn b rec' = some t → exec (.fabricEnqueue h bytes) s = reply t false false) ∧
            (overflowAppend s k qt qn b rec' = none → exec (.fabricEnqueue h bytes) s = reply s false true)) ∧
          (descOvfl b = 0 ∨ fieldOf b 48 2 ≤ descOvflc b → overflowAppend s k qt qn b rec' = none))) ∧
    ∀ (qt : Bool),
      (∀ (b r : List Byte) (va cnt v n : Nat) (p : Place),
        let desc := descAddr (ctxOf s c) qt q
        r.length = 64 → va % 64 = 0 → desc % 64 = 0 → s.snaps = [] →
        (va = (recordAddr b (descTail b)).toNat ∧ cnt = desc + 16 ∧ v = (descTail b + 1) % 2 ^ 32 ∧ n = 4) ∨
          (descOvfl b ≠ 0 ∧ descOvflc b < fieldOf b 48 2 ∧ va = descOvfl b + 64 * descOvflc b ∧ cnt = desc + 50 ∧ v = descOvflc b + 1 ∧ n = 2) →
        translate s (.die 0) c va 1 false = .ok p → p.loc ≠ 2 → UnderKey s p.kid p.key 64 →
        let m := ctxRecord s c va r
        Written s m p.key r ∧ ∀ z, translate m (.die 0) c cnt 1 false = .ok z → z.loc ≠ 2 → UnderKey m z.kid z.key n →
          ∃ t, Written m t z.key (bytesOf n v) ∧ (if n = 4 then ringAppend s c qt q b r = some t else overflowAppend s c qt q b r = some t)) ∧
      (let instr := if qt then Instr.taskRecordTake c q else .recordTake c q
       ∀ b l, leaderOf (ctxOf s c) qt q = some l → readDesc s c qt q = some b → isResident s c = true → descEn b = true →
        (l.state = .led ∨ l.state = .idle ∨ l.state = .moving → descOk b = false → exec instr s = .next (serveIdle (setLeader s c qt q { l with state := .bad }))) ∧
        (l.state = .bad → descOk b = true → exec instr s = .next (serveQueue s c qt q))) ∧
      (∀ b l, canOverflow s c qt q = some b → ctxRead s c (descOvfl b) (64 * descOvflc b) = some l →
        (∀ t u v, ringAppend s c qt q b (l.take 64) = some t → ctxWrite t c (descOvfl b) (l.drop 64) false = some u →
          ctxWrite u c (descAddr (ctxOf u c) qt q + 50) (bytesOf 2 (descOvflc b - 1)) false = some v → exec (.overflowMove c qt q) s = .next v) ∧
        (ringAppend s c qt q b (l.take 64) = none ∨ (∀ t, ringAppend s c qt q b (l.take 64) = some t → ctxWrite t c (descOvfl b) (l.drop 64) false = none) →
          exec (.overflowMove c qt q) s = .next s)) ∧
      (∀ b, canOverflow s c qt q = some b ↔
        readDesc s c qt q = some b ∧ 0 < descOvflc b ∧ ringRoom b = true ∧ isResident s c = true) ∧
      (∀ l, leaderOf (ctxOf s c) qt q = some l → readDesc s c qt q = none → l.state = .moving →
        exec (.leadershipMove c qt q) s = .next (if descLost s c qt q = true then killContext s c else s)) ∧
      (∀ b l, leaderOf (ctxOf s c) qt q = some l → readDesc s c qt q = some b → l.state = .moving → descEn b = true →
        let back := isOnline s (1 - l.die) = false ∧ isOnline s l.die = true
        let st := if isOnline s (1 - l.die) = false ∧ isOnline s l.die = true then LState.moving else .led
        let wt := writeTake s c qt q (descHead b) { l with state := st, die := 1 - l.die, epoch := (l.epoch + 1) % 65536 }
        (wt = none → exec (.leadershipMove c qt q) s = .next s) ∧
        (wt ≠ none → Completes (.leadershipMove c qt q) s fun t =>
          (¬back → leaderOf (ctxOf t c) qt q = some { l with state := .led, die := 1 - l.die, epoch := (l.epoch + 1) % 65536 }) ∧
          (back → leaderOf (ctxOf t c) qt q = some { l with state := .moving, die := 1 - l.die, epoch := (l.epoch + 1) % 65536 }) ∧
          (s.launches.length ≤ Config.launchTableEntries → ∀ k x, lookup s.launches k = some x → x.ctag = c → x.queue = some (qt, q) → x.next = 0 →
            ∃ i, lookup t.launches k = some { x with die := 1 - l.die, tslot := i }))) ∧
      (∀ k l, s.contexts = [(c, k)] → k.queues = [(qt, q, l)] → l.state = .led → l.die = 0 → throttleDue s 0 = true →
        Completes .leaderThrottleTimeout s fun t => leaderOf (ctxOf t c) qt q = some { l with state := .moving }) ∧
      (∀ b (en : Bool), readDesc s c qt q = some b →
        let n := ctxRecord s c (descAddr (ctxOf s c) qt q + 9) [(b.getD 9 0#8 &&& 0xFE#8) ||| (if en then 1#8 else 0#8)]
        (en = true → leaderOf (ctxOf s c) qt q = none →
          exec (.queueDescriptorEnWrite c qt q en) s = .next (serveQueue (setLeader n c qt q ⟨.idle, 0, 0, none, false⟩) c qt q)) ∧
        (en = false → ∀ l, leaderOf (ctxOf s c) qt q = some l →
          (l.state = .moving → exec (.queueDescriptorEnWrite c qt q en) s = .next n) ∧
          (l.state ≠ .moving → exec (.queueDescriptorEnWrite c qt q en) s =
            .next (serveIdle (setLeader n c qt q { l with state := .idle }))))) ∧
      (∀ b l d, readDesc s c qt q = some b → descEn b = true → isResident s c = true → leaderOf (ctxOf s c) qt q = some l → l.state = .idle ∨ l.state = .held →
        (descOk b = true → ledCount s qt < queueCapacity qt → chooseLeader s (fieldOf b 12 1) = some d →
          writeTake s c qt q (descHead b) { l with state := .led, die := d, epoch := descEpoch b } ≠ none →
          leaderOf (ctxOf (serveQueue s c qt q) c) qt q = some { l with state := .led, die := d, epoch := descEpoch b }) ∧
        (descOk b = false → leaderOf (ctxOf (serveQueue s c qt q) c) qt q = some { l with state := .bad })) ∧
      ∀ die f, firedWaits s die = some (c, f) → isOnline s die = true → tableRoom s die = true →
        let id := (ctxOf s c).nextLaunch
        let taken := fun (t : State) => (ctxOf t c).fired = (ctxOf s c).fired.erase f ∧ (ctxOf t c).nextLaunch = nextId id
        let m := setCtx s c { ctxOf s c with
          fired := (ctxOf s c).fired.erase f, firedWait := (ctxOf s c).firedWait.filter fun e => e.1 != f.2.2, nextLaunch := nextId id }
        ((ctxOf s c).firedWait = [(f.2.2, none)] → Completes (.firedEntryTake die) s fun t => taken t ∧ t.launches = s.launches) ∧
        ∀ b, (∀ e ∈ (ctxOf s c).firedWait, e.1 ≠ f.2.2) → readRecord s c die (BitVec.ofNat 64 (depAddr s c f.2.2)) = .ok b →
          (∀ chain, checkLaunchRecord m c b none = .ok chain → Completes (.firedEntryTake die) s fun t => taken t ∧
            lookup t.launches s.uid = some { launchFrom c die id b none f.2.2 (some f.2.2) false with tslot := freeTslot s die }) ∧
          ∀ e, checkLaunchRecord m c b none = .error e → (e = 2 → recordLost m c b = false) → Completes (.firedEntryTake die) s fun t => taken t ∧ t.launches = s.launches

/-- R201, R202, R204-R208, R112, R166, R168, Table 6.4: binding. GROUP_BIND stages the next group of the launch that PICK chooses on its placement, and drops
the context's code there where none of the launch has stood on the core; GROUP_RESIDENT starts its waves with the state of Table 6.4; GANG_WAIT_TIMEOUT notes
the wait of the gang at the head of each level that cannot bind, and reserves a placement for one that has waited, beside those that other gangs hold. -/
def Obligations.Binding : Prop :=
  ∀ (s : State) (die : Nat),
    (∀ it d core l, pick s die = some (it, d) → placement s it die = some [core] → it.sheafDie = none → lookup s.launches it.id = some l → l.yoke = false →
      Completes (.groupBind die) s fun t => let g := groupOf t s.uid
        let first := ¬core ∈ l.seen
        g.state = .staged ∧ g.core = core ∧ g.ctag = it.ctag ∧ g.launch = it.launch ∧ g.grpid = l.next ∧ g.launchId = l.launchId ∧ g.lslot = l.tslot ∧
        g.region = it.region ∧ t.waves = s.waves ∧
        lookup t.launches it.id = some { l with next := l.next + 1, headSince := none, seen := if first then core :: l.seen else l.seen } ∧
        (coreOf t core).icache = (coreOf s core).icache.filter fun e => decide ¬(first ∧ e.2.1 = it.ctag)) ∧
    (pick s die = none → exec (.groupBind die) s = .next s) ∧
    (∀ g gr l k, lookup s.groups g = some gr → gr.state = .staged → gr.gang = 0 → gr.sheaf = none → gr.nwave = 1 → bitsOf gr.wmask = [k] →
      lookup s.launches gr.launch = some l → Completes (.groupResident g) s fun t => (groupOf t g).state = .resident ∧ SameMemory s t ∧
        ∃ w, lookup t.waves s.uid = some w ∧ w.pc = l.entry &&& ~~~3#64 ∧ w.sreg 1 = l.argp ∧ w.live = 0xFFFFFFFF#32 ∧ w.waveId = 0 ∧ w.wslot = k ∧
          w.group = g ∧ w.ctag = gr.ctag ∧ w.status = .ready ∧ w.mode = 0#12 ∧ w.handler = false ∧ (∀ i, i ≠ 1 → w.sreg i = 0#64)) ∧
    (gangNext s die = none → exec (.gangWaitTimeout die) s = .next s) ∧
    (∀ p it, p < 8 → ((bindItems s).filter fun x => itemDie s x die).find? (fun x => effNow s x.ctag x.region 3 == p) = some it → it.shape.isSome →
      placement s it die = none → (∀ r ∈ (dieOf s die).reserve, r.1 ≠ it.id) → it ∈ headGangs s die) ∧
    (∀ it l n, lookup s.launches it.id = some l → l.headSince = some n →
      (s.tsc.toNat < n + gangWait s * 1000 → gangNote s die it = none) ∧
      (n + gangWait s * 1000 ≤ s.tsc.toNat → reservePlace s it die (it.shape.getD 0) = none → gangNote s die it = none)) ∧
    ∀ early it late l, headGangs s die = early ++ it :: late → (∀ x ∈ early, gangNote s die x = none) → lookup s.launches it.id = some l →
      (l.headSince = none → gangWait s ≠ 0 →
        exec (.gangWaitTimeout die) s = .next { s with launches := put s.launches it.id { l with headSince := some s.tsc.toNat } }) ∧
      ∀ cs, (l.headSince = none ∧ gangWait s = 0 ∨ ∃ n, l.headSince = some n ∧ n + gangWait s * 1000 ≤ s.tsc.toNat) →
        reservePlace s it die (it.shape.getD 0) = some cs →
        exec (.gangWaitTimeout die) s = .next (setDie s die { dieOf s die with reserve := (dieOf s die).reserve ++ [(it.id, cs)] })

/-- R81, R113, R184, R307, R313, R390-R402, R415: power, temperature, rotation, ageing and time. Samples are recorded, module power the sum over every rail,
and end a firmware update; they move ICAD by the steps of R391, with a notice to the contexts on a core whose ICAD rises, begin a thermal emergency, which
takes a die offline, and trip a die at 105 °C; a trip writes 255 to every ICAD and is released below 95 °C; a droop from THR on stretches the core's clock and
each of its waves counts it; a watchdog holds ICAD at 4, or resets a die, which comes back with empty caches; DAYS counts whole days, and a replan starts after
30 of them and ends with a margin; a rotation tick moves nothing by itself, a freeze holds all the groups of an exchange, and its end puts each on its new core;
a timer posts its slot; SLEEP ends. The model's choices are these: the first sample clears UPDATE (log 40); an exchange is frozen in one step and ended in one,
and a mover without room stays (log 26); a die reset ends in one step, and a drained die is wiped by it (log 39); the state of a replan, which starts TSC's
count of days again (log 56); the die of the PWC's watchdog (log 70). -/
def Obligations.PowerAndTime : Prop :=
  ∀ (s : State),
    (∀ rails b0 b1 temps quads, Completes (.telemetrySample rails b0 b1 temps quads) s fun t => t.power = rails.sum + b0.sum + b1.sum ∧
      t.rails = rails ∧ (dieOf t 0).bandPower = b0 ∧ (dieOf t 1).bandPower = b1 ∧ (dieOf t 0).arrayPower = b0.sum ∧ (dieOf t 1).arrayPower = b1.sum ∧ t.bar.wdstat.getLsbD 1 = false ∧
      ∀ c, c < 72 → c < temps.length → (coreOf t c).temp = temps.getD c 0) ∧
    (∀ rails b0 b1 temps quads, ∃ m, exec (.telemetrySample rails b0 b1 temps quads) s = .next (checkEmergency m) ∧
      let old := fun (d : Nat) => dieOf s d
      let top := fun (d : Nat) => hottestOf m d
      let level := fun (d : Nat) => if 105 ≤ top d ∧ (old d).trip = false ∧ presentCores s d ≠ [] then 255 else throttleLevel s d
      let p := rails.sum + b0.sum + b1.sum
      let a := if plimit s < p + guardBand s then (if b0.sum < b1.sum then (level 0, min (level 1 + 1) 255) else (min (level 0 + 1) 255, level 1))
        else if p + 2 * guardBand s < plimit s then (if level 0 < level 1 then (level 0, max (level 1 - 1) 1) else (max (level 0 - 1) 1, level 1))
        else (level 0, level 1)
      (∀ d, d < 2 →
        let v := if d = 0 then a.1 else a.2
        let v := if thot s < hottest m d then min (v + 1) 255 else v
        (dieOf m d).quads = ((List.range 4).map fun i => quads.getD (4 * d + i) ((old d).quads.getD i 25)) ∧
        (dieOf m d).state = (old d).state ∧
        (dieOf m d).trip = (decide (105 ≤ top d) || ((old d).trip && decide (95 ≤ top d))) ∧
        (dieOf m d).hotSamples = (if temerg s ≤ hottest m d then (old d).hotSamples + 1 else 0) ∧
        (dieOf m d).emerg = ((old d).emerg || decide (temerg s ≤ hottest m d ∧ 1 ≤ (old d).hotSamples) || (decide (105 ≤ top d) && !(old d).trip)) ∧
        (dieOf m d).coolSince = (if top d + 15 < temerg s then some ((old d).coolSince.getD s.tsc.toNat) else none) ∧
        ∀ c ∈ logicalCores s d, (coreOf m c).icad =
          if (dieOf m d).trip = false then BitVec.ofNat 8 (max (leastIcad s) (min v 255)) else if (old d).trip = false then 255#8 else (coreOf s c).icad) ∧
      (∀ g gr, (g, gr) ∈ s.groups → gr.state = .resident → gr.gslot ≠ 4 → (lookup s.contexts gr.ctag).isSome → (coreOf s gr.core).icad < (coreOf m gr.core).icad →
        ∃ n, (ctxOf m gr.ctag).noticeAt = some n ∧ s.tsc.toNat < n + 1000000) ∧
      (∀ d, d < 2 → m.contexts = [] → (old d).state = .online → (dieOf m d).emerg = true → (old (1 - d)).state ≠ .emergency →
        ((dieOf m (1 - d)).emerg = false ∨ (old (1 - d)).state ≠ .online ∨ hottest m (1 - d) < hottest m d ∨ (hottest m 0 = hottest m 1 ∧ d = 0)) →
        (dieOf (checkEmergency m) d).state = .emergency)) ∧
    (emergencyOver s 0 = true → ∃ m, exec .emergencyExit s = .next (checkEmergency m) ∧ ∀ t, t = m ∨ t = checkEmergency m →
      (dieOf t 0).emerg = false ∧ (dieOf t 0).hotSamples = 0 ∧
      (dieOf t 0).state = if (dieOf s 0).state = .emergency then .online else (dieOf s 0).state) ∧
    (∀ d temps, ((∃ x ∈ temps, 105 ≤ x) → d < 2 → (dieOf s d).trip = false → Completes (.thermalTrip ⟨d, temps⟩) s fun t => (dieOf t d).trip = true ∧
        (dieOf t d).emerg = true ∧ ∀ c ∈ logicalCores s d, (coreOf t c).icad = 255#8) ∧
      ((∀ x ∈ temps, x < 105) → exec (.thermalTrip ⟨d, temps⟩) s = .next s) ∧
      ((dieOf s d).trip = true → temps.length = 40 → (∀ x ∈ temps, x < 95) →
        exec (.thermalTripRelease ⟨d, temps⟩) s = .next (setDie s d { dieOf s d with trip := false })) ∧
      ((∃ x ∈ temps, 95 ≤ x) → exec (.thermalTripRelease ⟨d, temps⟩) s = .next s)) ∧
    (∀ c drop, let reg := (if c / 36 = 0 then s.bar.droopcfg0 else s.bar.droopcfg1).toNat
      let thr := max 1 (min (reg % 64) 24)
      (drop < 5 * thr → exec (.droopTrip ⟨c, drop⟩) s = .next s) ∧
      (5 * thr ≤ drop → Completes (.droopTrip ⟨c, drop⟩) s fun t => coreOf t c = { coreOf s c with stretch := true, halved := false } ∧ SameMemory s t ∧
        (∀ y k, lookup s.yokes y = some k → lookup t.yokes y = some (if (k.members.any fun m => m.core == c) = true ∧ yokeStretched s k = false then
          { k with runs := k.runs.map fun r => { r with past := r.inj } } else k)) ∧
        ∀ u w, (u, w) ∈ s.waves →
          (coreNo s w = c → w.status ≠ .retired → (u, { w with ctr := { w.ctr with droops := w.ctr.droops + 1#64 } }) ∈ t.waves) ∧
          (coreNo s w ≠ c → (u, w) ∈ t.waves))) ∧
    (∀ c, (coreOf s c).stretch = true → exec (.stretchEnd c) s = .next (setCore s c { coreOf s c with stretch := false, halved := true })) ∧
    (∀ c, (coreOf s c).halved = true → exec (.halvedIssueEnd c) s = .next (setCore s c { coreOf s c with halved := false })) ∧
    (Completes .pwcWatchdogExpiry s fun t => t.bar.wdstat.getLsbD 0 = true ∧
      (∀ d, d < 2 → (dieOf s d).trip = false → ∀ c ∈ logicalCores s d, (coreOf t c).icad = 4#8) ∧
      ∀ d, d = Config.pwcDie → d < 2 → (dieOf s d).state = .online → s.groups = [] → (dieOf t d).state = .reset) ∧
    (∀ d, d < 2 → (dieOf s d).state = .online → s.groups = [] → Completes (.reeveWatchdogExpiry d) s fun t => (dieOf t d).state = .reset) ∧
    (resetReady s 0 = true → Completes .dieResetDone s fun t => (dieOf t 0).state = (if (dieOf s 0).emerg then .emergency else .online) ∧
      ∀ c, c < 36 → (coreOf t c).l1 = [] ∧ (coreOf t c).path = [] ∧ (coreOf t c).icache = []) ∧
    ((∀ d, d < 2 → resetReady s d = false) → drainReady s 0 = true → Completes .dieResetDone s fun t => (dieOf t 0).state = .drained ∧ t.remote = [] ∧
      t.granted = [] ∧ ∀ c, c < 36 → (coreOf t c).l1 = [] ∧ (coreOf t c).path = [] ∧ (coreOf t c).icache = []) ∧
    (let x := s.bar.agestat.toNat
     (30 ≤ x % 65536 → x / 2 ^ 24 % 4 ≠ 1 → ∀ m, Completes (.ageingReplan m false) s fun t => t.bar.agestat = ageWord (x % 65536) (x / 65536 % 256) 1) ∧
     (x / 2 ^ 24 % 4 = 1 → ∀ m, Completes (.ageingReplan m true) s fun t =>
       t.bar.agestat = ageWord 0 (min m.toNat 100) (if 100 ≤ m.toNat then 2 else 0) ∧ t.planTsc = s.tsc.toNat ∧
       t.aged = (s.aged || decide (100 ≤ m.toNat)) ∧ (t.aged = true → leastIcad t = 2)) ∧
     (dayDue s = true → Completes .agestatDaysIncrement s fun t => t.bar.agestat = ageWord (x % 65536 + 1) (x / 65536 % 256) (x / 2 ^ 24 % 4) ∧
       t.waves = s.waves)) ∧
    (∀ v : DWord, Completes (.rotcfgWrite v) s fun t =>
      let period := if 5 ≤ v.toNat % 8 then s.bar.rotcfg &&& 7#64 else v &&& 7#64
      t.bar = { s.bar with rotcfg := period ||| (v &&& 0x1F00#64) } ∧ t.waves = s.waves ∧ t.groups = s.groups ∧ SameMemory s t ∧
      ∀ d, d < 2 → (dieOf t d).lastTick = if period = s.bar.rotcfg &&& 7#64 then (dieOf s d).lastTick else s.tsc.toNat) ∧
    (tickDue s 0 = true → Completes .rotationTick s fun t => (dieOf t 0).lastTick = s.tsc.toNat ∧ t.waves = s.waves ∧
      ∀ g, groupOf t g = { groupOf s g with moving := (groupOf t g).moving }) ∧
    (∀ g, ((groupOf s g).frozen = true ∨ freezeReady s g = false → exec (.freezeBegin g) s = .next s) ∧
      ((groupOf s g).frozen = false → freezeReady s g = true →
        (Completes (.freezeBegin g) s fun t => ∀ k ∈ exchangeOf s g false, (groupOf t k).core = (groupOf s k).core ∧ match (groupOf t k).moving with
          | some m => m.fixed = true ∧ stillMoves s k = true ∧ (groupOf t k).frozen = true
          | none => (groupOf t k).frozen = (groupOf s k).frozen) ∧
        (exchangeOf s g false = [g] →
          (∀ m, stillMoves s g = true → fitMovers s [g] = [(g, m)] → Completes (.freezeBegin g) s fun t => (groupOf t g).frozen = true ∧
            (groupOf t g).moving = some m ∧
            ∀ x y, (x, y) ∈ s.transfers → (y.plots.any fun q => q.1 == g) = true → (x, { y with pause := true }) ∈ t.transfers) ∧
          (stillMoves s g = false ∨ fitMovers s [g] = [] → exec (.freezeBegin g) s = .next (setGroup s g { groupOf s g with moving := none }))))) ∧
    (∀ g gr, lookup s.groups g = some gr →
      (gr.frozen = false → exec (.freezeEnd g) s = .next s) ∧
      (gr.frozen = true → exchangeOf s g true = [g] → (ctxOf s gr.ctag).cstate ≠ .trapping → (∀ e ∈ s.transfers, e.2.answered = none) →
        (∀ e ∈ s.waves, e.2.group = g → ∀ dead va kind, e.2.status ≠ .parked (.fault [] dead va kind)) →
        (∀ m, pinned s g = false → fitMovers s [g] = [(g, m)] → Completes (.freezeEnd g) s fun t => groupOf t g = { gr with
          core := m.core, gslot := m.gslot, wmask := m.wmask, pbase := m.pbase, place := gr.place + 1#32, frozen := false, moving := none, pass := 0 }) ∧
        (pinned s g = true ∨ fitMovers s [g] = [] → Completes (.freezeEnd g) s fun t => groupOf t g = { gr with frozen := false, moving := none }))) ∧
    (∀ u w k, lookup s.waves u = some w → w.status = .ready → k < 8 → timerDue s w k = true → Completes (.eventTimerExpiry u k) s fun t =>
      (waveOf t u).pev.getLsbD k = true ∧ ((waveOf t u).slot k).gen = 1#32 ∧ (waveOf t u).pc = w.pc ∧ SameMemory s t) ∧
    ∀ u w nx n, lookup s.waves u = some w → w.status = .parked (.sleep nx n none) → sleepDue s w = true →
      exec (.sleepExpiry u) s = .next (setWave s u (Wave.finish { w with status := .ready } nx))

/-- R336, R373, R375-R380, R385, R387, Tables 14.4 and 14.5: pre-emption. PREEMPT takes a resident context to DRAINING with its deadlines; D1 takes it to
TRAPPING, where a running wave has PREEMPT pending, and D2 forces a reset; automatic surrender ends a halted headland's drain; SETTLING begins when the last
wave has stopped, and a context with nothing left to save is SAVED without its number; RESTORE reads the image, and RESTORE_BIND makes groups resident, and
the context after the last, whose drain goes on where an evacuation had held it up, which is the model's choice (log 38). So is the form of an image that RESTORE
accepts (log 45), and that a restored context gets the lowest number that is free (`freeCtx`, log 9). -/
def Obligations.Preemption : Prop :=
  ∀ (s : State), s.snaps = [] →
    (s.bar.recovery = false → ∀ (ctx d1 d2 cpla : DWord) (c : Nat),
      (¬(1 ≤ d1.toNat ∧ d1.toNat ≤ 1000000 ∧ 1 ≤ d2.toNat ∧ d2.toNat ≤ 1000000) → exec (.preempt ctx d1 d2 cpla) s = .next (completeCommand s cpla 1 0)) ∧
      (1 ≤ d1.toNat → d1.toNat ≤ 1000000 → 1 ≤ d2.toNat → d2.toNat ≤ 1000000 → ctx.toNat ≤ 63 → ctxTag s ctx = some c → (ctxOf s c).evac = none →
        ((ctxOf s c).cstate = .resident → Completes (.preempt ctx d1 d2 cpla) s fun t => (ctxOf t c).cstate = .draining ∧
          (ctxOf t c).deadline = some (s.tsc.toNat + d1.toNat * 1000) ∧ (ctxOf t c).d2 = d2.toNat ∧ Answered s t cpla 0 0) ∧
        ((ctxOf s c).cstate ≠ .resident → exec (.preempt ctx d1 d2 cpla) s = .next (completeCommand s cpla 2 0)))) ∧
    (∀ c, deadlineDue s c [.draining] = true → Completes (.preemptD1Expiry c) s fun t =>
      (ctxOf t c).cstate = .trapping ∧ (ctxOf t c).deadline = some (s.tsc.toNat + (ctxOf s c).d2 * 1000) ∧
      ∀ g gr u w, s.groups = [(g, gr)] → s.waves = [(u, w)] → gr.ctag = c → gr.state = .resident → gr.frozen = false → (ctxOf s c).evac = none → w.group = g →
        w.status = .ready → waveOf t u = { w with preempt := some ⟨1#8, s.tsc.toNat + (ctxOf s c).d2 * 1000⟩ }) ∧
    (∀ c, deadlineDue s c [.trapping, .settling] = true → Completes (.preemptD2Expiry c) s fun t =>
      (ctxOf t c).cstate = .forced ∧ (ctxOf t c).deadline = none) ∧
    (∀ g y k, surrenderDue s g = some (y, k) → (k.members.head?.map (·.group)) = some g → k.state = .halted → inFlight k = 0 →
      exec (.autoSurrender g) s = .next (setYoke s y { k with state := .idle, held := false })) ∧
    (∀ c, (lookup s.contexts c).isSome → settlingDue s c = true → Completes (.contextSaveComplete c) s fun t => (ctxOf t c).cstate = .settling) ∧
    (∀ c, (lookup s.contexts c).isSome → (ctxOf s c).cstate = .settling → (ctxOf s c).saveWait = none → (ctxOf s c).evac = none → s.groups = [] →
      s.transfers = [] → (∀ i, CoreQuiet s i) → (∀ d, (dieOf s d).barrierQ = []) → (ctxOf s c).savearea.toNat % 4096 = 0 →
      writeFails s c (ctxOf s c).savearea.toNat 4096 = none →
      Completes (.contextSaveComplete c) s fun t => (ctxOf t c).cstate = .saved ∧ (ctxOf t c).ctx = none ∧ (ctxOf t c).deadline = none ∧
        (ctxOf t c).image = (ctxOf s c).savearea) ∧
    (s.bar.recovery = false → ∀ (desc image cpla : DWord) k,
      let b := hostRead s desc 128
      let c := descTag b
      descriptorOk s b = true → lookup s.contexts c = some k → k.cstate = .saved → loadBusy s false = false →
      let n := loadQueues (dropTlbAll (setCtx s c { loadDescriptor k desc b with
        ctx := freeCtx s, deadline := none, image := image, toBind := [], evac := none, saveWait := none }) c) c
      (readImage n c image.toNat = none → exec (.restore desc image cpla) s = .next (completeCommand s cpla 4 0)) ∧
      ∀ l, readImage n c image.toNat = some l → Completes (.restore desc image cpla) s fun t =>
        (ctxOf t c).cstate = .restoring ∧ (ctxOf t c).ctx = freeCtx s ∧ (ctxOf t c).toBind.length = l.length ∧ Answered s t cpla 0 0) ∧
    ∀ c, (lookup s.contexts c).isSome → (ctxOf s c).cstate = .restoring →
      ((ctxOf s c).toBind = [] → s.groups = [] → Completes (.restoreBind c) s fun t => (ctxOf t c).evac = none ∧ match (ctxOf s c).drain with
        | none => (ctxOf t c).cstate = .resident
        | some d => (ctxOf t c).cstate = .draining ∧ (ctxOf t c).deadline = some d) ∧
      (∀ g gr u w, lookup s.groups g = some gr → gr.ctag = c → gr.state = .resident → lookup s.waves u = some w → w.group = g → w.status = .stopped →
        waveOf (readyAll s c) u = { w with status := if w.debugHold then .parked .debug else .ready }) ∧
      (restoreOver s c = true → exec (.restoreBind c) s = .next (endRestore s c)) ∧
      ((ctxOf s c).toBind ≠ [] → ∀ u n, bindable s c = some (u, n) → (dieOf s 0).state = .online → (dieOf s 1).state = .online →
        Completes (.restoreBind c) s fun t => ∀ g ∈ u, (groupOf t g).state = .resident)

/-- R38, R46, R158, R159, R164, R372, R387, R407-R414, Table 16.4: management commands. Each writes its completion record and advances MQHEAD; while RECOVERY is set
all but FW_UPDATE and LC_CHANGE are refused. The model's choices are these: the lowest free number for a context that is loaded (`freeCtx`, log 9); the statuses of
contexts that are not found, and SUMMARY's result (log 22); DIE_ONLINE
of a drained die only, and BUSY while it is in emergency (log 42); KILL_REGION's subtree and alignment (log 43); the names of keys, and the 72 and 256 bytes of a
wrapped key and a token (logs 17, 18). -/
def Obligations.ManagementCommands : Prop :=
  ∀ (s : State) (a b c d cpla : DWord), s.snaps = [] →
    let ans := fun (status : Nat) => (.next (completeCommand s cpla status 0) : Out)
    let ok := fun (t : State) => Answered s t cpla 0 0
    (s.bar.recovery = true →
      ∀ i ∈ [Instr.ctxLoad a cpla, .ctxDestroy a cpla, .preempt a b c cpla, .restore a b cpla, .killRegion a b cpla, .tlbinvCommand a b c cpla,
        .summary a b cpla, .dieDrain a cpla, .dieOnline a cpla, .keyLoad a b cpla, .keyEmpty a cpla, .debugAttach a cpla, .debugDetach a cpla,
        .debugResume a b c d cpla, .peerBind a b c cpla,
        .peerWindow a b c d a b cpla], exec i s = ans 6) ∧
    (Completes (.mgmtBadRecord cpla) s fun t => Answered s t cpla 1 0 ∧ t.waves = s.waves ∧ t.contexts = s.contexts) ∧
    (s.bar.recovery = false →
      (let r := hostRead s a 128
       ((descriptorOk s r = false ∨ (lookup s.contexts (descTag r)).isSome) → exec (.ctxLoad a cpla) s = ans 3) ∧
       (descriptorOk s r = true → lookup s.contexts (descTag r) = none →
        (loadBusy s true = true → exec (.ctxLoad a cpla) s = ans 2) ∧
        (loadBusy s true = false → Completes (.ctxLoad a cpla) s fun t => let k := ctxOf t (descTag r)
          k.cstate = .resident ∧ k.ctx = freeCtx s ∧ k.tbase = wordAt r 24 ∧ k.rootrcb = wordAt r 32 ∧ k.savearea = wordAt r 48 ∧
          Answered s t cpla 0 ((freeCtx s).getD 0)))) ∧
      (∀ i ∈ [Instr.ctxDestroy a cpla, .killRegion a b cpla, .tlbinvCommand a b c cpla, .debugAttach a cpla, .debugDetach a cpla],
        (63 < a.toNat → exec i s = ans 1) ∧ (a.toNat ≤ 63 → ctxTag s a = none → exec i s = ans 5)) ∧
      (∀ k, a.toNat ≤ 63 → ctxTag s a = some k →
        (Completes (.ctxDestroy a cpla) s fun t => lookup t.contexts k = none ∧ (∀ e ∈ t.groups, e.2.ctag ≠ k) ∧ (∀ e ∈ t.waves, e.2.ctag ≠ k) ∧
          (∀ e ∈ t.tlb, e.ctag ≠ k) ∧ ok t) ∧
        (b.toNat % 64 ≠ 0 → exec (.killRegion a b cpla) s = ans 1) ∧
        (b.toNat % 64 = 0 → b ≠ 0#64 → Completes (.killRegion a b cpla) s fun t =>
          ok t ∧ ∀ e ∈ t.launches, e.2.ctag = k → e.2.region = b → e.2.killed = true) ∧
        (c = 0#64 → (peersOut s k = true → exec (.tlbinvCommand a b c cpla) s = .next s) ∧
          (peersOut s k = false → (∀ i, CoreQuiet s i) → (∀ i, (dieOf s i).barrierQ = []) → Completes (.tlbinvCommand a b c cpla) s fun t =>
            t.tlb = (s.tlb.filter fun e => e.ctag != k) ∧ t.waves = s.waves ∧ ok t)) ∧
        ((ctxOf s k).debug = true → exec (.debugAttach a cpla) s = ans 2) ∧
        ((ctxOf s k).debug = false → exec (.debugDetach a cpla) s = ans 2 ∧
          Completes (.debugAttach a cpla) s fun t => ctxOf t k = { ctxOf s k with debug := true } ∧ t.waves = s.waves ∧ ok t) ∧
        ((ctxOf s k).debug = true → (∀ e ∈ s.waves, isHeld e.2 = false) → Completes (.debugDetach a cpla) s fun t =>
          ctxOf t k = { ctxOf s k with debug := false } ∧ t.waves = s.waves ∧ ok t) ∧
        ((ctxOf s k).debug = true → b.toNat ≤ 71 → c.toNat ≤ 15 →
          (s.waves = [] → d.toNat ≤ 1 → exec (.debugResume a b c d cpla) s = ans 5) ∧
          ∀ u w, s.waves = [(u, w)] → w.ctag = k → w.wslot = c.toNat → coreNo s w = b.toNat → isHeld w = true → d = 1#64 → (ctxOf s k).tbase ≠ 0#64 →
            Completes (.debugResume a b c d cpla) s fun t => (waveOf t u).pc = (ctxOf s k).tbase ∧ (waveOf t u).handler = true ∧
              (waveOf t u).status = .ready ∧ (waveOf t u).trap = w.trap ∧ ok t)) ∧
      (Completes (.summary a b cpla) s fun t => t.waves = s.waves ∧
        (let n := 64 * (summaryContexts s).length + 16 * (summaryQueues s).length + 8 * (summaryGroups s).length
         Answered s t cpla 0 (64 + n)) ∧
        (64 ≤ b.toNat → hostKey a.toNat + b.toNat ≤ hostKey cpla.toNat → physBytes t (hostKey a.toNat) 64 = summaryHeader s ∧
          (summaryHeader s).take 8 = bytesOf 8 s.tsc.toNat)) ∧
      (1 < a.toNat → exec (.dieDrain a cpla) s = ans 1 ∧ exec (.dieOnline a cpla) s = ans 1) ∧
      (a.toNat ≤ 1 → s.groups = [] → s.draining = none → (dieOf s a.toNat).state = .online →
        exec (.dieOnline a cpla) s = ans 2 ∧ Completes (.dieDrain a cpla) s fun t => (dieOf t a.toNat).state = .drained ∧ ok t) ∧
      (a.toNat ≤ 1 → (dieOf s a.toNat).state = .drained →
        ((dieOf s a.toNat).emerg = true → exec (.dieOnline a cpla) s = ans 2) ∧
        ((dieOf s a.toNat).emerg = false → Completes (.dieOnline a cpla) s fun t => ok t ∧ (dieOf t a.toNat).state = .online)) ∧
      (a = 0#64 ∨ 255 < a.toNat → exec (.keyLoad a b cpla) s = ans 1 ∧ exec (.keyEmpty a cpla) s = ans 1) ∧
      (1 ≤ a.toNat → a.toNat ≤ 255 →
        (s.sec.session = none → exec (.keyLoad a b cpla) s = ans 6) ∧
        (∀ n, s.sec.session = some n → Completes (.keyLoad a b cpla) s fun t => t.tags = s.tags ∧ match Config.unwrapKey n (hostRead s b 72) with
          | some k => lookup t.sec.keys a.toNat = some (2 * k + 1) ∧ ok t
          | none => t.sec = s.sec ∧ Answered s t cpla 6 0) ∧
        Completes (.keyEmpty a cpla) s fun t => lookup t.sec.keys a.toNat = none ∧ t.tags = s.tags ∧ ok t)) ∧
    (1 < c.toNat → exec (.fwUpdate a b c cpla) s = ans 1) ∧
    (c.toNat ≤ 1 → Completes (.fwUpdate a b c cpla) s fun t => let r := hostRead s a b.toNat
      if Config.signatureOk r = true ∧ s.sec.rollback ≤ Config.imageVersion r then ok t ∧
        (c = 1#64 → t.sec = { s.sec with staged := r } ∧ t.bar.wdstat = s.bar.wdstat) ∧
        (c = 0#64 → t.sec = { s.sec with
            pwc := r, rollback := max s.sec.rollback (Config.imageVersion r)
            measurements := s.sec.measurements.set 2 (measure (s.sec.measurements.getD 2 0#512) r) } ∧ t.bar.wdstat = s.bar.wdstat ||| 2#64 ∧
          ∀ e, e < 2 → (dieOf s e).trip = false → ∀ x ∈ logicalCores s e, (coreOf t x).icad = 4#8)
      else t.sec = s.sec ∧ Answered s t cpla 6 0) ∧
    Completes (.lcChange a cpla) s fun t => let r := hostRead s a 256
      let (cur, next) := Config.tokenStates r
      if Config.signatureOk r = true ∧ cur = s.bar.lcstate.toNat ∧ lifeMove cur next = true then
        t.bar.lcstate = BitVec.ofNat 3 next ∧ t.waves = [] ∧ t.groups = [] ∧ t.transfers = [] ∧ t.contexts = [] ∧ t.sec.keys = [(0, 2 * s.sec.nextKey)] ∧
        (∀ k, isHostKey k = false → physByte t k = 0#8) ∧ (∀ d, (dieOf t d).frt = [] ∧ (dieOf t d).pools = []) ∧ ok t
      else t.sec = s.sec ∧ t.waves = s.waves ∧ Answered s t cpla 6 0

/-- R12, R13, R36, R118, R388, R404-R406, R410-R412, R415, Table 16.7: registers of BAR0 keep only what a write may change, and read as their tables say; an offset
that is not listed ignores a write and reads 0; a cold reset leaves the fuses' values, no context and zeroed HBM; a warm reset keeps HBM, TSC and the queues'
registers, and RECOVERY refuses the command WARM_RESET; both verify and measure the images that are to run (R413), and end the session and every key but a new one in slot 0; the
loss of a die takes its memory away. The model's choices are these: a staged image is dropped by a cold reset (log 18); AGESTAT after a warm reset (log 56); the
names of keys (log 17); a hot reset under RECOVERY is carried out (log 22). -/
def Obligations.RegistersAndResets : Prop :=
  ∀ (s : State),
    let boots := fun (t : State) (x : Security) =>
      let ok := imageOk s (reeveImage x) && imageOk s (pwcImage x)
      t.bar.recovery = !ok ∧ t.sec.session = none ∧ t.sec.staged = [] ∧ t.sec.reeve = x.reeve ∧ t.sec.pwc = x.pwc ∧
      t.sec.measurements.length = 5 ∧ t.sec.measurements.getD 1 0#512 = measure 0#512 (reeveImage x) ∧
      t.sec.measurements.getD 2 0#512 = measure 0#512 (pwcImage x) ∧
      t.sec.keys = [(0, 2 * x.nextKey)] ∧ s.sec.rollback ≤ t.sec.rollback ∧ (ok = false → t.sec.rollback = s.sec.rollback)
    (∀ (off : Nat) (v : DWord), off ∉ [0x008, 0x100, 0x108, 0x110, 0x118, 0x120, 0x128, 0x200, 0x208, 0x210, 0x300, 0x400, 0x408, 0x410, 0x418, 0x420, 0x428] →
      exec (.registerWrite off v) s = .next s) ∧
    (∀ v : DWord,
      let set := fun (off : Nat) (b : Bar0) => exec (.registerWrite off v) s = .next { s with bar := b }
      set 0x008 { s.bar with nodeidNext := v &&& 0xFFF#64 } ∧ set 0x100 { s.bar with fqbase := v &&& 0xFFFFFFFFFF000#64 } ∧
      set 0x110 { s.bar with eqbase := v &&& 0xFFFFFFFFFF000#64 } ∧ set 0x118 { s.bar with eqcfg := v &&& 0x11F#64 } ∧
      set 0x200 { s.bar with mqbase := v &&& 0xFFFFFFFFFF000#64 } ∧ set 0x208 { s.bar with mqcfg := v &&& 0x11F#64 } ∧
      set 0x210 { s.bar with mqtail := v.setWidth 32 } ∧ set 0x400 { s.bar with pwrcfg := v &&& 0xFFFFF#64 } ∧
      set 0x408 { s.bar with thermcfg := v &&& 0xFFFF#64 } ∧ set 0x418 { s.bar with droopcfg0 := v &&& 0x3F#64 } ∧
      set 0x420 { s.bar with droopcfg1 := v &&& 0x3F#64 } ∧ set 0x428 { s.bar with wdstat := s.bar.wdstat &&& ~~~(v &&& 1#64) } ∧
      (Completes (.registerWrite 0x300 v) s fun t => t.bar = { s.bar with schedcfg := v &&& 0xFFFFFF#64 } ∧ t.waves = s.waves) ∧
      exec (.registerWrite 0x120 v) s = exec (.frtbaseWrite 0 v) s ∧ exec (.registerWrite 0x128 v) s = exec (.frtbaseWrite 1 v) s ∧
      exec (.registerWrite 0x410 v) s = exec (.rotcfgWrite v) s) ∧
    (let get := readRegister s
     let n := fun (x : Nat) => BitVec.ofNat 64 x
     let b := s.bar
     (∀ off ∉ [0x000, 0x008, 0x010, 0x018, 0x020, 0x100, 0x108, 0x110, 0x118, 0x120, 0x128, 0x200, 0x208, 0x210, 0x218, 0x300, 0x400, 0x408, 0x410, 0x418,
       0x420, 0x428, 0x430], get off = 0#64) ∧
     get 0x000 = b.devid ∧ get 0x008 = b.nodeidNext ∧ get 0x010 = b.hmap0.setWidth 64 ∧ get 0x018 = b.hmap1.setWidth 64 ∧
     get 0x020 = n (b.lcstate.toNat + if b.recovery then 8 else 0) ∧ get 0x100 = b.fqbase ∧ get 0x108 = b.fqcfg ∧ get 0x110 = b.eqbase ∧
     get 0x118 = b.eqcfg ∧ get 0x120 = b.frtbase0 ∧ get 0x128 = b.frtbase1 ∧ get 0x200 = b.mqbase ∧ get 0x208 = b.mqcfg ∧
     get 0x210 = b.mqtail.setWidth 64 ∧ get 0x218 = b.mqhead.setWidth 64 ∧ get 0x300 = b.schedcfg ∧
     get 0x400 = n (min (b.pwrcfg.toNat % 4096) 3000 + b.pwrcfg.toNat / 4096 % 256 * 4096) ∧
     get 0x408 = n (b.thermcfg.toNat % 256 + min (b.thermcfg.toNat / 256 % 256) 104 * 256) ∧ get 0x410 = b.rotcfg ∧
     get 0x418 = n (max 1 (min (b.droopcfg0.toNat % 64) 24)) ∧ get 0x420 = n (max 1 (min (b.droopcfg1.toNat % 64) 24)) ∧ get 0x428 = b.wdstat ∧
     get 0x430 = b.agestat) ∧
    (∀ v : DWord, (s.contexts ≠ [] ∨ 1536 ≤ v.toNat / 2 ^ 27 % 2048 → exec (.frtbaseWrite 0 v) s = .next s ∧ exec (.frtbaseWrite 1 v) s = .next s) ∧
      (s.contexts = [] → v.toNat / 2 ^ 27 % 2048 < 1536 →
        let moved := fun (d : Nat) (t : State) => (dieOf t d).frt = [] ∧ (∀ e, e < 2 → lookup (dieOf t e).pools d = none) ∧ SameMemory s t ∧ t.waves = s.waves
        (Completes (.frtbaseWrite 0 v) s fun t => t.bar = { s.bar with frtbase0 := v &&& 0x3FF8000001#64 } ∧ moved 0 t) ∧
        (Completes (.frtbaseWrite 1 v) s fun t => t.bar = { s.bar with frtbase1 := v &&& 0x3FF8000001#64 } ∧ moved 1 t))) ∧
    (∀ f : Fuses, Completes (.coldReset f) s fun t => t.tsc = 0#64 ∧ t.waves = [] ∧ t.groups = [] ∧ t.contexts = [] ∧ t.transfers = [] ∧ t.bar.hmap0 = f.hmap0 ∧
      t.bar.hmap1 = f.hmap1 ∧ t.bar.lcstate = f.lcstate ∧ t.aged = (s.aged || decide (100 ≤ f.margin.toNat)) ∧ boots t s.sec ∧
      ∀ k, isHostKey k = false → physByte t k = 0#8) ∧
    ((s.bar.recovery = false ∨ warmCommanded s = false) → Completes .warmReset s fun t => t.tsc = s.tsc ∧ t.waves = [] ∧ t.groups = [] ∧ t.contexts = [] ∧
      (s.contexts = [] → t.mem = s.mem ∧ t.tags = s.tags) ∧
      t.bar.fqbase = s.bar.fqbase ∧ t.bar.fqcfg = s.bar.fqcfg ∧ t.bar.eqbase = s.bar.eqbase ∧ t.bar.eqcfg = s.bar.eqcfg ∧ t.bar.nodeid = s.bar.nodeid ∧
      t.bar.lcstate = s.bar.lcstate ∧ t.bar.hmap0 = s.bar.hmap0 ∧ t.bar.hmap1 = s.bar.hmap1 ∧ t.bar.mqhead = 0#32 ∧ t.bar.pwrcfg = State.reset.bar.pwrcfg ∧
      t.bar.agestat = (let m := s.bar.agestat.toNat / 65536 % 256; ageWord 0 (min m 100) (if 100 ≤ m then 2 else 0)) ∧
      boots t { s.sec with reeve := if s.sec.staged = [] then s.sec.reeve else s.sec.staged }) ∧
    (s.bar.recovery = true → warmCommanded s = true → exec .warmReset s = .next (completeCommand s (mgmtArg (mgmtRecord s) 6) 6 0)) ∧
    ∀ d, d ≤ 1 → isLost s d = false → s.contexts = [] → Completes (.dieLoss d) s fun t => (dieOf t d).state = .lost ∧
      (∀ k, isHostKey k = false → homeOf k = d → physByte t k = 0#8) ∧ (s.snaps = [] → (∀ e ∈ (dieOf s d).frt, e.2.state ≠ 1#2) →
        (∀ k, isHostKey k = false → homeOf k ≠ d → physByte t k = physByte s k) ∧
        ∀ k, isHostKey k = true → (d = 1 ∨ cellGet s.l2 k = none → physByte t k = physByte s k) ∧ (d = 0 → physByte t k = (cellGet s.mem k).getD 0#8))

/-- R212-R214, Tables 8.2, 8.10, 9.1, 10.1, 11.1, 12.1, 13.1: the encoding. Every instruction that has a word is what its word decodes to, with every operand at
every value its field holds; every word that decodes to an instruction is that instruction's word, so no two words share one; and the decoder of table words
reads the same. -/
def Obligations.DecodeEncode : Prop :=
  (∀ (i : Instr) (x : Word), encode i = some x → decode x = .ok i) ∧
  (∀ (i : Instr) (x : Word), decode x = .ok i → encode i = some x) ∧
  ∀ (i : Instr) (x : Word), encode i = some x → decodeTableWord 32 x.toNat = some i

/-- Tables 8.1, 8.2, 8.10, 9.1, 10.1, 11.1, 12.1, 13.1: words written out field by field, one of each family of the opcode table, and an opcode that none lists. -/
def Obligations.KnownWords : Prop :=
  decode (0x00#8 ++ 2#2 ++ 0#22) = .ok (.nop 2#2) ∧
  decode (0x10#8 ++ 1#2 ++ 5#6 ++ 6#6 ++ 7#6 ++ 0#3 ++ 1#1) = .ok (.sadd 1#2 5#6 6#6 7#6 1#1) ∧
  decode (0x0E#8 ++ 3#2 ++ 9#6 ++ 0x8001#16) = .ok (.smovi 3#2 9#6 0x8001#16) ∧
  decode (0x26#8 ++ 0#2 ++ 1#6 ++ 2#6 ++ 0x3FF#10) = .ok (.saddi 0#2 1#6 2#6 0x3FF#10) ∧
  decode (0x30#8 ++ 0#2 ++ 63#6 ++ 62#6 ++ 61#6 ++ 0#4) = .ok (.vadd 0#2 63#6 62#6 61#6) ∧
  decode (0x38#8 ++ 0#2 ++ 4#6 ++ 5#6 ++ 6#6 ++ 15#4) = .ok (.vdiv 0#2 4#6 5#6 6#6 15#4) ∧
  decode (0x90#8 ++ 1#2 ++ 0#5 ++ 1#1 ++ 3#6 ++ 4#6 ++ 9#4) = .ok (.palloc 1#2 1#1 3#6 4#6 9#4) ∧
  decode (0xB0#8 ++ 0#2 ++ 8#6 ++ 9#6 ++ 10#6 ++ 0#4) = .ok (.barrive 0#2 8#6 9#6 10#6) ∧
  decode (0xD2#8 ++ 0#2 ++ 11#6 ++ 0x0053#16) = .ok (.ctlr 0#2 11#6 0x0053#16) ∧
  decode (0x0C#8 ++ 0#24) = .error .illegalOp ∧ decode (0xFF#8 ++ 0#24) = .error .illegalOp ∧
  decode (0x00#8 ++ 0#2 ++ 1#22) = .error .illegalEnc

/-- R212, R215: a step in which the current wave has its turn runs the instruction that the word at its PC decodes to: `exec` of it, at the state in which the
word's line is in the core's instruction cache, the registers that it names have been waited for (R219), the reference by which a PLD or PST names a wide pair first,
and every open window has counted one place (R220); and then the step ends. Where a register that it names is still owed by the runs of a yoke (R87), the wave goes
on waiting. Where that cache does not hold the line for the context under the page's key, the word is the four bytes that memory holds at the PC's place. -/
def Obligations.StepRunsDecoded : Prop :=
  ∀ (s : State) (w : Wave) (p : Place) (i : Instr), lookup s.waves s.cur = some w → nextTime s = none → s.agenda = [] → s.devTurn = false →
    curReady s = true → w.stepDone = none → w.preempt = none → w.stall = none →
    let z : State := { s with devTurn := true }
    translate z (.core (coreNo z w)) w.ctag w.pc.toNat 2 false = .ok p →
    let f := fetchLine z (coreNo z w) w.ctag p
    let x := BitVec.ofNat 32 (fieldOf f.2 (p.key % 128) 4)
    (decode x = .ok i → wellFormed i = true → wellFormedIn i w.ty = true →
      let first := waitForRegs f.1 s.cur (namingRegs i)
      let v := waveOf first s.cur
      let names := regsOf i v.ty (meetsWide first v i)
      (awaits first s.cur (namingRegs i) = true → step s = .next (tick true first)) ∧
      (awaits first s.cur (namingRegs i) = false → brokenWindow v names = none →
      let t := waitForRegs first s.cur names
      (awaits t s.cur names = true → step s = .next (tick true t)) ∧
      (awaits t s.cur names = false →
        let t := setWave t s.cur (countWindows (waveOf t s.cur))
        (∀ r, exec i t = .next r → step s = .next (tick true (afterIssue r s.cur w))) ∧
        (∀ r, exec i t = .fault r → step s = .fault r) ∧
        ∀ r, exec i t = .refused r → step s = .refused r))) ∧
    ((∀ c k b, lookup (coreOf z (coreNo z w)).icache (lineOf p.key) = some (c, k, b) → c ≠ w.ctag ∨ (isHostKey p.key = false ∧ k ≠ p.kid)) → p.key % 4 = 0 → UnderKey z p.kid (lineOf p.key * 128) 128 →
      x = wordOfBytes (physBytes z p.key 4))

/-- R215, R214, R220: when the word at the PC is no instruction, or breaks a lookahead window, the wave's turn raises ILLEGAL_OP, ILLEGAL_ENC or
LOOKAHEAD_VIOLATION, the first two naming the word. -/
def Obligations.IssueChecks : Prop :=
  ∀ (s : State) (u : Nat) (w : Wave) (x : Word),
    (decode x = .error .illegalOp → issueWord s u w x = .done (takeTrap s u ⟨1, 0, x.toNat, 0#32⟩ true false)) ∧
    (decode x = .error .illegalEnc → issueWord s u w x = .done (takeTrap s u ⟨2, 0, x.toNat, 0#32⟩ true false)) ∧
    ∀ i, decode x = .ok i →
      ((wellFormed i && wellFormedIn i w.ty) = false → issueWord s u w x = .done (takeTrap s u ⟨2, 0, x.toNat, 0#32⟩ true false)) ∧
      ((wellFormed i && wellFormedIn i w.ty) = true → lookup s.waves u = some w → w.pending = [] ∨ namingRegs i = [] → ∀ win r, w.windows = [win] →
        (regsOf i w.ty (meetsWide s w i)).filter (fun k => win.regs.contains k) = [r] →
        issueWord s u w x = .done (takeTrap s u ⟨4, regCode r, win.pc.toNat % 2 ^ 56, 0#32⟩ true false))

/-- R212: after every step, PC, BT and LT of every wave are word addresses. -/
def Obligations.ControlAligned : Prop :=
  ∀ (s t : State), step s = .next t → ∀ e ∈ t.waves, e.2.pc.toNat % 4 = 0 ∧ e.2.bt.toNat % 4 = 0 ∧ e.2.lt.toNat % 4 = 0

/-- Every step keeps memory in its canonical form, and what the L2 caches hold in rising order, so that equal memories are equal data (the model's form of R28,
log 2). -/
def Obligations.MemoryCanonical : Prop :=
  ∀ (s t : State), Memory.wf s.mem = true → risingFrom none s.l2 = true → step s = .next t → Memory.wf t.mem = true ∧ risingFrom none t.l2 = true

/-- R392, R406, R415, Tables 7.7, 15.1, 16.1-16.3, 16.7: the machine after reset. Nothing is resident, the registers of BAR0 hold the values of their tables,
ICAD is 4 on every core, and memory holds the canonical form. The model's choices are the values that fuses give (HMAP0, HMAP1, LCSTATE, DEVID, and
AGESTAT.MARGIN, log 1), and that every byte, host memory included, reads 0 (log 2). -/
def Obligations.ResetValues : Prop :=
  let s := State.reset
  s.tsc = 0#64 ∧ s.waves = [] ∧ s.groups = [] ∧ s.contexts = [] ∧ s.transfers = [] ∧ s.tlb = [] ∧
  s.bar.fqbase = 0#64 ∧ s.bar.fqcfg = 0#64 ∧ s.bar.eqbase = 0#64 ∧ s.bar.eqcfg = 0#64 ∧ s.bar.mqbase = 0#64 ∧ s.bar.mqcfg = 0#64 ∧
  s.bar.mqtail = 0#32 ∧ s.bar.mqhead = 0#32 ∧ s.bar.frtbase0 = 0#64 ∧ s.bar.frtbase1 = 0#64 ∧ s.bar.nodeid = 0xFFF#64 ∧
  s.bar.pwrcfg.toNat = 3000 + 75 * 2 ^ 12 ∧ s.bar.thermcfg.toNat = 95 + 100 * 2 ^ 8 ∧ s.bar.rotcfg.toNat = 3 + 6 * 2 ^ 8 ∧
  s.bar.droopcfg0 = 12#64 ∧ s.bar.droopcfg1 = 12#64 ∧ s.bar.wdstat = 0#64 ∧ s.bar.schedcfg.toNat = 8 + 100 * 2 ^ 8 ∧
  (∀ c, (coreOf s c).icad = 4#8) ∧ (∀ k, physByte s k = 0#8) ∧ (∀ d, (dieOf s d).state = .online) ∧
  (keyId s 0).isSome ∧ (∀ n, 1 ≤ n → keyId s n = none) ∧ Memory.wf s.mem = true ∧ risingFrom none s.l2 = true
end

