-- ==== Sys2Proof/Laws/State.lean ====
section
/-! SUPPORT. Sys2Proof/Laws/State.lean: what each update leaves of every field, each true by computation, so that no proof unfolds a record; and
the laws of maps, register files and the wave's end of an instruction. -/
namespace Sys2Proof
open Machine

@[simp] theorem setWave_tsc (s : State) (u : Nat) (w : Wave) : (setWave s u w).tsc = s.tsc := rfl
@[simp] theorem setWave_stepNo (s : State) (u : Nat) (w : Wave) : (setWave s u w).stepNo = s.stepNo := rfl
@[simp] theorem setWave_agenda (s : State) (u : Nat) (w : Wave) : (setWave s u w).agenda = s.agenda := rfl
@[simp] theorem setWave_cur (s : State) (u : Nat) (w : Wave) : (setWave s u w).cur = s.cur := rfl
@[simp] theorem setWave_turnCore (s : State) (u : Nat) (w : Wave) : (setWave s u w).turnCore = s.turnCore := rfl
@[simp] theorem setWave_devTurn (s : State) (u : Nat) (w : Wave) : (setWave s u w).devTurn = s.devTurn := rfl
@[simp] theorem setWave_uid (s : State) (u : Nat) (w : Wave) : (setWave s u w).uid = s.uid := rfl
@[simp] theorem setWave_groups (s : State) (u : Nat) (w : Wave) : (setWave s u w).groups = s.groups := rfl
@[simp] theorem setWave_launches (s : State) (u : Nat) (w : Wave) : (setWave s u w).launches = s.launches := rfl
@[simp] theorem setWave_contexts (s : State) (u : Nat) (w : Wave) : (setWave s u w).contexts = s.contexts := rfl
@[simp] theorem setWave_cores (s : State) (u : Nat) (w : Wave) : (setWave s u w).cores = s.cores := rfl
@[simp] theorem setWave_dies (s : State) (u : Nat) (w : Wave) : (setWave s u w).dies = s.dies := rfl
@[simp] theorem setWave_mem (s : State) (u : Nat) (w : Wave) : (setWave s u w).mem = s.mem := rfl
@[simp] theorem setWave_l2 (s : State) (u : Nat) (w : Wave) : (setWave s u w).l2 = s.l2 := rfl
@[simp] theorem setWave_remote (s : State) (u : Nat) (w : Wave) : (setWave s u w).remote = s.remote := rfl
@[simp] theorem setWave_granted (s : State) (u : Nat) (w : Wave) : (setWave s u w).granted = s.granted := rfl
@[simp] theorem setWave_decays (s : State) (u : Nat) (w : Wave) : (setWave s u w).decays = s.decays := rfl
@[simp] theorem setWave_tags (s : State) (u : Nat) (w : Wave) : (setWave s u w).tags = s.tags := rfl
@[simp] theorem setWave_tlb (s : State) (u : Nat) (w : Wave) : (setWave s u w).tlb = s.tlb := rfl
@[simp] theorem setWave_predictor (s : State) (u : Nat) (w : Wave) : (setWave s u w).predictor = s.predictor := rfl
@[simp] theorem setWave_packets (s : State) (u : Nat) (w : Wave) : (setWave s u w).packets = s.packets := rfl
@[simp] theorem setWave_windows (s : State) (u : Nat) (w : Wave) : (setWave s u w).windows = s.windows := rfl
@[simp] theorem setWave_binds (s : State) (u : Nat) (w : Wave) : (setWave s u w).binds = s.binds := rfl
@[simp] theorem setWave_remotes (s : State) (u : Nat) (w : Wave) : (setWave s u w).remotes = s.remotes := rfl
@[simp] theorem setWave_ports (s : State) (u : Nat) (w : Wave) : (setWave s u w).ports = s.ports := rfl
@[simp] theorem setWave_transfers (s : State) (u : Nat) (w : Wave) : (setWave s u w).transfers = s.transfers := rfl
@[simp] theorem setWave_publishes (s : State) (u : Nat) (w : Wave) : (setWave s u w).publishes = s.publishes := rfl
@[simp] theorem setWave_snaps (s : State) (u : Nat) (w : Wave) : (setWave s u w).snaps = s.snaps := rfl
@[simp] theorem setWave_yokes (s : State) (u : Nat) (w : Wave) : (setWave s u w).yokes = s.yokes := rfl
@[simp] theorem setWave_faults (s : State) (u : Nat) (w : Wave) : (setWave s u w).faults = s.faults := rfl
@[simp] theorem setWave_faultRoom (s : State) (u : Nat) (w : Wave) : (setWave s u w).faultRoom = s.faultRoom := rfl
@[simp] theorem setWave_events (s : State) (u : Nat) (w : Wave) : (setWave s u w).events = s.events := rfl
@[simp] theorem setWave_dropped (s : State) (u : Nat) (w : Wave) : (setWave s u w).dropped = s.dropped := rfl
@[simp] theorem setWave_dropSource (s : State) (u : Nat) (w : Wave) : (setWave s u w).dropSource = s.dropSource := rfl
@[simp] theorem setWave_bar (s : State) (u : Nat) (w : Wave) : (setWave s u w).bar = s.bar := rfl
@[simp] theorem setWave_sec (s : State) (u : Nat) (w : Wave) : (setWave s u w).sec = s.sec := rfl
@[simp] theorem setWave_power (s : State) (u : Nat) (w : Wave) : (setWave s u w).power = s.power := rfl
@[simp] theorem setWave_draining (s : State) (u : Nat) (w : Wave) : (setWave s u w).draining = s.draining := rfl
@[simp] theorem setWave_planTsc (s : State) (u : Nat) (w : Wave) : (setWave s u w).planTsc = s.planTsc := rfl

@[simp] theorem setWave_waves (s : State) (u : Nat) (w : Wave) : (setWave s u w).waves = put s.waves u w := rfl

@[simp] theorem setCore_tsc (s : State) (c : Nat) (k : Core) : (setCore s c k).tsc = s.tsc := rfl
@[simp] theorem setCore_stepNo (s : State) (c : Nat) (k : Core) : (setCore s c k).stepNo = s.stepNo := rfl
@[simp] theorem setCore_agenda (s : State) (c : Nat) (k : Core) : (setCore s c k).agenda = s.agenda := rfl
@[simp] theorem setCore_cur (s : State) (c : Nat) (k : Core) : (setCore s c k).cur = s.cur := rfl
@[simp] theorem setCore_turnCore (s : State) (c : Nat) (k : Core) : (setCore s c k).turnCore = s.turnCore := rfl
@[simp] theorem setCore_devTurn (s : State) (c : Nat) (k : Core) : (setCore s c k).devTurn = s.devTurn := rfl
@[simp] theorem setCore_uid (s : State) (c : Nat) (k : Core) : (setCore s c k).uid = s.uid := rfl
@[simp] theorem setCore_waves (s : State) (c : Nat) (k : Core) : (setCore s c k).waves = s.waves := rfl
@[simp] theorem setCore_groups (s : State) (c : Nat) (k : Core) : (setCore s c k).groups = s.groups := rfl
@[simp] theorem setCore_launches (s : State) (c : Nat) (k : Core) : (setCore s c k).launches = s.launches := rfl
@[simp] theorem setCore_contexts (s : State) (c : Nat) (k : Core) : (setCore s c k).contexts = s.contexts := rfl
@[simp] theorem setCore_dies (s : State) (c : Nat) (k : Core) : (setCore s c k).dies = s.dies := rfl
@[simp] theorem setCore_mem (s : State) (c : Nat) (k : Core) : (setCore s c k).mem = s.mem := rfl
@[simp] theorem setCore_l2 (s : State) (c : Nat) (k : Core) : (setCore s c k).l2 = s.l2 := rfl
@[simp] theorem setCore_remote (s : State) (c : Nat) (k : Core) : (setCore s c k).remote = s.remote := rfl
@[simp] theorem setCore_granted (s : State) (c : Nat) (k : Core) : (setCore s c k).granted = s.granted := rfl
@[simp] theorem setCore_decays (s : State) (c : Nat) (k : Core) : (setCore s c k).decays = s.decays := rfl
@[simp] theorem setCore_tags (s : State) (c : Nat) (k : Core) : (setCore s c k).tags = s.tags := rfl
@[simp] theorem setCore_tlb (s : State) (c : Nat) (k : Core) : (setCore s c k).tlb = s.tlb := rfl
@[simp] theorem setCore_predictor (s : State) (c : Nat) (k : Core) : (setCore s c k).predictor = s.predictor := rfl
@[simp] theorem setCore_packets (s : State) (c : Nat) (k : Core) : (setCore s c k).packets = s.packets := rfl
@[simp] theorem setCore_windows (s : State) (c : Nat) (k : Core) : (setCore s c k).windows = s.windows := rfl
@[simp] theorem setCore_binds (s : State) (c : Nat) (k : Core) : (setCore s c k).binds = s.binds := rfl
@[simp] theorem setCore_remotes (s : State) (c : Nat) (k : Core) : (setCore s c k).remotes = s.remotes := rfl
@[simp] theorem setCore_ports (s : State) (c : Nat) (k : Core) : (setCore s c k).ports = s.ports := rfl
@[simp] theorem setCore_transfers (s : State) (c : Nat) (k : Core) : (setCore s c k).transfers = s.transfers := rfl
@[simp] theorem setCore_publishes (s : State) (c : Nat) (k : Core) : (setCore s c k).publishes = s.publishes := rfl
@[simp] theorem setCore_snaps (s : State) (c : Nat) (k : Core) : (setCore s c k).snaps = s.snaps := rfl
@[simp] theorem setCore_yokes (s : State) (c : Nat) (k : Core) : (setCore s c k).yokes = s.yokes := rfl
@[simp] theorem setCore_faults (s : State) (c : Nat) (k : Core) : (setCore s c k).faults = s.faults := rfl
@[simp] theorem setCore_faultRoom (s : State) (c : Nat) (k : Core) : (setCore s c k).faultRoom = s.faultRoom := rfl
@[simp] theorem setCore_events (s : State) (c : Nat) (k : Core) : (setCore s c k).events = s.events := rfl
@[simp] theorem setCore_dropped (s : State) (c : Nat) (k : Core) : (setCore s c k).dropped = s.dropped := rfl
@[simp] theorem setCore_dropSource (s : State) (c : Nat) (k : Core) : (setCore s c k).dropSource = s.dropSource := rfl
@[simp] theorem setCore_bar (s : State) (c : Nat) (k : Core) : (setCore s c k).bar = s.bar := rfl
@[simp] theorem setCore_sec (s : State) (c : Nat) (k : Core) : (setCore s c k).sec = s.sec := rfl
@[simp] theorem setCore_power (s : State) (c : Nat) (k : Core) : (setCore s c k).power = s.power := rfl
@[simp] theorem setCore_draining (s : State) (c : Nat) (k : Core) : (setCore s c k).draining = s.draining := rfl
@[simp] theorem setCore_planTsc (s : State) (c : Nat) (k : Core) : (setCore s c k).planTsc = s.planTsc := rfl

@[simp] theorem setCore_cores (s : State) (c : Nat) (k : Core) : (setCore s c k).cores = put s.cores c k := rfl

@[simp] theorem setDie_tsc (s : State) (d : Nat) (k : Die) : (setDie s d k).tsc = s.tsc := rfl
@[simp] theorem setDie_stepNo (s : State) (d : Nat) (k : Die) : (setDie s d k).stepNo = s.stepNo := rfl
@[simp] theorem setDie_agenda (s : State) (d : Nat) (k : Die) : (setDie s d k).agenda = s.agenda := rfl
@[simp] theorem setDie_cur (s : State) (d : Nat) (k : Die) : (setDie s d k).cur = s.cur := rfl
@[simp] theorem setDie_turnCore (s : State) (d : Nat) (k : Die) : (setDie s d k).turnCore = s.turnCore := rfl
@[simp] theorem setDie_devTurn (s : State) (d : Nat) (k : Die) : (setDie s d k).devTurn = s.devTurn := rfl
@[simp] theorem setDie_uid (s : State) (d : Nat) (k : Die) : (setDie s d k).uid = s.uid := rfl
@[simp] theorem setDie_waves (s : State) (d : Nat) (k : Die) : (setDie s d k).waves = s.waves := rfl
@[simp] theorem setDie_groups (s : State) (d : Nat) (k : Die) : (setDie s d k).groups = s.groups := rfl
@[simp] theorem setDie_launches (s : State) (d : Nat) (k : Die) : (setDie s d k).launches = s.launches := rfl
@[simp] theorem setDie_contexts (s : State) (d : Nat) (k : Die) : (setDie s d k).contexts = s.contexts := rfl
@[simp] theorem setDie_cores (s : State) (d : Nat) (k : Die) : (setDie s d k).cores = s.cores := rfl
@[simp] theorem setDie_mem (s : State) (d : Nat) (k : Die) : (setDie s d k).mem = s.mem := rfl
@[simp] theorem setDie_l2 (s : State) (d : Nat) (k : Die) : (setDie s d k).l2 = s.l2 := rfl
@[simp] theorem setDie_remote (s : State) (d : Nat) (k : Die) : (setDie s d k).remote = s.remote := rfl
@[simp] theorem setDie_granted (s : State) (d : Nat) (k : Die) : (setDie s d k).granted = s.granted := rfl
@[simp] theorem setDie_decays (s : State) (d : Nat) (k : Die) : (setDie s d k).decays = s.decays := rfl
@[simp] theorem setDie_tags (s : State) (d : Nat) (k : Die) : (setDie s d k).tags = s.tags := rfl
@[simp] theorem setDie_tlb (s : State) (d : Nat) (k : Die) : (setDie s d k).tlb = s.tlb := rfl
@[simp] theorem setDie_predictor (s : State) (d : Nat) (k : Die) : (setDie s d k).predictor = s.predictor := rfl
@[simp] theorem setDie_packets (s : State) (d : Nat) (k : Die) : (setDie s d k).packets = s.packets := rfl
@[simp] theorem setDie_windows (s : State) (d : Nat) (k : Die) : (setDie s d k).windows = s.windows := rfl
@[simp] theorem setDie_binds (s : State) (d : Nat) (k : Die) : (setDie s d k).binds = s.binds := rfl
@[simp] theorem setDie_remotes (s : State) (d : Nat) (k : Die) : (setDie s d k).remotes = s.remotes := rfl
@[simp] theorem setDie_ports (s : State) (d : Nat) (k : Die) : (setDie s d k).ports = s.ports := rfl
@[simp] theorem setDie_transfers (s : State) (d : Nat) (k : Die) : (setDie s d k).transfers = s.transfers := rfl
@[simp] theorem setDie_publishes (s : State) (d : Nat) (k : Die) : (setDie s d k).publishes = s.publishes := rfl
@[simp] theorem setDie_snaps (s : State) (d : Nat) (k : Die) : (setDie s d k).snaps = s.snaps := rfl
@[simp] theorem setDie_yokes (s : State) (d : Nat) (k : Die) : (setDie s d k).yokes = s.yokes := rfl
@[simp] theorem setDie_faults (s : State) (d : Nat) (k : Die) : (setDie s d k).faults = s.faults := rfl
@[simp] theorem setDie_faultRoom (s : State) (d : Nat) (k : Die) : (setDie s d k).faultRoom = s.faultRoom := rfl
@[simp] theorem setDie_events (s : State) (d : Nat) (k : Die) : (setDie s d k).events = s.events := rfl
@[simp] theorem setDie_dropped (s : State) (d : Nat) (k : Die) : (setDie s d k).dropped = s.dropped := rfl
@[simp] theorem setDie_dropSource (s : State) (d : Nat) (k : Die) : (setDie s d k).dropSource = s.dropSource := rfl
@[simp] theorem setDie_bar (s : State) (d : Nat) (k : Die) : (setDie s d k).bar = s.bar := rfl
@[simp] theorem setDie_sec (s : State) (d : Nat) (k : Die) : (setDie s d k).sec = s.sec := rfl
@[simp] theorem setDie_power (s : State) (d : Nat) (k : Die) : (setDie s d k).power = s.power := rfl
@[simp] theorem setDie_draining (s : State) (d : Nat) (k : Die) : (setDie s d k).draining = s.draining := rfl
@[simp] theorem setDie_planTsc (s : State) (d : Nat) (k : Die) : (setDie s d k).planTsc = s.planTsc := rfl

@[simp] theorem setDie_dies (s : State) (d : Nat) (k : Die) : (setDie s d k).dies = put s.dies d k := rfl

@[simp] theorem setGroup_tsc (s : State) (g : Nat) (k : Group) : (setGroup s g k).tsc = s.tsc := rfl
@[simp] theorem setGroup_stepNo (s : State) (g : Nat) (k : Group) : (setGroup s g k).stepNo = s.stepNo := rfl
@[simp] theorem setGroup_agenda (s : State) (g : Nat) (k : Group) : (setGroup s g k).agenda = s.agenda := rfl
@[simp] theorem setGroup_cur (s : State) (g : Nat) (k : Group) : (setGroup s g k).cur = s.cur := rfl
@[simp] theorem setGroup_turnCore (s : State) (g : Nat) (k : Group) : (setGroup s g k).turnCore = s.turnCore := rfl
@[simp] theorem setGroup_devTurn (s : State) (g : Nat) (k : Group) : (setGroup s g k).devTurn = s.devTurn := rfl
@[simp] theorem setGroup_uid (s : State) (g : Nat) (k : Group) : (setGroup s g k).uid = s.uid := rfl
@[simp] theorem setGroup_waves (s : State) (g : Nat) (k : Group) : (setGroup s g k).waves = s.waves := rfl
@[simp] theorem setGroup_launches (s : State) (g : Nat) (k : Group) : (setGroup s g k).launches = s.launches := rfl
@[simp] theorem setGroup_contexts (s : State) (g : Nat) (k : Group) : (setGroup s g k).contexts = s.contexts := rfl
@[simp] theorem setGroup_cores (s : State) (g : Nat) (k : Group) : (setGroup s g k).cores = s.cores := rfl
@[simp] theorem setGroup_dies (s : State) (g : Nat) (k : Group) : (setGroup s g k).dies = s.dies := rfl
@[simp] theorem setGroup_mem (s : State) (g : Nat) (k : Group) : (setGroup s g k).mem = s.mem := rfl
@[simp] theorem setGroup_l2 (s : State) (g : Nat) (k : Group) : (setGroup s g k).l2 = s.l2 := rfl
@[simp] theorem setGroup_remote (s : State) (g : Nat) (k : Group) : (setGroup s g k).remote = s.remote := rfl
@[simp] theorem setGroup_granted (s : State) (g : Nat) (k : Group) : (setGroup s g k).granted = s.granted := rfl
@[simp] theorem setGroup_decays (s : State) (g : Nat) (k : Group) : (setGroup s g k).decays = s.decays := rfl
@[simp] theorem setGroup_tags (s : State) (g : Nat) (k : Group) : (setGroup s g k).tags = s.tags := rfl
@[simp] theorem setGroup_tlb (s : State) (g : Nat) (k : Group) : (setGroup s g k).tlb = s.tlb := rfl
@[simp] theorem setGroup_predictor (s : State) (g : Nat) (k : Group) : (setGroup s g k).predictor = s.predictor := rfl
@[simp] theorem setGroup_packets (s : State) (g : Nat) (k : Group) : (setGroup s g k).packets = s.packets := rfl
@[simp] theorem setGroup_windows (s : State) (g : Nat) (k : Group) : (setGroup s g k).windows = s.windows := rfl
@[simp] theorem setGroup_binds (s : State) (g : Nat) (k : Group) : (setGroup s g k).binds = s.binds := rfl
@[simp] theorem setGroup_remotes (s : State) (g : Nat) (k : Group) : (setGroup s g k).remotes = s.remotes := rfl
@[simp] theorem setGroup_ports (s : State) (g : Nat) (k : Group) : (setGroup s g k).ports = s.ports := rfl
@[simp] theorem setGroup_transfers (s : State) (g : Nat) (k : Group) : (setGroup s g k).transfers = s.transfers := rfl
@[simp] theorem setGroup_publishes (s : State) (g : Nat) (k : Group) : (setGroup s g k).publishes = s.publishes := rfl
@[simp] theorem setGroup_snaps (s : State) (g : Nat) (k : Group) : (setGroup s g k).snaps = s.snaps := rfl
@[simp] theorem setGroup_yokes (s : State) (g : Nat) (k : Group) : (setGroup s g k).yokes = s.yokes := rfl
@[simp] theorem setGroup_faults (s : State) (g : Nat) (k : Group) : (setGroup s g k).faults = s.faults := rfl
@[simp] theorem setGroup_faultRoom (s : State) (g : Nat) (k : Group) : (setGroup s g k).faultRoom = s.faultRoom := rfl
@[simp] theorem setGroup_events (s : State) (g : Nat) (k : Group) : (setGroup s g k).events = s.events := rfl
@[simp] theorem setGroup_dropped (s : State) (g : Nat) (k : Group) : (setGroup s g k).dropped = s.dropped := rfl
@[simp] theorem setGroup_dropSource (s : State) (g : Nat) (k : Group) : (setGroup s g k).dropSource = s.dropSource := rfl
@[simp] theorem setGroup_bar (s : State) (g : Nat) (k : Group) : (setGroup s g k).bar = s.bar := rfl
@[simp] theorem setGroup_sec (s : State) (g : Nat) (k : Group) : (setGroup s g k).sec = s.sec := rfl
@[simp] theorem setGroup_power (s : State) (g : Nat) (k : Group) : (setGroup s g k).power = s.power := rfl
@[simp] theorem setGroup_draining (s : State) (g : Nat) (k : Group) : (setGroup s g k).draining = s.draining := rfl
@[simp] theorem setGroup_planTsc (s : State) (g : Nat) (k : Group) : (setGroup s g k).planTsc = s.planTsc := rfl

@[simp] theorem setGroup_groups (s : State) (g : Nat) (k : Group) : (setGroup s g k).groups = put s.groups g k := rfl

@[simp] theorem setCtx_tsc (s : State) (c : Nat) (k : Context) : (setCtx s c k).tsc = s.tsc := rfl
@[simp] theorem setCtx_stepNo (s : State) (c : Nat) (k : Context) : (setCtx s c k).stepNo = s.stepNo := rfl
@[simp] theorem setCtx_agenda (s : State) (c : Nat) (k : Context) : (setCtx s c k).agenda = s.agenda := rfl
@[simp] theorem setCtx_cur (s : State) (c : Nat) (k : Context) : (setCtx s c k).cur = s.cur := rfl
@[simp] theorem setCtx_turnCore (s : State) (c : Nat) (k : Context) : (setCtx s c k).turnCore = s.turnCore := rfl
@[simp] theorem setCtx_devTurn (s : State) (c : Nat) (k : Context) : (setCtx s c k).devTurn = s.devTurn := rfl
@[simp] theorem setCtx_uid (s : State) (c : Nat) (k : Context) : (setCtx s c k).uid = s.uid := rfl
@[simp] theorem setCtx_waves (s : State) (c : Nat) (k : Context) : (setCtx s c k).waves = s.waves := rfl
@[simp] theorem setCtx_groups (s : State) (c : Nat) (k : Context) : (setCtx s c k).groups = s.groups := rfl
@[simp] theorem setCtx_launches (s : State) (c : Nat) (k : Context) : (setCtx s c k).launches = s.launches := rfl
@[simp] theorem setCtx_cores (s : State) (c : Nat) (k : Context) : (setCtx s c k).cores = s.cores := rfl
@[simp] theorem setCtx_dies (s : State) (c : Nat) (k : Context) : (setCtx s c k).dies = s.dies := rfl
@[simp] theorem setCtx_mem (s : State) (c : Nat) (k : Context) : (setCtx s c k).mem = s.mem := rfl
@[simp] theorem setCtx_l2 (s : State) (c : Nat) (k : Context) : (setCtx s c k).l2 = s.l2 := rfl
@[simp] theorem setCtx_remote (s : State) (c : Nat) (k : Context) : (setCtx s c k).remote = s.remote := rfl
@[simp] theorem setCtx_granted (s : State) (c : Nat) (k : Context) : (setCtx s c k).granted = s.granted := rfl
@[simp] theorem setCtx_decays (s : State) (c : Nat) (k : Context) : (setCtx s c k).decays = s.decays := rfl
@[simp] theorem setCtx_tags (s : State) (c : Nat) (k : Context) : (setCtx s c k).tags = s.tags := rfl
@[simp] theorem setCtx_tlb (s : State) (c : Nat) (k : Context) : (setCtx s c k).tlb = s.tlb := rfl
@[simp] theorem setCtx_predictor (s : State) (c : Nat) (k : Context) : (setCtx s c k).predictor = s.predictor := rfl
@[simp] theorem setCtx_packets (s : State) (c : Nat) (k : Context) : (setCtx s c k).packets = s.packets := rfl
@[simp] theorem setCtx_windows (s : State) (c : Nat) (k : Context) : (setCtx s c k).windows = s.windows := rfl
@[simp] theorem setCtx_binds (s : State) (c : Nat) (k : Context) : (setCtx s c k).binds = s.binds := rfl
@[simp] theorem setCtx_remotes (s : State) (c : Nat) (k : Context) : (setCtx s c k).remotes = s.remotes := rfl
@[simp] theorem setCtx_ports (s : State) (c : Nat) (k : Context) : (setCtx s c k).ports = s.ports := rfl
@[simp] theorem setCtx_transfers (s : State) (c : Nat) (k : Context) : (setCtx s c k).transfers = s.transfers := rfl
@[simp] theorem setCtx_publishes (s : State) (c : Nat) (k : Context) : (setCtx s c k).publishes = s.publishes := rfl
@[simp] theorem setCtx_snaps (s : State) (c : Nat) (k : Context) : (setCtx s c k).snaps = s.snaps := rfl
@[simp] theorem setCtx_yokes (s : State) (c : Nat) (k : Context) : (setCtx s c k).yokes = s.yokes := rfl
@[simp] theorem setCtx_faults (s : State) (c : Nat) (k : Context) : (setCtx s c k).faults = s.faults := rfl
@[simp] theorem setCtx_faultRoom (s : State) (c : Nat) (k : Context) : (setCtx s c k).faultRoom = s.faultRoom := rfl
@[simp] theorem setCtx_events (s : State) (c : Nat) (k : Context) : (setCtx s c k).events = s.events := rfl
@[simp] theorem setCtx_dropped (s : State) (c : Nat) (k : Context) : (setCtx s c k).dropped = s.dropped := rfl
@[simp] theorem setCtx_dropSource (s : State) (c : Nat) (k : Context) : (setCtx s c k).dropSource = s.dropSource := rfl
@[simp] theorem setCtx_bar (s : State) (c : Nat) (k : Context) : (setCtx s c k).bar = s.bar := rfl
@[simp] theorem setCtx_sec (s : State) (c : Nat) (k : Context) : (setCtx s c k).sec = s.sec := rfl
@[simp] theorem setCtx_power (s : State) (c : Nat) (k : Context) : (setCtx s c k).power = s.power := rfl
@[simp] theorem setCtx_draining (s : State) (c : Nat) (k : Context) : (setCtx s c k).draining = s.draining := rfl
@[simp] theorem setCtx_planTsc (s : State) (c : Nat) (k : Context) : (setCtx s c k).planTsc = s.planTsc := rfl

@[simp] theorem setCtx_contexts (s : State) (c : Nat) (k : Context) : (setCtx s c k).contexts = put s.contexts c k := rfl

@[simp] theorem Wave.setV_ctag (w : Wave) (n : Nat) (x : Vector Word 32) : (w.setV n x).ctag = w.ctag := rfl
@[simp] theorem Wave.setV_group (w : Wave) (n : Nat) (x : Vector Word 32) : (w.setV n x).group = w.group := rfl
@[simp] theorem Wave.setV_wslot (w : Wave) (n : Nat) (x : Vector Word 32) : (w.setV n x).wslot = w.wslot := rfl
@[simp] theorem Wave.setV_waveId (w : Wave) (n : Nat) (x : Vector Word 32) : (w.setV n x).waveId = w.waveId := rfl
@[simp] theorem Wave.setV_s (w : Wave) (n : Nat) (x : Vector Word 32) : (w.setV n x).s = w.s := rfl
@[simp] theorem Wave.setV_p (w : Wave) (n : Nat) (x : Vector Word 32) : (w.setV n x).p = w.p := rfl
@[simp] theorem Wave.setV_c (w : Wave) (n : Nat) (x : Vector Word 32) : (w.setV n x).c = w.c := rfl
@[simp] theorem Wave.setV_z (w : Wave) (n : Nat) (x : Vector Word 32) : (w.setV n x).z = w.z := rfl
@[simp] theorem Wave.setV_vf (w : Wave) (n : Nat) (x : Vector Word 32) : (w.setV n x).vf = w.vf := rfl
@[simp] theorem Wave.setV_pc (w : Wave) (n : Nat) (x : Vector Word 32) : (w.setV n x).pc = w.pc := rfl
@[simp] theorem Wave.setV_bt (w : Wave) (n : Nat) (x : Vector Word 32) : (w.setV n x).bt = w.bt := rfl
@[simp] theorem Wave.setV_lt (w : Wave) (n : Nat) (x : Vector Word 32) : (w.setV n x).lt = w.lt := rfl
@[simp] theorem Wave.setV_lc (w : Wave) (n : Nat) (x : Vector Word 32) : (w.setV n x).lc = w.lc := rfl
@[simp] theorem Wave.setV_mode (w : Wave) (n : Nat) (x : Vector Word 32) : (w.setV n x).mode = w.mode := rfl
@[simp] theorem Wave.setV_live (w : Wave) (n : Nat) (x : Vector Word 32) : (w.setV n x).live = w.live := rfl
@[simp] theorem Wave.setV_pev (w : Wave) (n : Nat) (x : Vector Word 32) : (w.setV n x).pev = w.pev := rfl
@[simp] theorem Wave.setV_evm (w : Wave) (n : Nat) (x : Vector Word 32) : (w.setV n x).evm = w.evm := rfl
@[simp] theorem Wave.setV_slots (w : Wave) (n : Nat) (x : Vector Word 32) : (w.setV n x).slots = w.slots := rfl
@[simp] theorem Wave.setV_cyc (w : Wave) (n : Nat) (x : Vector Word 32) : (w.setV n x).cyc = w.cyc := rfl
@[simp] theorem Wave.setV_cbar (w : Wave) (n : Nat) (x : Vector Word 32) : (w.setV n x).cbar = w.cbar := rfl
@[simp] theorem Wave.setV_copyErr (w : Wave) (n : Nat) (x : Vector Word 32) : (w.setV n x).copyErr = w.copyErr := rfl
@[simp] theorem Wave.setV_trap (w : Wave) (n : Nat) (x : Vector Word 32) : (w.setV n x).trap = w.trap := rfl
@[simp] theorem Wave.setV_shadow (w : Wave) (n : Nat) (x : Vector Word 32) : (w.setV n x).shadow = w.shadow := rfl
@[simp] theorem Wave.setV_handler (w : Wave) (n : Nat) (x : Vector Word 32) : (w.setV n x).handler = w.handler := rfl
@[simp] theorem Wave.setV_preemptEntry (w : Wave) (n : Nat) (x : Vector Word 32) : (w.setV n x).preemptEntry = w.preemptEntry := rfl
@[simp] theorem Wave.setV_preempt (w : Wave) (n : Nat) (x : Vector Word 32) : (w.setV n x).preempt = w.preempt := rfl
@[simp] theorem Wave.setV_stepArmed (w : Wave) (n : Nat) (x : Vector Word 32) : (w.setV n x).stepArmed = w.stepArmed := rfl
@[simp] theorem Wave.setV_stepDone (w : Wave) (n : Nat) (x : Vector Word 32) : (w.setV n x).stepDone = w.stepDone := rfl
@[simp] theorem Wave.setV_replay (w : Wave) (n : Nat) (x : Vector Word 32) : (w.setV n x).replay = w.replay := rfl
@[simp] theorem Wave.setV_debugHold (w : Wave) (n : Nat) (x : Vector Word 32) : (w.setV n x).debugHold = w.debugHold := rfl
@[simp] theorem Wave.setV_pslot (w : Wave) (n : Nat) (x : Vector Word 32) : (w.setV n x).pslot = w.pslot := rfl
@[simp] theorem Wave.setV_mailbox (w : Wave) (n : Nat) (x : Vector Word 32) : (w.setV n x).mailbox = w.mailbox := rfl
@[simp] theorem Wave.setV_members (w : Wave) (n : Nat) (x : Vector Word 32) : (w.setV n x).members = w.members := rfl
@[simp] theorem Wave.setV_ctr (w : Wave) (n : Nat) (x : Vector Word 32) : (w.setV n x).ctr = w.ctr := rfl
@[simp] theorem Wave.setV_status (w : Wave) (n : Nat) (x : Vector Word 32) : (w.setV n x).status = w.status := rfl
@[simp] theorem Wave.setV_stall (w : Wave) (n : Nat) (x : Vector Word 32) : (w.setV n x).stall = w.stall := rfl
@[simp] theorem Wave.setV_windows (w : Wave) (n : Nat) (x : Vector Word 32) : (w.setV n x).windows = w.windows := rfl
@[simp] theorem Wave.setV_pending (w : Wave) (n : Nat) (x : Vector Word 32) : (w.setV n x).pending = w.pending := rfl
@[simp] theorem Wave.setV_loads (w : Wave) (n : Nat) (x : Vector Word 32) : (w.setV n x).loads = w.loads := rfl
@[simp] theorem Wave.setV_peer (w : Wave) (n : Nat) (x : Vector Word 32) : (w.setV n x).peer = w.peer := rfl
@[simp] theorem Wave.setV_placed (w : Wave) (n : Nat) (x : Vector Word 32) : (w.setV n x).placed = w.placed := rfl
@[simp] theorem Wave.setV_sheaf (w : Wave) (n : Nat) (x : Vector Word 32) : (w.setV n x).sheaf = w.sheaf := rfl
@[simp] theorem Wave.setV_pair (w : Wave) (n : Nat) (x : Vector Word 32) : (w.setV n x).pair = w.pair := rfl
@[simp] theorem Wave.setV_lastFault (w : Wave) (n : Nat) (x : Vector Word 32) : (w.setV n x).lastFault = w.lastFault := rfl

@[simp] theorem Wave.setS_ctag (w : Wave) (n : Nat) (x : DWord) : (w.setS n x).ctag = w.ctag := by unfold Wave.setS; split <;> rfl
@[simp] theorem Wave.setS_group (w : Wave) (n : Nat) (x : DWord) : (w.setS n x).group = w.group := by unfold Wave.setS; split <;> rfl
@[simp] theorem Wave.setS_wslot (w : Wave) (n : Nat) (x : DWord) : (w.setS n x).wslot = w.wslot := by unfold Wave.setS; split <;> rfl
@[simp] theorem Wave.setS_waveId (w : Wave) (n : Nat) (x : DWord) : (w.setS n x).waveId = w.waveId := by unfold Wave.setS; split <;> rfl
@[simp] theorem Wave.setS_v (w : Wave) (n : Nat) (x : DWord) : (w.setS n x).v = w.v := by unfold Wave.setS; split <;> rfl
@[simp] theorem Wave.setS_p (w : Wave) (n : Nat) (x : DWord) : (w.setS n x).p = w.p := by unfold Wave.setS; split <;> rfl
@[simp] theorem Wave.setS_c (w : Wave) (n : Nat) (x : DWord) : (w.setS n x).c = w.c := by unfold Wave.setS; split <;> rfl
@[simp] theorem Wave.setS_z (w : Wave) (n : Nat) (x : DWord) : (w.setS n x).z = w.z := by unfold Wave.setS; split <;> rfl
@[simp] theorem Wave.setS_vf (w : Wave) (n : Nat) (x : DWord) : (w.setS n x).vf = w.vf := by unfold Wave.setS; split <;> rfl
@[simp] theorem Wave.setS_pc (w : Wave) (n : Nat) (x : DWord) : (w.setS n x).pc = w.pc := by unfold Wave.setS; split <;> rfl
@[simp] theorem Wave.setS_bt (w : Wave) (n : Nat) (x : DWord) : (w.setS n x).bt = w.bt := by unfold Wave.setS; split <;> rfl
@[simp] theorem Wave.setS_lt (w : Wave) (n : Nat) (x : DWord) : (w.setS n x).lt = w.lt := by unfold Wave.setS; split <;> rfl
@[simp] theorem Wave.setS_lc (w : Wave) (n : Nat) (x : DWord) : (w.setS n x).lc = w.lc := by unfold Wave.setS; split <;> rfl
@[simp] theorem Wave.setS_mode (w : Wave) (n : Nat) (x : DWord) : (w.setS n x).mode = w.mode := by unfold Wave.setS; split <;> rfl
@[simp] theorem Wave.setS_live (w : Wave) (n : Nat) (x : DWord) : (w.setS n x).live = w.live := by unfold Wave.setS; split <;> rfl
@[simp] theorem Wave.setS_pev (w : Wave) (n : Nat) (x : DWord) : (w.setS n x).pev = w.pev := by unfold Wave.setS; split <;> rfl
@[simp] theorem Wave.setS_evm (w : Wave) (n : Nat) (x : DWord) : (w.setS n x).evm = w.evm := by unfold Wave.setS; split <;> rfl
@[simp] theorem Wave.setS_slots (w : Wave) (n : Nat) (x : DWord) : (w.setS n x).slots = w.slots := by unfold Wave.setS; split <;> rfl
@[simp] theorem Wave.setS_cyc (w : Wave) (n : Nat) (x : DWord) : (w.setS n x).cyc = w.cyc := by unfold Wave.setS; split <;> rfl
@[simp] theorem Wave.setS_cbar (w : Wave) (n : Nat) (x : DWord) : (w.setS n x).cbar = w.cbar := by unfold Wave.setS; split <;> rfl
@[simp] theorem Wave.setS_copyErr (w : Wave) (n : Nat) (x : DWord) : (w.setS n x).copyErr = w.copyErr := by unfold Wave.setS; split <;> rfl
@[simp] theorem Wave.setS_trap (w : Wave) (n : Nat) (x : DWord) : (w.setS n x).trap = w.trap := by unfold Wave.setS; split <;> rfl
@[simp] theorem Wave.setS_shadow (w : Wave) (n : Nat) (x : DWord) : (w.setS n x).shadow = w.shadow := by unfold Wave.setS; split <;> rfl
@[simp] theorem Wave.setS_handler (w : Wave) (n : Nat) (x : DWord) : (w.setS n x).handler = w.handler := by unfold Wave.setS; split <;> rfl
@[simp] theorem Wave.setS_preemptEntry (w : Wave) (n : Nat) (x : DWord) : (w.setS n x).preemptEntry = w.preemptEntry := by unfold Wave.setS; split <;> rfl
@[simp] theorem Wave.setS_preempt (w : Wave) (n : Nat) (x : DWord) : (w.setS n x).preempt = w.preempt := by unfold Wave.setS; split <;> rfl
@[simp] theorem Wave.setS_stepArmed (w : Wave) (n : Nat) (x : DWord) : (w.setS n x).stepArmed = w.stepArmed := by unfold Wave.setS; split <;> rfl
@[simp] theorem Wave.setS_stepDone (w : Wave) (n : Nat) (x : DWord) : (w.setS n x).stepDone = w.stepDone := by unfold Wave.setS; split <;> rfl
@[simp] theorem Wave.setS_replay (w : Wave) (n : Nat) (x : DWord) : (w.setS n x).replay = w.replay := by unfold Wave.setS; split <;> rfl
@[simp] theorem Wave.setS_debugHold (w : Wave) (n : Nat) (x : DWord) : (w.setS n x).debugHold = w.debugHold := by unfold Wave.setS; split <;> rfl
@[simp] theorem Wave.setS_pslot (w : Wave) (n : Nat) (x : DWord) : (w.setS n x).pslot = w.pslot := by unfold Wave.setS; split <;> rfl
@[simp] theorem Wave.setS_mailbox (w : Wave) (n : Nat) (x : DWord) : (w.setS n x).mailbox = w.mailbox := by unfold Wave.setS; split <;> rfl
@[simp] theorem Wave.setS_members (w : Wave) (n : Nat) (x : DWord) : (w.setS n x).members = w.members := by unfold Wave.setS; split <;> rfl
@[simp] theorem Wave.setS_ctr (w : Wave) (n : Nat) (x : DWord) : (w.setS n x).ctr = w.ctr := by unfold Wave.setS; split <;> rfl
@[simp] theorem Wave.setS_status (w : Wave) (n : Nat) (x : DWord) : (w.setS n x).status = w.status := by unfold Wave.setS; split <;> rfl
@[simp] theorem Wave.setS_stall (w : Wave) (n : Nat) (x : DWord) : (w.setS n x).stall = w.stall := by unfold Wave.setS; split <;> rfl
@[simp] theorem Wave.setS_windows (w : Wave) (n : Nat) (x : DWord) : (w.setS n x).windows = w.windows := by unfold Wave.setS; split <;> rfl
@[simp] theorem Wave.setS_pending (w : Wave) (n : Nat) (x : DWord) : (w.setS n x).pending = w.pending := by unfold Wave.setS; split <;> rfl
@[simp] theorem Wave.setS_loads (w : Wave) (n : Nat) (x : DWord) : (w.setS n x).loads = w.loads := by unfold Wave.setS; split <;> rfl
@[simp] theorem Wave.setS_peer (w : Wave) (n : Nat) (x : DWord) : (w.setS n x).peer = w.peer := by unfold Wave.setS; split <;> rfl
@[simp] theorem Wave.setS_placed (w : Wave) (n : Nat) (x : DWord) : (w.setS n x).placed = w.placed := by unfold Wave.setS; split <;> rfl
@[simp] theorem Wave.setS_sheaf (w : Wave) (n : Nat) (x : DWord) : (w.setS n x).sheaf = w.sheaf := by unfold Wave.setS; split <;> rfl
@[simp] theorem Wave.setS_pair (w : Wave) (n : Nat) (x : DWord) : (w.setS n x).pair = w.pair := by unfold Wave.setS; split <;> rfl
@[simp] theorem Wave.setS_lastFault (w : Wave) (n : Nat) (x : DWord) : (w.setS n x).lastFault = w.lastFault := by unfold Wave.setS; split <;> rfl

@[simp] theorem Wave.setP_ctag (w : Wave) (n : Nat) (x : Word) : (w.setP n x).ctag = w.ctag := by unfold Wave.setP; split <;> rfl
@[simp] theorem Wave.setP_group (w : Wave) (n : Nat) (x : Word) : (w.setP n x).group = w.group := by unfold Wave.setP; split <;> rfl
@[simp] theorem Wave.setP_wslot (w : Wave) (n : Nat) (x : Word) : (w.setP n x).wslot = w.wslot := by unfold Wave.setP; split <;> rfl
@[simp] theorem Wave.setP_waveId (w : Wave) (n : Nat) (x : Word) : (w.setP n x).waveId = w.waveId := by unfold Wave.setP; split <;> rfl
@[simp] theorem Wave.setP_s (w : Wave) (n : Nat) (x : Word) : (w.setP n x).s = w.s := by unfold Wave.setP; split <;> rfl
@[simp] theorem Wave.setP_v (w : Wave) (n : Nat) (x : Word) : (w.setP n x).v = w.v := by unfold Wave.setP; split <;> rfl
@[simp] theorem Wave.setP_c (w : Wave) (n : Nat) (x : Word) : (w.setP n x).c = w.c := by unfold Wave.setP; split <;> rfl
@[simp] theorem Wave.setP_z (w : Wave) (n : Nat) (x : Word) : (w.setP n x).z = w.z := by unfold Wave.setP; split <;> rfl
@[simp] theorem Wave.setP_vf (w : Wave) (n : Nat) (x : Word) : (w.setP n x).vf = w.vf := by unfold Wave.setP; split <;> rfl
@[simp] theorem Wave.setP_pc (w : Wave) (n : Nat) (x : Word) : (w.setP n x).pc = w.pc := by unfold Wave.setP; split <;> rfl
@[simp] theorem Wave.setP_bt (w : Wave) (n : Nat) (x : Word) : (w.setP n x).bt = w.bt := by unfold Wave.setP; split <;> rfl
@[simp] theorem Wave.setP_lt (w : Wave) (n : Nat) (x : Word) : (w.setP n x).lt = w.lt := by unfold Wave.setP; split <;> rfl
@[simp] theorem Wave.setP_lc (w : Wave) (n : Nat) (x : Word) : (w.setP n x).lc = w.lc := by unfold Wave.setP; split <;> rfl
@[simp] theorem Wave.setP_mode (w : Wave) (n : Nat) (x : Word) : (w.setP n x).mode = w.mode := by unfold Wave.setP; split <;> rfl
@[simp] theorem Wave.setP_live (w : Wave) (n : Nat) (x : Word) : (w.setP n x).live = w.live := by unfold Wave.setP; split <;> rfl
@[simp] theorem Wave.setP_pev (w : Wave) (n : Nat) (x : Word) : (w.setP n x).pev = w.pev := by unfold Wave.setP; split <;> rfl
@[simp] theorem Wave.setP_evm (w : Wave) (n : Nat) (x : Word) : (w.setP n x).evm = w.evm := by unfold Wave.setP; split <;> rfl
@[simp] theorem Wave.setP_slots (w : Wave) (n : Nat) (x : Word) : (w.setP n x).slots = w.slots := by unfold Wave.setP; split <;> rfl
@[simp] theorem Wave.setP_cyc (w : Wave) (n : Nat) (x : Word) : (w.setP n x).cyc = w.cyc := by unfold Wave.setP; split <;> rfl
@[simp] theorem Wave.setP_cbar (w : Wave) (n : Nat) (x : Word) : (w.setP n x).cbar = w.cbar := by unfold Wave.setP; split <;> rfl
@[simp] theorem Wave.setP_copyErr (w : Wave) (n : Nat) (x : Word) : (w.setP n x).copyErr = w.copyErr := by unfold Wave.setP; split <;> rfl
@[simp] theorem Wave.setP_trap (w : Wave) (n : Nat) (x : Word) : (w.setP n x).trap = w.trap := by unfold Wave.setP; split <;> rfl
@[simp] theorem Wave.setP_shadow (w : Wave) (n : Nat) (x : Word) : (w.setP n x).shadow = w.shadow := by unfold Wave.setP; split <;> rfl
@[simp] theorem Wave.setP_handler (w : Wave) (n : Nat) (x : Word) : (w.setP n x).handler = w.handler := by unfold Wave.setP; split <;> rfl
@[simp] theorem Wave.setP_preemptEntry (w : Wave) (n : Nat) (x : Word) : (w.setP n x).preemptEntry = w.preemptEntry := by unfold Wave.setP; split <;> rfl
@[simp] theorem Wave.setP_preempt (w : Wave) (n : Nat) (x : Word) : (w.setP n x).preempt = w.preempt := by unfold Wave.setP; split <;> rfl
@[simp] theorem Wave.setP_stepArmed (w : Wave) (n : Nat) (x : Word) : (w.setP n x).stepArmed = w.stepArmed := by unfold Wave.setP; split <;> rfl
@[simp] theorem Wave.setP_stepDone (w : Wave) (n : Nat) (x : Word) : (w.setP n x).stepDone = w.stepDone := by unfold Wave.setP; split <;> rfl
@[simp] theorem Wave.setP_replay (w : Wave) (n : Nat) (x : Word) : (w.setP n x).replay = w.replay := by unfold Wave.setP; split <;> rfl
@[simp] theorem Wave.setP_debugHold (w : Wave) (n : Nat) (x : Word) : (w.setP n x).debugHold = w.debugHold := by unfold Wave.setP; split <;> rfl
@[simp] theorem Wave.setP_pslot (w : Wave) (n : Nat) (x : Word) : (w.setP n x).pslot = w.pslot := by unfold Wave.setP; split <;> rfl
@[simp] theorem Wave.setP_mailbox (w : Wave) (n : Nat) (x : Word) : (w.setP n x).mailbox = w.mailbox := by unfold Wave.setP; split <;> rfl
@[simp] theorem Wave.setP_members (w : Wave) (n : Nat) (x : Word) : (w.setP n x).members = w.members := by unfold Wave.setP; split <;> rfl
@[simp] theorem Wave.setP_ctr (w : Wave) (n : Nat) (x : Word) : (w.setP n x).ctr = w.ctr := by unfold Wave.setP; split <;> rfl
@[simp] theorem Wave.setP_status (w : Wave) (n : Nat) (x : Word) : (w.setP n x).status = w.status := by unfold Wave.setP; split <;> rfl
@[simp] theorem Wave.setP_stall (w : Wave) (n : Nat) (x : Word) : (w.setP n x).stall = w.stall := by unfold Wave.setP; split <;> rfl
@[simp] theorem Wave.setP_windows (w : Wave) (n : Nat) (x : Word) : (w.setP n x).windows = w.windows := by unfold Wave.setP; split <;> rfl
@[simp] theorem Wave.setP_pending (w : Wave) (n : Nat) (x : Word) : (w.setP n x).pending = w.pending := by unfold Wave.setP; split <;> rfl
@[simp] theorem Wave.setP_loads (w : Wave) (n : Nat) (x : Word) : (w.setP n x).loads = w.loads := by unfold Wave.setP; split <;> rfl
@[simp] theorem Wave.setP_peer (w : Wave) (n : Nat) (x : Word) : (w.setP n x).peer = w.peer := by unfold Wave.setP; split <;> rfl
@[simp] theorem Wave.setP_placed (w : Wave) (n : Nat) (x : Word) : (w.setP n x).placed = w.placed := by unfold Wave.setP; split <;> rfl
@[simp] theorem Wave.setP_sheaf (w : Wave) (n : Nat) (x : Word) : (w.setP n x).sheaf = w.sheaf := by unfold Wave.setP; split <;> rfl
@[simp] theorem Wave.setP_pair (w : Wave) (n : Nat) (x : Word) : (w.setP n x).pair = w.pair := by unfold Wave.setP; split <;> rfl
@[simp] theorem Wave.setP_lastFault (w : Wave) (n : Nat) (x : Word) : (w.setP n x).lastFault = w.lastFault := by unfold Wave.setP; split <;> rfl

@[simp] theorem Wave.complete_ctag (w : Wave) (k : Byte) (v : Nat) : (w.complete k v).ctag = w.ctag := rfl
@[simp] theorem Wave.complete_group (w : Wave) (k : Byte) (v : Nat) : (w.complete k v).group = w.group := rfl
@[simp] theorem Wave.complete_wslot (w : Wave) (k : Byte) (v : Nat) : (w.complete k v).wslot = w.wslot := rfl
@[simp] theorem Wave.complete_waveId (w : Wave) (k : Byte) (v : Nat) : (w.complete k v).waveId = w.waveId := rfl
@[simp] theorem Wave.complete_s (w : Wave) (k : Byte) (v : Nat) : (w.complete k v).s = w.s := rfl
@[simp] theorem Wave.complete_v (w : Wave) (k : Byte) (v : Nat) : (w.complete k v).v = w.v := rfl
@[simp] theorem Wave.complete_p (w : Wave) (k : Byte) (v : Nat) : (w.complete k v).p = w.p := rfl
@[simp] theorem Wave.complete_c (w : Wave) (k : Byte) (v : Nat) : (w.complete k v).c = w.c := rfl
@[simp] theorem Wave.complete_z (w : Wave) (k : Byte) (v : Nat) : (w.complete k v).z = w.z := rfl
@[simp] theorem Wave.complete_vf (w : Wave) (k : Byte) (v : Nat) : (w.complete k v).vf = w.vf := rfl
@[simp] theorem Wave.complete_pc (w : Wave) (k : Byte) (v : Nat) : (w.complete k v).pc = w.pc := rfl
@[simp] theorem Wave.complete_bt (w : Wave) (k : Byte) (v : Nat) : (w.complete k v).bt = w.bt := rfl
@[simp] theorem Wave.complete_lt (w : Wave) (k : Byte) (v : Nat) : (w.complete k v).lt = w.lt := rfl
@[simp] theorem Wave.complete_lc (w : Wave) (k : Byte) (v : Nat) : (w.complete k v).lc = w.lc := rfl
@[simp] theorem Wave.complete_mode (w : Wave) (k : Byte) (v : Nat) : (w.complete k v).mode = w.mode := rfl
@[simp] theorem Wave.complete_live (w : Wave) (k : Byte) (v : Nat) : (w.complete k v).live = w.live := rfl
@[simp] theorem Wave.complete_pev (w : Wave) (k : Byte) (v : Nat) : (w.complete k v).pev = w.pev := rfl
@[simp] theorem Wave.complete_evm (w : Wave) (k : Byte) (v : Nat) : (w.complete k v).evm = w.evm := rfl
@[simp] theorem Wave.complete_slots (w : Wave) (k : Byte) (v : Nat) : (w.complete k v).slots = w.slots := rfl
@[simp] theorem Wave.complete_cyc (w : Wave) (k : Byte) (v : Nat) : (w.complete k v).cyc = w.cyc := rfl
@[simp] theorem Wave.complete_cbar (w : Wave) (k : Byte) (v : Nat) : (w.complete k v).cbar = w.cbar := rfl
@[simp] theorem Wave.complete_copyErr (w : Wave) (k : Byte) (v : Nat) : (w.complete k v).copyErr = w.copyErr := rfl
@[simp] theorem Wave.complete_trap (w : Wave) (k : Byte) (v : Nat) : (w.complete k v).trap = w.trap := rfl
@[simp] theorem Wave.complete_shadow (w : Wave) (k : Byte) (v : Nat) : (w.complete k v).shadow = w.shadow := rfl
@[simp] theorem Wave.complete_handler (w : Wave) (k : Byte) (v : Nat) : (w.complete k v).handler = w.handler := rfl
@[simp] theorem Wave.complete_preemptEntry (w : Wave) (k : Byte) (v : Nat) : (w.complete k v).preemptEntry = w.preemptEntry := rfl
@[simp] theorem Wave.complete_preempt (w : Wave) (k : Byte) (v : Nat) : (w.complete k v).preempt = w.preempt := rfl
@[simp] theorem Wave.complete_debugHold (w : Wave) (k : Byte) (v : Nat) : (w.complete k v).debugHold = w.debugHold := rfl
@[simp] theorem Wave.complete_pslot (w : Wave) (k : Byte) (v : Nat) : (w.complete k v).pslot = w.pslot := rfl
@[simp] theorem Wave.complete_mailbox (w : Wave) (k : Byte) (v : Nat) : (w.complete k v).mailbox = w.mailbox := rfl
@[simp] theorem Wave.complete_members (w : Wave) (k : Byte) (v : Nat) : (w.complete k v).members = w.members := rfl
@[simp] theorem Wave.complete_status (w : Wave) (k : Byte) (v : Nat) : (w.complete k v).status = w.status := rfl
@[simp] theorem Wave.complete_stall (w : Wave) (k : Byte) (v : Nat) : (w.complete k v).stall = w.stall := rfl
@[simp] theorem Wave.complete_windows (w : Wave) (k : Byte) (v : Nat) : (w.complete k v).windows = w.windows := rfl
@[simp] theorem Wave.complete_pending (w : Wave) (k : Byte) (v : Nat) : (w.complete k v).pending = w.pending := rfl
@[simp] theorem Wave.complete_loads (w : Wave) (k : Byte) (v : Nat) : (w.complete k v).loads = w.loads := rfl
@[simp] theorem Wave.complete_peer (w : Wave) (k : Byte) (v : Nat) : (w.complete k v).peer = w.peer := rfl
@[simp] theorem Wave.complete_placed (w : Wave) (k : Byte) (v : Nat) : (w.complete k v).placed = w.placed := rfl
@[simp] theorem Wave.complete_sheaf (w : Wave) (k : Byte) (v : Nat) : (w.complete k v).sheaf = w.sheaf := rfl
@[simp] theorem Wave.complete_lastFault (w : Wave) (k : Byte) (v : Nat) : (w.complete k v).lastFault = w.lastFault := rfl

theorem nx_cases (nx : BitVec 2) : nx = 0#2 ∨ nx = 1#2 ∨ nx = 2#2 ∨ nx = 3#2 := by
  revert nx
  decide

@[simp] theorem Wave.next_ctag (w : Wave) (nx : BitVec 2) : (w.next nx).ctag = w.ctag := by unfold Wave.next; split <;> rfl
@[simp] theorem Wave.next_group (w : Wave) (nx : BitVec 2) : (w.next nx).group = w.group := by unfold Wave.next; split <;> rfl
@[simp] theorem Wave.next_wslot (w : Wave) (nx : BitVec 2) : (w.next nx).wslot = w.wslot := by unfold Wave.next; split <;> rfl
@[simp] theorem Wave.next_waveId (w : Wave) (nx : BitVec 2) : (w.next nx).waveId = w.waveId := by unfold Wave.next; split <;> rfl
@[simp] theorem Wave.next_s (w : Wave) (nx : BitVec 2) : (w.next nx).s = w.s := by unfold Wave.next; split <;> rfl
@[simp] theorem Wave.next_v (w : Wave) (nx : BitVec 2) : (w.next nx).v = w.v := by unfold Wave.next; split <;> rfl
@[simp] theorem Wave.next_p (w : Wave) (nx : BitVec 2) : (w.next nx).p = w.p := by unfold Wave.next; split <;> rfl
@[simp] theorem Wave.next_c (w : Wave) (nx : BitVec 2) : (w.next nx).c = w.c := by unfold Wave.next; split <;> rfl
@[simp] theorem Wave.next_z (w : Wave) (nx : BitVec 2) : (w.next nx).z = w.z := by unfold Wave.next; split <;> rfl
@[simp] theorem Wave.next_vf (w : Wave) (nx : BitVec 2) : (w.next nx).vf = w.vf := by unfold Wave.next; split <;> rfl
@[simp] theorem Wave.next_bt (w : Wave) (nx : BitVec 2) : (w.next nx).bt = w.bt := by unfold Wave.next; split <;> rfl
@[simp] theorem Wave.next_lt (w : Wave) (nx : BitVec 2) : (w.next nx).lt = w.lt := by unfold Wave.next; split <;> rfl
@[simp] theorem Wave.next_mode (w : Wave) (nx : BitVec 2) : (w.next nx).mode = w.mode := by unfold Wave.next; split <;> rfl
@[simp] theorem Wave.next_live (w : Wave) (nx : BitVec 2) : (w.next nx).live = w.live := by unfold Wave.next; split <;> rfl
@[simp] theorem Wave.next_pev (w : Wave) (nx : BitVec 2) : (w.next nx).pev = w.pev := by unfold Wave.next; split <;> rfl
@[simp] theorem Wave.next_evm (w : Wave) (nx : BitVec 2) : (w.next nx).evm = w.evm := by unfold Wave.next; split <;> rfl
@[simp] theorem Wave.next_slots (w : Wave) (nx : BitVec 2) : (w.next nx).slots = w.slots := by unfold Wave.next; split <;> rfl
@[simp] theorem Wave.next_cyc (w : Wave) (nx : BitVec 2) : (w.next nx).cyc = w.cyc := by unfold Wave.next; split <;> rfl
@[simp] theorem Wave.next_cbar (w : Wave) (nx : BitVec 2) : (w.next nx).cbar = w.cbar := by unfold Wave.next; split <;> rfl
@[simp] theorem Wave.next_copyErr (w : Wave) (nx : BitVec 2) : (w.next nx).copyErr = w.copyErr := by unfold Wave.next; split <;> rfl
@[simp] theorem Wave.next_trap (w : Wave) (nx : BitVec 2) : (w.next nx).trap = w.trap := by unfold Wave.next; split <;> rfl
@[simp] theorem Wave.next_shadow (w : Wave) (nx : BitVec 2) : (w.next nx).shadow = w.shadow := by unfold Wave.next; split <;> rfl
@[simp] theorem Wave.next_handler (w : Wave) (nx : BitVec 2) : (w.next nx).handler = w.handler := by unfold Wave.next; split <;> rfl
@[simp] theorem Wave.next_preemptEntry (w : Wave) (nx : BitVec 2) : (w.next nx).preemptEntry = w.preemptEntry := by unfold Wave.next; split <;> rfl
@[simp] theorem Wave.next_preempt (w : Wave) (nx : BitVec 2) : (w.next nx).preempt = w.preempt := by unfold Wave.next; split <;> rfl
@[simp] theorem Wave.next_stepArmed (w : Wave) (nx : BitVec 2) : (w.next nx).stepArmed = w.stepArmed := by unfold Wave.next; split <;> rfl
@[simp] theorem Wave.next_stepDone (w : Wave) (nx : BitVec 2) : (w.next nx).stepDone = w.stepDone := by unfold Wave.next; split <;> rfl
@[simp] theorem Wave.next_replay (w : Wave) (nx : BitVec 2) : (w.next nx).replay = w.replay := by unfold Wave.next; split <;> rfl
@[simp] theorem Wave.next_debugHold (w : Wave) (nx : BitVec 2) : (w.next nx).debugHold = w.debugHold := by unfold Wave.next; split <;> rfl
@[simp] theorem Wave.next_pslot (w : Wave) (nx : BitVec 2) : (w.next nx).pslot = w.pslot := by unfold Wave.next; split <;> rfl
@[simp] theorem Wave.next_mailbox (w : Wave) (nx : BitVec 2) : (w.next nx).mailbox = w.mailbox := by unfold Wave.next; split <;> rfl
@[simp] theorem Wave.next_members (w : Wave) (nx : BitVec 2) : (w.next nx).members = w.members := by unfold Wave.next; split <;> rfl
@[simp] theorem Wave.next_ctr (w : Wave) (nx : BitVec 2) : (w.next nx).ctr = w.ctr := by unfold Wave.next; split <;> rfl
@[simp] theorem Wave.next_status (w : Wave) (nx : BitVec 2) : (w.next nx).status = w.status := by unfold Wave.next; split <;> rfl
@[simp] theorem Wave.next_stall (w : Wave) (nx : BitVec 2) : (w.next nx).stall = w.stall := by unfold Wave.next; split <;> rfl
@[simp] theorem Wave.next_windows (w : Wave) (nx : BitVec 2) : (w.next nx).windows = w.windows := by unfold Wave.next; split <;> rfl
@[simp] theorem Wave.next_pending (w : Wave) (nx : BitVec 2) : (w.next nx).pending = w.pending := by unfold Wave.next; split <;> rfl
@[simp] theorem Wave.next_loads (w : Wave) (nx : BitVec 2) : (w.next nx).loads = w.loads := by unfold Wave.next; split <;> rfl
@[simp] theorem Wave.next_peer (w : Wave) (nx : BitVec 2) : (w.next nx).peer = w.peer := by unfold Wave.next; split <;> rfl
@[simp] theorem Wave.next_placed (w : Wave) (nx : BitVec 2) : (w.next nx).placed = w.placed := by unfold Wave.next; split <;> rfl
@[simp] theorem Wave.next_sheaf (w : Wave) (nx : BitVec 2) : (w.next nx).sheaf = w.sheaf := by unfold Wave.next; split <;> rfl
@[simp] theorem Wave.next_pair (w : Wave) (nx : BitVec 2) : (w.next nx).pair = w.pair := by unfold Wave.next; split <;> rfl
@[simp] theorem Wave.next_lastFault (w : Wave) (nx : BitVec 2) : (w.next nx).lastFault = w.lastFault := by unfold Wave.next; split <;> rfl

@[simp] theorem Wave.finish_ctag (w : Wave) (nx : BitVec 2) : (w.finish nx).ctag = w.ctag := by simp [Wave.finish]
@[simp] theorem Wave.finish_group (w : Wave) (nx : BitVec 2) : (w.finish nx).group = w.group := by simp [Wave.finish]
@[simp] theorem Wave.finish_wslot (w : Wave) (nx : BitVec 2) : (w.finish nx).wslot = w.wslot := by simp [Wave.finish]
@[simp] theorem Wave.finish_waveId (w : Wave) (nx : BitVec 2) : (w.finish nx).waveId = w.waveId := by simp [Wave.finish]
@[simp] theorem Wave.finish_s (w : Wave) (nx : BitVec 2) : (w.finish nx).s = w.s := by simp [Wave.finish]
@[simp] theorem Wave.finish_v (w : Wave) (nx : BitVec 2) : (w.finish nx).v = w.v := by simp [Wave.finish]
@[simp] theorem Wave.finish_p (w : Wave) (nx : BitVec 2) : (w.finish nx).p = w.p := by simp [Wave.finish]
@[simp] theorem Wave.finish_c (w : Wave) (nx : BitVec 2) : (w.finish nx).c = w.c := by simp [Wave.finish]
@[simp] theorem Wave.finish_z (w : Wave) (nx : BitVec 2) : (w.finish nx).z = w.z := by simp [Wave.finish]
@[simp] theorem Wave.finish_vf (w : Wave) (nx : BitVec 2) : (w.finish nx).vf = w.vf := by simp [Wave.finish]
@[simp] theorem Wave.finish_bt (w : Wave) (nx : BitVec 2) : (w.finish nx).bt = w.bt := by simp [Wave.finish]
@[simp] theorem Wave.finish_lt (w : Wave) (nx : BitVec 2) : (w.finish nx).lt = w.lt := by simp [Wave.finish]
@[simp] theorem Wave.finish_mode (w : Wave) (nx : BitVec 2) : (w.finish nx).mode = w.mode := by simp [Wave.finish]
@[simp] theorem Wave.finish_live (w : Wave) (nx : BitVec 2) : (w.finish nx).live = w.live := by simp [Wave.finish]
@[simp] theorem Wave.finish_pev (w : Wave) (nx : BitVec 2) : (w.finish nx).pev = w.pev := by simp [Wave.finish]
@[simp] theorem Wave.finish_evm (w : Wave) (nx : BitVec 2) : (w.finish nx).evm = w.evm := by simp [Wave.finish]
@[simp] theorem Wave.finish_slots (w : Wave) (nx : BitVec 2) : (w.finish nx).slots = w.slots := by simp [Wave.finish]
@[simp] theorem Wave.finish_cyc (w : Wave) (nx : BitVec 2) : (w.finish nx).cyc = w.cyc := by simp [Wave.finish]
@[simp] theorem Wave.finish_cbar (w : Wave) (nx : BitVec 2) : (w.finish nx).cbar = w.cbar := by simp [Wave.finish]
@[simp] theorem Wave.finish_copyErr (w : Wave) (nx : BitVec 2) : (w.finish nx).copyErr = w.copyErr := by simp [Wave.finish]
@[simp] theorem Wave.finish_trap (w : Wave) (nx : BitVec 2) : (w.finish nx).trap = w.trap := by simp [Wave.finish]
@[simp] theorem Wave.finish_shadow (w : Wave) (nx : BitVec 2) : (w.finish nx).shadow = w.shadow := by simp [Wave.finish]
@[simp] theorem Wave.finish_handler (w : Wave) (nx : BitVec 2) : (w.finish nx).handler = w.handler := by simp [Wave.finish]
@[simp] theorem Wave.finish_preemptEntry (w : Wave) (nx : BitVec 2) : (w.finish nx).preemptEntry = w.preemptEntry := by simp [Wave.finish]
@[simp] theorem Wave.finish_preempt (w : Wave) (nx : BitVec 2) : (w.finish nx).preempt = w.preempt := by simp [Wave.finish]
@[simp] theorem Wave.finish_debugHold (w : Wave) (nx : BitVec 2) : (w.finish nx).debugHold = w.debugHold := by simp [Wave.finish]
@[simp] theorem Wave.finish_pslot (w : Wave) (nx : BitVec 2) : (w.finish nx).pslot = w.pslot := by simp [Wave.finish]
@[simp] theorem Wave.finish_mailbox (w : Wave) (nx : BitVec 2) : (w.finish nx).mailbox = w.mailbox := by simp [Wave.finish]
@[simp] theorem Wave.finish_members (w : Wave) (nx : BitVec 2) : (w.finish nx).members = w.members := by simp [Wave.finish]
@[simp] theorem Wave.finish_status (w : Wave) (nx : BitVec 2) : (w.finish nx).status = w.status := by simp [Wave.finish]
@[simp] theorem Wave.finish_stall (w : Wave) (nx : BitVec 2) : (w.finish nx).stall = w.stall := by simp [Wave.finish]
@[simp] theorem Wave.finish_windows (w : Wave) (nx : BitVec 2) : (w.finish nx).windows = w.windows := by simp [Wave.finish]
@[simp] theorem Wave.finish_pending (w : Wave) (nx : BitVec 2) : (w.finish nx).pending = w.pending := by simp [Wave.finish]
@[simp] theorem Wave.finish_loads (w : Wave) (nx : BitVec 2) : (w.finish nx).loads = w.loads := by simp [Wave.finish]
@[simp] theorem Wave.finish_peer (w : Wave) (nx : BitVec 2) : (w.finish nx).peer = w.peer := by simp [Wave.finish]
@[simp] theorem Wave.finish_placed (w : Wave) (nx : BitVec 2) : (w.finish nx).placed = w.placed := by simp [Wave.finish]
@[simp] theorem Wave.finish_sheaf (w : Wave) (nx : BitVec 2) : (w.finish nx).sheaf = w.sheaf := by simp [Wave.finish]
@[simp] theorem Wave.finish_lastFault (w : Wave) (nx : BitVec 2) : (w.finish nx).lastFault = w.lastFault := by simp [Wave.finish]

/-- A wave written is the wave read. -/
@[simp] theorem lookup_put_self {α : Type} (m : AMap α) (k : Nat) (a : α) : lookup (put m k a) k = some a := by
  induction m with
  | nil => simp [put, lookup]
  | cons e t ih =>
    obtain ⟨j, b⟩ := e
    by_cases h : j = k <;> simp [put, lookup, h, ih]

/-- Another key of a map keeps its value. -/
theorem lookup_put_ne {α : Type} (m : AMap α) {k j : Nat} (a : α) (h : j ≠ k) : lookup (put m k a) j = lookup m j := by
  induction m with
  | nil => simp [put, lookup, Ne.symm h]
  | cons e t ih =>
    obtain ⟨i, b⟩ := e
    by_cases hi : i = k
    · subst hi
      simp [put, lookup, Ne.symm h]
    · simp [put, lookup, hi, ih]

@[simp] theorem waveOf_setWave (s : State) (u : Nat) (w : Wave) : waveOf (setWave s u w) u = w := by simp [waveOf]

theorem lookup_setWave_ne (s : State) {u v : Nat} (w : Wave) (h : v ≠ u) : lookup (setWave s u w).waves v = lookup s.waves v :=
  lookup_put_ne _ _ h

@[simp] theorem coreOf_setCore (s : State) (c : Nat) (k : Core) : coreOf (setCore s c k) c = k := by simp [coreOf]

theorem coreOf_setCore_ne (s : State) {c d : Nat} (k : Core) (h : d ≠ c) : coreOf (setCore s c k) d = coreOf s d := by
  simp [coreOf, lookup_put_ne _ _ h]

@[simp] theorem dieOf_setDie (s : State) (d : Nat) (k : Die) : dieOf (setDie s d k) d = k := by simp [dieOf]

@[simp] theorem groupOf_setGroup (s : State) (g : Nat) (k : Group) : groupOf (setGroup s g k) g = k := by simp [groupOf]

@[simp] theorem ctxOf_setCtx (s : State) (c : Nat) (k : Context) : ctxOf (setCtx s c k) c = k := by simp [ctxOf]

/-- Reading an entry of a vector after a write to it. -/
theorem vector_getD_set {α : Type} {n : Nat} (v : Vector α n) (d k : Nat) (x e : α) :
    (v.setIfInBounds d x).toList.getD k e = if k = d ∧ d < n then x else v.toList.getD k e := by
  simp only [List.getD]
  simp [List.getElem?_set]
  by_cases h : d = k
  · subst h
    by_cases h2 : d < n <;> simp [h2]
  · simp [h, Ne.symm h]

/-- R222: s0 discards writes. -/
@[simp] theorem Wave.setS_zero (w : Wave) (x : DWord) : w.setS 0 x = w := rfl
/-- R222: s0 reads zero. -/
@[simp] theorem Wave.sreg_zero (w : Wave) : w.sreg 0 = 0#64 := rfl
/-- R222: p0 discards writes. -/
@[simp] theorem Wave.setP_zero (w : Wave) (x : Word) : w.setP 0 x = w := rfl
/-- R222: p0 reads all ones. -/
@[simp] theorem Wave.preg_zero (w : Wave) : w.preg 0 = 0xFFFFFFFF#32 := rfl

theorem Wave.sreg_setS (w : Wave) {d k : Nat} (x : DWord) (hd : d < 64) :
    (w.setS d x).sreg k = if k = d ∧ d ≠ 0 then x else w.sreg k := by
  by_cases h : d = 0
  · simp [h]
  · simp only [Wave.setS, h, if_false, Wave.sreg, vector_getD_set, hd, and_true]
    by_cases hk : k = d
    · subst hk
      simp [h]
    · simp [hk]

theorem Wave.vreg_setV (w : Wave) {d k : Nat} (x : Vector Word 32) (hd : d < 64) :
    (w.setV d x).vreg k = if k = d then x else w.vreg k := by
  simp only [Wave.setV, Wave.vreg, vector_getD_set, hd, and_true]

theorem Wave.preg_setP (w : Wave) {d k : Nat} (x : Word) (hd : d < 8) :
    (w.setP d x).preg k = if k = d ∧ d ≠ 0 then x else w.preg k := by
  by_cases h : d = 0
  · simp [h]
  · simp only [Wave.setP, h, if_false, Wave.preg, vector_getD_set, hd, and_true]
    by_cases hk : k = d
    · subst hk
      simp [h]
    · simp [hk]

end Sys2Proof
end

