-- ==== Sys2Proof/Laws/Memory.lean ====
section
/-! SUPPORT. Sys2Proof/Laws/Memory.lean: memory keeps its canonical form under every operation on it, and reads give what was written. -/
namespace Sys2Proof
open Machine

theorem cellGet_cellPut (m : List Host.Cell) (a k : Nat) (b : Byte) :
    cellGet (cellPut m a b) k = if k = a then some b else cellGet m k := by
  induction m with
  | nil => by_cases h : a = k <;> simp [cellPut, cellGet, h, eq_comm]
  | cons e t ih =>
    obtain ⟨j, c⟩ := e
    simp only [cellPut]
    split
    · by_cases h : a = k <;> simp [cellGet, h, eq_comm]
    · split
      · subst_vars
        by_cases h : j = k
        · simp [cellGet, h]
        · simp [cellGet, h, Ne.symm h]
      · by_cases h : j = k
        · subst h
          simp [cellGet, *]
        · simp [cellGet, h, ih]

theorem cellGet_cellDel_ne (m : List Host.Cell) {a k : Nat} (h : k ≠ a) : cellGet (cellDel m a) k = cellGet m k := by
  induction m with
  | nil => rfl
  | cons e t ih =>
    obtain ⟨j, c⟩ := e
    simp only [cellDel]
    split
    · subst_vars
      simp [cellGet, Ne.symm h]
    · by_cases hj : j = k <;> simp [cellGet, hj, ih]

theorem risingFrom_mono {lo hi : Option Nat} {m : List Host.Cell} (h : risingFrom hi m = true)
    (hl : ∀ x, lo = some x → ∃ y, hi = some y ∧ x ≤ y) : risingFrom lo m = true := by
  cases m with
  | nil => rfl
  | cons e t =>
    obtain ⟨j, c⟩ := e
    simp only [risingFrom, Bool.and_eq_true] at h ⊢
    refine ⟨?_, h.2⟩
    cases lo with
    | none => rfl
    | some x =>
      obtain ⟨y, rfl, hy⟩ := hl x rfl
      simp only [decide_eq_true_eq] at h ⊢
      omega

theorem risingFrom_cellPut {lo : Option Nat} {m : List Host.Cell} (a : Nat) (b : Byte) (h : risingFrom lo m = true)
    (hl : ∀ x, lo = some x → x < a) : risingFrom lo (cellPut m a b) = true := by
  induction m generalizing lo with
  | nil =>
    cases lo with
    | none => rfl
    | some x => simp [cellPut, risingFrom, hl x rfl]
  | cons e t ih =>
    obtain ⟨j, c⟩ := e
    simp only [risingFrom, Bool.and_eq_true] at h
    simp only [cellPut]
    split
    · have hj : (match some a with | none => true | some l => decide (l < j)) = true := by simpa using ‹a < j›
      simp only [risingFrom, Bool.and_eq_true]
      refine ⟨?_, hj, h.2⟩
      cases lo with
      | none => rfl
      | some x => simpa using hl x rfl
    · split
      · subst_vars
        simp_all [risingFrom]
      · simp only [risingFrom, Bool.and_eq_true]
        refine ⟨h.1, ih h.2 ?_⟩
        simp only [Option.some.injEq]
        omega

theorem risingFrom_cellDel {lo : Option Nat} {m : List Host.Cell} (a : Nat) (h : risingFrom lo m = true) :
    risingFrom lo (cellDel m a) = true := by
  induction m generalizing lo with
  | nil => rfl
  | cons e t ih =>
    obtain ⟨j, c⟩ := e
    simp only [risingFrom, Bool.and_eq_true] at h
    simp only [cellDel]
    split
    · refine risingFrom_mono h.2 fun x hx => ⟨j, rfl, ?_⟩
      subst hx
      have := h.1
      simp at this
      omega
    · simp only [risingFrom, Bool.and_eq_true]
      exact ⟨h.1, ih h.2⟩

theorem all_cellPut {m : List Host.Cell} (a : Nat) {b : Byte} (h : m.all (fun c => c.2 != 0#8) = true) (hb : b ≠ 0#8) :
    (cellPut m a b).all (fun c => c.2 != 0#8) = true := by
  induction m with
  | nil => simp [cellPut, hb]
  | cons e t ih =>
    simp only [List.all_cons, Bool.and_eq_true] at h
    simp only [cellPut]
    split
    · simp [h, hb]
    · split
      · simp [h.2, hb]
      · simp [h.1, ih h.2]

theorem all_cellDel {m : List Host.Cell} (a : Nat) (h : m.all (fun c => c.2 != 0#8) = true) :
    (cellDel m a).all (fun c => c.2 != 0#8) = true := by
  induction m with
  | nil => rfl
  | cons e t ih =>
    simp only [List.all_cons, Bool.and_eq_true] at h
    simp only [cellDel]
    split
    · exact h.2
    · simp [h.1, ih h.2]

/-- A write of one byte keeps the canonical form. -/
theorem wf_cellSet {m : List Host.Cell} (a : Nat) (b : Byte) (h : Memory.wf m = true) : Memory.wf (cellSet m a b) = true := by
  simp only [Memory.wf, Bool.and_eq_true] at h ⊢
  simp only [cellSet]
  split
  · exact ⟨risingFrom_cellDel a h.1, all_cellDel a h.2⟩
  · exact ⟨risingFrom_cellPut a b h.1 (by simp), all_cellPut a h.2 ‹_›⟩

/-- A write of bytes keeps the canonical form. -/
theorem wf_memPut {m : List Host.Cell} (k : Nat) (l : List Byte) (h : Memory.wf m = true) : Memory.wf (memPut m k l) = true := by
  induction l generalizing m k with
  | nil => exact h
  | cons b t ih => exact ih (k + 1) (wf_cellSet k b h)

theorem wf_foldSet {m : List Host.Cell} (l : List Host.Cell) (h : Memory.wf m = true) :
    Memory.wf (l.foldl (fun m c => cellSet m c.1 c.2) m) = true := by
  induction l generalizing m with
  | nil => exact h
  | cons c t ih => exact ih (wf_cellSet c.1 c.2 h)

/-- Dropping part of memory keeps the canonical form. -/
theorem risingFrom_filter {lo : Option Nat} {m : List Host.Cell} (p : Host.Cell → Bool) (h : risingFrom lo m = true) :
    risingFrom lo (m.filter p) = true := by
  induction m generalizing lo with
  | nil => rfl
  | cons e t ih =>
    obtain ⟨j, c⟩ := e
    simp only [risingFrom, Bool.and_eq_true] at h
    simp only [List.filter_cons]
    split
    · simp only [risingFrom, Bool.and_eq_true]
      exact ⟨h.1, ih h.2⟩
    · refine risingFrom_mono (ih h.2) fun x hx => ⟨j, rfl, ?_⟩
      subst hx
      have := h.1
      simp at this
      omega

theorem wf_filter {m : List Host.Cell} (p : Host.Cell → Bool) (h : Memory.wf m = true) : Memory.wf (m.filter p) = true := by
  simp only [Memory.wf, Bool.and_eq_true] at h ⊢
  refine ⟨risingFrom_filter p h.1, ?_⟩
  simp only [List.all_eq_true] at h ⊢
  exact fun c hc => h.2 c (List.mem_filter.1 hc).1

@[simp] theorem l2Write_mem (s : State) (k : Nat) (l : List Byte) : (l2Write s k l).mem = s.mem := by
  induction l generalizing s k with
  | nil => rfl
  | cons b t ih => simp only [l2Write, ih]

theorem wf_evictLine (s : State) (line : Nat) (h : Memory.wf s.mem = true) : Memory.wf (evictLine s line).mem = true := wf_foldSet _ h

theorem wf_retag (s : State) (line kid : Nat) (h : Memory.wf s.mem = true) : Memory.wf (retag s line kid).mem = true := by
  unfold retag
  split
  · exact h
  · generalize hb : rekeyLine ((lookup s.tags line).getD s.tagBase) kid line (physBytes (evictLine s line) (line * 128) 128) = b
    simp only [hb]
    split
    · exact h
    · exact wf_memPut _ _ (wf_evictLine s line h)

theorem wf_retagMany (s : State) (line n kid : Nat) (h : Memory.wf s.mem = true) : Memory.wf (retagMany s line n kid).mem = true := by
  induction n generalizing s line with
  | zero => exact h
  | succ n ih => exact ih _ _ (wf_retag s line kid h)

theorem wf_touch (s : State) (kid k n : Nat) (h : Memory.wf s.mem = true) : Memory.wf (touch s kid k n).mem = true := by
  unfold touch
  split
  · exact h
  · exact wf_retagMany _ _ _ _ h

/-- What a request leaves of the state as it enters at a slice: all but what the slices and the host know of the line (R115, R119). -/
theorem seekLine_eq (s : State) (die line : Nat) (wr : Bool) (n : Nat) :
    ∃ r g, seekLine s die line wr n = { s with remote := r, granted := g } := by
  have hg : ∃ g, grantHost s line wr = { s with granted := g } := by
    unfold grantHost
    split
    · exact ⟨_, rfl⟩
    · exact ⟨_, rfl⟩
  obtain ⟨g, hg⟩ := hg
  unfold seekLine
  simp only [hg]
  repeat' split
  all_goals exact ⟨_, _, rfl⟩

@[simp] theorem seekLine_mem (s : State) (die line : Nat) (wr : Bool) (n : Nat) : (seekLine s die line wr n).mem = s.mem := by
  obtain ⟨r, g, h⟩ := seekLine_eq s die line wr n
  rw [h]
@[simp] theorem seekLine_l2 (s : State) (die line : Nat) (wr : Bool) (n : Nat) : (seekLine s die line wr n).l2 = s.l2 := by
  obtain ⟨r, g, h⟩ := seekLine_eq s die line wr n
  rw [h]
@[simp] theorem seekLine_snaps (s : State) (die line : Nat) (wr : Bool) (n : Nat) : (seekLine s die line wr n).snaps = s.snaps := by
  obtain ⟨r, g, h⟩ := seekLine_eq s die line wr n
  rw [h]

theorem recallOwned_mem (s : State) (line : Nat) (c : Option Nat) : (recallOwned s line c).mem = s.mem := by
  unfold recallOwned
  split
  · rfl
  · split <;> rfl

/-- Writes made one after another keep the canonical form when each does. -/
theorem wf_foldl {α : Type} (f : State → α → State) (hf : ∀ t x, Memory.wf t.mem = true → Memory.wf (f t x).mem = true) (l : List α) (s : State)
    (h : Memory.wf s.mem = true) : Memory.wf (l.foldl f s).mem = true := by
  induction l generalizing s with
  | nil => exact h
  | cons x r ih => exact ih _ (hf s x h)

/-- A write at a slice, with the copies aside that come before it, keeps the canonical form. -/
theorem wf_performWrite (fuel : Nat) (s : State) (die : Nat) (src : Option Nat) (kid k : Nat) (l : List Byte) (h : Memory.wf s.mem = true) :
    Memory.wf (performWrite fuel s die src kid k l).mem = true := by
  induction fuel generalizing s die src kid k l with
  | zero => exact h
  | succ f ih =>
    unfold performWrite
    split
    · exact h
    · simp only [markCounted, l2Write_mem]
      apply wf_foldl _ fun t e ht => ih t _ _ _ _ _ ht
      simp only [noteAside, recallOwned_mem, seekLine_mem]
      exact wf_touch _ _ _ _ h

/-- A write that enters at a slice keeps the canonical form. -/
theorem wf_sliceWrite (s : State) (src : Option Nat) (kid k : Nat) (l : List Byte) (h : Memory.wf s.mem = true) :
    Memory.wf (sliceWrite s src kid k l).mem = true := wf_performWrite _ _ _ _ _ _ _ h

/-- A write at the home slice keeps the canonical form. -/
theorem wf_homeWrite (s : State) (src : Option Nat) (kid k : Nat) (l : List Byte) (h : Memory.wf s.mem = true) :
    Memory.wf (homeWrite s src kid k l).mem = true := wf_performWrite _ _ _ _ _ _ _ h

/-- A read at a slice keeps the canonical form. -/
theorem wf_performRead (s : State) (die : Nat) (src : Option Nat) (kid k n : Nat) (h : Memory.wf s.mem = true) :
    Memory.wf (performRead s die src kid k n).1.mem = true := by
  simp only [performRead, recallOwned_mem, seekLine_mem]
  exact wf_touch _ _ _ _ h

/-- A read that enters at a slice keeps the canonical form. -/
theorem wf_sliceRead (s : State) (src : Option Nat) (kid k n : Nat) (h : Memory.wf s.mem = true) :
    Memory.wf (sliceRead s src kid k n).1.mem = true := wf_performRead _ _ _ _ _ _ h

/-- A write by any other agent keeps the canonical form. -/
theorem wf_agentWrite (s : State) (kid k : Nat) (l : List Byte) (h : Memory.wf s.mem = true) : Memory.wf (agentWrite s kid k l).mem = true := by
  exact wf_foldl _ (fun t e ht => wf_sliceWrite t none kid e.1 e.2 ht) _ _ h

/-- An atomic keeps the canonical form. -/
theorem wf_atomicAt (s : State) (src : Option Nat) (kid k n op ty d c : Nat) (h : Memory.wf s.mem = true) :
    Memory.wf (atomicAt s src kid k n op ty d c).1.mem = true := by
  have hr : Memory.wf (homeRead (seekLine (touch s kid k n) (homeOf k) (lineOf k) true n) src kid k n).1.mem = true := by
    apply wf_performRead
    rw [seekLine_mem]
    exact wf_touch _ _ _ _ h
  simp only [atomicAt]
  split
  · exact wf_homeWrite _ _ _ _ _ hr
  · exact hr

theorem wf_onWaveRec (s : State) (u : Nat) (f : Wave → Wave) (h : Memory.wf s.mem = true) : Memory.wf (onWaveRec s u f).mem = true := by
  unfold onWaveRec
  split <;> exact h

/-- A line that fills an L1 leaves the canonical form. -/
theorem wf_fillLine (s : State) (c kid k : Nat) (h : Memory.wf s.mem = true) : Memory.wf (fillLine s c kid k).mem = true :=
  wf_sliceRead s _ _ _ _ h

/-- An entry of a core's path performs without leaving the canonical form. -/
theorem wf_performEntry (s : State) (c : Nat) (e : PathEntry) (h : Memory.wf s.mem = true) : Memory.wf (performEntry s c e).mem = true := by
  cases e with
  | load w key kid n id part =>
    unfold performEntry
    simp only
    split
    · exact wf_onWaveRec _ _ _ (wf_sliceRead s _ _ _ _ h)
    · exact wf_onWaveRec _ _ _ (wf_fillLine s c kid key h)
  | store w key kid b => exact wf_sliceWrite _ _ _ _ _ h
  | l1atomic w key kid b lost =>
    unfold performEntry
    simp only
    split
    · exact h
    · exact wf_sliceWrite _ _ _ _ _ h
  | atomic w key kid n op ty d cc id dst lane =>
    have ha := wf_atomicAt (recallOwned s (lineOf key) none) (some c) kid key n op.toNat ty.toNat d.toNat cc.toNat (by rwa [recallOwned_mem])
    unfold performEntry
    simp only
    apply wf_onWaveRec
    split <;> exact ha

theorem wf_performWay (s : State) (c way : Nat) (h : Memory.wf s.mem = true) : Memory.wf (performWay s c way).mem = true := by
  unfold performWay
  simp only
  split
  · exact h
  · exact wf_performEntry _ _ _ h

/-- What a core's path holds performs without leaving the canonical form. -/
theorem wf_performHead (s : State) (c : Nat) (h : Memory.wf s.mem = true) : Memory.wf (performHead s c).mem = true := by
  unfold performHead
  split
  · exact h
  · exact wf_performWay _ _ _ h

theorem wf_performMany (s : State) (c n : Nat) (h : Memory.wf s.mem = true) : Memory.wf (performMany s c n).mem = true := by
  induction n generalizing s with
  | zero => exact h
  | succ n ih => exact ih _ (wf_performHead s c h)

theorem wf_performWayMany (s : State) (c way n : Nat) (h : Memory.wf s.mem = true) : Memory.wf (performWayMany s c way n).mem = true := by
  induction n generalizing s with
  | zero => exact h
  | succ n ih => exact ih _ (wf_performWay s c way h)

/-- A path drained to one slice leaves the canonical form. -/
theorem wf_drainWay (s : State) (c way : Nat) (h : Memory.wf s.mem = true) : Memory.wf (drainWay s c way).mem = true := wf_performWayMany _ _ _ _ h

/-- What a core has seen early of a line performs without leaving the canonical form. -/
theorem wf_settleEarly (s : State) (c line : Nat) (h : Memory.wf s.mem = true) : Memory.wf (settleEarly s c line).mem = true := by
  unfold settleEarly
  split
  · exact h
  · exact wf_drainWay _ _ _ h

/-- A drained path leaves the canonical form. -/
theorem wf_drainPath (s : State) (c : Nat) (h : Memory.wf s.mem = true) : Memory.wf (drainPath s c).mem = true :=
  wf_foldl _ (fun t l ht => wf_settleEarly t c l ht) _ _ (wf_performMany _ _ _ h)

/-- Reset memory lists nothing. -/
theorem wf_reset : Memory.wf State.reset.mem = true := rfl

/-- A byte read back after bytes were written into an L2. -/
theorem physByte_l2Write (s : State) (k : Nat) (l : List Byte) (a : Nat) :
    physByte (l2Write s k l) a = if k ≤ a ∧ a < k + l.length then l.getD (a - k) 0#8 else physByte s a := by
  induction l generalizing s k with
  | nil =>
    have : ¬(k ≤ a ∧ a < k) := by omega
    simp [l2Write, this]
  | cons b t ih =>
    rw [l2Write, ih]
    by_cases h : a = k
    · subst h
      have : ¬(a + 1 ≤ a) := by omega
      simp [this, physByte, cellGet_cellPut]
    · by_cases h1 : k + 1 ≤ a ∧ a < k + 1 + t.length
      · have h2 : k ≤ a ∧ a < k + (b :: t).length := by simp; omega
        have h3 : a - k = (a - (k + 1)) + 1 := by omega
        rw [if_pos h1, if_pos h2, h3]
        simp
      · have h2 : ¬(k ≤ a ∧ a < k + (b :: t).length) := by simp; omega
        rw [if_neg h1, if_neg h2]
        simp [physByte, cellGet_cellPut, h]

theorem physByte_congr {s t : State} (hm : t.mem = s.mem) (hl : t.l2 = s.l2) (k : Nat) : physByte t k = physByte s k := by
  simp [physByte, hm, hl]

theorem recallOwned_l2 (s : State) (line : Nat) (c : Option Nat) : (recallOwned s line c).l2 = s.l2 := by
  unfold recallOwned
  split
  · rfl
  · split <;> rfl

theorem recallOwned_snaps (s : State) (line : Nat) (c : Option Nat) : (recallOwned s line c).snaps = s.snaps := by
  unfold recallOwned
  split
  · rfl
  · split <;> rfl

theorem retagMany_same (s : State) (line n kid : Nat)
    (h : ∀ i, i < n → isHostKey ((line + i) * 128) = true ∨ (lookup s.tags (line + i)).getD s.tagBase = kid) : retagMany s line n kid = s := by
  induction n generalizing line with
  | zero => rfl
  | succ n ih =>
    have h0 : retag s line kid = s := by
      rcases h 0 (by omega) with h | h
      · simp only [Nat.add_zero] at h
        simp [retag, h]
      · simp only [Nat.add_zero] at h
        simp [retag, h]
    rw [retagMany, h0]
    exact ih (line + 1) fun i hi => by
      have := h (i + 1) (by omega)
      rwa [show line + (i + 1) = line + 1 + i by omega] at this

/-- An extent that stands under its key already is left as it is. -/
theorem touch_same (s : State) (kid k n : Nat) (h : UnderKey s kid k n) : touch s kid k n = s := by
  unfold touch
  split
  · rfl
  · rename_i hn
    refine retagMany_same _ _ _ _ fun i hi => h _ ?_ ?_ <;> (simp only [lineOf] at hi ⊢; omega)

/-- A write at a home slice: the bytes written read as written, every other byte reads as before. -/
theorem sliceWrite_written (s : State) (src : Option Nat) (kid k : Nat) (b : List Byte) (h : UnderKey s kid k b.length) (hs : s.snaps = []) :
    Written s (sliceWrite s src kid k b) k b := by
  intro a
  unfold sliceWrite asideFuel performWrite
  split
  · have : b = [] := by simpa using ‹b.isEmpty = true›
    subst this
    have : ¬(k ≤ a ∧ a < k) := by omega
    simp [this]
  · rw [touch_same s kid k _ h]
    have e : ∀ t : State, t.snaps = [] → asideDue (recallOwned t (lineOf k) src) (lineOf k) = [] := by
      intro t ht
      simp [asideDue, recallOwned_snaps, ht]
    simp only
    rw [e _ ((seekLine_snaps ..).trans hs), List.flatMap_nil, List.foldl_nil,
      physByte_congr (t := markCounted _ _ _ _) (s := l2Write _ k b) rfl rfl, physByte_l2Write,
      physByte_congr (t := noteAside _ _) (s := s) ((recallOwned_mem _ _ _).trans (seekLine_mem ..)) ((recallOwned_l2 _ _ _).trans (seekLine_l2 ..))]

/-- A read at a home slice changes no byte and gives the bytes of memory. -/
theorem sliceRead_bytes (s : State) (src : Option Nat) (kid k n : Nat) (h : UnderKey s kid k n) :
    SameMemory s (sliceRead s src kid k n).1 ∧ (sliceRead s src kid k n).2 = physBytes s k n := by
  have hp : ∀ a, physByte (recallOwned (seekLine s (entryDie src k) (lineOf k) false n) (lineOf k) src) a = physByte s a :=
    physByte_congr ((recallOwned_mem _ _ _).trans (seekLine_mem ..)) ((recallOwned_l2 _ _ _).trans (seekLine_l2 ..))
  have hq : ∀ (t : State), (∀ a, physByte t a = physByte s a) → ∀ n k, physBytes t k n = physBytes s k n := by
    intro t ht n
    induction n with
    | zero => intro k; rfl
    | succ n ih => intro k; simp only [physBytes, ht, ih]
  simp only [sliceRead, performRead, touch_same s kid k n h]
  exact ⟨hp, hq _ hp _ _⟩

end Sys2Proof
end

