-- ==== Sys2Proof/Laws/Ops.lean ====
section
/-! SUPPORT. Sys2Proof/Laws/Ops.lean: for each shared shape of meaning, one lemma that says all that it can do. -/
namespace Sys2Proof
open Machine

theorem onWave_eq {s : State} {w : Wave} (h : lookup s.waves s.cur = some w) (f : Nat → Wave → State) :
    onWave s f = .next (f s.cur w) := by simp [onWave, h]

theorem onWave_noWave {s : State} (h : lookup s.waves s.cur = none) (f : Nat → Wave → State) : onWave s f = .fault .noWave := by
  simp [onWave, h]

theorem regOp_eq {s : State} {w : Wave} (h : lookup s.waves s.cur = some w) (nx : BitVec 2) (f : Wave → Wave) :
    regOp s nx f = .next (setWave s s.cur ((f w).finish nx)) := by simp [regOp, onWave, h]

theorem checked_ok {α : Type} {s : State} {w : Wave} (h : lookup s.waves s.cur = some w) {c : Nat → Wave → Check α} {a : α}
    (hc : c s.cur w = .ok a) (f : Nat → Wave → α → State) : checked s c f = .next (f s.cur w a) := by
  simp [checked, onWave, h, hc]

theorem checked_error {α : Type} {s : State} {w : Wave} (h : lookup s.waves s.cur = some w) {c : Nat → Wave → Check α} {e : Stop}
    (hc : c s.cur w = .error e) (f : Nat → Wave → α → State) : checked s c f = .next (stopWave s s.cur e false) := by
  simp [checked, onWave, h, hc]

theorem checkedLanes_ok {α : Type} {s : State} {w : Wave} (h : lookup s.waves s.cur = some w) {c : Nat → Wave → Check α} {a : α}
    (hc : c s.cur w = .ok a) (f : Nat → Wave → α → State) : checkedLanes s c f = .next (f s.cur w a) := by
  simp [checkedLanes, onWave, h, hc]

theorem checkedLanes_error {α : Type} {s : State} {w : Wave} (h : lookup s.waves s.cur = some w) {c : Nat → Wave → Check α} {e : Stop}
    (hc : c s.cur w = .error e) (f : Nat → Wave → α → State) : checkedLanes s c f = .next (stopWave s s.cur e true) := by
  simp [checkedLanes, onWave, h, hc]

theorem withPeers_none (s : State) (u : Nat) (w : Wave) (p : Placed) (l : Bool) (k : State → List (List Byte) → State) :
    withPeers s u w p [] l k = k s [] := rfl

/-- A meaning written as `regOp` becomes what its function says. -/
theorem becomes_of_regOp {i : Instr} {nx : BitVec 2} {f g : Wave → Wave} (h : ∀ s, exec i s = regOp s nx g) (e : ∀ w, g w = f w) :
    Becomes i nx f := by
  intro s w hw _
  rw [h, regOp_eq hw, e]

theorem writesS_of_regOp {i : Instr} {nx : BitVec 2} {d : BitVec 6} {f : Wave → DWord} (g : Wave → DWord)
    (h : ∀ s, exec i s = regOp s nx fun w => w.setS d.toNat (g w)) (e : ∀ w, g w = f w) : WritesS i nx d f :=
  becomes_of_regOp h fun w => by rw [e]

theorem writesP_of_regOp {i : Instr} {nx : BitVec 2} {d : BitVec 3} {f : Wave → Word} (g : Wave → Word)
    (h : ∀ s, exec i s = regOp s nx fun w => w.setP d.toNat (g w)) (e : ∀ w, g w = f w) : WritesP i nx d f :=
  becomes_of_regOp h fun w => by rw [e]

/-- A meaning written as `vecOp`: what it accepts, what it does, and MODE_INVALID otherwise. -/
theorem vectorBecomes_of_vecOp {i : Instr} {nx : BitVec 2} {ok : Nat → Bool} {p : Nat → Prop} {f g : Wave → Wave}
    (h : ∀ s, exec i s = vecOp s nx ok g) (hp : ∀ t, ok t = true ↔ p t) (e : ∀ w, p w.ty → g w = f w) : VectorBecomes i nx p f := by
  refine ⟨fun s w hw hk => ?_, fun s w hw hk => ?_⟩
  · have := (hp _).2 hk
    rw [h, vecOp, checked_ok hw (a := ()) (by simp [this]), e _ hk]
  · have : ok w.ty = false := by simpa using fun x => hk ((hp _).1 x)
    rw [h, vecOp, checked_error hw (e := modeInvalid s w) (by simp [this])]
    rfl

/-- A meaning written as `llVec`. -/
theorem issuesResult_of_llVec {i : Instr} {nx : BitVec 2} {la : BitVec 4} {ok : Nat → Bool} {p : Nat → Prop} {regs regs' : Wave → List RegName}
    {wr wr' : Wave → List RegWrite} (h : ∀ s, exec i s = llVec s nx la ok regs wr) (hp : ∀ t, ok t = true ↔ p t)
    (er : ∀ w, regs w = regs' w) (ew : ∀ w, p w.ty → wr w = wr' w) : IssuesResult i nx la p regs' wr' := by
  intro s w hw
  refine ⟨fun hk => ?_, fun hk => ?_⟩
  · have := (hp _).2 hk
    rw [h, llVec, checked_ok hw (a := ()) (by simp [this]), er, ew _ hk]
    by_cases hl : la = 0#4 <;> simp [Wave.openWindow, Wave.addResult, hl]
  · have : ok w.ty = false := by simpa using fun x => hk ((hp _).1 x)
    rw [h, llVec, checked_error hw (e := modeInvalid s w) (by simp [this])]
    rfl

end Sys2Proof
end

