-- ==== Sys2Proof/Tests/Slice0.lean ====
section
/-! SUPPORT. Sys2Proof/Tests/Slice0.lean: the author's own tests. Words of the encoding tables decode to their instructions; ill-formed words are
refused; single steps give what the rules give; and for each clause of the obligations a concrete state and operands meet its hypotheses. -/
namespace Sys2Proof.Tests
open Sys2Proof Sys2Proof.Machine

set_option Elab.async false

/-- A wave of group 1 of context 0, at the first word of its code page. -/
def wv : Wave := { group := 1, pc := 0x10000#64 }

/-- A group that is resident on core 0 with eight granules. -/
def gr1 : Group := { state := .resident, pngran := 8, wmask := 1#16 }

/-- A context bound as number 0, whose translations of the pages at 0x10000 and 0x20000 are cached, the second as an SC page. -/
def st (w : Wave) : State :=
  { State.reset with
    uid := 3, cur := 2, contexts := [(0, { ctx := some 0 })], groups := [(1, gr1)], waves := [(2, w)]
    tlb := [fetchPage, { fetchPage with base := 0x20000, leaf := 0x1F#64 }] }

/-- The state after an instruction, or the reset state where it gives none. -/
def nxt (o : Host.Outcome State Fault Refusal) : State :=
  match o with
  | .next t => t
  | _ => State.reset

/-- The wave after an instruction of `w`. -/
def after (i : Instr) (w : Wave) : Wave := waveOf (nxt (exec i (st w))) 2

/-- A check's answer is accepted and has the property. -/
def okAnd {ε α : Type} (x : Except ε α) (p : α → Bool) : Bool :=
  match x with
  | .ok a => p a
  | .error _ => false

/-- A check's answer is a stop. -/
def stops {ε α : Type} (x : Except ε α) : Bool :=
  match x with
  | .ok _ => false
  | .error _ => true

theorem ok_of {ε α : Type} {x : Except ε α} {p : α → Bool} (h : okAnd x p = true) : ∃ a, x = .ok a ∧ p a = true := by
  cases x with
  | ok a => exact ⟨a, rfl, h⟩
  | error e => simp [okAnd] at h

theorem error_of {ε α : Type} {x : Except ε α} (h : stops x = true) : ∃ e, x = .error e := by
  cases x with
  | ok a => simp [stops] at h
  | error e => exact ⟨e, rfl⟩

/-- In a state that has retagged no line, every extent lies under key 0. -/
theorem under_key0 {s : State} (h : s.tags = []) (k n : Nat) (hb : s.tagBase = 0 := by rfl) : UnderKey s 0 k n := fun _ _ _ => .inr (by rw [h, hb]; rfl)

/-- Every piece of the accesses is memory of this device. -/
def allHere (l : Placed) : Bool := l.all fun e => e.2.all fun p => p.1.loc != 2

theorem on_device {l : Placed} (h : allHere l = true) : OnDevice l := by
  intro e he p hp
  have := List.all_eq_true.1 (List.all_eq_true.1 h e he) p hp
  simpa using this

/-- A check that answers accesses of this device alone. -/
theorem here_of {ε : Type} {x : Except ε Placed} (h : okAnd x allHere = true) : ∃ l, x = .ok l ∧ OnDevice l :=
  let ⟨l, e, p⟩ := ok_of h
  ⟨l, e, on_device p⟩

theorem ok_eq {ε α : Type} [DecidableEq α] {x : Except ε α} {a : α} (h : okAnd x (fun b => decide (b = a)) = true) : x = .ok a := by
  obtain ⟨b, e, p⟩ := ok_of h
  rw [e, of_decide_eq_true p]

/-- Wave `w` with a TYPE (Table 8.6). -/
def typed (t : Nat) (w : Wave) : Wave := { w with mode := BitVec.ofNat 12 (16 * t) }

/-- Every lane of a vector register. -/
def splat (x : Word) : Vector Word 32 := Vector.replicate 32 x

/-- A wave whose s1 is an address on its data page, s2 being zero. -/
def at1 (va : Nat) : Wave := wv.setS 1 (BitVec.ofNat 64 va)

/-! ### Decoding: words written out field by field from the encoding tables -/

/-- Tables of encodings, opcodes 0x00 to 0x0F: the word, field by field from bit 31 down. -/
theorem test_decode_control_1 :
    decode (0x0#8 ++ 1#2 ++ 0x0#22) = .ok (.nop 1#2) ∧
    decode (0x01#8 ++ 0x0#24) = .ok .halt ∧
    decode (0x2#8 ++ 3#2 ++ 0#6 ++ 0x7450#16) = .ok (.setbt 3#2 29776#16) ∧
    decode (0x3#8 ++ 1#2 ++ 0#6 ++ 16#6 ++ 0x0#10) = .ok (.setbts 1#2 16#6) ∧
    decode (0x4#8 ++ 0#2 ++ 0#6 ++ 0x22A8#16) = .ok (.setlt 0#2 8872#16) ∧
    decode (0x5#8 ++ 0#2 ++ 0#6 ++ 22#6 ++ 0x0#10) = .ok (.setlc 0#2 22#6) ∧
    decode (0x6#8 ++ 1#2 ++ 40#6 ++ 0x0#14 ++ 2#2) = .ok (.savepc 1#2 40#6 2#2) ∧
    decode (0x7#8 ++ 3#2 ++ 0#6 ++ 37#6 ++ 0x0#10) = .ok (.setmode 3#2 37#6) ∧
    decode (0x8#8 ++ 0#2 ++ 56#6 ++ 0x0#16) = .ok (.getmode 0#2 56#6) ∧
    decode (0x9#8 ++ 3#2 ++ 3#5 ++ 1#1 ++ 18#6 ++ 45#6 ++ 0#1 ++ 1#3) = .ok (.scmp 3#2 1#1 18#6 45#6 1#3) ∧
    decode (0xA#8 ++ 1#2 ++ 0#1 ++ 0#1 ++ 0#1 ++ 7#3 ++ 10#6 ++ 0x65#10) = .ok (.scmpi 1#2 0#1 7#3 10#6 101#10) ∧
    decode (0xB#8 ++ 3#2 ++ 60#6 ++ 0xD#16) = .ok (.readsr 3#2 60#6 13#16) := by decide

/-- Tables of encodings, opcodes 0x00 to 0x0F: the word, field by field from bit 31 down. -/
theorem test_decode_control_2 :
    decode (0xD#8 ++ 1#2 ++ 47#6 ++ 13#6 ++ 61#6 ++ 0#2 ++ 2#2) = .ok (.ssel 1#2 47#6 13#6 61#6 2#2) ∧
    decode (0xE#8 ++ 0#2 ++ 33#6 ++ 0x13DF#16) = .ok (.smovi 0#2 33#6 5087#16) ∧
    decode (0xF#8 ++ 3#2 ++ 13#6 ++ 0xD4D2#16) = .ok (.smovk1 3#2 13#6 54482#16) := by decide

/-- Tables of encodings, opcodes 0x10 to 0x1F: the word, field by field from bit 31 down. -/
theorem test_decode_scalar_register_1 :
    decode (0x10#8 ++ 3#2 ++ 57#6 ++ 3#6 ++ 61#6 ++ 0#3 ++ 0#1) = .ok (.sadd 3#2 57#6 3#6 61#6 0#1) ∧
    decode (0x11#8 ++ 0#2 ++ 14#6 ++ 62#6 ++ 51#6 ++ 0#3 ++ 0#1) = .ok (.ssub 0#2 14#6 62#6 51#6 0#1) ∧
    decode (0x12#8 ++ 1#2 ++ 49#6 ++ 8#6 ++ 12#6 ++ 0#4) = .ok (.smul 1#2 49#6 8#6 12#6) ∧
    decode (0x13#8 ++ 2#2 ++ 49#6 ++ 55#6 ++ 10#6 ++ 0#3 ++ 1#1) = .ok (.smulh 2#2 49#6 55#6 10#6 1#1) ∧
    decode (0x14#8 ++ 3#2 ++ 45#6 ++ 39#6 ++ 57#6 ++ 0#3 ++ 1#1) = .ok (.sdiv 3#2 45#6 39#6 57#6 1#1) ∧
    decode (0x15#8 ++ 1#2 ++ 33#6 ++ 31#6 ++ 29#6 ++ 0#3 ++ 1#1) = .ok (.srem 1#2 33#6 31#6 29#6 1#1) ∧
    decode (0x16#8 ++ 2#2 ++ 34#6 ++ 44#6 ++ 47#6 ++ 0#4) = .ok (.sand 2#2 34#6 44#6 47#6) ∧
    decode (0x17#8 ++ 2#2 ++ 14#6 ++ 21#6 ++ 56#6 ++ 0#4) = .ok (.sor 2#2 14#6 21#6 56#6) ∧
    decode (0x18#8 ++ 3#2 ++ 47#6 ++ 52#6 ++ 36#6 ++ 0#4) = .ok (.sxor 3#2 47#6 52#6 36#6) ∧
    decode (0x19#8 ++ 3#2 ++ 17#6 ++ 37#6 ++ 30#6 ++ 0#4) = .ok (.sshl 3#2 17#6 37#6 30#6) ∧
    decode (0x1A#8 ++ 3#2 ++ 63#6 ++ 3#6 ++ 19#6 ++ 0#4) = .ok (.sshr 3#2 63#6 3#6 19#6) ∧
    decode (0x1B#8 ++ 3#2 ++ 6#6 ++ 43#6 ++ 47#6 ++ 0#4) = .ok (.ssra 3#2 6#6 43#6 47#6) := by decide

/-- Tables of encodings, opcodes 0x10 to 0x1F: the word, field by field from bit 31 down. -/
theorem test_decode_scalar_register_2 :
    decode (0x1C#8 ++ 2#2 ++ 50#6 ++ 57#6 ++ 30#6 ++ 0#3 ++ 1#1) = .ok (.smin 2#2 50#6 57#6 30#6 1#1) ∧
    decode (0x1D#8 ++ 2#2 ++ 9#6 ++ 11#6 ++ 48#6 ++ 0#3 ++ 0#1) = .ok (.smax 2#2 9#6 11#6 48#6 0#1) := by decide

/-- Tables of encodings, opcodes 0x20 to 0x2F: the word, field by field from bit 31 down. -/
theorem test_decode_scalar_immediate_1 :
    decode (0x20#8 ++ 2#2 ++ 35#6 ++ 35#6 ++ 10#6 ++ 13#4) = .ok (.sld 2#2 35#6 35#6 10#6 13#4) ∧
    decode (0x21#8 ++ 2#2 ++ 6#6 ++ 1#6 ++ 5#3 ++ 4#7) = .ok (.sldi 2#2 6#6 1#6 5#3 4#7) ∧
    decode (0x22#8 ++ 0#2 ++ 24#6 ++ 9#6 ++ 36#6 ++ 10#4) = .ok (.sst 0#2 24#6 9#6 36#6 10#4) ∧
    decode (0x23#8 ++ 0#2 ++ 5#6 ++ 32#6 ++ 6#3 ++ 89#7) = .ok (.ssti 0#2 5#6 32#6 6#3 89#7) ∧
    decode (0x24#8 ++ 3#2 ++ 34#6 ++ 29#6 ++ 0#3 ++ 4#3 ++ 0#1 ++ 7#3) = .ok (.satom 3#2 34#6 29#6 4#3 7#3) ∧
    decode (0x25#8 ++ 2#2 ++ 50#6 ++ 46#6 ++ 0x0#8 ++ 2#2) = .ok (.scnt 2#2 50#6 46#6 2#2) ∧
    decode (0x26#8 ++ 2#2 ++ 31#6 ++ 29#6 ++ 0x130#10) = .ok (.saddi 2#2 31#6 29#6 304#10) ∧
    decode (0x27#8 ++ 0#2 ++ 32#6 ++ 53#6 ++ 0x255#10) = .ok (.sandi 0#2 32#6 53#6 597#10) ∧
    decode (0x28#8 ++ 1#2 ++ 49#6 ++ 2#6 ++ 0x2B0#10) = .ok (.sori 1#2 49#6 2#6 688#10) ∧
    decode (0x29#8 ++ 0#2 ++ 13#6 ++ 16#6 ++ 0#4 ++ 29#6) = .ok (.sshli 0#2 13#6 16#6 29#6) ∧
    decode (0x2A#8 ++ 3#2 ++ 49#6 ++ 42#6 ++ 0#4 ++ 55#6) = .ok (.sshri 3#2 49#6 42#6 55#6) ∧
    decode (0x2B#8 ++ 0#2 ++ 25#6 ++ 29#6 ++ 0#4 ++ 27#6) = .ok (.ssrai 0#2 25#6 29#6 27#6) := by decide

/-- Tables of encodings, opcodes 0x20 to 0x2F: the word, field by field from bit 31 down. -/
theorem test_decode_scalar_immediate_2 :
    decode (0x2C#8 ++ 0#2 ++ 0#6 ++ 53#6 ++ 0x2A5#10) = .ok (.smuli 0#2 0#6 53#6 677#10) ∧
    decode (0x2D#8 ++ 3#2 ++ 35#6 ++ 61#6 ++ 0#7 ++ 6#3) = .ok (.sext 3#2 35#6 61#6 6#3) ∧
    decode (0x2E#8 ++ 0#2 ++ 62#6 ++ 0xDE02#16) = .ok (.smovk2 0#2 62#6 56834#16) ∧
    decode (0x2F#8 ++ 2#2 ++ 28#6 ++ 0x34CD#16) = .ok (.smovk3 2#2 28#6 13517#16) := by decide

/-- Tables of encodings, opcodes 0x30 to 0x3F: the word, field by field from bit 31 down. -/
theorem test_decode_vector_arithmetic_1 :
    decode (0x30#8 ++ 1#2 ++ 61#6 ++ 23#6 ++ 11#6 ++ 0#4) = .ok (.vadd 1#2 61#6 23#6 11#6) ∧
    decode (0x31#8 ++ 3#2 ++ 54#6 ++ 21#6 ++ 54#6 ++ 0#4) = .ok (.vsub 3#2 54#6 21#6 54#6) ∧
    decode (0x32#8 ++ 3#2 ++ 32#6 ++ 1#6 ++ 8#6 ++ 0#4) = .ok (.vmul 3#2 32#6 1#6 8#6) ∧
    decode (0x33#8 ++ 3#2 ++ 25#6 ++ 8#6 ++ 61#6 ++ 0#3 ++ 0#1) = .ok (.vmad 3#2 25#6 8#6 61#6 0#1) ∧
    decode (0x34#8 ++ 3#2 ++ 22#6 ++ 19#6 ++ 62#6 ++ 0#4) = .ok (.vmin 3#2 22#6 19#6 62#6) ∧
    decode (0x35#8 ++ 3#2 ++ 23#6 ++ 4#6 ++ 61#6 ++ 0#4) = .ok (.vmax 3#2 23#6 4#6 61#6) ∧
    decode (0x36#8 ++ 0#2 ++ 54#6 ++ 13#6 ++ 0x0#10) = .ok (.vabs 0#2 54#6 13#6) ∧
    decode (0x37#8 ++ 0#2 ++ 52#6 ++ 33#6 ++ 0x0#10) = .ok (.vneg 0#2 52#6 33#6) ∧
    decode (0x38#8 ++ 2#2 ++ 28#6 ++ 21#6 ++ 1#6 ++ 6#4) = .ok (.vdiv 2#2 28#6 21#6 1#6 6#4) ∧
    decode (0x39#8 ++ 1#2 ++ 44#6 ++ 5#6 ++ 15#6 ++ 0#4) = .ok (.vrem 1#2 44#6 5#6 15#6) ∧
    decode (0x3A#8 ++ 2#2 ++ 20#6 ++ 24#6 ++ 0#6 ++ 15#4) = .ok (.vsqrt 2#2 20#6 24#6 15#4) ∧
    decode (0x3B#8 ++ 1#2 ++ 43#6 ++ 37#6 ++ 0#6 ++ 2#4) = .ok (.vrcp 1#2 43#6 37#6 2#4) := by decide

/-- Tables of encodings, opcodes 0x30 to 0x3F: the word, field by field from bit 31 down. -/
theorem test_decode_vector_arithmetic_2 :
    decode (0x3C#8 ++ 0#2 ++ 11#6 ++ 25#6 ++ 0#6 ++ 6#4) = .ok (.vrsq 0#2 11#6 25#6 6#4) ∧
    decode (0x3D#8 ++ 3#2 ++ 17#6 ++ 31#6 ++ 0#6 ++ 5#4) = .ok (.vexp2 3#2 17#6 31#6 5#4) ∧
    decode (0x3E#8 ++ 0#2 ++ 24#6 ++ 37#6 ++ 0#6 ++ 12#4) = .ok (.vlog2 0#2 24#6 37#6 12#4) ∧
    decode (0x3F#8 ++ 1#2 ++ 62#6 ++ 21#6 ++ 0#6 ++ 7#4) = .ok (.vsincos 1#2 62#6 21#6 7#4) := by decide

/-- Tables of encodings, opcodes 0x40 to 0x4F: the word, field by field from bit 31 down. -/
theorem test_decode_vector_logic_and_convert_1 :
    decode (0x40#8 ++ 3#2 ++ 29#6 ++ 28#6 ++ 17#6 ++ 0#4) = .ok (.vand 3#2 29#6 28#6 17#6) ∧
    decode (0x41#8 ++ 2#2 ++ 18#6 ++ 38#6 ++ 23#6 ++ 0#4) = .ok (.vor 2#2 18#6 38#6 23#6) ∧
    decode (0x42#8 ++ 2#2 ++ 56#6 ++ 30#6 ++ 5#6 ++ 0#4) = .ok (.vxor 2#2 56#6 30#6 5#6) ∧
    decode (0x43#8 ++ 2#2 ++ 45#6 ++ 49#6 ++ 0x0#10) = .ok (.vnot 2#2 45#6 49#6) ∧
    decode (0x44#8 ++ 3#2 ++ 7#6 ++ 11#6 ++ 11#6 ++ 0#4) = .ok (.vshl 3#2 7#6 11#6 11#6) ∧
    decode (0x45#8 ++ 1#2 ++ 33#6 ++ 47#6 ++ 24#6 ++ 0#4) = .ok (.vshr 1#2 33#6 47#6 24#6) ∧
    decode (0x46#8 ++ 2#2 ++ 11#6 ++ 52#6 ++ 3#6 ++ 0#4) = .ok (.vsra 2#2 11#6 52#6 3#6) ∧
    decode (0x47#8 ++ 3#2 ++ 19#6 ++ 55#6 ++ 57#6 ++ 0#4) = .ok (.vmulh 3#2 19#6 55#6 57#6) ∧
    decode (0x48#8 ++ 0#2 ++ 0#3 ++ 3#3 ++ 21#6 ++ 38#6 ++ 0#1 ++ 4#3) = .ok (.vcmp 0#2 3#3 21#6 38#6 4#3) ∧
    decode (0x49#8 ++ 3#2 ++ 39#6 ++ 54#6 ++ 16#6 ++ 0#1 ++ 5#3) = .ok (.vsel 3#2 39#6 54#6 16#6 5#3) ∧
    decode (0x4A#8 ++ 0#2 ++ 20#6 ++ 44#6 ++ 0#2 ++ 10#4 ++ 0#1 ++ 1#1 ++ 1#2) = .ok (.vcvt 0#2 20#6 44#6 10#4 1#1 1#2) ∧
    decode (0x4B#8 ++ 0#2 ++ 10#6 ++ 59#6 ++ 0x0#10) = .ok (.vclass 0#2 10#6 59#6) := by decide

/-- Tables of encodings, opcodes 0x40 to 0x4F: the word, field by field from bit 31 down. -/
theorem test_decode_vector_logic_and_convert_2 :
    decode (0x4C#8 ++ 1#2 ++ 44#6 ++ 58#6 ++ 0x23C#10) = .ok (.vaddi 1#2 44#6 58#6 572#10) ∧
    decode (0x4D#8 ++ 0#2 ++ 7#6 ++ 27#6 ++ 0x0#10) = .ok (.vmovs 0#2 7#6 27#6) ∧
    decode (0x4E#8 ++ 0#2 ++ 18#6 ++ 0xDEDA#16) = .ok (.vmovi 0#2 18#6 57050#16) ∧
    decode (0x4F#8 ++ 0#2 ++ 33#6 ++ 14#6 ++ 0x0#10) = .ok (.vmov 0#2 33#6 14#6) := by decide

/-- Tables of encodings, opcodes 0x50 to 0x5F: the word, field by field from bit 31 down. -/
theorem test_decode_lanes_1 :
    decode (0x50#8 ++ 0#2 ++ 30#6 ++ 0x0#16) = .ok (.vlane 0#2 30#6) ∧
    decode (0x51#8 ++ 0#2 ++ 33#6 ++ 23#6 ++ 25#6 ++ 0#4) = .ok (.vperm 0#2 33#6 23#6 25#6) ∧
    decode (0x52#8 ++ 1#2 ++ 54#6 ++ 57#6 ++ 0#1 ++ 20#5 ++ 0#2 ++ 0#2) = .ok (.vshfl 1#2 54#6 57#6 20#5 0#2) ∧
    decode (0x53#8 ++ 3#2 ++ 3#6 ++ 61#6 ++ 0#7 ++ 5#3) = .ok (.vred 3#2 3#6 61#6 5#3) ∧
    decode (0x54#8 ++ 2#2 ++ 49#6 ++ 62#6 ++ 0#6 ++ 0#1 ++ 5#3) = .ok (.vscan 2#2 49#6 62#6 0#1 5#3) ∧
    decode (0x55#8 ++ 2#2 ++ 4#6 ++ 58#6 ++ 24#6 ++ 0#4) = .ok (.vextr 2#2 4#6 58#6 24#6) ∧
    decode (0x56#8 ++ 0#2 ++ 26#6 ++ 60#6 ++ 16#6 ++ 0#4) = .ok (.vinsr 0#2 26#6 60#6 16#6) ∧
    decode (0x57#8 ++ 1#2 ++ 13#6 ++ 59#6 ++ 0x0#8 ++ 2#2) = .ok (.vvote 1#2 13#6 59#6 2#2) ∧
    decode (0x57#8 ++ 1#2 ++ 0#3 ++ 1#3 ++ 20#6 ++ 0x3#10) = .ok (.vvotePballot 1#2 1#3 20#6) ∧
    decode (0x58#8 ++ 3#2 ++ 34#6 ++ 58#6 ++ 0#7 ++ 1#1 ++ 3#2) = .ok (.vpack 3#2 34#6 58#6 1#1 3#2) ∧
    decode (0x59#8 ++ 2#2 ++ 12#6 ++ 4#6 ++ 0x0#8 ++ 1#2) = .ok (.vunpk 2#2 12#6 4#6 1#2) ∧
    decode (0x5A#8 ++ 2#2 ++ 2#3 ++ 2#3 ++ 54#6 ++ 0x6#10) = .ok (.vcmpi 2#2 2#3 2#3 54#6 6#10) := by decide

/-- Tables of encodings, opcodes 0x50 to 0x5F: the word, field by field from bit 31 down. -/
theorem test_decode_lanes_2 :
    decode (0x5B#8 ++ 1#2 ++ 42#6 ++ 2#6 ++ 1#6 ++ 0#4) = .ok (.vdot4 1#2 42#6 2#6 1#6) ∧
    decode (0x5C#8 ++ 1#2 ++ 40#6 ++ 33#6 ++ 56#6 ++ 0#4) = .ok (.vdot2 1#2 40#6 33#6 56#6) ∧
    decode (0x5D#8 ++ 1#2 ++ 40#6 ++ 62#6 ++ 39#6 ++ 0#3 ++ 1#1) = .ok (.vbfe 1#2 40#6 62#6 39#6 1#1) ∧
    decode (0x5E#8 ++ 1#2 ++ 6#6 ++ 10#6 ++ 37#6 ++ 0#4) = .ok (.vbfi 1#2 6#6 10#6 37#6) ∧
    decode (0x5F#8 ++ 0#2 ++ 37#6 ++ 29#6 ++ 0x0#8 ++ 2#2) = .ok (.vcnt 0#2 37#6 29#6 2#2) := by decide

/-- Tables of encodings, opcodes 0x60 to 0x6F: the word, field by field from bit 31 down. -/
theorem test_decode_vector_rows :
    decode (0x60#8 ++ 1#2 ++ 7#6 ++ 27#6 ++ 19#6 ++ 0#4) = .ok (.vtilth 1#2 7#6 27#6 19#6) ∧
    decode (0x61#8 ++ 0#2 ++ 23#6 ++ 1#6 ++ 0x0#10) = .ok (.vuntilth 0#2 23#6 1#6) ∧
    decode (0x62#8 ++ 3#2 ++ 20#6 ++ 3#6 ++ 0x0#10) = .ok (.vexpo 3#2 20#6 3#6) ∧
    decode (0x63#8 ++ 3#2 ++ 52#6 ++ 42#6 ++ 53#6 ++ 0#4) = .ok (.vldexp 3#2 52#6 42#6 53#6) := by decide

/-- Tables of encodings, opcodes 0x70 to 0x7F: the word, field by field from bit 31 down. -/
theorem test_decode_predicates :
    decode (0x70#8 ++ 0#2 ++ 0#3 ++ 6#3 ++ 0#3 ++ 6#3 ++ 0#3 ++ 1#3 ++ 0#3 ++ 1#1) = .ok (.pand 0#2 6#3 6#3 1#3 1#1) ∧
    decode (0x71#8 ++ 1#2 ++ 0#3 ++ 4#3 ++ 0#3 ++ 5#3 ++ 0#3 ++ 6#3 ++ 0#3 ++ 0#1) = .ok (.por 1#2 4#3 5#3 6#3 0#1) ∧
    decode (0x72#8 ++ 3#2 ++ 0#3 ++ 3#3 ++ 0#3 ++ 7#3 ++ 0#3 ++ 0#3 ++ 0#3 ++ 0#1) = .ok (.pxor 3#2 3#3 7#3 0#3 0#1) ∧
    decode (0x73#8 ++ 0#2 ++ 0#3 ++ 0#3 ++ 0#3 ++ 5#3 ++ 0x0#10) = .ok (.pnot 0#2 0#3 5#3) ∧
    decode (0x74#8 ++ 3#2 ++ 0#3 ++ 7#3 ++ 0#3 ++ 4#3 ++ 0x0#10) = .ok (.pmov 3#2 7#3 4#3) ∧
    decode (0x74#8 ++ 3#2 ++ 0#3 ++ 4#3 ++ 14#6 ++ 0x1#10) = .ok (.pmovFs 3#2 4#3 14#6) ∧
    decode (0x74#8 ++ 0#2 ++ 21#6 ++ 0#3 ++ 6#3 ++ 0x2#10) = .ok (.pmovTs 0#2 21#6 6#3) ∧
    decode (0x75#8 ++ 3#2 ++ 0#6 ++ 0#3 ++ 0#3 ++ 0x0#10) = .ok (.pcnt 3#2 0#6 0#3) ∧
    decode (0x76#8 ++ 2#2 ++ 23#6 ++ 0#3 ++ 7#3 ++ 0x0#9 ++ 0#1) = .ok (.pfirst 2#2 23#6 7#3 0#1) ∧
    decode (0x77#8 ++ 0#2 ++ 0#3 ++ 2#3 ++ 0x0#9 ++ 0#1 ++ 32#6) = .ok (.pseti 0#2 2#3 0#1 32#6) ∧
    decode (0x78#8 ++ 0#2 ++ 0#3 ++ 3#3 ++ 0x0#15 ++ 1#1) = .ok (.planes 0#2 3#3 1#1) := by decide

/-- Tables of encodings, opcodes 0x80 to 0x8F: the word, field by field from bit 31 down. -/
theorem test_decode_memory :
    decode (0x80#8 ++ 1#2 ++ 41#6 ++ 63#6 ++ 52#6 ++ 12#4) = .ok (.vld 1#2 41#6 63#6 52#6 12#4) ∧
    decode (0x81#8 ++ 0#2 ++ 42#6 ++ 34#6 ++ 62#6 ++ 5#4) = .ok (.vst 0#2 42#6 34#6 62#6 5#4) ∧
    decode (0x82#8 ++ 0#2 ++ 61#6 ++ 50#6 ++ 63#6 ++ 4#4) = .ok (.vlds 0#2 61#6 50#6 63#6 4#4) ∧
    decode (0x83#8 ++ 3#2 ++ 18#6 ++ 40#6 ++ 43#6 ++ 4#4) = .ok (.vsts 3#2 18#6 40#6 43#6 4#4) ∧
    decode (0x84#8 ++ 3#2 ++ 58#6 ++ 41#6 ++ 42#6 ++ 9#4) = .ok (.vldb 3#2 58#6 41#6 42#6 9#4) ∧
    decode (0x85#8 ++ 2#2 ++ 26#6 ++ 11#6 ++ 3#3 ++ 3#3 ++ 9#4) = .ok (.vatom 2#2 26#6 11#6 3#3 3#3 9#4) ∧
    decode (0x86#8 ++ 0#2 ++ 3#6 ++ 3#6 ++ 3#3 ++ 2#3 ++ 6#4) = .ok (.satomf 0#2 3#6 3#6 3#3 2#3 6#4) ∧
    decode (0x87#8 ++ 0#2 ++ 0x0#15 ++ 4#3 ++ 0#2 ++ 1#2) = .ok (.fence 0#2 4#3 1#2) ∧
    decode (0x88#8 ++ 0#2 ++ 0#6 ++ 27#6 ++ 8#6 ++ 0#3 ++ 0#1) = .ok (.prefetch 0#2 27#6 8#6 0#1) ∧
    decode (0x89#8 ++ 1#2 ++ 0#6 ++ 51#6 ++ 11#6 ++ 0#2 ++ 2#2) = .ok (.cflush 1#2 51#6 11#6 2#2) ∧
    decode (0x8A#8 ++ 0#2 ++ 58#6 ++ 8#6 ++ 0x0#10) = .ok (.locq 0#2 58#6 8#6) := by decide

/-- Tables of encodings, opcodes 0x90 to 0x9F: the word, field by field from bit 31 down. -/
theorem test_decode_plots_and_copies_1 :
    decode (0x90#8 ++ 1#2 ++ 0#5 ++ 1#1 ++ 10#6 ++ 44#6 ++ 13#4) = .ok (.palloc 1#2 1#1 10#6 44#6 13#4) ∧
    decode (0x91#8 ++ 2#2 ++ 0#6 ++ 0#6 ++ 0x0#10) = .ok (.pfree 2#2 0#6) ∧
    decode (0x92#8 ++ 2#2 ++ 0#6 ++ 28#6 ++ 39#6 ++ 0#4) = .ok (.parm 2#2 28#6 39#6) ∧
    decode (0x93#8 ++ 3#2 ++ 24#6 ++ 2#6 ++ 0#6 ++ 8#4) = .ok (.pld 3#2 24#6 2#6 8#4) ∧
    decode (0x94#8 ++ 1#2 ++ 56#6 ++ 30#6 ++ 0#6 ++ 2#4) = .ok (.pst 1#2 56#6 30#6 2#4) ∧
    decode (0x95#8 ++ 0#2 ++ 47#6 ++ 40#6 ++ 0x0#10) = .ok (.pstate 0#2 47#6 40#6) ∧
    decode (0x96#8 ++ 1#2 ++ 0#6 ++ 1#6 ++ 0x0#10) = .ok (.pwait 1#2 1#6) ∧
    decode (0x97#8 ++ 1#2 ++ 30#6 ++ 16#6 ++ 22#6 ++ 1#1 ++ 0#3) = .ok (.cpy 1#2 30#6 16#6 22#6 1#1) ∧
    decode (0x98#8 ++ 0#2 ++ 28#6 ++ 60#6 ++ 20#6 ++ 0#1 ++ 0#3) = .ok (.cpyt 0#2 28#6 60#6 20#6 0#1) ∧
    decode (0x99#8 ++ 2#2 ++ 10#6 ++ 30#6 ++ 32#6 ++ 0#1 ++ 0#3) = .ok (.cpyim 2#2 10#6 30#6 32#6 0#1) ∧
    decode (0x9A#8 ++ 2#2 ++ 26#6 ++ 28#6 ++ 6#6 ++ 1#1 ++ 0#3) = .ok (.cpym 2#2 26#6 28#6 6#6 1#1) ∧
    decode (0x9B#8 ++ 2#2 ++ 50#6 ++ 62#6 ++ 6#6 ++ 0#1 ++ 0#2 ++ 1#1) = .ok (.cpyout 2#2 50#6 62#6 6#6 0#1 1#1) := by decide

/-- Tables of encodings, opcodes 0x90 to 0x9F: the word, field by field from bit 31 down. -/
theorem test_decode_plots_and_copies_2 :
    decode (0x9C#8 ++ 2#2 ++ 0#6 ++ 20#6 ++ 57#6 ++ 0#4) = .ok (.publish 2#2 20#6 57#6) ∧
    decode (0x9D#8 ++ 3#2 ++ 50#6 ++ 22#6 ++ 0x0#10) = .ok (.xeng 3#2 50#6 22#6) ∧
    decode (0x9E#8 ++ 1#2 ++ 23#6 ++ 8#6 ++ 0x0#10) = .ok (.cpybar 1#2 23#6 8#6) ∧
    decode (0x9F#8 ++ 3#2 ++ 7#6 ++ 35#6 ++ 0x0#8 ++ 2#2) = .ok (.pinfo 3#2 7#6 35#6 2#2) := by decide

/-- Tables of encodings, opcodes 0xA0 to 0xAF: the word, field by field from bit 31 down. -/
theorem test_decode_yokes_and_matrix_1 :
    decode (0xA0#8 ++ 1#2 ++ 0#6 ++ 16#6 ++ 0x0#10) = .ok (.yacq 1#2 16#6) ∧
    decode (0xA1#8 ++ 3#2 ++ 0x0#22) = .ok (.yrel 3#2) ∧
    decode (0xA2#8 ++ 1#2 ++ 58#6 ++ 0x0#16) = .ok (.ystat 1#2 58#6) ∧
    decode (0xA3#8 ++ 0#2 ++ 2#6 ++ 0x0#13 ++ 2#2 ++ 1#1) = .ok (.mloadb 0#2 2#6 2#2 1#1) ∧
    decode (0xA4#8 ++ 3#2 ++ 14#6 ++ 22#6 ++ 0x0#9 ++ 1#1) = .ok (.mrun 3#2 14#6 22#6 1#1) ∧
    decode (0xA5#8 ++ 1#2 ++ 0#6 ++ 17#6 ++ 0x0#10) = .ok (.mzero 1#2 17#6) ∧
    decode (0xA6#8 ++ 3#2 ++ 48#6 ++ 49#6 ++ 0x0#10) = .ok (.mreadg 3#2 48#6 49#6) ∧
    decode (0xA7#8 ++ 3#2 ++ 57#6 ++ 0x0#16) = .ok (.mhalt 3#2 57#6) ∧
    decode (0xA8#8 ++ 3#2 ++ 0x0#22) = .ok (.mdrain 3#2) ∧
    decode (0xA9#8 ++ 0#2 ++ 0#6 ++ 46#6 ++ 0x0#10) = .ok (.msave 0#2 46#6) ∧
    decode (0xAA#8 ++ 0#2 ++ 0#6 ++ 28#6 ++ 0x0#10) = .ok (.mrest 0#2 28#6) ∧
    decode (0xAB#8 ++ 1#2 ++ 0#6 ++ 0#6 ++ 0x0#10) = .ok (.mbands 1#2 0#6) := by decide

/-- Tables of encodings, opcodes 0xA0 to 0xAF: the word, field by field from bit 31 down. -/
theorem test_decode_yokes_and_matrix_2 :
    decode (0xAC#8 ++ 3#2 ++ 47#6 ++ 46#6 ++ 58#6 ++ 0#1 ++ 0#1 ++ 1#2) = .ok (.mcadr 3#2 47#6 46#6 58#6 0#1 1#2) ∧
    decode (0xAD#8 ++ 1#2 ++ 24#6 ++ 25#6 ++ 0x0#10) = .ok (.maccg 1#2 24#6 25#6) := by decide

/-- Tables of encodings, opcodes 0xB0 to 0xBF: the word, field by field from bit 31 down. -/
theorem test_decode_synchronisation_1 :
    decode (0xB0#8 ++ 1#2 ++ 19#6 ++ 21#6 ++ 15#6 ++ 0#4) = .ok (.barrive 1#2 19#6 21#6 15#6) ∧
    decode (0xB1#8 ++ 1#2 ++ 0#6 ++ 27#6 ++ 47#6 ++ 0#4) = .ok (.bwait 1#2 27#6 47#6) ∧
    decode (0xB2#8 ++ 1#2 ++ 27#6 ++ 3#6 ++ 0x0#10) = .ok (.bjoin 1#2 27#6 3#6) ∧
    decode (0xB3#8 ++ 0#2 ++ 56#6 ++ 10#6 ++ 0x0#10) = .ok (.bleave 0#2 56#6 10#6) ∧
    decode (0xB4#8 ++ 1#2 ++ 0#6 ++ 36#6 ++ 4#6 ++ 0#1 ++ 4#3) = .ok (.binit 1#2 36#6 4#6 4#3) ∧
    decode (0xB5#8 ++ 2#2 ++ 0#3 ++ 1#3 ++ 5#6 ++ 18#6 ++ 4#4) = .ok (.evbind 2#2 1#3 5#6 18#6 4#4) ∧
    decode (0xB6#8 ++ 1#2 ++ 0#3 ++ 7#3 ++ 0x0#16) = .ok (.evunb 1#2 7#3) ∧
    decode (0xB7#8 ++ 3#2 ++ 0#6 ++ 4#6 ++ 0x0#8 ++ 2#2) = .ok (.evmask 3#2 4#6 2#2) ∧
    decode (0xB8#8 ++ 1#2 ++ 33#6 ++ 0x0#16) = .ok (.evpend 1#2 33#6) ∧
    decode (0xB9#8 ++ 1#2 ++ 0#6 ++ 45#6 ++ 0x0#10) = .ok (.evclr 1#2 45#6) ∧
    decode (0xBA#8 ++ 0#2 ++ 60#6 ++ 41#6 ++ 0x0#10) = .ok (.waitany 60#6 41#6) ∧
    decode (0xBB#8 ++ 1#2 ++ 24#6 ++ 8#6 ++ 23#6 ++ 0#3 ++ 0#1) = .ok (.mbsend 1#2 24#6 8#6 23#6 0#1) := by decide

/-- Tables of encodings, opcodes 0xB0 to 0xBF: the word, field by field from bit 31 down. -/
theorem test_decode_synchronisation_2 :
    decode (0xBC#8 ++ 3#2 ++ 4#6 ++ 7#6 ++ 0x0#10) = .ok (.mbrecv 3#2 4#6 7#6) ∧
    decode (0xBD#8 ++ 1#2 ++ 0#6 ++ 30#6 ++ 0x0#10) = .ok (.sleep 1#2 30#6) ∧
    decode (0xBD#8 ++ 2#2 ++ 20#6 ++ 41#6 ++ 0x1#10) = .ok (.sleepEv 2#2 20#6 41#6) ∧
    decode (0xBE#8 ++ 1#2 ++ 0x0#22) = .ok (.gbar 1#2) := by decide

/-- Tables of encodings, opcodes 0xC0 to 0xCF: the word, field by field from bit 31 down. -/
theorem test_decode_tasks :
    decode (0xC0#8 ++ 0#2 ++ 26#6 ++ 56#6 ++ 52#6 ++ 0#4) = .ok (.invoke 0#2 26#6 56#6 52#6) ∧
    decode (0xC1#8 ++ 3#2 ++ 56#6 ++ 10#6 ++ 34#6 ++ 0#4) = .ok (.invokef 3#2 56#6 10#6 34#6) ∧
    decode (0xC2#8 ++ 2#2 ++ 6#6 ++ 10#6 ++ 56#6 ++ 0#4) = .ok (.fget 2#2 6#6 10#6 56#6) ∧
    decode (0xC3#8 ++ 2#2 ++ 34#6 ++ 38#6 ++ 50#6 ++ 0#4) = .ok (.fpoll 2#2 34#6 38#6 50#6) ∧
    decode (0xC4#8 ++ 3#2 ++ 0#6 ++ 40#6 ++ 0x0#10) = .ok (.fdrop 3#2 40#6) ∧
    decode (0xC5#8 ++ 0#2 ++ 10#6 ++ 0x0#15 ++ 1#1) = .ok (.taskarg 0#2 10#6 1#1) ∧
    decode (0xC6#8 ++ 1#2 ++ 0#6 ++ 28#6 ++ 0x0#10) = .ok (.taskret 1#2 28#6) ∧
    decode (0xC7#8 ++ 0#2 ++ 0#6 ++ 36#6 ++ 0x0#10) = .ok (.taskbrk 0#2 36#6) ∧
    decode (0xC8#8 ++ 3#2 ++ 16#6 ++ 13#6 ++ 51#6 ++ 0#4) = .ok (.launch 3#2 16#6 13#6 51#6) ∧
    decode (0xC9#8 ++ 2#2 ++ 14#6 ++ 46#6 ++ 0x0#10) = .ok (.depsig 2#2 14#6 46#6) ∧
    decode (0xCA#8 ++ 3#2 ++ 0#6 ++ 19#6 ++ 3#6 ++ 0#4) = .ok (.regroup 3#2 19#6 3#6) := by decide

/-- Tables of encodings, opcodes 0xD0 to 0xDF: the word, field by field from bit 31 down. -/
theorem test_decode_system :
    decode (0xD0#8 ++ 0x0#8 ++ 0x809F#16) = .ok (.trap 32927#16) ∧
    decode (0xD1#8 ++ 0x0#23 ++ 0#1) = .ok (.tret 0#1) ∧
    decode (0xD2#8 ++ 2#2 ++ 26#6 ++ 0x53#16) = .ok (.ctlr 2#2 26#6 83#16) ∧
    decode (0xD3#8 ++ 2#2 ++ 27#6 ++ 0x20#16) = .ok (.ctlw 2#2 27#6 32#16) ∧
    decode (0xD4#8 ++ 3#2 ++ 0#6 ++ 0#6 ++ 21#6 ++ 0#4) = .ok (.tlbinv 3#2 0#6 21#6) ∧
    decode (0xD4#8 ++ 2#2 ++ 0x1#22) = .ok (.tlbinvAll 2#2) ∧
    decode (0xD5#8 ++ 0x0#8 ++ 0x8167#16) = .ok (.brk 33127#16) ∧
    decode (0xD6#8 ++ 3#2 ++ 25#6 ++ 0x0#13 ++ 2#3) = .ok (.perfr 3#2 25#6 2#3) ∧
    decode (0xD7#8 ++ 2#2 ++ 0x0#22) = .ok (.yield 2#2) := by decide

/-! ### Ill-formed words (R214, R217): each check of WellFormed.lean refuses a word -/

theorem smoke_codes :
    wellFormed (.readsr 0#2 1#6 14#16) = false ∧ wellFormed (.ssel 0#2 1#6 2#6 3#6 3#2) = false ∧
    wellFormed (.sldi 0#2 1#6 2#6 7#3 0#7) = false ∧ wellFormed (.ssti 0#2 1#6 2#6 1#3 0#7) = false ∧
    wellFormed (.satom 0#2 1#6 2#6 5#3 0#3) = false ∧ wellFormed (.satom 0#2 63#6 2#6 0#3 7#3) = false ∧
    wellFormed (.scnt 0#2 1#6 2#6 3#2) = false ∧ wellFormed (.sext 0#2 1#6 2#6 3#3) = false ∧ wellFormed (.sext 0#2 1#6 2#6 7#3) = false ∧
    wellFormed (.vcvt 0#2 1#6 2#6 11#4 0#1 0#2) = false ∧
    wellFormed (.vred 0#2 1#6 2#6 6#3) = false ∧ wellFormed (.vscan 0#2 1#6 2#6 0#1 6#3) = false ∧
    wellFormed (.vvote 0#2 1#6 2#6 3#2) = false ∧ wellFormed (.vcnt 0#2 1#6 2#6 3#2) = false ∧
    wellFormed (.pseti 0#2 1#3 0#1 33#6) = false ∧ wellFormed (.vatom 0#2 1#6 2#6 5#3 0#3 0#4) = false ∧
    wellFormed (.vatom 0#2 1#6 2#6 0#3 0#3 10#4) = false ∧ wellFormed (.fence 0#2 5#3 0#2) = false ∧
    wellFormed (.mloadb 0#2 2#6 3#2 0#1) = false ∧ wellFormed (.mcadr 0#2 1#6 2#6 3#6 0#1 3#2) = false ∧
    wellFormed (.binit 0#2 1#6 2#6 0#3) = false ∧ wellFormed (.binit 0#2 1#6 2#6 5#3) = false ∧
    wellFormed (.evbind 0#2 0#3 1#6 2#6 6#4) = false ∧ wellFormed (.evbind 0#2 0#3 1#6 2#6 2#4) = false ∧
    wellFormed (.evmask 0#2 1#6 3#2) = false ∧ wellFormed (.ctlr 0#2 1#6 4#16) = false ∧ wellFormed (.ctlw 0#2 1#6 0x54#16) = false := by decide

/-- SATOMF's scope, operation, type, the pairs of Table 11.2, and a compare whose swap operand would be s64. -/
theorem smoke_satomf :
    wellFormed (.satomf 0#2 1#6 2#6 0#3 5#3 0#4) = false ∧ wellFormed (.satomf 0#2 1#6 2#6 0#3 0#3 10#4) = false ∧
    wellFormed (.satomf 0#2 1#6 2#6 5#3 0#3 6#4) = false ∧ wellFormed (.satomf 0#2 1#6 2#6 4#3 0#3 0#4) = false ∧
    wellFormed (.satomf 0#2 1#6 2#6 0#3 0#3 8#4) = false ∧ wellFormed (.satomf 0#2 63#6 2#6 0#3 0#3 7#4) = false ∧
    wellFormed (.satomf 0#2 63#6 2#6 4#3 4#3 9#4) = true := by decide

/-- Register fields that name pairs (R214). -/
theorem smoke_pairs :
    wellFormed (.vsincos 0#2 1#6 2#6 0#4) = false ∧ wellFormed (.pld 0#2 1#6 3#6 0#4) = false ∧ wellFormed (.pst 0#2 1#6 3#6 0#4) = false ∧
    wellFormed (.cpy 0#2 1#6 2#6 3#6 0#1) = false ∧ wellFormed (.cpyt 0#2 1#6 2#6 3#6 0#1) = false ∧
    wellFormed (.cpyim 0#2 1#6 2#6 3#6 0#1) = false ∧ wellFormed (.cpym 0#2 1#6 2#6 3#6 0#1) = false ∧
    wellFormed (.cpyout 0#2 1#6 2#6 3#6 0#1 0#1) = false ∧ wellFormed (.mloadb 0#2 1#6 0#2 0#1) = false ∧
    wellFormed (.mrun 0#2 1#6 2#6 0#1) = false ∧ wellFormed (.invoke 0#2 1#6 2#6 4#6) = false ∧ wellFormed (.invoke 0#2 2#6 2#6 5#6) = false ∧
    wellFormed (.invokef 0#2 1#6 2#6 4#6) = false ∧ wellFormed (.invokef 0#2 2#6 2#6 5#6) = false ∧
    wellFormed (.fget 0#2 1#6 2#6 4#6) = false ∧ wellFormed (.fget 0#2 2#6 3#6 4#6) = false ∧
    wellFormed (.fpoll 0#2 1#6 2#6 4#6) = false ∧ wellFormed (.fpoll 0#2 2#6 3#6 4#6) = false ∧ wellFormed (.fdrop 0#2 1#6) = false ∧
    wellFormed (.taskarg 0#2 1#6 0#1) = false ∧ wellFormed (.taskret 0#2 1#6) = false := by decide

/-- R257: with a 64-bit TYPE an odd element register is ILLEGAL_ENC, and with a 32-bit one it is not. -/
theorem smoke_typed :
    wellFormedIn (.vadd 0#2 1#6 2#6 4#6) 6 = false ∧ wellFormedIn (.vadd 0#2 2#6 3#6 4#6) 7 = false ∧ wellFormedIn (.vadd 0#2 1#6 3#6 5#6) 8 = true ∧
    wellFormedIn (.vcvt 0#2 2#6 3#6 6#4 0#1 0#2) 8 = false := by decide

/-! ### Single steps: what the rules give, worked out by hand -/

/-- R247, R216: SMOVI sign-extends its constant, and PC moves on by 4. -/
theorem test_smovi : (after (.smovi 0#2 5#6 0x8000#16) wv).sreg 5 = 0xFFFFFFFFFFFF8000#64 ∧ (after (.smovi 0#2 5#6 0x8000#16) wv).pc = 0x10004#64 := by
  decide +kernel

/-- R222: a write to s0 is discarded. -/
theorem test_s0 : (after (.smovi 0#2 0#6 1#16) wv).s = wv.s := by decide +kernel

/-- R247: SMOVK2 replaces bits 47 to 32. -/
theorem test_smovk2 : (after (.smovk2 0#2 5#6 0xBEEF#16) (wv.setS 5 0x1111222233334444#64)).sreg 5 = 0x1111BEEF33334444#64 := by decide +kernel

/-- R244: the largest signed number plus one overflows without a carry; minus one plus one carries without overflow and is zero. -/
theorem test_sadd_flags :
    (let w := after (.sadd 0#2 3#6 1#6 2#6 1#1) ((wv.setS 1 0x7FFFFFFFFFFFFFFF#64).setS 2 1#64)
     w.sreg 3 = 0x8000000000000000#64 ∧ w.c = false ∧ w.z = false ∧ w.vf = true) ∧
    (let w := after (.sadd 0#2 3#6 1#6 2#6 1#1) ((wv.setS 1 0xFFFFFFFFFFFFFFFF#64).setS 2 1#64)
     w.sreg 3 = 0#64 ∧ w.c = true ∧ w.z = true ∧ w.vf = false) := by decide +kernel

/-- R244: zero minus one borrows. -/
theorem test_ssub_borrow : (after (.ssub 0#2 3#6 1#6 2#6 1#1) (wv.setS 2 1#64)).c = true := by decide +kernel

/-- R97, R249: a quotient by zero is all ones, and −2^63 by −1 wraps. -/
theorem test_sdiv :
    (after (.sdiv 0#2 3#6 1#6 2#6 0#1) (wv.setS 1 7#64)).sreg 3 = 0xFFFFFFFFFFFFFFFF#64 ∧
    (after (.sdiv 0#2 3#6 1#6 2#6 0#1) ((wv.setS 1 0x8000000000000000#64).setS 2 0xFFFFFFFFFFFFFFFF#64)).sreg 3 = 0x8000000000000000#64 ∧
    (after (.sdiv 0#2 3#6 1#6 2#6 0#1) ((wv.setS 1 0xFFFFFFFFFFFFFFF9#64).setS 2 2#64)).sreg 3 = 0xFFFFFFFFFFFFFFFD#64 := by decide +kernel

/-- R249: the remainder by zero is the dividend. -/
theorem test_srem : (after (.srem 0#2 3#6 1#6 2#6 1#1) (wv.setS 1 7#64)).sreg 3 = 7#64 := by decide +kernel

/-- R248: the high half of −1 × 1 is all ones when signed and zero when not. -/
theorem test_smulh :
    (after (.smulh 0#2 3#6 1#6 2#6 0#1) ((wv.setS 1 0xFFFFFFFFFFFFFFFF#64).setS 2 1#64)).sreg 3 = 0xFFFFFFFFFFFFFFFF#64 ∧
    (after (.smulh 0#2 3#6 1#6 2#6 1#1) ((wv.setS 1 0xFFFFFFFFFFFFFFFF#64).setS 2 1#64)).sreg 3 = 0#64 := by decide +kernel

/-- R251, R252. -/
theorem test_scnt_sext :
    (after (.scnt 0#2 3#6 1#6 1#2) wv).sreg 3 = 64#64 ∧ (after (.scnt 0#2 3#6 1#6 2#2) (wv.setS 1 8#64)).sreg 3 = 3#64 ∧
    (after (.sext 0#2 3#6 1#6 0#3) (wv.setS 1 0x180#64)).sreg 3 = 0xFFFFFFFFFFFFFF80#64 ∧
    (after (.sext 0#2 3#6 1#6 4#3) (wv.setS 1 0x180#64)).sreg 3 = 0x80#64 := by decide +kernel

/-- R216: with LC 2 the loop goes back to LT, with LC 1 it falls through. -/
theorem test_loop :
    (after (.nop 2#2) { wv with lc := 2#32, lt := 0x400#64 }).pc = 0x400#64 ∧ (after (.nop 2#2) { wv with lc := 1#32, lt := 0x400#64 }).pc = 0x10004#64 ∧
    (after (.nop 1#2) { wv with c := true, bt := 0x800#64 }).pc = 0x800#64 := by decide +kernel

/-- R241, R366: SETMODE with TYPE 15 enters the handler at TBASE with cause 3 and REPLAY. -/
theorem test_setmode_invalid :
    let t := nxt (exec (.setmode 0#2 1#6) { st (wv.setS 1 0xF0#64) with contexts := [(0, { ctx := some 0, tbase := 0x4000#64 })] })
    (waveOf t 2).pc = 0x4000#64 ∧ (waveOf t 2).trap.tcause = 0x203#64 ∧ (waveOf t 2).trap.tpc = 0x10000#64 ∧ (waveOf t 2).mode = 0#12 := by decide +kernel

/-- R366, Table 14.2: TRAP 0x1234 is BREAKPOINT with reason SERVICE and the code above it. -/
theorem test_trap :
    let t := nxt (exec (.trap 0x1234#16) { st wv with contexts := [(0, { ctx := some 0, tbase := 0x4000#64 })] })
    (waveOf t 2).trap.tcause = 14#64 ∧ (waveOf t 2).trap.tinfo = 0x123402#64 ∧ (waveOf t 2).handler = true := by decide +kernel

/-- R258: in TYPE n8, 200 + 100 is 44, and 255 with SAT. -/
theorem test_vadd_n8 :
    (after (.vadd 0#2 3#6 1#6 2#6) (typed 5 ((wv.setV 1 (splat 200#32)).setV 2 (splat 100#32)))).lane 3 31 = 44#32 ∧
    (let w := typed 5 ((wv.setV 1 (splat 200#32)).setV 2 (splat 100#32))
     (after (.vadd 0#2 3#6 1#6 2#6) { w with mode := w.mode ||| 0x400#12 }).lane 3 0 = 255#32) := by decide +kernel

/-- R262: 1 + 2^-24 rounds to even in f32, 1.5 + 1.5 is 3. -/
theorem test_vadd_f32 :
    (after (.vadd 0#2 3#6 1#6 2#6) (typed 8 ((wv.setV 1 (splat 0x3F800000#32)).setV 2 (splat 0x33800000#32)))).lane 3 7 = 0x3F800000#32 ∧
    (after (.vadd 0#2 3#6 1#6 2#6) (typed 8 ((wv.setV 1 (splat 0x3FC00000#32)).setV 2 (splat 0x3FC00000#32)))).lane 3 7 = 0x40400000#32 := by decide +kernel

/-- R257: only ACTIVE lanes are written: with GUARD 1, p1 = 2, lane 0 keeps its value. -/
theorem test_guard :
    let w := after (.vmovi 0#2 3#6 7#16) { (typed 0 wv).setP 1 2#32 with mode := 1#12 }
    w.lane 3 0 = 0#32 ∧ w.lane 3 1 = 7#32 ∧ w.lane 3 2 = 0#32 := by decide +kernel

/-- R271: f32 2.5 converts to i32 2 under rounding to nearest even. -/
theorem test_vcvt :
    (after (.vcvt 0#2 3#6 1#6 8#4 0#1 0#2) (typed 0 (wv.setV 1 (splat 0x40200000#32)))).lane 3 0 = 2#32 := by decide +kernel

/-- R276, R268: VSHFL.up keeps the lanes below the distance; a shift count is taken modulo the width. -/
theorem test_vshfl_vshl :
    (after (.vshfl 0#2 3#6 1#6 1#5 1#2) ((typed 0 wv).setV 1 (tab 32 fun i => BitVec.ofNat 32 i))).lane 3 0 = 0#32 ∧
    (after (.vshfl 0#2 3#6 1#6 1#5 1#2) ((typed 0 wv).setV 1 (tab 32 fun i => BitVec.ofNat 32 i))).lane 3 5 = 4#32 ∧
    (after (.vshl 0#2 3#6 1#6 2#6) (typed 0 ((wv.setV 1 (splat 1#32)).setV 2 (splat 33#32)))).lane 3 0 = 2#32 := by decide +kernel

/-- R278: VRED.add over 32 lanes of 1. -/
theorem test_vred : (after (.vred 0#2 3#6 1#6 0#3) (typed 0 (wv.setV 1 (splat 1#32)))).sreg 3 = 32#64 := by decide +kernel

/-- R284: PSETI.top of 1 is the top lane; PFIRST of an empty predicate is 32. -/
theorem test_predicates :
    (after (.pseti 0#2 1#3 1#1 1#6) wv).preg 1 = 0x80000000#32 ∧ (after (.pfirst 0#2 3#6 1#3 0#1) wv).sreg 3 = 32#64 := by decide +kernel

/-- R254, R110: SST puts the eight bytes on the core's path, low byte first; at the slice they reach memory. -/
theorem test_sst :
    let t := nxt (exec (.sst 0#2 3#6 1#6 2#6 0#4) (st ((wv.setS 1 0x10100#64).setS 3 0x0807060504030201#64)))
    physByte t 0x100 = 0#8 ∧ physByte (performHead t 0) 0x100 = 1#8 ∧ physByte (performHead t 0) 0x107 = 8#8 := by decide +kernel

/-- R246, R184: the second READSR of a pair, PLACE, gives what the first saw, though the group's PLACE is another by now. -/
theorem test_readsr_pair : (after (.readsr 0#2 5#6 3#16) { wv with pair := some ⟨0, 0, 7#32⟩ }).sreg 5 = 7#64 := by decide +kernel

/-- R413: SHAKE256 of the empty message begins as FIPS 202's known answer does. -/
theorem test_shake256 : (shake256 []).take 8 = [0x46#8, 0xB9#8, 0xDD#8, 0x2B#8, 0x0B#8, 0xA8#8, 0x8D#8, 0x13#8] := by decide +kernel

/-- R61, R320: with two granules taken at the bottom, a plot of one lies behind them. -/
theorem test_palloc :
    let s := st ((wv.setS 1 5#64).setS 2 0x0000000100000001#64)
    let p : Plot := ⟨false, 0#2, 0#2, 0#4, 1, 1, 0, 0, 0, 0, 2, false, 0, 0#2, [], []⟩
    let t := nxt (exec (.palloc 0#2 0#1 1#6 2#6 0#4) { s with groups := [(1, { gr1 with plots := [(0, p)] })] })
    ((lookup (groupOf t 1).plots 5).map (·.base)) = some 2 ∧ (waveOf t 2).c = true := by decide +kernel

/-! ### Witnesses: states and operands that meet the hypotheses of the obligations -/

/-- A wave is current: every statement whose only hypothesis on the machine is the current wave. -/
theorem wit_current : ∃ (s : State) (w : Wave), lookup s.waves s.cur = some w := ⟨st wv, wv, rfl⟩

/-- SpecialRegisters: the first and the last index. -/
theorem wit_SpecialRegisters : (0#16 : BitVec 16).toNat ≤ 13 ∧ (13#16 : BitVec 16).toNat ≤ 13 := by decide

/-- RegisterFiles: the first and the last register of each file, and another register. -/
theorem wit_RegisterFiles : ∃ d k : Nat, d ≠ 0 ∧ d < 64 ∧ k ≠ d := ⟨63, 1, by decide⟩
theorem wit_RegisterFiles_preds : ∃ d k : Nat, d ≠ 0 ∧ d < 8 ∧ k ≠ d := ⟨7, 0, by decide⟩

/-- Sequencing: TYPE 13 is taken and TYPE 14 is refused. -/
theorem wit_Sequencing_Setmode :
    ((wv.setS 1 0xD0#64).sreg 1).extractLsb' 5 3 ≠ 7#3 ∧ ((wv.setS 1 0xE0#64).sreg 1).extractLsb' 5 3 = 7#3 ∧
    lookup (st (wv.setS 1 0xE0#64)).waves (st (wv.setS 1 0xE0#64)).cur = some (wv.setS 1 0xE0#64) := by decide +kernel

/-- Predicates: PSETI with 32 lanes. -/
theorem wit_Predicates : (32#6 : BitVec 6).toNat ≤ 32 := by decide

/-- VectorArithmetic, VectorLongLatency, VectorMovesAndComparisons and VectorReductions: a current wave for each TYPE; TYPE 10 is the last element type, 7 the last integer one, 8 the first of floating point. -/
theorem wit_vector_types :
    (∀ t, t < 14 → (typed t wv).ty = t ∧ lookup (st (typed t wv)).waves (st (typed t wv)).cur = some (typed t wv)) ∧
    (typed 10 wv).ty ≤ 10 ∧ ¬(typed 11 wv).ty ≤ 10 ∧ (typed 7 wv).ty ≤ 7 ∧ ¬(typed 8 wv).ty ≤ 7 := by decide +kernel

/-- VectorReductions: a VUNTILTH whose parcel has the format of its TYPE, and one whose parcel has not. -/
theorem wit_VectorReductions_vuntilth :
    ((typed 11 (wv.setV 1 (splat (BitVec.ofNat 32 (tilthCode 11))))).lane 1 0).toNat % 256 = tilthCode 11 ∧
    ((typed 11 (wv.setV 1 (splat 0xFF#32))).lane 1 0).toNat % 256 ≠ tilthCode 11 := by decide +kernel

/-- ElementsAndScans: the last lane and register pair, chosen and not, for a wide and a narrow type. -/
theorem wit_ElementsAndScans_ElementPlacement :
    ∃ (ty r k l : Nat) (m n : Word), ty ≤ 10 ∧ l < 32 ∧ r + 1 < 64 ∧ m.getLsbD l = true ∧ n.getLsbD l = false ∧ typeBits ty ≤ 32 ∧
      isWide 6 = true ∧ k ≠ r ∧ (k = r + 1 → ¬isWide ty = true) :=
  ⟨10, 62, 63, 31, 0x80000000#32, 0#32, by decide⟩

/-- ElementsAndScans: the types at both ends, and values inside and outside their ranges. -/
theorem wit_ElementsAndScans_IntegerResults :
    (7 ≤ 7 ∧ 7 % 2 = 1) ∧ (0 ≤ 7 ∧ 0 % 2 = 0) ∧ (intMin 4 ≤ -128 ∧ -128 ≤ intMax 4) ∧ -129 < intMin 4 ∧ intMax 5 < 256 := by decide

/-- ElementsAndScans: the last lane of an integer TYPE. -/
theorem wit_ElementsAndScans_ScanPrefixSums : (typed 7 wv).ty ≤ 7 ∧ 31 < 32 ∧ (typed 7 wv).active.getLsbD 31 = true := by decide +kernel

/-- MemoryReadsBack, AtomicUnit: any extent of the reset state, and of one that has retagged no line. -/
theorem wit_MemoryReadsBack_SliceReadAfterWrite : ∃ (s : State) (kid k n : Nat), UnderKey s kid k n ∧ s.snaps = [] ∧ 0 < n :=
  ⟨st wv, 0, 0x1F0, 16, under_key0 rfl _ _, rfl, by decide⟩

/-- A core that holds a line SHARED and has a store on its path. -/
def cached : State := { st wv with cores := [(0, { l1 := [(2, ⟨List.replicate 128 7#8, 0#16, 0, 3#2⟩)], path := [.store 2 0x100 0 [1#8]] })] }

theorem wit_StorePath_StoresJoinThePath : ∃ s c k, (coreOf s c).owned.contains (k / 128) = false ∧ ∃ copy, lookup (coreOf s c).l1 (k / 128) = some copy :=
  ⟨cached, 0, 0x104, rfl, _, rfl⟩
theorem wit_StorePath_StoresJoinThePath_miss : ∃ s c k, (coreOf s c).owned.contains (k / 128) = false ∧ lookup (coreOf s c).l1 (k / 128) = none :=
  ⟨cached, 0, 0x180, rfl, rfl⟩

/-- MemoryReadsBack: the last bytes of a line, the line being SHARED; and an OWNED one. -/
theorem wit_MemoryReadsBack_StoreThenLoad : ∃ (s : State) (c k n : Nat), 0 < n ∧ k % 128 + n ≤ 128 ∧ UnderKey s 0 k n ∧ s.snaps = [] ∧
    (∀ copy, lookup (coreOf s c).l1 (k / 128) = some copy → copy.bytes.length = 128) ∧ (coreOf s c).owned.contains (k / 128) = false ∧
    (coreOf s c).path = [] := by
  refine ⟨{ st wv with cores := [(0, { l1 := [(2, ⟨List.replicate 128 7#8, 0#16, 0, 3#2⟩)] })] }, 0, 0x178, 8, by decide, by decide, under_key0 rfl _ _, rfl, ?_,
    rfl, rfl⟩
  intro copy h
  cases h
  rfl
theorem wit_MemoryReadsBack_StoreThenLoad_owned : ∃ (s : State) (c k : Nat), (coreOf s c).owned.contains (k / 128) = true ∧ lookup (coreOf s c).l1 (k / 128) = none ∧
    (coreOf s c).path = [] := ⟨{ st wv with cores := [(0, { owned := [2] })] }, 0, 0x178, rfl, rfl, rfl⟩

theorem wit_StorePath_WriteThrough : ∃ s c u k kid b rest, (coreOf s c).path = .store u k kid b :: rest ∧ UnderKey s kid k b.length ∧ s.snaps = [] :=
  ⟨cached, 0, 2, 0x100, 0, [1#8], [], rfl, under_key0 rfl _ _, rfl⟩

/-- MemorySystemEvents, MemoryCanonical, and the host's writes: memory with a byte below a dirty one, which reads zero. -/
def dirty : State := { st wv with mem := [(0x100, 5#8)], l2 := [(0x100, 0#8), (0x101, 6#8)] }
theorem wit_MemorySystemEvents_EvictionKeepsMemory : ∃ s : State, Memory.wf s.mem = true ∧ risingFrom none s.l2 = true ∧ s.l2 ≠ [] := ⟨dirty, by decide⟩
theorem wit_MemoryCanonical : ∃ s t : State, Memory.wf s.mem = true ∧ risingFrom none s.l2 = true ∧ step s = .next t :=
  ⟨State.reset, nxt (step State.reset), by decide, by decide, rfl⟩

/-- AtomicUnit: the largest operands of each type. -/
theorem wit_AtomicUnit_AtomicOperations : ∀ ty ∈ [0, 1, 6, 7], 2 ^ typeBits ty - 1 < 2 ^ typeBits ty := by decide

/-- AtomicUnit: a compare that succeeds and one that fails. -/
theorem wit_AtomicUnit_AtomicAtSlice :
    (atomOp 7 0 (natOf (physBytes (st wv) 0x100 4)) 5 0).2 = true ∧ (atomOp 7 0 (natOf (physBytes (st wv) 0x100 4)) 5 1).2 = false := by decide

/-- ScalarAccesses: one byte off, for 8 bytes and for the 2 of width code 2. -/
theorem wit_ScalarAccesses_Misalignment : ∃ (s : State) (w : Wave), lookup s.waves s.cur = some w ∧ (w.sreg 1 + w.sreg 2).toNat % 8 ≠ 0 ∧ (w.sreg 1).toNat % 8 ≠ 0 ∧
    (w.sreg 1 + (3#7 : BitVec 7).signExtend 64 * BitVec.ofNat 64 2).toNat % 2 ≠ 0 :=
  ⟨st (wv.setS 1 0x10007#64), wv.setS 1 0x10007#64, rfl, by decide +kernel⟩

theorem wit_ScalarAccesses_ScalarLoads : ∃ (s : State) (w : Wave) (l : Placed), lookup s.waves s.cur = some w ∧ checkScalar s w 0 (w.sreg 1 + w.sreg 2).toNat 8 = .ok l ∧ OnDevice l :=
  let ⟨l, h⟩ := here_of (x := checkScalar (st (at1 0x1FFF8)) (at1 0x1FFF8) 0 _ 8) (by decide +kernel)
  ⟨st (at1 0x1FFF8), at1 0x1FFF8, l, rfl, h⟩
theorem wit_ScalarAccesses_ScalarLoads_imm : ∃ (s : State) (w : Wave) (l : Placed), lookup s.waves s.cur = some w ∧
    checkScalar s w 0 (w.sreg 1 + (0x7F#7 : BitVec 7).signExtend 64 * BitVec.ofNat 64 4).toNat 4 = .ok l ∧ OnDevice l :=
  let ⟨l, h⟩ := here_of (x := checkScalar (st (at1 0x10104)) (at1 0x10104) 0
    ((at1 0x10104).sreg 1 + (0x7F#7 : BitVec 7).signExtend 64 * BitVec.ofNat 64 4).toNat 4) (by decide +kernel)
  ⟨st (at1 0x10104), at1 0x10104, l, rfl, h⟩

theorem wit_ScalarAccesses_ScalarStores : ∃ (s : State) (w : Wave) (l : Placed), lookup s.waves s.cur = some w ∧ checkScalar s w 1 (w.sreg 1 + w.sreg 2).toNat 8 = .ok l ∧ OnDevice l :=
  let ⟨l, h⟩ := here_of (x := checkScalar (st (at1 0x10100)) (at1 0x10100) 1 ((at1 0x10100).sreg 1 + (at1 0x10100).sreg 2).toNat 8) (by decide +kernel)
  ⟨st (at1 0x10100), at1 0x10100, l, rfl, h⟩

/-- StorePath: a piece on a page of sequential consistency and one on another. -/
theorem wit_StorePath_StorePlacement : (⟨0, 0x100, 0, 0x1F#64⟩ : Place).loc ≠ 2 ∧ leafSC 0x1F#64 = true ∧ leafSC 0xF#64 = false := by decide

/-- A check whose accesses begin with one that lies in this device's memory. -/
theorem first_of {ε : Type} {x : Except ε Placed}
    (h : okAnd x (fun l => match l with | (_, _ :: _) :: _ => allHere l | _ => false) = true) :
    ∃ acc q m ps rest, x = .ok ((acc, (q, m) :: ps) :: rest) ∧ OnDevice ((acc, (q, m) :: ps) :: rest) := by
  obtain ⟨l, e, p⟩ := ok_of h
  match l with
  | (a, (q, m) :: ps) :: rest => exact ⟨a, q, m, ps, rest, e, on_device p⟩
  | (_, []) :: _ => simp at p
  | [] => simp at p

/-- CoreAtomics: on a page of sequential consistency and on another. -/
theorem wit_CoreAtomics_ScalarAtomics : ∃ (s : State) (w : Wave) (acc : LaneAcc) (q : Place) (m : Nat) (ps : List (Place × Nat)) (rest : Placed), lookup s.waves s.cur = some w ∧
    checkScalar s w 3 (w.sreg 1).toNat 8 = .ok ((acc, (q, m) :: ps) :: rest) ∧ OnDevice ((acc, (q, m) :: ps) :: rest) :=
  let ⟨a, q, m, ps, r, h⟩ := first_of (x := checkScalar (st (at1 0x20100)) (at1 0x20100) 3 _ 8) (by decide +kernel)
  ⟨st (at1 0x20100), at1 0x20100, a, q, m, ps, r, rfl, h⟩
theorem wit_CoreAtomics_ScalarAtomics_f32 : ∃ (s : State) (w : Wave) (acc : LaneAcc) (q : Place) (m : Nat) (ps : List (Place × Nat)) (rest : Placed), lookup s.waves s.cur = some w ∧
    checkScalar s w 3 (w.sreg 1).toNat (typeBytes (satomfType 4)) = .ok ((acc, (q, m) :: ps) :: rest) ∧ OnDevice ((acc, (q, m) :: ps) :: rest) :=
  let ⟨a, q, m, ps, r, h⟩ := first_of (x := checkScalar (st (at1 0x10104)) (at1 0x10104) 3 _ (typeBytes (satomfType 4))) (by decide +kernel)
  ⟨st (at1 0x10104), at1 0x10104, a, q, m, ps, r, rfl, h⟩

/-- The vector accesses: 32 lanes of f32 at four bytes each; v2 holds their offsets and s2 the stride. -/
def lanesAt : Wave := { ((typed 8 wv).setV 2 (tab 32 fun i => BitVec.ofNat 32 (4 * i))) with s := ((at1 0x10100).setS 2 4#64).s }

theorem wit_VectorAccesses_VectorLoads : ∃ (s : State) (w : Wave) (l : Placed), lookup s.waves s.cur = some w ∧
    checkVector s w okAny 0 (fun k => (w.sreg 1 + (w.lane 2 k).signExtend 64).toNat) = .ok l ∧ OnDevice l :=
  let ⟨l, h⟩ := here_of (x := checkVector (st lanesAt) lanesAt okAny 0 _) (by decide +kernel)
  ⟨st lanesAt, lanesAt, l, rfl, h⟩
theorem wit_VectorAccesses_VectorLoads_stride : ∃ (s : State) (w : Wave) (l : Placed), lookup s.waves s.cur = some w ∧
    checkVector s w okAny 0 (fun k => (w.sreg 1 + BitVec.ofNat 64 k * w.sreg 2).toNat) = .ok l ∧ OnDevice l :=
  let ⟨l, h⟩ := here_of (x := checkVector (st lanesAt) lanesAt okAny 0 fun k => (lanesAt.sreg 1 + BitVec.ofNat 64 k * lanesAt.sreg 2).toNat)
    (by decide +kernel)
  ⟨st lanesAt, lanesAt, l, rfl, h⟩
theorem wit_VectorAccesses_VectorLoads_broadcast : ∃ (s : State) (w : Wave) (l : Placed), lookup s.waves s.cur = some w ∧ checkBroadcast s w 1 3 = .ok l ∧ OnDevice l :=
  let ⟨l, h⟩ := here_of (x := checkBroadcast (st lanesAt) lanesAt 1 3) (by decide +kernel)
  ⟨st lanesAt, lanesAt, l, rfl, h⟩

theorem wit_VectorAccesses_VectorStores : ∃ (s : State) (w : Wave) (l : Placed), lookup s.waves s.cur = some w ∧
    checkVector s w okAny 1 (fun k => (w.sreg 1 + (w.lane 2 k).signExtend 64).toNat) = .ok l ∧ OnDevice l :=
  let ⟨l, h⟩ := here_of (x := checkVector (st lanesAt) lanesAt okAny 1 fun k => (lanesAt.sreg 1 + (lanesAt.lane 2 k).signExtend 64).toNat)
    (by decide +kernel)
  ⟨st lanesAt, lanesAt, l, rfl, h⟩
theorem wit_VectorAccesses_VectorStores_stride : ∃ (s : State) (w : Wave) (l : Placed), lookup s.waves s.cur = some w ∧
    checkVector s w okAny 1 (fun k => (w.sreg 1 + BitVec.ofNat 64 k * w.sreg 2).toNat) = .ok l ∧ OnDevice l :=
  let ⟨l, h⟩ := here_of (x := checkVector (st lanesAt) lanesAt okAny 1 fun k => (lanesAt.sreg 1 + BitVec.ofNat 64 k * lanesAt.sreg 2).toNat)
    (by decide +kernel)
  ⟨st lanesAt, lanesAt, l, rfl, h⟩

theorem wit_CoreAtomics_VectorAtomics : ∃ (s : State) (w : Wave) (l : Placed), lookup s.waves s.cur = some w ∧ OnDevice l ∧
    checkVector s w (okAtomic 8) 3 (fun i => (w.sreg 1 + (w.lane 2 i).signExtend 64).toNat) = .ok l :=
  let ⟨l, h⟩ := here_of (x := checkVector (st lanesAt) lanesAt (okAtomic 8) 3 fun i => (lanesAt.sreg 1 + (lanesAt.lane 2 i).signExtend 64).toNat)
    (by decide +kernel)
  ⟨st lanesAt, lanesAt, l, rfl, h.2, h.1⟩

/-- PeerTransactions: nothing sent yet; one request unanswered; all answered; one refused. -/
theorem wit_PeerTransactions : ∃ asks : List PeerAsk, asks ≠ [] ∧ asks.length = 1 ∧ wv.peer = [] := ⟨[{ key := 0, kind := 0, n := 8 }], by decide, rfl, rfl⟩
theorem wit_PeerTransactions_answers : ∃ w1 w2 w3 : Wave,
    (w1.peer ≠ [] ∧ ∃ x ∈ w1.peer, x.answer = none) ∧ (w2.peer ≠ [] ∧ ∀ x ∈ w2.peer, ∃ b, x.answer = some (true, b)) ∧
    ∃ x b, w3.peer = [x] ∧ x.answer = some (false, b) := by
  refine ⟨{ wv with peer := [⟨9, 0, 0, 0, none, 0⟩] }, { wv with peer := [⟨9, 0, 0, 0, some (true, [1#8]), 0⟩] },
    { wv with peer := [⟨9, 0, 0, 0, some (false, []), 0⟩] }, ⟨by simp, _, List.mem_singleton.2 rfl, rfl⟩, ⟨by simp, ?_⟩, _, _, rfl, rfl⟩
  intro x hx
  cases List.mem_singleton.1 hx
  exact ⟨_, rfl⟩

/-- FencesAndHints: PREFETCH of a page that is cached, of one of sequential consistency and of one that is not translated; CFLUSH of nothing and of more. -/
theorem wit_FencesAndHints :
    (okAnd (translate (st wv) (.core 0) 0 0x10100 0 false) fun q => q.loc != 2 && !leafSC q.leaf) = true ∧
    (okAnd (translate (st wv) (.core 0) 0 0x20100 0 false) fun q => leafSC q.leaf) = true ∧ stops (translate (st wv) (.core 0) 0 0x30000 0 false) = true ∧
    (wv.sreg 2).toNat % 2 ^ 32 = 0 ∧ ((wv.setS 2 64#64).sreg 2).toNat % 2 ^ 32 ≠ 0 := by decide +kernel

/-- A barrier object at 0x10100: GEN 5, EXPECT 2, BSTATE live; and its place. -/
def barMem : List Host.Cell := [(0x100, 5#8), (0x108, 2#8), (0x10D, 1#8)]
def barSt (w : Wave) : State := { st w with mem := barMem }
def barPlace : Place := ⟨0, 0x100, 0, 0xF#64⟩

theorem wit_Barriers : ∃ (s : State) (w : Wave) (p : Place), lookup s.waves s.cur = some w ∧ (dieOf s (homeOf p.key)).barrierQ = [] ∧ s.snaps = [] ∧
    UnderKey s p.kid p.key 64 ∧ QuietAt s (coreNo s w) p.key ∧ checkBarrier s w (w.sreg 1).toNat false = .ok p ∧ checkBarrier s w (w.sreg 1).toNat true = .ok p ∧
    ¬(barField s p.obj 13 1 = 1 ∧ (barWaiters s p.key = true ∨ 0 < barSlots s p.key)) :=
  ⟨barSt (at1 0x10100), at1 0x10100, barPlace, rfl, rfl, rfl, under_key0 rfl _ _, ⟨(fun _ h => by cases h), rfl, rfl⟩, ok_eq (by decide +kernel), ok_eq (by decide +kernel),
    by decide +kernel⟩
/-- A live object on which another wave waits. -/
theorem wit_Barriers_busy : ∃ (s : State) (w : Wave) (p : Place), lookup s.waves s.cur = some w ∧ checkBarrier s w (w.sreg 1).toNat false = .ok p ∧
    barField s p.obj 13 1 = 1 ∧ barWaiters s p.key = true :=
  ⟨{ barSt (at1 0x10100) with waves := [(2, at1 0x10100), (3, { wv with status := .parked (.bwait 0#2 ⟨0x100, 0⟩ 5#32 true) })] }, at1 0x10100, barPlace, rfl,
    ok_eq (by decide +kernel), by decide +kernel, by decide +kernel⟩
/-- BWAIT on the phase before GEN, which is complete, and on GEN, which is not. -/
theorem wit_Barriers_phases : phaseDone (barSt wv) ⟨0x100, 0⟩ 4#32 = true ∧ phaseDone (barSt wv) ⟨0x100, 0⟩ 5#32 = false ∧ wv.pending = [] ∧ wv.windows = [] ∧
    cacheRoom (barSt wv) 0x100 = true := by
  decide +kernel
/-- BJOIN and BLEAVE: no member, seven and eight members, and a member of this object. -/
theorem wit_Barriers_members :
    (List.replicate 7 ((0#64 : DWord), 0)).any (fun m => m.2 == 0x100) = false ∧ (List.replicate 7 ((0#64 : DWord), 0)).length < 8 ∧
    8 ≤ (List.replicate 8 ((0#64 : DWord), 0)).length ∧ [((0x10100#64 : DWord), 0x100)].any (fun m => m.2 == 0x100) = true := by decide

/-- BarrierUnit: two arrivals end the phase, one and none do not. -/
theorem wit_BarrierUnit_BarrierArrival : ∃ (s : State) (o : BarObj), s.snaps = [] ∧ s.waves = [] ∧ UnderKey s o.kid o.key 64 ∧ o.key % 64 = 0 ∧
    (0 < (barField s o 4 4 + 2) % 2 ^ 32 ∧ barField s o 8 4 + barField s o 16 4 ≤ (barField s o 4 4 + 2) % 2 ^ 32) ∧
    (barField s o 4 4 + 1) % 2 ^ 32 < barField s o 8 4 + barField s o 16 4 ∧ (barField s o 4 4 + 0) % 2 ^ 32 = 0 :=
  ⟨{ State.reset with mem := barMem }, ⟨0x100, 0⟩, rfl, rfl, under_key0 rfl _ _, by decide, by decide +kernel, by decide +kernel, by decide +kernel⟩

def waiting : Wave := { wv with pending := [⟨7, [.s 5], [], false⟩] }
theorem wit_BarrierUnit : ∃ (s : State) (o : BarObj) (rest : List (BarObj × Nat × Nat × Option (Nat × Nat))), (dieOf s 0).barrierQ = (o, 0, 1, none) :: rest :=
  ⟨{ barSt wv with dies := [(0, { barrierQ := [(⟨0x100, 0⟩, 0, 1, none)] })] }, ⟨0x100, 0⟩, [], rfl⟩
theorem wit_BarrierUnit_wave : ∃ (s : State) (o : BarObj) (u id d : Nat) (w : Wave), (dieOf s 0).barrierQ = [(o, 0, 1, some (u, id))] ∧ s.waves = [(u, w)] ∧
    w.status = .ready ∧ d ≠ 0 ∧ d < 64 ∧ w.pending = [⟨id, [.s d], [], false⟩] :=
  ⟨{ barSt waiting with dies := [(0, { barrierQ := [(⟨0x100, 0⟩, 0, 1, some (2, 7))] })] }, ⟨0x100, 0⟩, 2, 7, 5, waiting, rfl, rfl, rfl, by decide, by decide, rfl⟩

/-- EventSlots: the largest plot handle, future handle and timer. -/
theorem wit_EventSlots_EventBinding_sources : (63#64 : DWord).toNat ≤ 63 ∧ (BitVec.ofNat 64 (2 ^ 45 - 1)).toNat < 2 ^ 45 ∧ (BitVec.ofNat 64 (2 ^ 55 - 1)).toNat < 2 ^ 55 := by
  decide
/-- EventSlots: a barrier with room, and one that has twelve slots already. -/
theorem wit_EventSlots_EventBinding : ∃ (s : State) (w : Wave) (p : Place), lookup s.waves s.cur = some w ∧ checkBarrier s w (w.sreg 1).toNat true = .ok p ∧
    (dieOf s (homeOf p.key)).barrierQ = [] ∧ QuietAt s (coreNo s w) p.key ∧ slotRoom (setWave s s.cur (w.bind 7 { })) p.key = true :=
  ⟨barSt (at1 0x10100), at1 0x10100, barPlace, rfl, ok_eq (by decide +kernel), rfl, ⟨(fun _ h => by cases h), rfl, rfl⟩, by decide +kernel⟩
def slotted (n : Nat) : Wave := { wv with slots := tab 8 fun i => if i < n then ⟨1#4, true, 0#56, 5#32, 0x100⟩ else { } }
theorem wit_EventSlots_EventBinding_full : ∃ (s : State) (w : Wave) (p : Place), lookup s.waves s.cur = some w ∧ checkBarrier s w (w.sreg 1).toNat true = .ok p ∧
    (dieOf s (homeOf p.key)).barrierQ = [] ∧ QuietAt s (coreNo s w) p.key ∧ slotRoom (setWave s s.cur (w.bind 7 { })) p.key = false :=
  ⟨{ barSt (at1 0x10100) with waves := [(2, at1 0x10100), (8, slotted 8), (9, slotted 4)] }, at1 0x10100, barPlace, rfl, ok_eq (by decide +kernel), rfl,
    ⟨(fun _ h => by cases h), rfl, rfl⟩, by decide +kernel⟩

/-- Waits: nothing bound; slot 7 posted; slot 7 bound and not posted. -/
theorem wit_Waits_Waitany :
    ((List.range 8).filter fun i => (wv.slot i).bound && !wv.evm.getLsbD i) = [] ∧
    (let w : Wave := { slotted 8 with evm := 0x7F#8, pev := 0x80#8 }
     ((List.range 8).filter fun i => (w.slot i).bound && !w.evm.getLsbD i).find? (fun i => w.pev.getLsbD i) = some 7) ∧
    (let w : Wave := { slotted 8 with evm := 0x7F#8 }
     let l := (List.range 8).filter fun i => (w.slot i).bound && !w.evm.getLsbD i
     l ≠ [] ∧ (∀ i ∈ l, w.pev.getLsbD i = false) ∧ w.pending = [] ∧ w.windows = []) := by decide +kernel

/-- Waits: a receiver with eight messages, with seven, and none at all; and a mailbox with a message. -/
theorem wit_Waits_Mailboxes (n : Nat) : ∃ (s : State) (w r : Wave) (k : Nat), lookup s.waves s.cur = some w ∧
    waveByWaveId s w.group ((w.sreg 1).toNat % 16) = some (k, r) ∧ lookup s.waves k = some r ∧ r.status = .ready ∧ r.mailbox.length = n :=
  ⟨{ st (wv.setS 1 15#64) with waves := [(2, wv.setS 1 15#64), (5, { wv with waveId := 15, mailbox := List.replicate n (0#64, 0#4) })] }, wv.setS 1 15#64, _, 5,
    rfl, rfl, rfl, rfl, List.length_replicate⟩
theorem wit_Waits_Mailboxes_none : ∃ (s : State) (w : Wave), lookup s.waves s.cur = some w ∧ waveByWaveId s w.group ((w.sreg 1).toNat % 16) = none :=
  ⟨st (wv.setS 1 15#64), wv.setS 1 15#64, rfl, rfl⟩

/-- Waits: nothing outstanding; a count of zero and of one; an event posted; the only wave of its group. -/
theorem wit_Waits : ∃ (s : State) (w : Wave), lookup s.waves s.cur = some w ∧ w.pending = [] ∧ w.windows = [] ∧ (w.sreg 1).toNat % 2 ^ 32 = 0 ∧ w.posted = [] ∧
    (∀ e ∈ s.waves, e.1 ≠ s.cur → e.2.group ≠ w.group) ∧ (s.waves.map (·.1)).Nodup ∧ w.waveId < 16 ∧ w.status = .ready :=
  ⟨st wv, wv, rfl, rfl, rfl, rfl, by decide +kernel, by intro e he h; cases List.mem_singleton.1 he; exact absurd rfl h, by decide, by decide, rfl⟩
theorem wit_Waits_more : ((wv.setS 1 1#64).sreg 1).toNat % 2 ^ 32 ≠ 0 ∧ ({ slotted 8 with pev := 1#8 } : Wave).posted ≠ [] := by decide +kernel

/-- A state whose context has a handler. -/
def handled (w : Wave) : State := { st w with contexts := [(0, { ctx := some 0, tbase := 0x4000#64 })] }

theorem wit_TrapEntryAndReturn_TrapEntry : ∃ (s : State) (w : Wave), lookup s.waves s.cur = some w ∧ w.pending = [] ∧ w.handler = false ∧ (ctxOf s w.ctag).tbase ≠ 0#64 ∧
    (ctxOf s w.ctag).debug = false := ⟨handled wv, wv, rfl, rfl, rfl, by decide +kernel, rfl⟩

theorem wit_FatalFaults : ∃ (s : State) (w : Wave) (t : Trap), lookup s.waves 2 = some w ∧ w.pending = [] ∧ w.windows = [] ∧ w.sheaf = none ∧
    isFatal t.cause = true ∧ ¬(t.cause = 9 ∧ t.reason = 11) ∧ w.handler = false ∧ (ctxOf s w.ctag).tbase ≠ 0#64 :=
  ⟨handled wv, wv, ⟨9, 10, 0, 0#32⟩, rfl, rfl, rfl, rfl, rfl, by decide, rfl, by decide +kernel⟩
theorem wit_FatalFaults_fatal : ∃ (s : State) (w x : Wave), lookup s.waves 2 = some w ∧ w.handler = true ∧
    lookup (st x).waves 2 = some x ∧ x.handler = false ∧ (ctxOf (st x) x.ctag).tbase = 0#64 :=
  ⟨handled { wv with handler := true }, { wv with handler := true }, wv, rfl, rfl, rfl, rfl, rfl⟩

theorem wit_TrapEntryAndReturn_TrapReturn : ∃ (s : State) (w : Wave), lookup s.waves s.cur = some w ∧ w.handler = true ∧ w.sheaf = none ∧ yokeOf s w.group = none ∧
    w.live &&& w.trap.tmask.setWidth 32 ≠ 0#32 := by
  refine ⟨st { wv with handler := true, trap := { tmask := 0x80000000#64 } }, { wv with handler := true, trap := { tmask := 0x80000000#64 } }, rfl, rfl, rfl,
    rfl, by decide⟩
theorem wit_TrapEntryAndReturn_TrapReturn_outside : ∃ (s : State) (w : Wave), lookup s.waves s.cur = some w ∧ w.handler = false := ⟨st wv, wv, rfl, rfl⟩

theorem wit_ControlRegisters_ControlReads : ∀ i ∈ [0, 3, 0x10, 0x11, 0x18, 0x20, 0x28, 0x40, 0x47, 0x50, 0x53], ctlIndex (BitVec.ofNat 16 i).toNat = true := by decide
theorem wit_ControlRegisters_ControlWrites : (0x3F#16 : BitVec 16).toNat < 0x40 ∧ 0x40 ≤ (0x47#16 : BitVec 16).toNat ∧ (0x47#16 : BitVec 16).toNat < 0x48 ∧
    (0x02#64 : DWord).getLsbD 4 = false := by decide
theorem wit_ControlRegisters_TranslationInvalidation : ∃ base n : Nat, base % 65536 = 0 ∧ n % 65536 = 0 ∧ base + n ≤ 2 ^ 55 ∧ (base + 1) % 65536 ≠ 0 ∧ 0 < n :=
  ⟨2 ^ 55 - 65536, 65536, by decide⟩

/-- Halt: a second wave of the group that runs on. -/
theorem wit_Halt : ∃ (s : State) (w : Wave), lookup s.waves s.cur = some w ∧ w.pending = [] ∧ w.members = [] ∧ w.sheaf = none ∧
    (∃ e ∈ s.waves, e.1 ≠ s.cur ∧ e.2.group = w.group ∧ e.2.status = .ready ∧ (groupOf s w.group).gbar.getLsbD e.2.waveId = false) ∧
    (s.waves.map (·.1)).Nodup :=
  ⟨{ st wv with waves := [(2, wv), (3, { wv with waveId := 1 })] }, wv, rfl, rfl, rfl, rfl,
    ⟨(3, { wv with waveId := 1 }), by simp, by decide +kernel, rfl, rfl, rfl⟩, by decide⟩

/-- A wave whose v2 and v3 hold in every lane the handle of slot 3 of die 0 under TAG 1. -/
def handles : Wave := (wv.setV 2 (splat 0x3001#32)).setV 3 (splat 0x1FFE#32)
/-- A state in which slot 3 of die 0 is a future of context 0 in the given state. -/
def futures (w : Wave) (k : BitVec 2) : State := { st w with dies := [(0, { frt := [(3, { state := k, value := 9#64 })] })] }

/-- TaskCreation: no lane ACTIVE. -/
theorem wit_TaskCreation_idle : ∃ (s : State) (w : Wave), lookup s.waves s.cur = some w ∧ w.active = 0#32 :=
  ⟨st { wv with mode := 1#12 }, { wv with mode := 1#12 }, rfl, by decide +kernel⟩
/-- One lane ACTIVE whose home is die 0 of this device; v3 names this device's node. -/
def oneLane : Wave := { wv.setV 3 (splat 0x1FFE#32) with live := 1#32 }
def oneAsk : TaskAsk := ⟨0, 0x1FFE00000000#64, none, 0#64⟩
theorem wit_TaskCreation : ∃ (s : State) (w : Wave) (l : List TaskAsk), lookup s.waves s.cur = some w ∧ l ≠ [] ∧
    checkInvoke s w 2 1 4 = .ok l ∧ shortHomes s 0 l = [] :=
  ⟨{ st oneLane with dies := [(0, { pools := [(0, [0x3001])] })] }, oneLane, [oneAsk], rfl, by decide, ok_eq (by decide +kernel), by decide +kernel⟩
theorem wit_TaskCreation_short : ∃ (s : State) (w : Wave) (l : List TaskAsk), lookup s.waves s.cur = some w ∧ l ≠ [] ∧
    checkInvoke s w 2 1 4 = .ok l ∧ shortHomes s 0 l ≠ [] :=
  ⟨st oneLane, oneLane, [oneAsk], rfl, by decide, ok_eq (by decide +kernel), by decide +kernel⟩
def forwardLane : Wave := oneLane.setV 2 (splat 0x3001#32)
theorem wit_TaskCreation_forward : ∃ (s : State) (w : Wave) (l : List TaskAsk) (stale : List Nat), lookup s.waves s.cur = some w ∧ (l ≠ [] ∨ stale ≠ []) ∧
    checkInvokef s w 2 1 4 = .ok (l, stale) ∧ shortHomes s 0 l = [] :=
  ⟨{ st forwardLane with dies := [(0, { pools := [(0, [0x4001])] })] }, forwardLane, [⟨0, 0x1FFE00000000#64, some 0x1FFE00003001#64, 0#64⟩], [], rfl,
    by decide, ok_eq (by decide +kernel), by decide +kernel⟩
theorem wit_TaskCreation_stale : ∃ (s : State) (w : Wave), lookup s.waves s.cur = some w ∧ checkInvokef s w 2 1 4 = .ok ([], [0]) ∧ shortHomes s 0 [] = [] :=
  ⟨st oneLane, oneLane, rfl, ok_eq (by decide +kernel), by decide +kernel⟩

theorem wit_TaskSlots : ∃ (s : State) (a : TaskAsk), homeLost s a.home = false ∧ lookup (dieOf s 0).pools (homeKey s a.home) = some (0x3001 :: []) ∧
    homeKey s a.home < 2 ∧ a.target = none :=
  ⟨{ st wv with dies := [(0, { pools := [(0, [0x3001])] })] }, oneAsk, by decide +kernel⟩
theorem wit_TaskSlots_lost : homeLost { st wv with dies := [(0, { state := .lost })] } oneAsk.home = true := by decide +kernel
theorem wit_TaskSlots_far : ∃ (s : State) (a : TaskAsk), homeLost s a.home = false ∧ lookup (dieOf s 0).pools (homeKey s a.home) = some (0x3001 :: []) ∧
    2 ≤ homeKey s a.home :=
  ⟨{ st wv with dies := [(0, { pools := [(2 + 2 * 5, [0x3001])] })] }, ⟨0, 0xA00000000#64, none, 0#64⟩, by decide +kernel⟩

theorem wit_Futures_FutureReads : ∃ (s t : State) (w : Wave), lookup s.waves s.cur = some w ∧ lookup t.waves t.cur = some w ∧
    (∀ h ∈ ((List.range 32).filter fun l => w.active.getLsbD l).map fun l => w.pair64 2 l, futureState s w.ctag h ≠ .pending) ∧
    ∃ h ∈ ((List.range 32).filter fun l => w.active.getLsbD l).map fun l => w.pair64 2 l, futureState t w.ctag h = .pending := by
  refine ⟨futures handles 2#2, futures handles 1#2, handles, rfl, rfl, ?_, ?_⟩
  · intro h hh
    exact of_decide_eq_true (List.all_eq_true.1 (show (((List.range 32).filter fun l => handles.active.getLsbD l).map fun l => handles.pair64 2 l).all
      (fun h => decide (futureState (futures handles 2#2) handles.ctag h ≠ .pending)) = true by decide +kernel) h hh)
  · obtain ⟨h, hh, e⟩ := List.any_eq_true.1 (show (((List.range 32).filter fun l => handles.active.getLsbD l).map fun l => handles.pair64 2 l).any
      (fun h => decide (futureState (futures handles 1#2) handles.ctag h = .pending)) = true by decide +kernel)
    exact ⟨h, hh, of_decide_eq_true e⟩
theorem wit_Futures_FutureReport : (62 : Nat) + 1 < 64 ∧ 61 < 64 ∧ 61 ≠ 62 ∧ 61 ≠ 62 + 1 ∧ 31 < 32 ∧ handles.active.getLsbD 31 = true ∧
    ({ handles with live := 1#32 } : Wave).active.getLsbD 31 = false ∧
    futureState (futures handles 1#2) 0 (handles.pair64 2 31) = .pending ∧ futureState (futures handles 2#2) 0 (handles.pair64 2 31) = .complete 9#64 ∧
    futureState (futures handles 3#2) 0 (handles.pair64 2 31) = .broken 9#64 ∧ futureState (futures handles 0#2) 0 (handles.pair64 2 31) = .stale := by
  decide +kernel

def sheafWave : Wave := { wv.setP 1 1#32 with mode := 1#12, sheaf := some ⟨0#64, 0#64, [(0, ⟨1#64, 2#64, 0x1FFE00003001#64⟩)]⟩ }
theorem wit_LaneTasks : ∃ (s : State) (w : Wave) (sh : SheafInfo), lookup s.waves s.cur = some w ∧ w.sheaf = some sh ∧ w.live &&& ~~~w.active ≠ 0#32 ∧
    w.pending = [] ∧ CoreQuiet s (coreNo s w) := ⟨st sheafWave, sheafWave, _, rfl, rfl, by decide +kernel, rfl, rfl, rfl⟩

/-- A context with a dependence table of two entries at 0x10400 and a record to launch at 0x10100. -/
def depSt (w : Wave) (m : List Host.Cell) : State := { st w with contexts := [(0, { ctx := some 0, ndep := 2, depbase := 0x10400#64 })], mem := m }
def launcher (i : Nat) : Wave := (at1 0x10100).setS 2 (BitVec.ofNat 64 (i + 2 ^ 32))
def recAt : Placed := [(⟨0, 0x10100, 64⟩, [(⟨0, 0x100, 0, 0xF#64⟩, 64)])]
def entryAt (i : Nat) : Place := ⟨0, 0x400 + 128 * i, 0, 0xF#64⟩

theorem recAt_here : OnDevice recAt := on_device (by decide)
/-- DependenceTable: entry 2 is beyond NDEP, entry 1 is the last, FREE in one state and taken in the other. -/
theorem wit_DependenceTable_DeviceLaunch_beyond : ∃ (s : State) (w : Wave), lookup s.waves s.cur = some w ∧ w.pending = [] ∧ CoreQuiet s (coreNo s w) ∧ s.snaps = [] ∧
    UnderKey s 0 0x100 64 ∧ OnDevice recAt ∧ checkLaunchOp s w (w.sreg 1).toNat ((w.sreg 2).toNat % 65536) = .ok (recAt, none) :=
  ⟨depSt (launcher 2) [], launcher 2, rfl, rfl, ⟨rfl, rfl⟩, rfl, under_key0 rfl _ _, recAt_here, ok_eq (by decide +kernel)⟩
theorem wit_DependenceTable_DeviceLaunch : ∃ (s : State) (w : Wave) (p : Place), lookup s.waves s.cur = some w ∧ w.pending = [] ∧ CoreQuiet s (coreNo s w) ∧
    s.snaps = [] ∧ UnderKey s 0 0x100 64 ∧ checkLaunchOp s w (w.sreg 1).toNat ((w.sreg 2).toNat % 65536) = .ok (recAt, some p) ∧ p.key % 128 = 0 ∧
    UnderKey s p.kid p.key 128 ∧ physByte s (p.key + 68) = 0#8 :=
  ⟨depSt (launcher 1) [], launcher 1, entryAt 1, rfl, rfl, ⟨rfl, rfl⟩, rfl, under_key0 rfl _ _, ok_eq (by decide +kernel), rfl, under_key0 rfl _ _, rfl⟩
theorem wit_DependenceTable_DeviceLaunch_taken : physByte (depSt (launcher 1) [(0x480 + 68, 1#8)]) ((entryAt 1).key + 68) ≠ 0#8 ∧
    okAnd (checkLaunchOp (depSt (launcher 1) [(0x480 + 68, 1#8)]) (launcher 1) 0x10100 1) (fun a => decide (a = (recAt, some (entryAt 1)))) = true := by
  decide +kernel

/-- DependenceTable: an entry that waits for one signal, one that does not wait, and one beyond NDEP. -/
theorem wit_DependenceTable_DependenceSignal : ∃ (s : State) (w : Wave) (p : Place), lookup s.waves s.cur = some w ∧ w.pending = [] ∧ CoreQuiet s (coreNo s w) ∧
    checkDepsig s w ((w.sreg 1).toNat % 65536) = .ok (some p) ∧ p.key % 128 = 0 ∧ UnderKey s p.kid p.key 128 ∧ s.snaps = [] ∧
    physByte s (p.key + 68) = 1#8 ∧ 0 < natOf (physBytes s (p.key + 64) 4) :=
  ⟨depSt (at1 1) [(0x480 + 64, 1#8), (0x480 + 68, 1#8)], at1 1, entryAt 1, rfl, rfl, ⟨rfl, rfl⟩, ok_eq (by decide +kernel), rfl, under_key0 rfl _ _, rfl, rfl,
    by decide +kernel⟩
theorem wit_DependenceTable_DependenceSignal_lost : stops (checkDepsig (depSt (at1 1) []) (at1 1) 1) = false ∧ physByte (depSt (at1 1) []) ((entryAt 1).key + 68) ≠ 1#8 ∧
    okAnd (checkDepsig (depSt (at1 2) []) (at1 2) 2) (fun a => decide (a = none)) = true := by decide +kernel

/-- Regroup: two waves of one group; the second waits for the first, or does not wait, or waits for another. -/
def twoWaves (p : Park) : State :=
  { st wv with
    groups := [(1, { gr1 with nwave := 2, wmask := 3#16 })]
    waves := [(2, { (wv.setS 1 1#64).setP 1 3#32 with mode := 1#12 }), (3, { wv.setP 1 0x10#32 with waveId := 1, mode := 1#12, status := .parked p })] }
theorem wit_Regroup : ∃ (s : State) (w x : Wave) (k q : Nat) (xnx : BitVec 2) (m : DWord), lookup s.waves s.cur = some w ∧
    waveByWaveId s w.group ((w.sreg 1).toNat % 16) = some (k, x) ∧ x.status = .parked (.regroup xnx q m) ∧
    w.sheaf = none ∧ (w.sreg 1).toNat % 16 ≠ w.waveId ∧ (w.sreg 1).toNat % 16 < (groupOf s w.group).nwave ∧
    x.pc = w.pc ∧ q = w.waveId ∧ m = w.sreg 2 ∧ x.mode.setWidth 3 = w.mode.setWidth 3 ∧ popCount w.active + popCount x.active ≤ 32 ∧
    w.status = .ready ∧ lookup s.waves k = some x ∧ k ≠ s.cur ∧ w.waveId ≠ x.waveId ∧ x.group = w.group ∧ x.sheaf = none ∧
    w.pending = [] ∧ x.pending = [] ∧ w.windows = [] ∧ x.windows = [] ∧ w.members = [] ∧ x.members = [] :=
  ⟨twoWaves (.regroup 0#2 0 0#64), _, _, 3, 0, 0#2, 0#64, rfl, rfl, rfl, by decide +kernel⟩
theorem wit_Regroup_wait : ∃ (s : State) (w x : Wave) (k : Nat), lookup s.waves s.cur = some w ∧
    waveByWaveId s w.group ((w.sreg 1).toNat % 16) = some (k, x) ∧ ∀ xnx q m, x.status ≠ .parked (.regroup xnx q m) :=
  ⟨twoWaves .debug, _, _, 3, rfl, rfl, fun _ _ _ h => by cases h⟩
theorem wit_Regroup_mismatch : ∃ (s : State) (w x : Wave) (k q : Nat) (xnx : BitVec 2) (m : DWord), lookup s.waves s.cur = some w ∧
    waveByWaveId s w.group ((w.sreg 1).toNat % 16) = some (k, x) ∧ x.status = .parked (.regroup xnx q m) ∧ q ≠ w.waveId :=
  ⟨twoWaves (.regroup 0#2 9 0#64), _, _, 3, 9, 0#2, 0#64, rfl, rfl, rfl, by decide +kernel⟩
theorem wit_Regroup_alone : ∃ (s : State) (w : Wave), lookup s.waves s.cur = some w ∧ (w.sreg 1).toNat % 16 = w.waveId := ⟨st wv, wv, rfl, rfl⟩

/-- Regroup: the last lane of the last register, chosen and not chosen. -/
theorem wit_Regroup_FusedLanes : (63 : Nat) < 64 ∧ 31 < 32 ∧ (BitVec.allOnes 64).getLsbD 63 = true ∧ (0#64 : DWord).getLsbD 63 = false ∧
    ((List.range 32).filter fun l => wv.active.getLsbD l)[31]? = some 31 ∧
    (let r : Wave := { wv with live := 1#32 }
     let n := ((List.range 32).filter fun l => r.active.getLsbD l).length
     n ≤ 31 ∧ ((List.range 32).filter fun l => wv.active.getLsbD l)[31 - n]? = some 30) := by decide +kernel

/-- TaskMessages: a die with one message of each kind. -/
def msgs (l : Die) : State := { State.reset with contexts := [(0, { ctx := some 0 })], dies := [(0, l)] }
theorem wit_TaskMessages_task : ∃ s : State, (dieOf s 0).tasks = [.task 3] ∧ (frtOf s 0 3).state = 1#2 ∧ (frtOf s 0 3).started = false ∧
    isResident s (frtOf s 0 3).ctag = true ∧ (dieOf s 0).former = [] := ⟨msgs { tasks := [.task 3], frt := [(3, { state := 1#2 })] }, by decide +kernel⟩
theorem wit_TaskMessages_sheaf : ∃ (s : State) (o : OpenSheaf), (dieOf s 0).former = [o] ∧ o.since + 2000 ≤ s.tsc.toNat :=
  ⟨{ msgs { former := [⟨0, 0#64, 0#64, [], 5⟩] } with tsc := 2005#64 }, _, rfl, by decide⟩
theorem wit_TaskMessages_end : ∃ (s : State) (b : Bool) (v : DWord), (dieOf s 0).ends = [.finish 3 (frtOf s 0 3).tag (frtOf s 0 3).ctag b v] ∧ (frtOf s 0 3).state = 1#2 ∧
    (frtOf s 0 3).fifo = [] ∧ (frtOf s 0 3).waits = false ∧ (frtOf s 0 3).resa = 0#64 ∧ (frtOf s 0 3).dropped = false ∧ s.waves = [] :=
  ⟨msgs { ends := [.finish 3 1#12 0 true 9#64], frt := [(3, { state := 1#2 })] }, true, 9#64, by decide +kernel⟩
theorem wit_TaskMessages_drop : ∃ (s : State) (h : DWord), (dieOf s 0).forwards = [] ∧ (dieOf s 0).drops = [.drop h] ∧ handleDie h = 0 ∧ handleSlot h = 3 ∧
    handleTag h = (frtOf s 0 3).tag ∧ 2#2 ≤ (frtOf s 0 3).state ∧ (frtOf s 0 3).fifo = [] ∧ s.waves = [] :=
  ⟨msgs { drops := [.drop 0x3FFF#64], frt := [(3, { state := 2#2, tag := 4095#12 })] }, 0x3FFF#64, by decide +kernel⟩
theorem wit_TaskMessages_forward : ∃ (s : State) (h : DWord), (dieOf s 0).forwards = [.forward h 3] ∧ (frtOf s 0 3).state = 1#2 ∧ handleSlot h ≠ 3 ∧
    s.waves = [] ∧ (frtOf s 0 (handleSlot h)).state = 2#2 ∧ (frtOf s 0 (handleSlot h)).tag = handleTag h ∧
    (frtOf s 0 (handleSlot h)).ctag = (frtOf s 0 3).ctag :=
  ⟨msgs { forwards := [.forward 0x4001#64 3], frt := [(3, { state := 1#2 }), (4, { state := 2#2 })] }, 0x4001#64, by decide +kernel⟩
theorem wit_TaskMessages_answer : ∃ (s : State) (h : DWord) (a : FutureAnswer), ownNode s (handleNode h) = false ∧ a ≠ .pending ∧ s.waves = [] :=
  ⟨State.reset, 0#64, .complete 1#64, by decide +kernel⟩

theorem wit_TaskMessages_SlotGrants : ∃ s : State, s.waves = [] ∧ (dieOf s 1).grantReqs = [0] ∧ lookup (dieOf s 0).pools 1 = none :=
  ⟨{ State.reset with dies := [(1, { grantReqs := [0] })] }, rfl, rfl, rfl⟩
theorem wit_TaskMessages_SlotGrants_far : ∃ l : List (BitVec 32), l ≠ [] ∧ l.length ≤ 64 ∧ lookup (dieOf State.reset 0).pools (2 + 7) = none :=
  ⟨List.replicate 64 0x3001#32, by decide, by decide, rfl⟩
theorem wit_TaskMessages_SlotGrants_task : ∃ s : State, s.waves = [] ∧ boundCtx s 5 9 = some 0 ∧ (frtOf s 0 3).state = 0#2 ∧ (frtOf s 0 3).granted = true ∧
    (frtOf s 0 3).tag = 1#12 ∧ boundCtx s 6 9 = none :=
  ⟨{ msgs { frt := [(3, { granted := true })] } with binds := [(5, 9, 0)] }, by decide +kernel⟩

/-- A plot of group 1 under handle 5, and a wave whose s4 and s5 name two of its rows; s1 is an address. -/
def plotAt (st : BitVec 2) (fmt : BitVec 4) : Plot := ⟨false, st, 0#2, fmt, 4, 16, 0, 256, 0, 0, 1, false, 0, 0#2, [], []⟩
def plotted (w : Wave) (p : Plot) : State := { st w with groups := [(1, { gr1 with plots := [(5, p)] })] }
def referer : Wave := ((at1 0x10100).setS 4 0x500000000#64).setS 5 0x1000000002#64

/-- PlotAllocation: the second granule of a region of two, behind a plot. -/
theorem wit_PlotAllocation_FirstFit : ∃ gr : Group, firstFit gr 1 = some 1 := ⟨{ gr1 with pngran := 2, plots := [(5, plotAt 0#2 0#4)] }, by decide⟩

/-- PlotAllocation: room, no room, and a failed check; a plot to free and none. -/
def shapeArg (h : Nat) : Wave := (wv.setS 1 (BitVec.ofNat 64 h)).setS 2 0x1000000010#64
theorem wit_PlotAllocation : ∃ (s : State) (w : Wave), lookup s.waves s.cur = some w ∧ checkPalloc s w (w.sreg 1).toNat false 16 16 0 = .ok (some 0) :=
  ⟨st (shapeArg 63), shapeArg 63, rfl, ok_eq (by decide +kernel)⟩
theorem wit_PlotAllocation_full : ∃ (s : State) (w : Wave), lookup s.waves s.cur = some w ∧ checkPalloc s w (w.sreg 1).toNat false 16 16 0 = .ok none :=
  ⟨{ plotted (shapeArg 63) (plotAt 0#2 0#4) with groups := [(1, { gr1 with pngran := 1, plots := [(5, plotAt 0#2 0#4)] })] }, shapeArg 63, rfl,
    ok_eq (by decide +kernel)⟩
theorem wit_PlotAllocation_error : ∃ (s : State) (w : Wave) (e : Stop), lookup s.waves s.cur = some w ∧ checkPalloc s w (w.sreg 1).toNat false 16 16 0 = .error e :=
  let ⟨e, h⟩ := error_of (x := checkPalloc (st (shapeArg 64)) (shapeArg 64) ((shapeArg 64).sreg 1).toNat false 16 16 0) (by decide +kernel)
  ⟨st (shapeArg 64), shapeArg 64, e, rfl, h⟩
theorem wit_PlotAllocation_free : ∃ (s : State) (w : Wave) (p : Plot), lookup s.waves s.cur = some w ∧ checkPfree s w 5 = .ok (w.group, p) :=
  ⟨plotted wv (plotAt 2#2 0#4), wv, _, rfl, ok_eq (a := (1, plotAt 2#2 0#4)) (by decide +kernel)⟩
theorem wit_PlotAllocation_nofree : stops (checkPfree (plotted wv (plotAt 1#2 0#4)) wv 5) = true := by decide +kernel

theorem wit_PlotArmingAndReports_PlotArming : ∃ (s : State) (w : Wave) (p : Plot), lookup s.waves s.cur = some w ∧ (w.sreg 1).toNat ≤ 63 ∧
    lookup (groupOf s w.group).plots (w.sreg 1).toNat = some p ∧ p.state = 0#2 :=
  ⟨plotted (wv.setS 1 5#64) (plotAt 0#2 0#4), wv.setS 1 5#64, plotAt 0#2 0#4, rfl, by decide +kernel, rfl, rfl⟩
theorem wit_PlotArmingAndReports_PlotArming_states : (plotAt 2#2 0#4).state = 2#2 ∧ (plotAt 2#2 0#4).err = 0#2 ∧ (plotAt 2#2 0#4).access = [] ∧ (plotAt 1#2 0#4).state = 1#2 ∧
    ({ plotAt 2#2 0#4 with err := 1#2 } : Plot).err ≠ 0#2 ∧ (plotted wv (plotAt 2#2 0#4)).transfers = [] ∧
    (∃ p : Plot, p.state = 3#2 ∧ p.armpend = false ∧ p.access ≠ []) ∧ ∃ p : Plot, p.state = 3#2 ∧ p.armpend = true :=
  ⟨by decide, by decide, by decide, by decide, by decide, rfl, ⟨{ plotAt 3#2 0#4 with access := [.pld] }, by decide⟩, { plotAt 3#2 0#4 with armpend := true }, by decide⟩

theorem wit_PlotArmingAndReports_PlotReports : ∃ (s : State) (w : Wave) (g : Nat) (p : Plot), lookup s.waves s.cur = some w ∧ (w.sreg 1).toNat ≤ 63 ∧
    findPlot s w.group (w.sreg 1).toNat = some (g, p) ∧ p.state = 1#2 :=
  ⟨plotted (wv.setS 1 5#64) (plotAt 1#2 0#4), wv.setS 1 5#64, 1, plotAt 1#2 0#4, rfl, by decide +kernel, rfl, rfl⟩
theorem wit_PlotArmingAndReports_PlotReports_none : 63 < ((wv.setS 1 64#64).sreg 1).toNat ∧ ((wv.setS 1 63#64).sreg 1).toNat ≤ 63 ∧
    findPlot (plotted wv (plotAt 1#2 0#4)) 1 63 = none ∧ (plotAt 0#2 0#4).state ≠ 1#2 := by decide +kernel

theorem wit_PlotContents_PlotWindows : ∃ (s : State) (w : Wave) (g : Nat) (p : Plot), lookup s.waves s.cur = some w ∧
    checkWindow s w 3 (plotRef (w.sreg 4) (w.sreg (4 + 1))) checkRead = .ok (g, p) :=
  ⟨plotted referer (plotAt 2#2 0#4), referer, 1, plotAt 2#2 0#4, rfl, ok_eq (by decide +kernel)⟩
theorem wit_PlotContents_PlotWindows_store : ∃ (s : State) (w : Wave) (g : Nat) (p : Plot), lookup s.waves s.cur = some w ∧
    checkPst s w 3 (plotRef (w.sreg 4) (w.sreg (4 + 1))) = .ok (g, p) :=
  ⟨plotted referer (plotAt 1#2 0#4), referer, 1, plotAt 1#2 0#4, rfl, ok_eq (by decide +kernel)⟩
theorem wit_PlotContents_PlotWindows_errors : stops (checkWindow (st referer) referer 3 (plotRef (referer.sreg 4) (referer.sreg 5)) checkRead) = true ∧
    stops (checkPst (plotted referer (plotAt 3#2 0#4)) referer 3 (plotRef (referer.sreg 4) (referer.sreg 5))) = true := by decide +kernel

/-- PlotContents: the bytes that reach the quota, and fewer. -/
theorem wit_PlotContents_Delivery : ∃ (s : State) (p : Plot), lookup (groupOf s 1).plots 5 = some p ∧ p.state = 1#2 ∧ p.arrived + 256 = p.quota ∧ p.arrived + 64 ≠ p.quota :=
  ⟨plotted wv (plotAt 1#2 0#4), plotAt 1#2 0#4, rfl, rfl, rfl, by decide⟩

/-- What a copy needs of its plan. -/
def moves (p : CopyPlan) : Bool := totalBytes p.xfer != 0
def oneTarget (p : CopyPlan) (q : Nat × Plot) : Bool := moves p && decide (p.targets = [q])

/-- CopiesIntoPlots: two rows of a FILLING plot. -/
theorem wit_CopiesIntoPlots (op : XferOp) (h : op = .cpy ∨ op = .cpyt ∨ op = .cpyim) : ∃ (s : State) (w : Wave) (p : CopyPlan), lookup s.waves s.cur = some w ∧
    CoreQuiet s (coreNo s w) ∧ checkCopy s s.cur w ⟨op, 0#1 ++ 0#3, 4#6, 1#6, 8#6, 0#1 == 1#1⟩ = .ok p ∧ totalBytes p.xfer ≠ 0 ∧
    p.targets = [(1, plotAt 1#2 0#4)] := by
  have k : okAnd (checkCopy (plotted referer (plotAt 1#2 0#4)) 2 referer ⟨op, 0#1 ++ 0#3, 4#6, 1#6, 8#6, 0#1 == 1#1⟩)
      (oneTarget · (1, plotAt 1#2 0#4)) = true := by
    rcases h with rfl | rfl | rfl <;> decide +kernel
  obtain ⟨p, e, q⟩ := ok_of k
  simp only [oneTarget, moves, Bool.and_eq_true, bne_iff_ne, decide_eq_true_eq] at q
  exact ⟨_, referer, p, rfl, ⟨rfl, rfl⟩, e, q.1, q.2⟩
theorem wit_CopiesIntoPlots_error : stops (checkCopy (plotted referer (plotAt 3#2 0#4)) 2 referer ⟨.cpy, 0#4, 4#6, 1#6, 8#6, false⟩) = true := by decide +kernel

/-- A yoke of one core, of launch 4, gang 1, its group holding the headland's lease. -/
def yoke1 (st : YState) : Yoke :=
  ⟨0, 4, 1, st, false, 8#32, 1#4, [⟨1, none, true, false, false, 0⟩], 1, [], [], 0, 0, false, [], 0, []⟩
def gang1 (p : Plot) : Group := { gr1 with launch := 4, gang := 1, plots := [(5, p)] }
def launch4 : Launch :=
  { ctag := 0, launchId := 0#32, die := 0, waves := 1, yoke := true, shape := 8#32, serial := false, daff := 0#8, entry := 0x10000#64, argp := 7#64, gx := 1,
    gy := 1, gz := 1, region := 0#64, plotb := 8, cpla := 0#64, queue := none, index := 0, dep := none, next := 0, ended := 0, faults := 0, killed := false,
    restored := false, headSince := none }
def yoked (w : Wave) (p : Plot) (k : Yoke) : State :=
  { st w with groups := [(1, gang1 p)], launches := [(4, launch4)], yokes := [(7, k)] }

/-- CopiesIntoPlots: CPYM to position 0. -/
theorem wit_CopiesIntoPlots_cpym : ∃ (s : State) (w : Wave) (p : CopyPlan), lookup s.waves s.cur = some w ∧
    CoreQuiet s (coreNo s w) ∧ checkCopy s s.cur w ⟨.cpym, 0#1 ++ 0#3, 4#6, 1#6, 8#6, 0#1 == 1#1⟩ = .ok p ∧ totalBytes p.xfer ≠ 0 ∧
    p.targets = [(1, plotAt 1#2 0#4)] := by
  obtain ⟨p, e, q⟩ := ok_of (x := checkCopy (yoked (referer.setS 8 0x100000040#64) (plotAt 1#2 0#4) (yoke1 .idle)) 2 (referer.setS 8 0x100000040#64)
    ⟨.cpym, 0#1 ++ 0#3, 4#6, 1#6, 8#6, 0#1 == 1#1⟩) (p := (oneTarget · (1, plotAt 1#2 0#4))) (by decide +kernel)
  simp only [oneTarget, moves, Bool.and_eq_true, bne_iff_ne, decide_eq_true_eq] at q
  exact ⟨_, referer.setS 8 0x100000040#64, p, rfl, ⟨rfl, rfl⟩, e, q.1, q.2⟩

theorem wit_CopiesOutOfPlots : ∃ (s : State) (w : Wave) (p : CopyPlan), lookup s.waves s.cur = some w ∧ CoreQuiet s (coreNo s w) ∧
    checkCopyOut s s.cur w ⟨.cpyout, 0#1 ++ 0#2 ++ 1#1, 4#6, 1#6, 8#6, 0#1 == 1#1⟩ = .ok p ∧ totalBytes p.xfer ≠ 0 ∧ p.targets = [(1, plotAt 2#2 0#4)] ∧
    lookup (groupOf s 1).plots (plotRef (w.sreg 4) (w.sreg (4 + 1))).handle = some (plotAt 2#2 0#4) := by
  obtain ⟨p, e, q⟩ := ok_of (x := checkCopyOut (plotted referer (plotAt 2#2 0#4)) 2 referer ⟨.cpyout, 0#1 ++ 0#2 ++ 1#1, 4#6, 1#6, 8#6, 0#1 == 1#1⟩)
    (p := (oneTarget · (1, plotAt 2#2 0#4))) (by decide +kernel)
  simp only [oneTarget, moves, Bool.and_eq_true, bne_iff_ne, decide_eq_true_eq] at q
  exact ⟨plotted referer (plotAt 2#2 0#4), referer, p, rfl, ⟨rfl, rfl⟩, e, q.1, q.2, by decide +kernel⟩
theorem wit_CopiesOutOfPlots_error : stops (checkCopyOut (plotted referer (plotAt 3#2 0#4)) 2 referer ⟨.cpyout, 0#4, 4#6, 1#6, 8#6, false⟩) = true := by decide +kernel
theorem wit_CopiesOutOfPlots_bar : ∃ (s : State) (w : Wave) (p : Place), lookup s.waves s.cur = some w ∧ w.sreg 1 ≠ 0#64 ∧
    checkBarrier s w (w.sreg 1).toNat true = .ok p := ⟨barSt (at1 0x10100), at1 0x10100, barPlace, rfl, by decide +kernel, ok_eq (by decide +kernel)⟩

/-- CommandsAndPublish: a record of zeros at 0x10100, as a load of the wave reads it, whose engine is the device's choice. -/
theorem wit_CommandsAndPublish : ∃ (s : State) (w : Wave) (plan : CmdPlan), lookup s.waves s.cur = some w ∧ CoreQuiet s (coreNo s w) ∧ w.pending = [] ∧
    checkXeng s w (w.sreg 1).toNat = .ok recAt ∧ OnDevice recAt ∧ s.snaps = [] ∧
    (recAt.flatMap (·.2)).flatMap (fun p => physBytes s p.1.key p.2) = physBytes s 0x100 64 ∧
    checkCommand (readPlaces s (coreNo s w) [] true [] (recAt.flatMap (·.2))).1 w (physBytes s 0x100 64) = .ok plan ∧ plan.source = none ∧ cmdOpc (physBytes s 0x100 64) ≠ 3 := by
  obtain ⟨p, e, q⟩ := ok_of (x := checkCommand (readPlaces (st (at1 0x10100)) 0 [] true [] (recAt.flatMap (·.2))).1 (at1 0x10100)
    (physBytes (st (at1 0x10100)) 0x100 64)) (p := fun p => p.source.isNone) (by decide +kernel)
  exact ⟨st (at1 0x10100), at1 0x10100, p, rfl, ⟨rfl, rfl⟩, rfl, ok_eq (by decide +kernel), recAt_here, rfl, by decide +kernel, e, Option.isNone_iff_eq_none.1 q,
    by decide +kernel⟩
/-- A misaligned range, a range of one page, and nothing. -/
theorem wit_CommandsAndPublish_ranges : ((0x10001#64 : DWord).toNat % 65536 ≠ 0) ∧ stops (checkPublish (st wv) wv 0x10000 0x10000) = false ∧
    stops (checkPublish (st wv) wv 0x10000 0) = false := by decide +kernel
/-- A page table of one table that stands for every level, whose leaf for 0x10000 is a SHADOW leaf. -/
def tabled : State :=
  { State.reset with contexts := [(0, { ctx := some 0, ptbase := 0x1000#64 })], mem := [(0x1000, 1#8), (0x1001, 0x10#8), (0x1008, 0x47#8), (0x100A, 4#8)] }
def publisher : Wave := { wv with stall := some (.publish 0#2 9) }
theorem wit_CommandsAndPublish_point : ∃ (s : State) (p : Publish) (w : Wave) (k size : Nat) (leaf : DWord), lookup s.publishes 9 = some p ∧ p.waits = [] ∧
    lookup s.waves p.wave = some w ∧ w.stall = some (.publish 0#2 9) ∧ shadowPlaced s p.ctag = false ∧ (∀ c, CoreQuiet s c) ∧
    rangeLeaves s p.ctag p.base.toNat p.len = [(k, leaf, size)] ∧ leafShadow leaf = true ∧ UnderKey s (key0 s) k 8 ∧ s.snaps = [] :=
  ⟨{ tabled with waves := [(2, publisher)], publishes := [(9, ⟨2, 0, 0x10000#64, 0x10000, []⟩)] }, _, publisher, 0x1008, 0x10000, 0x40047#64, rfl, rfl, rfl, rfl, rfl,
    fun _ => ⟨rfl, rfl⟩, by decide +kernel, by decide, under_key0 rfl _ _, rfl⟩

/-- An instruction that waits for a peer, with an access to a SHADOW page to perform. -/
theorem wit_CommandsAndPublish_placed : shadowPlaced (st { wv with placed := [(⟨0, 0x10100, 4⟩, [(⟨0, 0x100, 0, 0x47#64⟩, 4)])] }) 0 = true := by decide +kernel

/-- TransfersAdvance: the first block of a copy of two rows of 64 bytes. -/
def xfer (op : XferOp) : Transfer :=
  { op, engine := 0, ctag := 0, wave := 2, group := 1, launch := 0, sub := 0#4, lanes := 3#32, base := 0x10100#64, ref0 := 0x500000000#64,
    ref1 := 0x1000000002#64, opnd := 64#64, rowoff := [0#32, 64#32], cmd := [], bara := 0#64, plots := [(1, 5)], fmt := 0#4, rows := 2,
    rowBytes := 64, image := List.replicate 128 9#8, done := 0, parked := none, pause := false, region := 0#64, peer := [] }
def xferSt (op : XferOp) (p : Plot) : State := { plotted wv p with transfers := [(9, xfer op)] }
theorem wit_TransfersAdvance_out : ∃ (s : State) (t : Transfer) (p : Place), lookup s.transfers 9 = some t ∧ t.parked = none ∧ t.pause = false ∧ s.snaps = [] ∧
    p.loc ≠ 2 ∧ t.peer = [] ∧ t.op = .cpyout ∧ engineAt s t 0x10100#64 true = .ok p ∧ UnderKey s p.kid p.key 64 ∧ t.done + 64 < totalBytes t :=
  ⟨xferSt .cpyout (plotAt 2#2 0#4), _, ⟨0, 0x100, 0, 0xF#64⟩, rfl, rfl, rfl, rfl, by decide, rfl, rfl, ok_eq (by decide +kernel), under_key0 rfl _ _,
    by decide +kernel⟩
theorem wit_TransfersAdvance_in : ∃ (s : State) (t : Transfer) (p : Place) (q : Plot), lookup s.transfers 9 = some t ∧ t.parked = none ∧ t.pause = false ∧
    s.snaps = [] ∧ p.loc ≠ 2 ∧ t.peer = [] ∧ t.op = .cpy ∧ t.plots = [(1, 5)] ∧ engineAt s t ((copyPiece t).va &&& ~~~63#64) false = .ok p ∧ UnderKey s p.kid p.key 64 ∧
    lookup (groupOf s 1).plots 5 = some q ∧ q.state = 1#2 ∧ isTilth q.fmt.toNat = false ∧
    q.arrived + (copyPiece t).elems.length * unitBytes t.fmt.toNat < q.quota ∧ t.done + (copyPiece t).elems.length * unitBytes t.fmt.toNat < totalBytes t :=
  ⟨xferSt .cpy (plotAt 1#2 0#4), _, ⟨0, 0x100, 0, 0xF#64⟩, plotAt 1#2 0#4, rfl, rfl, rfl, rfl, by decide, rfl, rfl, rfl, ok_eq (by decide +kernel),
    under_key0 rfl _ _, rfl, rfl, by decide +kernel⟩
theorem wit_TransfersAdvance_access : ∃ (s : State) (gr : Group) (p : Plot), lookup s.groups 1 = some gr ∧ lookup gr.plots 5 = some p ∧ p.access = .pld :: [] ∧
    gr.zombies = [] ∧ p.state = 3#2 ∧ p.armpend = false :=
  ⟨plotted wv { plotAt 3#2 0#4 with access := [.pld] }, _, _, rfl, rfl, rfl, rfl, rfl, rfl⟩
theorem wit_TransfersAdvance_open : ∃ p : Plot, p.access = .pld :: [] ∧ p.state ≠ 3#2 := ⟨{ plotAt 2#2 0#4 with access := [.pld] }, rfl, by decide⟩
theorem wit_TransfersAdvance_cflush : ∃ (s : State) (w : Wave), lookup s.waves 2 = some w ∧ w.stall = some (.cflush 0#2 0x10100#64 64 (3#2 : BitVec 2).toNat) ∧
    CoreQuiet s (coreNo s w) ∧ Memory.wf s.mem = true ∧ risingFrom none s.l2 = true :=
  ⟨{ dirty with waves := [(2, { wv with stall := some (.cflush 0#2 0x10100#64 64 3) })] }, _, rfl, rfl, ⟨rfl, rfl⟩, by decide, by decide⟩

/-- Leases: YACQ of a group that holds a lease, of the first of a gang, of one whose shape differs, and of a launch without a yoke. -/
def asks (shape : Nat) : Wave := wv.setS 1 (BitVec.ofNat 64 shape)
theorem wit_Leases : ∃ (s : State) (w : Wave), lookup s.waves s.cur = some w ∧ w.pending = [] ∧ w.windows = [] ∧ w.status = .ready ∧
    checkYacq s w ((w.sreg 1).toNat % 2 ^ 32) = .ok .holds :=
  ⟨yoked (asks 8) (plotAt 0#2 0#4) (yoke1 .idle), asks 8, rfl, rfl, rfl, rfl, ok_eq (by decide +kernel)⟩
theorem wit_Leases_first : ∃ (s : State) (w : Wave), lookup s.waves s.cur = some w ∧ checkYacq s w ((w.sreg 1).toNat % 2 ^ 32) = .ok (.join none) :=
  ⟨{ yoked (asks 8) (plotAt 0#2 0#4) (yoke1 .idle) with yokes := [] }, asks 8, rfl, ok_eq (by decide +kernel)⟩
def forming (acq : Option Word) : Yoke := { yoke1 .forming with members := [⟨1, acq, false, false, false, 0⟩] }
theorem wit_Leases_differ : ∃ (s : State) (w : Wave) (k : Yoke), lookup s.waves s.cur = some w ∧
    checkYacq s w ((w.sreg 1).toNat % 2 ^ 32) = .ok (.join (some (7, k))) ∧ lookup s.yokes 7 = some k ∧ k.shape ≠ (w.sreg 1).extractLsb' 0 32 :=
  ⟨yoked (asks 0x78) (plotAt 0#2 0#4) (forming none), asks 0x78, forming none, rfl, ok_eq (by decide +kernel), rfl, by decide +kernel⟩
theorem wit_Leases_error : stops (checkYacq (st (asks 8)) (asks 8) 8) = true := by decide +kernel
theorem wit_Leases_release : ∃ (s : State) (w : Wave) (k : Yoke) (m : Member) (rest : List Member), lookup s.waves s.cur = some w ∧
    yokeOf s w.group = some (7, k) ∧ k.state = .halted ∧ k.members = m :: rest ∧ m.group = w.group ∧ m.lease = true ∧ yokeOf (st w) w.group = none :=
  ⟨yoked wv (plotAt 0#2 0#4) (yoke1 .halted), wv, yoke1 .halted, _, [], rfl, by decide +kernel, rfl, rfl, rfl, rfl, by decide +kernel⟩
theorem wit_Leases_bands : ∃ (s : State) (w : Wave) (k : Yoke), lookup s.waves s.cur = some w ∧ arrayCheck s w = .ok (7, k) ∧ k.state = .idle ∧
    (w.sreg 1).extractLsb' 0 4 ≠ 0#4 := ⟨yoked (asks 15) (plotAt 0#2 0#4) (yoke1 .idle), asks 15, yoke1 .idle, rfl, ok_eq (by decide +kernel), rfl, by decide +kernel⟩
theorem wit_Leases_bandUp : ∃ (s : State) (k : Yoke) (x : Wave) (n : BitVec 2) (sh : Word), lookup s.yokes 7 = some k ∧ allAcquired k = true ∧ (2, x) ∈ s.waves ∧
    (k.members.map (·.group)).contains x.group = true ∧ x.status = .parked (.yacq n sh) :=
  ⟨yoked { wv with status := .parked (.yacq 0#2 8#32) } (plotAt 0#2 0#4) (forming (some 8#32)), _, _, 0#2, 8#32, rfl, by decide +kernel, List.mem_singleton.2 rfl,
    by decide +kernel, rfl⟩
theorem wit_Leases_bandWait : ∃ (s : State) (k : Yoke) (x : Wave) (n : BitVec 2), lookup s.yokes 7 = some k ∧ allAcquired k = false ∧ (2, x) ∈ s.waves ∧
    (k.members.map (·.group)).contains x.group = true ∧ x.stall = some (.mbands n) :=
  ⟨yoked { wv with stall := some (.mbands 0#2) } (plotAt 0#2 0#4) (yoke1 .idle), _, _, 0#2, rfl, by decide +kernel, List.mem_singleton.2 rfl, by decide +kernel, rfl⟩
theorem wit_Leases_end : ∃ (s : State) (k : Yoke) (x : Wave), lookup s.yokes 7 = some k ∧ canRelease k = true ∧ nextLease k = some 1 ∧
    (∀ e ∈ s.groups, e.2.state ≠ .ending) ∧ (∀ m ∈ k.members, m.group ≠ 1 → m.lease = false) ∧ (2, x) ∈ s.waves ∧ x.group = 1 ∧ x.status = .parked (.yrel 0#2) := by
  refine ⟨yoked { wv with status := .parked (.yrel 0#2) } (plotAt 0#2 0#4) (yoke1 .releasing), _, _, rfl, by decide +kernel, by decide +kernel, ?_, ?_,
    List.mem_singleton.2 rfl, rfl, rfl⟩
  · intro e he
    cases List.mem_singleton.1 he
    decide
  · intro m hm h
    cases List.mem_singleton.1 hm
    exact absurd rfl h

/-- ArrayInstructions: a yoke of one core that is idle, with a plot of bf16 that both MLOADB and MRUN can read. -/
def arrays (w : Wave) (k : Yoke) : State := yoked w (plotAt 2#2 10#4) k
theorem wit_ArrayInstructions_none : ∃ (s : State) (w : Wave), lookup s.waves s.cur = some w ∧ w.status = .ready ∧ w.stall = none ∧
    yokeOf s w.group = none := ⟨st wv, wv, rfl, rfl, rfl, by decide +kernel⟩
theorem wit_ArrayInstructions : ∃ (s : State) (w : Wave) (k : Yoke) (l : List (Nat × Plot)), lookup s.waves s.cur = some w ∧ lookup s.yokes 7 = some k ∧
    checkMloadb s w (plotRef (w.sreg 4) (w.sreg (4 + 1))) 1 = .ok (7, k, l) ∧ arrayCheck s w = .ok (7, k) ∧ k.state ≠ .running ∧ k.runs = [] :=
  ⟨arrays referer (yoke1 .idle), referer, yoke1 .idle, [(1, plotAt 2#2 10#4)], rfl, rfl, ok_eq (by decide +kernel), ok_eq (by decide +kernel), by decide, rfl⟩
def loadedYoke (st : YState) : Yoke := { yoke1 st with b := [some ⟨10#4, 2, 16, zeroBytes 64⟩] }
theorem wit_ArrayInstructions_run : ∃ (s : State) (w : Wave) (k : Yoke) (l : List (Nat × Plot)), lookup s.waves s.cur = some w ∧ lookup s.yokes 7 = some k ∧
    checkMrun s w (plotRef (w.sreg 4) (w.sreg (4 + 1))) ((w.sreg 8).toNat % 1024) 24 = .ok (7, k, l) ∧
    0 < (plotRef (w.sreg 4) (w.sreg (4 + 1))).nrows ∧ (∀ e ∈ k.runs, e.done ≠ e.mr) :=
  ⟨arrays (referer.setS 8 1022#64) (loadedYoke .idle), referer.setS 8 1022#64, loadedYoke .idle, [(1, plotAt 2#2 10#4)], rfl, rfl, ok_eq (by decide +kernel),
    by decide +kernel, fun _ h => by cases h⟩
theorem wit_ArrayInstructions_rows : ∃ (s : State) (w : Wave) (k : Yoke), lookup s.yokes 7 = some k ∧ checkRows s w 1023 1 = .ok (7, k) ∧
    checkMcadr s w 0x10100 64 1023 1 false = .ok (7, k, none) :=
  ⟨arrays referer (yoke1 .idle), referer, yoke1 .idle, rfl, ok_eq (by decide +kernel), ok_eq (by decide +kernel)⟩
theorem wit_ArrayInstructions_running : ∃ (s : State) (w : Wave) (k : Yoke), lookup s.waves s.cur = some w ∧ arrayCheck s w = .ok (7, k) ∧ k.state = .running :=
  ⟨arrays referer (loadedYoke .running), referer, loadedYoke .running, rfl, ok_eq (by decide +kernel), rfl⟩

/-- Accesses that each find a place of this device pass their check together. -/
theorem lanes_here {s : State} {w : Wave} {kind : Nat} {l : List LaneAcc} (hp : w.placed = [])
    (h : ∀ a ∈ l, ∃ p, lanePlaces s w kind a.lane a.va a.n = .ok [(p, a.n)] ∧ p.loc ≠ 2) : ∃ r, checkLanes s w kind l = .ok r ∧ OnDevice r := by
  have : Nonempty Place := ⟨⟨0, 0, 0, 0#64⟩⟩
  choose! f hf using h
  have hm : (l.map fun a => (a, placesOf s w kind a)) = l.map fun a => (a, (.ok [(f a, a.n)] : Except (List LaneFail) (List (Place × Nat)))) :=
    List.map_congr_left fun a ha => by rw [placesOf, hp, List.find?_nil, (hf a ha).1]
  refine ⟨l.map fun a => (a, [(f a, a.n)]), ?_, ?_⟩
  · unfold checkLanes
    have hz : l.flatMap (fun _ => ([] : List (Nat × LaneFail))) = [] := List.flatMap_eq_nil_iff.2 fun _ _ => rfl
    simp [hm, List.flatMap_map, List.filterMap_map, hz]
  · intro e he q hq
    obtain ⟨a, ha, rfl⟩ := List.mem_map.1 he
    cases List.mem_singleton.1 hq
    exact (hf a ha).2

/-- A state in which one translation covers the whole lower half. -/
def vast (w : Wave) (k : Yoke) : State := { yoked w (plotAt 0#2 0#4) k with tlb := [⟨.die 0, 0, 0, 2 ^ 55, 0xF#64, false⟩] }

theorem vast_places (w : Wave) (k : Yoke) (x : Wave) (hc : x.ctag = 0) (hg : x.group = 1) (kind : Nat) (hk : kind ≤ 1) (lane va n : Nat) (h : va < 2 ^ 55) :
    ∃ p, lanePlaces (vast w k) x kind lane va n = .ok [(p, n)] ∧ p.loc ≠ 2 := by
  have hb : bitsAt va 55 9 = 0 := by
    unfold bitsAt
    rw [Nat.shiftRight_eq_div_pow, Nat.div_eq_of_lt h, Nat.zero_mod]
  have hd : askerOf (vast w k) x = .core 0 := by simp [askerOf, coreNo, hg, groupOf, vast, yoked, lookup, gang1, gr1]
  have ht : tlbHit (vast w k) (.core 0) 0 va = some ⟨.die 0, 0, 0, 2 ^ 55, 0xF#64, false⟩ := by
    norm_num at h
    simp [tlbHit, tlbEntry, vast, Asker.dieNo, h]
  have hl : checkLeaf (vast w k) 0xF#64 kind = .ok 0 := by
    have : kind = 0 ∨ kind = 1 := by omega
    rcases this with rfl | rfl <;> rfl
  refine ⟨placeOf 0xF#64 (2 ^ 55) 0 va false, ?_, by show (0 : Nat) ≠ 2; decide⟩
  simp [lanePlaces, Machine.translate, leafFor, canonical, isPrivate, hb, hd, hc, ht, hl]

theorem garner_here (w : Wave) (hc : w.ctag = 0) (hg : w.group = 1) (hp : w.placed = []) (kind : Nat) (hk : kind ≤ 1) (issue : Bool) :
    ∃ l, checkGarner (vast w (yoke1 .idle)) w 0x10100#64 kind issue = .ok (7, yoke1 .idle, l) ∧ OnDevice l := by
  obtain ⟨r, hr, ho⟩ := lanes_here (s := vast w (yoke1 .idle)) (w := w) (kind := kind) (l := garnerBlocks (yoke1 .idle) 0x10100#64) hp (by
    intro a ha
    obtain ⟨i, hi, rfl⟩ := List.mem_map.1 ha
    have hi : i < 16384 := by simpa [yoke1, shapeCols, bitsAt] using hi
    refine vast_places _ _ _ hc hg kind hk _ _ _ ?_
    simp only [BitVec.toNat_add, BitVec.toNat_ofNat]
    omega)
  have hy : yokeOf (vast w (yoke1 .idle)) 1 = some (7, yoke1 .idle) := by
    simp [yokeOf, vast, yoked, groupOf, lookup, gang1, gr1, yoke1]
  have ha : arrayCheck (vast w (yoke1 .idle)) w = .ok (7, yoke1 .idle) := by
    simp only [arrayCheck, hg, hy]
    rfl
  refine ⟨r, ?_, ho⟩
  have hi : (issue && (yoke1 .idle).state != .idle) = false := by cases issue <;> rfl
  simp only [checkGarner, arrayThen, ha, hr, hi]
  rfl

theorem wit_ArrayInstructions_garner (kind : Nat) (hk : kind ≤ 1) : ∃ (s : State) (w : Wave) (k : Yoke) (l : Placed), lookup s.waves s.cur = some w ∧
    lookup s.yokes 7 = some k ∧ checkGarner s w (w.sreg 1) kind true = .ok (7, k, l) :=
  let ⟨l, h, _⟩ := garner_here (at1 0x10100) rfl rfl rfl kind hk true
  ⟨vast (at1 0x10100) (yoke1 .idle), at1 0x10100, yoke1 .idle, l, rfl, rfl, by rw [show (at1 0x10100).sreg 1 = 0x10100#64 by decide +kernel]; exact h⟩

/-- RowsAndGarner: a run whose first row of two is to be injected; one whose last row is in flight. -/
def runAt (inj done : Nat) : Run := ⟨3, 2, [⟨10#4, zeroBytes 64, 1, 5⟩], [some ⟨10#4, 2, 16, zeroBytes 64⟩], 2, 16, 0, 24, 1, 1#4, inj, done, 0⟩
theorem wit_RowsAndGarner : ∃ (s : State) (k : Yoke) (c : Run) (w : Wave), lookup s.yokes 7 = some k ∧ k.runs = [c] ∧ k.held = false ∧ entryStretched s k = false ∧
    c.inj < c.mr ∧ k.state = .running ∧ lookup s.waves c.wave = some w :=
  ⟨arrays wv { loadedYoke .running with runs := [runAt 0 0] }, _, runAt 0 0, wv, rfl, rfl, rfl, by decide +kernel, by decide, rfl, rfl⟩
theorem wit_RowsAndGarner_update : ∃ (s : State) (k : Yoke) (c : Run), lookup s.yokes 7 = some k ∧ k.runs = [c] ∧ k.held = false ∧ garnerStretched s k = false ∧
    yokeStretched s k = false ∧ imageOwes s k c.id = false ∧ k.ops = [] ∧ c.done < c.inj ∧ k.state = .running ∧ (∀ e ∈ s.waves, ∀ n, e.2.stall ≠ some (.mdrain n)) ∧ c.done + 1 = c.mr ∧ (runAt 1 0).done + 1 ≠ (runAt 1 0).mr := by
  refine ⟨arrays wv { loadedYoke .running with runs := [runAt 2 1] }, _, runAt 2 1, rfl, rfl, rfl, by decide +kernel, by decide +kernel, by decide +kernel, rfl, by decide, rfl, ?_, rfl,
    by decide⟩
  intro e he n hn
  cases List.mem_singleton.1 he
  cases hn
theorem wit_RowsAndGarner_held : ∃ (s : State) (k : Yoke) (c : Run), lookup s.yokes 7 = some k ∧ k.runs = [c] ∧ k.held = true :=
  ⟨arrays wv { loadedYoke .running with runs := [runAt 2 1], held := true }, _, _, rfl, rfl, rfl⟩
/-- MSAVE and MREST that come first on every row; an MREST behind which a zero waits; and one that an operation comes before. -/
theorem wit_RowsAndGarner_save (kind : Nat) (hk : kind ≤ 1) (st : Stall) (hs : st = .msave 0#2 0x10100#64 2 ∨ st = .mrest 0#2 0x10100#64 2) :
    ∃ (s : State) (w : Wave) (k : Yoke) (l : Placed), lookup s.waves 2 = some w ∧ CoreQuiet s (coreNo s w) ∧ OnDevice l ∧ w.stall = some st ∧
      imageOwes s k 2 = false ∧ k.runs = [] ∧ k.ops = [] ∧ checkGarner s w 0x10100#64 kind false = .ok (7, k, l) := by
  obtain ⟨l, h, o⟩ := garner_here { wv with stall := some st } rfl rfl rfl kind hk false
  exact ⟨vast { wv with stall := some st } (yoke1 .idle), _, yoke1 .idle, l, rfl, ⟨rfl, rfl⟩, o, rfl, by rcases hs with rfl | rfl <;> decide +kernel, rfl, rfl, h⟩
def restored : State := vast { wv with stall := some (.mrest 0#2 0x10100#64 2) } { yoke1 .idle with ops := [(3, .zero 9)] }
theorem wit_RowsAndGarner_restThen : ∃ (w : Wave) (k : Yoke), restored.waves = [(2, w)] ∧ lookup restored.yokes 7 = some k ∧ CoreQuiet restored (coreNo restored w) ∧
    k.runs = [] ∧ k.ops = [(3, .zero 9)] ∧ w.stall = some (.mrest 0#2 0x10100#64 2) ∧ okAnd (arrayCheck restored w) (fun a => decide (a.1 = 7)) = true ∧
    imageReady (vast w { yoke1 .idle with ops := [(1, .zero 9)] }) w = false :=
  ⟨_, _, rfl, rfl, ⟨rfl, rfl⟩, rfl, rfl, rfl, by decide +kernel, by decide +kernel⟩
theorem wit_RowsAndGarner_owed : ∃ (s : State) (k : Yoke), lookup s.yokes 7 = some k ∧ imageOwes s k 3 = true :=
  ⟨restored, _, rfl, by decide +kernel⟩

/-- MemorySystemEvents: an outstanding result; a walk that finds a leaf and one that does not. -/
theorem wit_MemorySystemEvents_MemoryEvents_result : ∃ (s : State) (x : Wave) (rest : List Pending), s.snaps = [] ∧ lookup s.waves 2 = some x ∧
    x.pending = ⟨7, [.s 5], [.s 5 9#64], true⟩ :: rest ∧ ∀ q ∈ rest, q.id ≠ 7 :=
  ⟨st { wv with pending := [⟨7, [.s 5], [.s 5 9#64], true⟩] }, _, [], rfl, rfl, rfl, fun _ h => by cases h⟩
theorem wit_MemorySystemEvents_MemoryEvents_walk : canonical (0x1FFFF#64 : DWord).toNat = true ∧ isPrivate (0x1FFFF#64 : DWord).toNat = false ∧
    (lookup tabled.contexts 0).isSome ∧ tlbEntry tabled (.die 1) 0 0x1FFFF = none ∧ tlbEntry tabled (.core 71) 0 0x1FFFF = none ∧ 71 / 36 = 1 ∧
    (okAnd (walk tabled 0 0x1FFFF) fun _ => true) = true ∧ stops (walk tabled 0 0x20000) = true ∧
    tlbEntry { tabled with tlb := [fetchPage] } (.die 0) 0 0x1FFFF = some fetchPage := by decide +kernel
/-- A wave parked on one posted fault record; an unposted record with room in the queue of 16. -/
def faultAt (posted : Option Nat) : FaultRec := ⟨5, 0, 0x20000, false, 0x20000#64, 0#8, 0#8, posted, [2], [], [], [], false⟩
def faulted : Wave := { wv with status := .parked (.fault [(5, 1#32, 0x20000#64)] [] 0x20000#64 0#8) }
theorem wit_MemorySystemEvents_MemoryEvents_answer : ∃ (s : State) (f : FaultRec) (w : Wave), s.snaps = [] ∧ s.faults.find? (fun f => f.posted == some 3) = some f ∧ f.waves = [2] ∧
    f.xfers = [] ∧ f.queues = [] ∧ f.save = false ∧ lookup s.waves 2 = some w ∧ w.status = .parked (.fault [(f.token, 1#32, 0x20000#64)] [] 0x20000#64 0#8) ∧
    w.handler = false ∧ w.sheaf = none ∧ w.pending = [] ∧ w.windows = [] ∧ (ctxOf s w.ctag).tbase ≠ 0#64 ∧ (∀ f ∈ s.faults, f.posted ≠ none) :=
  ⟨{ handled faulted with faults := [faultAt (some 3)] }, faultAt (some 3), faulted, rfl, rfl, rfl, rfl, rfl, rfl, rfl, rfl, rfl, rfl, rfl, rfl, by decide +kernel,
    fun f h => by cases List.mem_singleton.1 h; decide⟩
theorem wit_MemorySystemEvents_MemoryEvents_post : ∃ (s : State) (f : FaultRec) (v : DWord), s.snaps = [] ∧ s.faults = [f] ∧ f.posted = none ∧ v.getLsbD 8 = true ∧ 4 ≤ v.toNat % 32 ∧
    v.toNat % 32 ≤ 20 ∧ (hostWord s (ringBase s.bar.fqbase) + 2 ^ 32 - hostWord s (ringBase s.bar.fqbase + 64)) % 2 ^ 32 < 2 ^ (v.toNat % 32) :=
  ⟨{ handled faulted with faults := [faultAt none] }, faultAt none, 0x104#64, rfl, rfl, rfl, by decide, by decide, by decide, by decide +kernel⟩
theorem wit_MemorySystemEvents_MemoryEvents_atomic : ∃ (s : State) (x : Wave) (rest : List PathEntry),
    (coreOf s 0).path = .atomic 2 0x100 0 4 7#4 0#4 1#64 0#64 7 (.s 5) 0 :: rest ∧ UnderKey s 0 0x100 4 ∧ lookup s.waves 2 = some x ∧
    atomicWaits rest 7 = false ∧ (atomOp 7 0 (natOf (physBytes s 0x100 4)) 1 0).2 = true ∧ (atomOp 7 0 (natOf (physBytes s 0x100 4)) 1 5).2 = false :=
  ⟨{ st waiting with cores := [(0, { path := [.atomic 2 0x100 0 4 7#4 0#4 1#64 0#64 7 (.s 5) 0] })] }, waiting, [], rfl, under_key0 rfl _ _, rfl, rfl,
    by decide, by decide⟩
theorem wit_MemorySystemEvents_MemoryEvents_decay : ({ State.reset with tsc := 64000#64 } : State).decays < ({ State.reset with tsc := 64000#64 } : State).tsc.toNat / 64000 := by decide
/-- A host access at the last byte of the second die, under key 0. -/
theorem wit_MemorySystemEvents_MemoryEvents_host : (2 * 192 * 2 ^ 30 - 1) + [7#8].length ≤ 2 * 192 * 2 ^ 30 ∧ isLost State.reset 0 = false ∧ isLost State.reset 1 = false ∧
    (∀ k, UnderKey State.reset (key0 State.reset) k 1) ∧ (192 * 2 ^ 30) / (192 * 2 ^ 30) = (192 * 2 ^ 30 + 64 - 1) / (192 * 2 ^ 30) ∧
    UnderKey State.reset (key0 State.reset) (hdmKey (192 * 2 ^ 30)) 64 :=
  ⟨by decide, rfl, rfl, fun _ => under_key0 rfl _ _, by decide, under_key0 rfl _ _⟩
theorem wit_MemorySystemEvents_MemoryEvents_event : ∃ (s : State) (e : EventRec), s.snaps = [] ∧ eventDue s = some e ∧ s.dropped = 0 :=
  ⟨{ State.reset with tsc := 10001#64, bar := { State.reset.bar with eqcfg := 0x104#64 }, events := [⟨1, 0, 1, zeroBytes 16⟩] }, _, rfl,
    (show eventDue _ = some ⟨1, 0, 1, zeroBytes 16⟩ by decide +kernel), rfl⟩

/-- PeersAndLinks: a window that lets every node read and write 64 KiB of die 0, its last block; and no window. -/
def windowed : State := { State.reset with windows := [(0, ⟨0xFFF, 0, 0, 65536, 3⟩)] }
theorem wit_PeersAndLinks_window : windowed.snaps = [] ∧ peerShape windowed 0 0xFFC0 64 = true ∧ UnderKey windowed (key0 windowed) (localKey 0 0xFFC0) 64 ∧
    windowAllows windowed 5 0 0xFFC0 64 false = true ∧ windowAllows windowed 5 0 0xFFC0 64 true = true ∧ (zeroBytes 64).length = 64 ∧ State.reset.windows = [] :=
  ⟨rfl, by decide +kernel, under_key0 rfl _ _, by decide +kernel, by decide +kernel, by decide, rfl⟩
theorem wit_PeersAndLinks_answer : ∃ (s : State) (w : Wave) (x : PeerTx), s.snaps = [] ∧ s.waves = [(2, w)] ∧ s.transfers = [] ∧ w.peer = [x] ∧ x.answer = none ∧
    x.sent + 50000000 ≤ s.tsc.toNat ∧ (1#64 : DWord).toNat < x.sent + 50000000 :=
  ⟨{ st { wv with peer := [⟨9, 0, 0, 0, none, 0⟩] } with tsc := 50000000#64 }, _, _, rfl, rfl, rfl, rfl, rfl, by decide, by decide⟩
theorem wit_PeersAndLinks_port : ∃ (s t : State), 95 < 96 ∧ portUp s 95 = false ∧ s.events.length < 1024 ∧ s.bar.nodeidNext.toNat % 4096 ≠ 0xFFF ∧
    portUp t 95 = true ∧ t.events.length < 1024 :=
  ⟨{ State.reset with bar := { State.reset.bar with nodeidNext := 7#64 } }, { State.reset with ports := [(95, true)] }, by decide +kernel⟩
theorem wit_PeersAndLinks_bind : (st wv).bar.recovery = false ∧ (4094#64 : DWord).toNat ≤ 4094 ∧ (0#64 : DWord).toNat ≤ 63 ∧ ctxTag (st wv) 0#64 = some 0 ∧
    (ctxOf (st wv) 0).cstate = .resident ∧ (15#64 : DWord).toNat ≤ 15 ∧ (0xFFF#64 : DWord).toNat ≤ 0xFFF ∧ (1#64 : DWord).toNat ≤ 1 := by decide +kernel

/-! Queues and binding: host queue 0 with one launch record, task queue 0 with one task record, the region's block at 0x10C00. -/

def queueMem : List Host.Cell :=
  [(0x401, 0x08#8), (0x402, 1#8), (0x408, 4#8), (0x409, 1#8), (0x40A, 1#8), (0x40C, 1#8), (0x410, 1#8),
   (0x441, 0x0A#8), (0x442, 1#8), (0x448, 4#8), (0x449, 1#8), (0x44A, 1#8), (0x44C, 1#8), (0x450, 1#8),
   (0x800, 1#8), (0x802, 1#8), (0x803, 1#8), (0x80A, 1#8), (0x818, 1#8), (0x81A, 1#8), (0x81C, 1#8), (0x821, 0x0C#8), (0x822, 1#8),
   (0xA00, 2#8), (0xA0A, 1#8), (0xA21, 0x0C#8), (0xA22, 1#8), (0xA30, 0x10#8), (0xC1A, 16#8)]
def led : Leader := ⟨.led, 0, 0, none, false⟩
def queueCtx (l : Leader) : Context :=
  { ctx := some 0, nhq := 1, hqd := 0x10400#64, ntq := 1, tqd := 0x10440#64, queues := [(false, 0, l), (true, 0, l)] }
def queued (l : Leader) (m : List Host.Cell) : State := { State.reset with contexts := [(0, queueCtx l)], tlb := [fetchPage], mem := m }

def isSomeAnd {α : Type} (x : Option α) (p : α → Bool) : Bool :=
  match x with
  | some a => p a
  | none => false
theorem some_of {α : Type} {x : Option α} {p : α → Bool} (h : isSomeAnd x p = true) : ∃ a, x = some a ∧ p a = true := by
  cases x with
  | some a => exact ⟨a, rfl, h⟩
  | none => simp [isSomeAnd] at h

/-- The bytes of a queue's descriptor and of its head record. -/
def desc (q : Nat) : List Byte := physBytes (queued led queueMem) (0x400 + 64 * q) 64
def record (q : Nat) : List Byte := physBytes (queued led queueMem) (0x800 + 512 * q) 64
/-- Where a record's checks are made: HEAD has advanced, and the LAUNCHID is used up. -/
def takenAt (h : State) (qt : Bool) (l : Leader) : State := setLeader h 0 qt 0 { l with kill := false }
def numbered (h : State) (l : Leader) : State := setCtx (takenAt h false l) 0 { ctxOf (takenAt h false l) 0 with nextLaunch := 1#32 }
theorem wit_Queues_take : ∃ (s : State) (b r : List Byte) (l : Leader), canTake s 0 false 0 = some (b, l) ∧ l.kill = false ∧
    readRecord s 0 l.die (recordAddr b (descHead b)) = .ok r ∧ ∃ h, writeTake s 0 false 0 ((descHead b + 1) % 2 ^ 32) l = some h ∧
    ∃ chain, checkLaunchRecord (numbered h l) 0 r (some (descHead b)) = .ok chain := by
  have h1 : canTake (queued led queueMem) 0 false 0 = some (desc 0, led) := by decide +kernel
  have h2 : readRecord (queued led queueMem) 0 0 (recordAddr (desc 0) (descHead (desc 0))) = .ok (record 0) := ok_eq (by decide +kernel)
  obtain ⟨h, h3, h4⟩ := some_of (x := writeTake (queued led queueMem) 0 false 0 ((descHead (desc 0) + 1) % 2 ^ 32) led)
    (p := fun h => okAnd (checkLaunchRecord (numbered h led) 0 (record 0) (some (descHead (desc 0)))) fun _ => true) (by decide +kernel)
  obtain ⟨c, h5, -⟩ := ok_of h4
  exact ⟨_, _, _, _, h1, rfl, h2, h, h3, c, h5⟩
def badMem : List Host.Cell := queueMem.filter fun c => c.1 != 0x802
theorem wit_Queues_refused : ∃ (s : State) (b r : List Byte) (l : Leader) (e : LaunchStatus), canTake s 0 false 0 = some (b, l) ∧ l.kill = false ∧
    readRecord s 0 l.die (recordAddr b (descHead b)) = .ok r ∧ ∃ h, writeTake s 0 false 0 ((descHead b + 1) % 2 ^ 32) l = some h ∧
    checkLaunchRecord (numbered h l) 0 r (some (descHead b)) = .error e := by
  have h1 : canTake (queued led badMem) 0 false 0 = some (desc 0, led) := by decide +kernel
  have h2 : readRecord (queued led badMem) 0 0 (recordAddr (desc 0) (descHead (desc 0))) = .ok ((record 0).set 2 0#8) := ok_eq (by decide +kernel)
  obtain ⟨h, h3, h4⟩ := some_of (x := writeTake (queued led badMem) 0 false 0 ((descHead (desc 0) + 1) % 2 ^ 32) led)
    (p := fun h => stops (checkLaunchRecord (numbered h led) 0 ((record 0).set 2 0#8) (some (descHead (desc 0))))) (by decide +kernel)
  obtain ⟨e, h5⟩ := error_of h4
  exact ⟨_, _, _, _, e, h1, rfl, h2, h, h3, h5⟩
theorem wit_Queues_task : ∃ (s : State) (b r : List Byte) (l : Leader), canTake s 0 true 0 = some (b, l) ∧ l.kill = false ∧
    readRecord s 0 l.die (recordAddr b (descHead b)) = .ok r ∧ taskRecordOk r (descHead b) = true ∧ isLost s ((r.getD 1 0#8).toNat % 2) = false ∧
    (∃ slot rest, grantable s ((r.getD 1 0#8).toNat % 2) 1 = slot :: rest) ∧ ∃ h, writeTake s 0 true 0 ((descHead b + 1) % 2 ^ 32) l = some h ∧
    ∃ chain, checkRegion (takenAt h true l) 0 (BitVec.ofNat 64 (fieldOf r 32 8)) = .ok chain := by
  have h1 : canTake (queued led queueMem) 0 true 0 = some (desc 1, led) := by decide +kernel
  have h2 : readRecord (queued led queueMem) 0 0 (recordAddr (desc 1) (descHead (desc 1))) = .ok (record 1) := ok_eq (by decide +kernel)
  obtain ⟨h, h3, h4⟩ := some_of (x := writeTake (queued led queueMem) 0 true 0 ((descHead (desc 1) + 1) % 2 ^ 32) led)
    (p := fun h => okAnd (checkRegion (takenAt h true led) 0 (BitVec.ofNat 64 (fieldOf (record 1) 32 8))) fun _ => true) (by decide +kernel)
  obtain ⟨c, h5, -⟩ := ok_of h4
  exact ⟨_, _, _, _, h1, rfl, h2, by decide +kernel, by decide +kernel, ⟨0, [], by decide +kernel⟩, h, h3, c, h5⟩
/-- A task record whose region is no block, with a slot to give it. -/
def noRegion : List Host.Cell := queueMem.filter fun c => !(0xA20 ≤ c.1 && c.1 < 0xA28)
theorem wit_Queues_taskRegion : ∃ (s : State) (b r : List Byte) (l : Leader) (h : State) (e : LaunchStatus), canTake s 0 true 0 = some (b, l) ∧ l.kill = false ∧
    readRecord s 0 l.die (recordAddr b (descHead b)) = .ok r ∧ taskRecordOk r (descHead b) = true ∧ taskHeld s 0 r (descHead b) = false ∧
    writeTake s 0 true 0 ((descHead b + 1) % 2 ^ 32) l = some h ∧ checkRegion (takenAt h true l) 0 (BitVec.ofNat 64 (fieldOf r 32 8)) = .error e ∧
    recordLost (takenAt h true l) 0 r = false := by
  obtain ⟨⟨b, l⟩, h1, p⟩ := some_of (x := canTake (queued led noRegion) 0 true 0) (p := fun e => decide (e.2 = led) && okAnd
    (readRecord (queued led noRegion) 0 0 (recordAddr e.1 (descHead e.1))) fun r => taskRecordOk r (descHead e.1) && !taskHeld (queued led noRegion) 0 r (descHead e.1)
      && isSomeAnd (writeTake (queued led noRegion) 0 true 0 ((descHead e.1 + 1) % 2 ^ 32) led) fun h =>
        stops (checkRegion (takenAt h true led) 0 (BitVec.ofNat 64 (fieldOf r 32 8))) && !recordLost (takenAt h true led) 0 r) (by decide +kernel)
  simp only [Bool.and_eq_true, decide_eq_true_eq] at p
  obtain ⟨rfl, p⟩ := p
  obtain ⟨r, h2, p⟩ := ok_of p
  simp only [Bool.and_eq_true, Bool.not_eq_true'] at p
  obtain ⟨h, h3, q⟩ := some_of p.2
  simp only [Bool.and_eq_true, Bool.not_eq_true'] at q
  obtain ⟨e, h4⟩ := error_of q.1
  exact ⟨_, b, r, led, h, e, h1, rfl, h2, p.1.1, p.1.2, h3, h4, q.2⟩
/-- A TAKE that cannot be written, its page being readable only; a leader whose descriptor has gone bad, and one whose descriptor is mended. -/
def readOnly (s : State) : State := { s with tlb := s.tlb.map fun e => { e with leaf := e.leaf &&& ~~~4#64 } }
def badDesc : List Host.Cell := (queueMem.filter fun c => c.1 < 0x40D) ++ (0x40D, 1#8) :: queueMem.filter fun c => 0x40D < c.1
theorem wit_Queues_unwritable : ∃ (s : State) (b r : List Byte), canTake s 0 false 0 = some (b, led) ∧ readRecord s 0 led.die (recordAddr b (descHead b)) = .ok r ∧
    writeTake s 0 false 0 ((descHead b + 1) % 2 ^ 32) led = none ∧ (ringAppend s 0 false 0 b (zeroBytes 64)).isNone :=
  ⟨readOnly (queued led queueMem), desc 0, record 0, by decide +kernel, ok_eq (by decide +kernel), by decide +kernel, by decide +kernel⟩
theorem wit_Queues_amiss : ∃ (s t : State) (b d : List Byte), readDesc s 0 false 0 = some b ∧ isResident s 0 = true ∧ descEn b = true ∧ descOk b = false ∧
    leaderOf (ctxOf s 0) false 0 = some led ∧ readDesc t 0 false 0 = some d ∧ isResident t 0 = true ∧ descEn d = true ∧ descOk d = true ∧
    leaderOf (ctxOf t 0) false 0 = some { led with state := .bad } ∧ queueAmiss State.reset 0 false 0 = false ∧
    (∀ st ∈ [LState.idle, .moving], leaderOf (ctxOf (queued { led with state := st } badDesc) 0) false 0 = some { led with state := st }) :=
  ⟨queued led badDesc, queued { led with state := .bad } queueMem, physBytes (queued led badDesc) 0x400 64, desc 0, by decide +kernel⟩
/-- FABRIC_ENQUEUE: a handle of no context, one whose descriptor matches (generation 1), one of another generation, a full ring. -/
theorem wit_Queues_enqueue :
    let s := queued led queueMem
    let h : DWord := 0x20000#64
    lookup s.contexts ((0x20020000#64 : DWord).toNat / 2 ^ 29 % 4096) = none ∧ (lookup s.contexts (h.toNat / 2 ^ 29 % 4096)).isSome ∧
    readDesc s 0 (h.getLsbD 16) (h.toNat % 65536) = some (desc 0) ∧ h.toNat / 2 ^ 41 = 0 ∧ fieldOf (desc 0) 10 2 = h.toNat / 2 ^ 17 % 4096 ∧
    descEn (desc 0) = true ∧ isResident s 0 = true ∧ descOvflc (desc 0) = 0 ∧ ringRoom (desc 0) = true ∧
    fieldOf (desc 0) 10 2 ≠ (0x40000#64 : DWord).toNat / 2 ^ 17 % 4096 ∧ ringRoom ((desc 0).set 16 16#8) = false ∧ descOvfl ((desc 0).set 16 16#8) = 0 := by
  decide +kernel
theorem wit_Queues_overflow : ∃ (s : State) (b l : List Byte), canOverflow s 0 false 0 = some b ∧ ctxRead s 0 (descOvfl b) (64 * descOvflc b) = some l := by
  obtain ⟨b, h, p⟩ := some_of (x := canOverflow (queued led (queueMem.take 7 ++ [(0x429, 0x0E#8), (0x42A, 1#8), (0x432, 1#8)])) 0 false 0)
    (p := fun b => (ctxRead (queued led (queueMem.take 7 ++ [(0x429, 0x0E#8), (0x42A, 1#8), (0x432, 1#8)])) 0 (descOvfl b) (64 * descOvflc b)).isSome)
    (by decide +kernel)
  obtain ⟨l, e⟩ := Option.isSome_iff_exists.1 p
  exact ⟨_, b, l, h, e⟩
theorem wit_Queues_move : ∃ (s : State) (b : List Byte) (l : Leader), leaderOf (ctxOf s 0) true 0 = some l ∧ readDesc s 0 true 0 = some b ∧ l.state = .moving ∧
    descEn b = true ∧ (writeTake s 0 true 0 (descHead b) { led with die := 1, epoch := 1 }).isSome ∧
    writeTake (readOnly s) 0 true 0 (descHead b) { led with die := 1, epoch := 1 } = none ∧ s.launches.length ≤ Config.launchTableEntries :=
  ⟨queued { led with state := .moving } queueMem, desc 1, { led with state := .moving }, by decide +kernel, by decide +kernel, rfl, by decide +kernel,
    by decide +kernel, by decide +kernel, by decide +kernel⟩
theorem wit_Queues_throttle : ∃ (s : State) (k : Context), s.contexts = [(0, k)] ∧ k.queues = [(false, 0, led)] ∧ led.state = .led ∧ led.die = 0 ∧ throttleDue s 0 = true :=
  ⟨{ State.reset with tsc := 1000001#64, contexts := [(0, { queueCtx led with queues := [(false, 0, led)] })], dies := [(0, { hotThrottle := some 1 })] }, _, rfl, rfl,
    rfl, rfl, by decide +kernel⟩
theorem wit_Queues_enable : leaderOf (ctxOf { queued led queueMem with contexts := [(0, { queueCtx led with queues := [] })] } 0) false 0 = none ∧
    readDesc { queued led queueMem with contexts := [(0, { queueCtx led with queues := [] })] } 0 false 0 = some (desc 0) := by decide +kernel
theorem wit_Queues_serve : ∃ (s : State) (b : List Byte) (l : Leader), readDesc s 0 false 0 = some b ∧ descEn b = true ∧ isResident s 0 = true ∧
    leaderOf (ctxOf s 0) false 0 = some l ∧ l.state = .held ∧ descOk b = true ∧ ledCount s false < queueCapacity false ∧ chooseLeader s (fieldOf b 12 1) = some 0 ∧
    (writeTake s 0 false 0 (descHead b) { l with state := .led, epoch := descEpoch b }).isSome ∧ descOk ((desc 0).set 13 1#8) = false :=
  ⟨queued { led with state := .held } queueMem, desc 0, { led with state := .held }, by decide +kernel⟩
/-- A context with one fired entry, whose record is one that launches, or zeros, or cannot be read. -/
def firedSt (l : List (Nat × Option Nat)) (m : List Host.Cell) : State :=
  { queued led m with contexts := [(0, { queueCtx led with ndep := 2, depbase := 0x10800#64, fired := [(3, 0, 0)], firedWait := l })] }
theorem wit_Queues_fired : ∃ (s t u : State) (b r : List Byte) (e : LaunchStatus), firedWaits s 0 = some (0, (3, 0, 0)) ∧ isOnline s 0 = true ∧ tableRoom s 0 = true ∧
    (∀ x ∈ (ctxOf s 0).firedWait, x.1 ≠ 0) ∧ readRecord s 0 0 (BitVec.ofNat 64 (depAddr s 0 0)) = .ok b ∧
    (∃ chain, checkLaunchRecord (setCtx s 0 { ctxOf s 0 with fired := [], firedWait := [], nextLaunch := nextId (ctxOf s 0).nextLaunch }) 0 b none = .ok chain) ∧
    firedWaits t 0 = some (0, (3, 0, 0)) ∧ readRecord t 0 0 (BitVec.ofNat 64 (depAddr t 0 0)) = .ok r ∧
    checkLaunchRecord (setCtx t 0 { ctxOf t 0 with fired := [], firedWait := [], nextLaunch := nextId (ctxOf t 0).nextLaunch }) 0 r none = .error e ∧ e ≠ 2 ∧
    firedWaits u 0 = some (0, (3, 0, 0)) ∧ (ctxOf u 0).firedWait = [(0, none)] := by
  have h1 : readRecord (firedSt [] queueMem) 0 0 (BitVec.ofNat 64 (depAddr (firedSt [] queueMem) 0 0)) = .ok (record 0) := ok_eq (by decide +kernel)
  have h2 : readRecord (firedSt [] []) 0 0 (BitVec.ofNat 64 (depAddr (firedSt [] []) 0 0)) = .ok (zeroBytes 64) := ok_eq (by decide +kernel)
  obtain ⟨c, h3, -⟩ := ok_of (x := checkLaunchRecord (setCtx (firedSt [] queueMem) 0 { ctxOf (firedSt [] queueMem) 0 with
    fired := [], firedWait := [], nextLaunch := nextId (ctxOf (firedSt [] queueMem) 0).nextLaunch }) 0 (record 0) none) (p := fun _ => true) (by decide +kernel)
  have h4 : checkLaunchRecord (setCtx (firedSt [] []) 0 { ctxOf (firedSt [] []) 0 with
    fired := [], firedWait := [], nextLaunch := nextId (ctxOf (firedSt [] []) 0).nextLaunch }) 0 (zeroBytes 64) none = .error 1 := rfl
  exact ⟨firedSt [] queueMem, firedSt [] [], firedSt [(0, none)] [], record 0, zeroBytes 64, 1, by decide +kernel, by decide +kernel, by decide +kernel,
    fun x hx => (by cases hx), h1, ⟨c, h3⟩, by decide +kernel, h2, h4, by decide, by decide +kernel, rfl⟩

/-- Binding: a launch that waits on die 0; a staged group of one wave; a gang of one core on a device of one core whose wave slots are all held. -/
def bindSt (l : Launch) (g : AMap Group) : State :=
  { queued led queueMem with launches := [(4, l)], groups := g, bar := { State.reset.bar with hmap0 := 1#36, hmap1 := 0#36 } }
def plain4 : Launch := { launch4 with yoke := false, region := 0x10C00#64, daff := 1#8 }
theorem wit_Binding_pick : ∃ (s : State) (it : Item) (d : Die) (core : Nat) (l : Launch), pick s 0 = some (it, d) ∧ placement s it 0 = some [core] ∧ it.sheafDie = none ∧
    lookup s.launches it.id = some l ∧ l.yoke = false := by
  obtain ⟨⟨it, d⟩, h, p⟩ := some_of (x := pick (bindSt plain4 []) 0) (p := fun e => decide (placement (bindSt plain4 []) e.1 0 = some [0] ∧ e.1.sheafDie = none ∧ e.1.id = 4))
    (by decide +kernel)
  obtain ⟨h1, h2, h3⟩ := of_decide_eq_true p
  exact ⟨_, it, d, 0, plain4, h, h1, h2, by rw [h3]; rfl, rfl⟩
theorem wit_Binding_resident : ∃ (s : State) (gr : Group) (l : Launch), lookup s.groups 1 = some gr ∧ gr.state = .staged ∧ gr.gang = 0 ∧ gr.sheaf = none ∧ gr.nwave = 1 ∧
    bitsOf gr.wmask = [15] ∧ lookup s.launches gr.launch = some l :=
  ⟨bindSt plain4 [(1, { launch := 4, wmask := 0x8000#16 })], _, plain4, rfl, rfl, rfl, rfl, rfl, by decide +kernel, rfl⟩
def gang4 (since : Option Nat) : Launch := { launch4 with region := 0x10C00#64, daff := 1#8, headSince := since }
def busy : AMap Group := [(9, { state := .resident, wmask := 0xFFFF#16 })]
/-- The item of the launch. -/
def item4 (l : Launch) : Item := launchItem 4 l
theorem wit_Binding_gang : ∃ (s : State) (it : Item) (l : Launch), headGangs s 0 = [it] ∧ lookup s.launches it.id = some l ∧ l.headSince = none ∧ gangWait s ≠ 0 ∧
    ((bindItems s).filter fun x => itemDie s x 0).find? (fun x => effNow s x.ctag x.region 3 == 0) = some it ∧ it.shape.isSome ∧ placement s it 0 = none ∧
    (dieOf s 0).reserve = [] :=
  ⟨bindSt (gang4 none) busy, item4 (gang4 none), gang4 none, by decide +kernel, rfl, rfl, by decide +kernel, by decide +kernel, by decide, by decide +kernel, rfl⟩
theorem wit_Binding_reserve : ∃ (s : State) (it : Item) (l : Launch) (cs : List Nat), headGangs s 0 = [it] ∧ lookup s.launches it.id = some l ∧ l.headSince = some 0 ∧
    0 + gangWait s * 1000 ≤ s.tsc.toNat ∧ (5#64 : DWord).toNat < 0 + gangWait s * 1000 ∧ reservePlace s it 0 (it.shape.getD 0) = some cs := by
  obtain ⟨cs, e, -⟩ := some_of (x := reservePlace { bindSt (gang4 (some 0)) busy with tsc := 100000#64 } (item4 (gang4 (some 0))) 0
    ((item4 (gang4 (some 0))).shape.getD 0)) (p := fun _ => true) (by decide +kernel)
  exact ⟨_, item4 (gang4 (some 0)), gang4 (some 0), cs, by decide +kernel, rfl, rfl, by decide +kernel, by decide +kernel, e⟩
/-- A gang whose wait is over, on a device of which no core can be reserved. -/
theorem wit_Binding_noPlace : ∃ (s : State) (l : Launch), lookup s.launches 4 = some l ∧ l.headSince = some 0 ∧ 0 + gangWait s * 1000 ≤ s.tsc.toNat ∧
    reservePlace s (item4 l) 0 ((item4 l).shape.getD 0) = none :=
  ⟨{ bindSt (gang4 (some 0)) busy with tsc := 100000#64, bar := { State.reset.bar with hmap0 := 0#36, hmap1 := 0#36 } }, gang4 (some 0), rfl, rfl, by decide +kernel,
    by decide +kernel⟩

/-! Power, time, pre-emption, commands and resets. -/

theorem wit_PowerAndTime_dies : emergencyOver { State.reset with tsc := 100000001#64, dies := [(0, { state := .emergency, emerg := true, coolSince := some 1 })] } 0 = true ∧
    (dieOf State.reset 1).trip = false ∧ (dieOf { State.reset with dies := [(1, { trip := true })] } 1).trip = true ∧ (dieOf State.reset 1).state = .online ∧
    State.reset.groups = [] ∧ resetReady { State.reset with dies := [(0, { state := .reset })] } 0 = true ∧
    drainReady { State.reset with dies := [(0, { state := .drained })] } 0 = true ∧
    (∀ d, d < 2 → resetReady { State.reset with dies := [(0, { state := .drained })] } d = false) := by decide +kernel
theorem wit_PowerAndTime_cores : ∃ (s : State) (w : Wave), (2, w) ∈ s.waves ∧ coreNo s w = 0 ∧ w.status ≠ .retired ∧ (coreOf s 0).stretch = true ∧ (coreOf s 1).halved = true :=
  ⟨{ st wv with cores := [(0, { stretch := true }), (1, { halved := true })] }, wv, List.mem_singleton.2 rfl, rfl, by decide +kernel, rfl, rfl⟩
theorem wit_PowerAndTime_age :
    (30 ≤ (30#64 : DWord).toNat % 65536 ∧ (30#64 : DWord).toNat / 2 ^ 24 % 4 ≠ 1) ∧ (0x100001E#64 : DWord).toNat / 2 ^ 24 % 4 = 1 ∧
    dayDue { State.reset with tsc := 86400000000000#64 } = true ∧ tickDue { State.reset with tsc := 1000000#64 } 0 = true := by decide +kernel
/-- A group on its way from core 0 to core 1, in a context that may be pre-empted; and one that shares a plot. -/
def goes : Move := ⟨1, 0, 1#16, 0, false⟩
def moving (m : Move) (frozen : Bool) (k : Context) : State :=
  { st wv with contexts := [(0, k)], groups := [(1, { gr1 with moving := some m, frozen })] }
def sharing : Group := { gr1 with moving := some { goes with fixed := true }, frozen := true, plots := [(5, { plotAt 0#2 0#4 with level := true })] }
theorem wit_PowerAndTime_freeze : ∃ (s t u : State) (m : Move), (groupOf s 1).frozen = false ∧ freezeReady s 1 = true ∧ exchangeOf s 1 false = [1] ∧ stillMoves s 1 = true ∧
    fitMovers s [1] = [(1, m)] ∧ freezeReady t 1 = true ∧ exchangeOf t 1 false = [1] ∧ stillMoves t 1 = false ∧ freezeReady u 1 = false ∧
    (groupOf (moving { goes with fixed := true } true { ctx := some 0 }) 1).frozen = true :=
  ⟨moving goes false { ctx := some 0 }, moving goes false { ctx := some 0, cstate := .draining },
    { moving goes false { ctx := some 0 } with waves := [(2, { wv with pair := some ⟨0, 0, 0#32⟩ })], mem := [(0, 3#8), (2, 1#8), (3, 0x0B#8)] }, { goes with fixed := true }, by decide +kernel⟩
theorem wit_PowerAndTime_thaw : ∃ (s t : State) (gr gt : Group) (m : Move), lookup s.groups 1 = some gr ∧ gr.frozen = true ∧ exchangeOf s 1 true = [1] ∧
    (ctxOf s gr.ctag).cstate ≠ .trapping ∧ (∀ e ∈ s.transfers, e.2.answered = none) ∧
    (∀ e ∈ s.waves, e.2.group = 1 → ∀ dead va kind, e.2.status ≠ .parked (.fault [] dead va kind)) ∧ pinned s 1 = false ∧ fitMovers s [1] = [(1, m)] ∧
    lookup t.groups 1 = some gt ∧ gt.frozen = true ∧ exchangeOf t 1 true = [1] ∧ pinned t 1 = true := by
  refine ⟨moving { goes with fixed := true } true { ctx := some 0 },
    { moving { goes with fixed := true } true { ctx := some 0 } with groups := [(1, sharing)] }, _, sharing, { goes with fixed := true }, rfl, rfl, by decide +kernel, by decide +kernel, ?_, ?_,
    by decide +kernel, by decide +kernel, rfl, rfl, by decide +kernel, by decide +kernel⟩
  · intro e h
    cases h
  · intro e he _ dead va kind hk
    cases List.mem_singleton.1 he
    cases hk
theorem wit_PowerAndTime_timer : ∃ (s : State) (w : Wave), lookup s.waves 2 = some w ∧ w.status = .ready ∧ 7 < 8 ∧ timerDue s w 7 = true :=
  ⟨{ st { wv with slots := tab 8 fun _ => ⟨4#4, true, 0#56, 0#32, 9⟩ } with tsc := 9#64 }, _, rfl, rfl, by decide, by decide +kernel⟩
theorem wit_PowerAndTime_sleep : ∃ (s : State) (w : Wave), lookup s.waves 2 = some w ∧ w.status = .parked (.sleep 0#2 9 none) ∧ sleepDue s w = true :=
  ⟨{ st { wv with status := .parked (.sleep 0#2 9 none) } with tsc := 9#64 }, _, rfl, rfl, by decide +kernel⟩

/-- A context in a state of pre-emption, with a deadline that has come. -/
def preempted (c : CState) (w : Wave) : State := { st w with tsc := 1000#64, contexts := [(0, { ctx := some 0, cstate := c, deadline := some 1000, d2 := 7, savearea := 0x10000#64 })] }
theorem wit_Preemption_command : (st wv).snaps = [] ∧ (st wv).bar.recovery = false ∧ (1 ≤ (1000000#64 : DWord).toNat ∧ (1000000#64 : DWord).toNat ≤ 1000000) ∧
    ¬(1000001#64 : DWord).toNat ≤ 1000000 ∧ ¬1 ≤ (0#64 : DWord).toNat ∧ ctxTag (st wv) 0#64 = some 0 ∧ (ctxOf (st wv) 0).evac = none ∧
    (ctxOf (st wv) 0).cstate = .resident ∧ ctxTag (preempted .draining wv) 0#64 = some 0 ∧ (ctxOf (preempted .draining wv) 0).cstate ≠ .resident := by decide +kernel
theorem wit_Preemption_deadlines : deadlineDue (preempted .draining wv) 0 [.draining] = true ∧ deadlineDue (preempted .settling wv) 0 [.trapping, .settling] = true ∧
    deadlineDue (preempted .trapping wv) 0 [.trapping, .settling] = true := by decide +kernel
theorem wit_Preemption_wave : ∃ (s : State) (gr : Group) (w : Wave), s.groups = [(1, gr)] ∧ s.waves = [(2, w)] ∧ gr.ctag = 0 ∧ gr.state = .resident ∧ gr.frozen = false ∧
    (ctxOf s 0).evac = none ∧ w.group = 1 ∧ w.status = .ready := ⟨preempted .draining wv, gr1, wv, rfl, rfl, rfl, rfl, rfl, rfl, rfl, rfl⟩
theorem wit_Preemption_surrender : ∃ (s : State) (k : Yoke), surrenderDue s 1 = some (7, k) ∧ (k.members.head?.map (·.group)) = some 1 ∧ k.state = .halted ∧ inFlight k = 0 :=
  ⟨{ yoked { wv with status := .stopped } (plotAt 0#2 0#4) (yoke1 .halted) with contexts := [(0, { ctx := some 0, cstate := .trapping })] }, yoke1 .halted, by decide +kernel,
    rfl, rfl, rfl⟩
theorem wit_Preemption_settle : (lookup (preempted .trapping { wv with status := .stopped }).contexts 0).isSome ∧
    settlingDue (preempted .trapping { wv with status := .stopped }) 0 = true := by decide +kernel
theorem wit_Preemption_save : ∃ s : State, s.snaps = [] ∧ (lookup s.contexts 0).isSome ∧ (ctxOf s 0).cstate = .settling ∧ (ctxOf s 0).saveWait = none ∧ (ctxOf s 0).evac = none ∧
    s.groups = [] ∧ s.transfers = [] ∧ (∀ i, CoreQuiet s i) ∧ (∀ d, (dieOf s d).barrierQ = []) ∧ (ctxOf s 0).savearea.toNat % 4096 = 0 ∧
    writeFails s 0 (ctxOf s 0).savearea.toNat 4096 = none :=
  ⟨{ preempted .settling wv with groups := [], waves := [] }, rfl, rfl, rfl, rfl, rfl, rfl, rfl, fun _ => ⟨rfl, rfl⟩, fun _ => rfl, by decide +kernel, by decide +kernel⟩
/-- A saved context whose tables stand at local address 0, with an image of no group at 0x10000, or none. -/
def savedSt (v : Byte) : State :=
  { State.reset with
    contexts := [(0, { cstate := .saved })], bar := { State.reset.bar with frtbase0 := 1#64, frtbase1 := 1#64 }
    mem := [(0, 1#8), (8, 0xF#8), (10, 4#8), (0x40000, v), (0x40004, 1#8), (0x40021, 0x10#8)] }
def reloaded (s : State) : State :=
  loadQueues (dropTlbAll (setCtx s 0 { loadDescriptor { cstate := .saved } 0#64 (hostRead s 0#64 128) with
    ctx := freeCtx s, deadline := none, image := 0x10000#64, toBind := [], evac := none, saveWait := none }) 0) 0
theorem wit_Preemption_restore : (savedSt 1#8).snaps = [] ∧ (savedSt 1#8).bar.recovery = false ∧ descriptorOk (savedSt 1#8) (hostRead (savedSt 1#8) 0#64 128) = true ∧
    descTag (hostRead (savedSt 1#8) 0#64 128) = 0 ∧ lookup (savedSt 1#8).contexts 0 = some { cstate := .saved } ∧ loadBusy (savedSt 1#8) false = false ∧
    (readImage (reloaded (savedSt 1#8)) 0 0x10000).isSome ∧ (readImage (reloaded (savedSt 2#8)) 0 0x10000).isNone := by decide +kernel
def restoring (g : AMap Group) (l : List Nat) : State := { State.reset with contexts := [(0, { ctx := some 0, cstate := .restoring, toBind := l })], groups := g }
theorem wit_Preemption_bound : ∃ s : State, s.snaps = [] ∧ (lookup s.contexts 0).isSome ∧ (ctxOf s 0).cstate = .restoring ∧ (ctxOf s 0).toBind = [] ∧ s.groups = [] :=
  ⟨restoring [] [], rfl, rfl, rfl, rfl, rfl⟩
/-- The last unit of a RESTORE has been bound, and its waves, one held by a debugger, have yet to be made ready. -/
def boundSt (w : Wave) : State := { restoring [(1, gr1)] [] with waves := [(2, w)] }
theorem wit_Preemption_ready : restoreOver (boundSt { wv with status := .stopped }) 0 = true ∧ lookup (boundSt { wv with status := .stopped }).groups 1 = some gr1 ∧
    gr1.ctag = 0 ∧ gr1.state = .resident ∧ lookup (boundSt { wv with status := .stopped }).waves 2 = some { wv with status := .stopped } := by decide +kernel
theorem wit_Preemption_bind : ∃ (s : State) (u : List Nat) (n : State), s.snaps = [] ∧ (ctxOf s 0).cstate = .restoring ∧ (ctxOf s 0).toBind ≠ [] ∧ bindable s 0 = some (u, n) ∧
    (dieOf s 0).state = .online ∧ (dieOf s 1).state = .online := by
  obtain ⟨⟨u, n⟩, h, -⟩ := some_of (x := bindable (restoring [(1, { state := .saved, core := 99 })] [1]) 0) (p := fun _ => true) (by decide +kernel)
  exact ⟨_, u, n, rfl, rfl, by decide +kernel, h, rfl, rfl⟩

/-- ManagementCommands: a device in recovery; a descriptor of zeros, which is good, for a context that is new, and one that is bad. -/
theorem wit_ManagementCommands_load : ∃ s t : State, s.snaps = [] ∧ s.bar.recovery = false ∧ descriptorOk s (hostRead s 0#64 128) = true ∧
    lookup s.contexts (descTag (hostRead s 0#64 128)) = none ∧ loadBusy s true = false ∧ t.bar.recovery = true ∧ loadBusy t true = true ∧
    descriptorOk { State.reset with mem := [(hostKey 57, 1#8)] } (hostRead { State.reset with mem := [(hostKey 57, 1#8)] } 0#64 128) = false :=
  ⟨{ State.reset with bar := { State.reset.bar with frtbase0 := 1#64, frtbase1 := 1#64 } }, { State.reset with bar := { State.reset.bar with recovery := true } }, rfl,
    by decide +kernel⟩
def debugged (w : Wave) : State := { st w with contexts := [(0, { ctx := some 0, debug := true, tbase := 0x4000#64 })] }
def heldWave : Wave := { wv with debugHold := true, status := .parked .debug }
theorem wit_ManagementCommands_contexts : 63 < (64#64 : DWord).toNat ∧ ctxTag (st wv) 63#64 = none ∧ ctxTag (st wv) 0#64 = some 0 ∧ (ctxOf (st wv) 0).debug = false ∧
    (ctxOf (debugged wv) 0).debug = true ∧ (65#64 : DWord).toNat % 64 ≠ 0 ∧ (64#64 : DWord).toNat % 64 = 0 ∧ 71 ≤ 71 ∧ (15#64 : DWord).toNat ≤ 15 := by decide +kernel
theorem wit_ManagementCommands_paths : (∀ i, CoreQuiet (st wv) i) ∧ (∀ e ∈ (debugged wv).waves, isHeld e.2 = false) :=
  ⟨fun _ => ⟨rfl, rfl⟩, fun e h => by cases List.mem_singleton.1 h; rfl⟩
theorem wit_ManagementCommands_resume : ∃ (s : State) (w : Wave), s.waves = [(2, w)] ∧ w.ctag = 0 ∧ w.wslot = (0#64 : DWord).toNat ∧ coreNo s w = (0#64 : DWord).toNat ∧
    isHeld w = true ∧ (ctxOf s 0).tbase ≠ 0#64 ∧ (ctxOf s 0).debug = true := ⟨debugged heldWave, heldWave, rfl, rfl, rfl, rfl, rfl, by decide +kernel, rfl⟩
theorem wit_ManagementCommands_dies : (1#64 : DWord).toNat ≤ 1 ∧ 1 < (2#64 : DWord).toNat ∧ State.reset.groups = [] ∧ State.reset.draining = none ∧
    (dieOf State.reset 1).state = .online ∧ (dieOf { State.reset with dies := [(1, { state := .drained })] } 1).state = .drained ∧
    (dieOf { State.reset with dies := [(1, { state := .drained, emerg := true })] } 1).emerg = true ∧ (dieOf State.reset 1).emerg = false := by decide +kernel
theorem wit_ManagementCommands_keys : 255 < (256#64 : DWord).toNat ∧ (1 ≤ (255#64 : DWord).toNat ∧ (255#64 : DWord).toNat ≤ 255) ∧ State.reset.sec.session = none ∧
    ({ State.reset with sec := { State.reset.sec with session := some 0 } } : State).sec.session = some 0 := by decide
theorem wit_ManagementCommands_summary : 8 ≤ (8#64 : DWord).toNat ∧ hostKey (0x1000#64 : DWord).toNat + (8#64 : DWord).toNat ≤ hostKey (0x1008#64 : DWord).toNat := by decide

/-- RegistersAndResets: the first reserved offset; tables at the last frame and beyond; resets with and without the command; the loss of die 1. -/
theorem wit_RegistersAndResets : (0x010 : Nat) ∉ [0x008, 0x100, 0x108, 0x110, 0x118, 0x120, 0x128, 0x200, 0x208, 0x210, 0x300, 0x400, 0x408, 0x410, 0x418, 0x420, 0x428] ∧
    (0x2FF8000001#64 : DWord).toNat / 2 ^ 27 % 2048 < 1536 ∧ 1536 ≤ (0x3000000001#64 : DWord).toNat / 2 ^ 27 % 2048 ∧ State.reset.contexts = [] ∧ (st wv).contexts ≠ [] ∧
    isLost State.reset 1 = false ∧ State.reset.snaps = [] ∧ (∀ e ∈ (dieOf State.reset 1).frt, e.2.state ≠ 1#2) ∧
    cellGet State.reset.l2 (hostKey 0) = none := by decide +kernel
def commanded : State :=
  { State.reset with bar := { State.reset.bar with recovery := true, mqcfg := 0x104#64, mqtail := 1#32 }, mem := [(ringBase 0#64, 0x14#8)] }
theorem wit_RegistersAndResets_warm : commanded.bar.recovery = true ∧ warmCommanded commanded = true ∧ State.reset.bar.recovery = false := by decide +kernel

/-! Further clauses: loads and paths, control registers, tasks. -/

/-- MemoryReadsBack: a copy under the load's key, that holds its half of the line, with no fill on its way; the same under another key; an owned line. -/
theorem wit_MemoryReadsBack_load : ∃ (s t : State) (copy : L1Line), lookup (coreOf s 0).l1 (0x178 / 128) = some copy ∧ copy.kid = 0 ∧ copy.kid ≠ 5 ∧
    isHostKey 0x178 = false ∧ copy.halves.getLsbD (0x178 % 128 / 64) = true ∧
    (∀ e ∈ (coreOf s 0).path, ∀ x y z i j l, e = .load x y z i j l → y / 128 ≠ 0x178 / 128) ∧ (coreOf s 0).owned.contains (0x178 / 128) = false ∧
    lookup (coreOf t 0).l1 (0x178 / 128) = none ∧ (coreOf t 0).owned.contains (0x178 / 128) = true ∧ UnderKey t 0 0x178 8 := by
  refine ⟨cached, { st wv with cores := [(0, { owned := [2] })] }, _, rfl, rfl, by decide, by decide, by decide, ?_, rfl, rfl, rfl, under_key0 rfl _ _⟩
  intro e he x y z i j l h
  cases List.mem_singleton.1 he
  cases h

/-- A store of core 1 on its way to the line of a load of core 0. -/
theorem wit_MemoryReadsBack_early : ∃ s : State, (coreOf s 1).path = [.store 2 0x100 0 [1#8]] ∧ UnderKey s 0 0x100 [1#8].length ∧ 0x100 % 128 + [1#8].length ≤ 128 :=
  ⟨{ st wv with cores := [(1, { path := [.store 2 0x100 0 [1#8]] })] }, rfl, under_key0 rfl _ _, by decide⟩

/-- Two entries of a core's path that go to different slices. -/
def twoWays (e : PathEntry) : State := { st waiting with cores := [(0, { path := [.store 2 0x200 0 [1#8], e] })] }
theorem wit_StorePath_WriteThrough_ways : ∃ (s : State) (early : List PathEntry), (coreOf s 0).path = early ++ .store 2 0x100 0 [1#8] :: [] ∧ early ≠ [] ∧
    (∀ e ∈ early, e.way ≠ wayOf 0x100) ∧ UnderKey s 0 0x100 1 ∧ s.snaps = [] :=
  ⟨twoWays (.store 2 0x100 0 [1#8]), [.store 2 0x200 0 [1#8]], rfl, by decide, by decide +kernel, under_key0 rfl _ _, rfl⟩
theorem wit_MemorySystemEvents_MemoryEvents_ways : ∃ (s : State) (early : List PathEntry) (x : Wave),
    (coreOf s 0).path = early ++ .atomic 2 0x100 0 4 7#4 0#4 1#64 0#64 7 (.s 5) 0 :: [] ∧ early ≠ [] ∧
    (∀ e ∈ early, e.way ≠ wayOf 0x100) ∧ UnderKey s 0 0x100 4 ∧ lookup s.waves 2 = some x ∧ atomicWaits (early ++ []) 7 = false :=
  ⟨twoWays (.atomic 2 0x100 0 4 7#4 0#4 1#64 0#64 7 (.s 5) 0), [.store 2 0x200 0 [1#8]], waiting, rfl, by decide, by decide +kernel, under_key0 rfl _ _, rfl, rfl⟩
/-- MemorySystemEvents: a load on its way to a slice, behind it a store to another slice. -/
theorem wit_MemorySystemEvents_MemoryEvents_load : ∃ (s : State) (x : Wave) (rest : List PathEntry), s.snaps = [] ∧ lookup s.waves 2 = some x ∧
    (coreOf s (coreNo s x)).stretch = false ∧ x.pending = [⟨7, [.s 5], [], false⟩] ∧ x.loads = [⟨7, .scalar 5 4 false, [⟨0, none⟩]⟩] ∧
    (coreOf s (coreNo s x)).path = .load 2 0x100 0 4 7 0 :: rest ∧ (∀ e ∈ rest, e.way ≠ wayOf 0x100 ∧ e.result ≠ some 7) ∧
    lookup (coreOf s (coreNo s x)).early (0x100 / 128) = none ∧ (∀ e ∈ s.cores, e.1 ≠ coreNo s x → ∀ p ∈ e.2.path, p.key / 128 ≠ 0x100 / 128) ∧
    UnderKey s 0 (0x100 / 128 * 128) 128 := by
  refine
  ⟨{ st { waiting with loads := [⟨7, .scalar 5 4 false, [⟨0, none⟩]⟩] } with cores := [(0, { path := [.load 2 0x100 0 4 7 0, .store 2 0x200 0 [1#8]] })] }, _,
    [.store 2 0x200 0 [1#8]], rfl, rfl, by decide +kernel, rfl, rfl, rfl, by decide +kernel, rfl, ?_, under_key0 rfl _ _⟩
  intro e he h
  cases List.mem_singleton.1 he
  exact absurd rfl h
theorem wit_MemorySystemEvents_MemoryEvents_room : 0 < State.reset.faultRoom ∧ (faultAt (some 3)).entries = [] ∧ (groupOf (handled faulted) faulted.group).frozen = false := by
  decide +kernel

/-- ElementsAndScans: −3/2 rounds to a finite value, and 1 is another. -/
theorem wit_ElementsAndScans_nearest : ∃ (rn yn : Bool) (rm ym : Nat) (re ye : Int), val32 (rne32 (.fin true 3 (-1))) = .fin rn rm re ∧
    val32 0x3F800000 = .fin yn ym ye := ⟨_, _, _, _, _, _, rfl, rfl⟩

/-- ControlRegisters: a word for each kind of slot, and words that bind nothing; a barrier that EVBIND takes and one that it refuses; TLBINV's ranges, and an
access to a peer that is still to be answered. -/
def slotWord (kind src : Nat) : DWord := BitVec.ofNat 64 (16 + kind + 256 * src)
theorem wit_ControlRegisters_slots : (∀ k ∈ [0, 1, 2, 3, 4, 5], (slotWord k 63).getLsbD 4 = true ∧ (slotWord k 63).toNat % 16 = k ∧ (slotWord k 63).toNat / 256 = 63) ∧
    (slotWord 2 0).toNat / 256 = 0 ∧ 5 < (slotWord 6 0).toNat % 16 ∧ (slotWord 0 64).toNat / 256 % 64 = 0 := by decide
theorem wit_ControlRegisters_barrier : ∃ (s : State) (w : Wave) (p : Place) (tr : Trap), lookup s.waves s.cur = some w ∧
    checkBarrier s w (slotObject (slotWord 1 (0x10100 / 64))) true = .ok p ∧ (dieOf s (homeOf p.key)).barrierQ = [] ∧ QuietAt s (coreNo s w) p.key ∧ slotRoom (setWave s s.cur (w.bind 7 { })) p.key = true ∧
    checkBarrier s w (slotObject (slotWord 1 (0x10140 / 64))) true = .error (.trap tr) ∧
    slotRoom (setWave { s with waves := [(2, w), (8, slotted 8), (9, slotted 4)] } s.cur (w.bind 7 { })) p.key = false := by
  refine ⟨barSt wv, wv, barPlace, ⟨10, 17, 65856, 0#32⟩, rfl, ok_eq (by decide +kernel), rfl, ⟨(fun _ h => by cases h), rfl, rfl⟩, by decide +kernel, ?_, by decide +kernel⟩
  rfl
theorem wit_ControlRegisters_TranslationInvalidation_ranges : ∃ (s t : State) (w : Wave), lookup s.waves s.cur = some w ∧ peersOut s w.ctag = false ∧ 65537 % 65536 ≠ 0 ∧
    2 ^ 55 < 2 ^ 55 - 65536 + 131072 ∧ (2 ^ 55 - 65536) % 65536 = 0 ∧ peersOut t w.ctag = true ∧ lookup t.waves t.cur = some w :=
  ⟨st wv, { st wv with waves := [(2, wv), (3, { wv with peer := [⟨9, 0, 0, 0, none, 0⟩] })] }, wv, rfl, by decide +kernel, by decide, by decide, by decide,
    by decide +kernel, rfl⟩

/-- TaskMessages: an open sheaf of one task, and one of 31, that a task joins; a sheaf that is due and one whose context is not resident; a task that cannot
run; ends of another incarnation and of another context. -/
def laneOf : LaneTask := ⟨0#64, 0#64, 0#64⟩
def sheafSt (n : Nat) : State := msgs { tasks := [.task 3], frt := [(3, { state := 1#2 })], former := [⟨0, 0#64, 0#64, List.replicate n laneOf, 5⟩] }
theorem wit_TaskMessages_next (n : Nat) : ∃ (s : State) (o : OpenSheaf), (dieOf s 0).tasks = [.task 3] ∧ (frtOf s 0 3).state = 1#2 ∧ (frtOf s 0 3).started = false ∧
    isResident s (frtOf s 0 3).ctag = true ∧ (dieOf s 0).former = [o] ∧ o.ctag = (frtOf s 0 3).ctag ∧ o.region = (frtOf s 0 3).region ∧
    o.entry = (frtOf s 0 3).entry ∧ o.tasks.length = n :=
  ⟨sheafSt n, _, rfl, rfl, rfl, rfl, rfl, rfl, rfl, rfl, List.length_replicate⟩
theorem wit_TaskMessages_idle : ∃ s t : State, (dieOf s 0).tasks = [.task 3] ∧ (frtOf s 0 3).state ≠ 1#2 ∧ (∃ o, (dieOf t 0).former[0]? = some o ∧ o.since + 2000 ≤ t.tsc.toNat ∧
    isResident t o.ctag = false) :=
  ⟨msgs { tasks := [.task 3] }, { msgs { former := [⟨7, 0#64, 0#64, [], 5⟩] } with tsc := 2005#64 }, by decide +kernel, by decide +kernel, _, rfl, by decide,
    by decide +kernel⟩
theorem wit_TaskMessages_stale : ∃ s : State, (dieOf s 0).ends = [.finish 3 2#12 0 true 9#64] ∧ (2#12 : BitVec 12) ≠ (frtOf s 0 3).tag ∧ (1 : Nat) ≠ (frtOf s 0 3).ctag ∧
    s.waves = [] := ⟨msgs { ends := [.finish 3 2#12 0 true 9#64], frt := [(3, { state := 1#2 })] }, by decide +kernel⟩
theorem wit_TaskMessages_pending : ∃ (s : State) (h : DWord), (dieOf s 0).forwards = [.forward h 3] ∧ (frtOf s 0 3).state = 1#2 ∧ handleSlot h ≠ 3 ∧
    s.waves = [] ∧ (frtOf s 0 (handleSlot h)).state = 1#2 ∧ (frtOf s 0 (handleSlot h)).tag = handleTag h ∧
    (frtOf s 0 (handleSlot h)).ctag = (frtOf s 0 3).ctag :=
  ⟨msgs { forwards := [.forward 0x4001#64 3], frt := [(3, { state := 1#2 }), (4, { state := 1#2 })] }, 0x4001#64, by decide +kernel⟩
theorem wit_TaskMessages_SlotGrants_room : ∃ (s : State) (k : Nat), s.waves = [] ∧ (dieOf s 1).grantReqs = [0] ∧ ((lookup (dieOf s 0).pools 1).getD []).length = 63 ∧ k < 2 ^ 20 ∧
    (frtOf s 1 k).state = 0#2 ∧ (frtOf s 1 k).granted = false ∧ (dieOf s 0).grantReqs = [] :=
  ⟨{ State.reset with dies := [(1, { grantReqs := [0] }), (0, { pools := [(1, List.replicate 63 0x3001)] })] }, 2 ^ 20 - 1, by decide +kernel⟩
/-- A peer's drop for a future that the bound context holds. -/
theorem wit_TaskMessages_SlotGrants_drop : ∃ (s : State) (h : DWord), handleDie h = 0 ∧ boundCtx s 5 9 = some 0 ∧ (frtOf s 0 (handleSlot h)).ctag = 0 :=
  ⟨{ msgs { frt := [(3, { state := 2#2 })] } with binds := [(5, 9, 0)] }, 0x3001#64, by decide +kernel⟩
/-- TaskSlots: a slot that has a line, at the first byte after 128 × 3 of the table, under the context's key. -/
theorem wit_TaskSlots_line : ∃ (s : State) (p kid : Nat), frtPlace s 0 3 = some p ∧ p = 384 ∧ keyId s (ctxOf s 0).savekey.toNat = some kid ∧ s.snaps = [] :=
  ⟨{ st wv with bar := { State.reset.bar with frtbase0 := 1#64 } }, 384, _, by decide +kernel, rfl, rfl, rfl⟩
/-- DependenceTable, CommandsAndPublish: the record is one piece within a block, and its core holds no copy of its line. -/
theorem wit_DependenceTable_record : ∀ e ∈ recAt, ∀ p ∈ e.2, 0 < p.2 ∧ p.1.key % 64 + p.2 ≤ 64 ∧ UnderKey (depSt (launcher 1) []) p.1.kid p.1.key p.2 ∧
    lookup (coreOf (depSt (launcher 1) []) 0).l1 (p.1.key / 128) = none := by
  intro e he p hp
  cases List.mem_singleton.1 he
  cases List.mem_singleton.1 hp
  exact ⟨by decide, by decide, under_key0 rfl _ _, rfl⟩

/-! Further clauses: plots, transfers, yokes, peers, queues. -/

/-- PlotAllocation: a state in which no group is ending. -/
theorem wit_PlotAllocation_live : ∀ e ∈ (plotted wv (plotAt 2#2 0#4)).groups, e.2.state ≠ .ending := by
  intro e he
  cases List.mem_singleton.1 he
  decide

/-- TransfersAdvance: a transfer that is parked, one that is paused, and one accepted while a PUBLISH of its leaf waits; a piece that ends inside its row and
one that fills it; a block of a copy that was read before; a frozen group. -/
theorem wit_TransfersAdvance_waits : ∃ (s : State) (t p q : Transfer), lookup s.transfers 9 = some t ∧ afterPublish s 9 t = true ∧ p.parked ≠ none ∧ q.pause = true :=
  ⟨{ xferSt .cpyout (plotAt 2#2 0#4) with publishes := [(8, ⟨2, 0, 0x10000#64, 0x10000, []⟩)] }, _, { xfer .cpy with parked := some 5 }, { xfer .cpy with pause := true },
    rfl, by decide +kernel, by decide, rfl⟩
theorem wit_TransfersAdvance_pieces : ∃ (s : State) (t : Transfer) (p : Place), lookup s.transfers 9 = some t ∧ t.op = .cpyout ∧ 0 < t.rowBytes ∧ t.done < totalBytes t ∧
    t.parked = none ∧ t.pause = false ∧ afterPublish s 9 t = false ∧ steady t = true ∧ engineAt s t 0x10120#64 true = .ok p ∧ leafSC p.leaf = false ∧
    0 < pieceLen s t ∧ t.done % t.rowBytes + pieceLen s t ≤ t.rowBytes ∧ (0x10120#64 : DWord).toNat % 64 + pieceLen s t ≤ 64 ∧ t.done + pieceLen s t ≤ t.image.length ∧
    t.done + pieceLen s t < totalBytes t ∧ UnderKey s p.kid p.key (pieceLen s t) :=
  ⟨{ xferSt .cpyout (plotAt 2#2 0#4) with transfers := [(9, { xfer .cpyout with done := 32 })] }, _, ⟨0, 0x120, 0, 0xF#64⟩, rfl, rfl, by decide, by decide +kernel, rfl, rfl, rfl,
    by decide +kernel, ok_eq (by decide +kernel), by decide, by decide +kernel, by decide +kernel, by decide +kernel, by decide +kernel, by decide +kernel,
    under_key0 rfl _ _⟩
theorem wit_TransfersAdvance_cached : ∃ (t : Transfer) (blk : List Byte), t.op = .cpy ∧ lookup t.blocks ((copyPiece t).va &&& ~~~63#64).toNat = some blk :=
  ⟨{ xfer .cpy with blocks := [(0x10100, zeroBytes 64)] }, zeroBytes 64, rfl, by decide +kernel⟩
theorem wit_TransfersAdvance_frozen : ∃ (s : State) (gr : Group) (p : Plot), lookup s.groups 1 = some gr ∧ lookup gr.plots 5 = some p ∧ gr.frozen = true :=
  ⟨{ plotted wv (plotAt 3#2 0#4) with groups := [(1, { gr1 with frozen := true, plots := [(5, plotAt 3#2 0#4)] })] }, _, _, rfl, rfl, rfl⟩

/-- Leases: a gang of two cores of which both groups stand, and one of which a group has ended; a group that joins with the same shape. -/
def twoGroups (st2 : GState) (k : AMap Yoke) : State :=
  { yoked (asks 0x10) (plotAt 0#2 0#4) (yoke1 .idle) with
    groups := [(1, gang1 (plotAt 0#2 0#4)), (5, { gang1 (plotAt 0#2 0#4) with core := 1, ypos := 1, state := st2 })]
    launches := [(4, { launch4 with shape := 0x10#32 })], yokes := k }
theorem wit_Leases_short : (gangGroups (twoGroups .resident []) 4 1).length = 2 ∧ (∀ g ∈ gangGroups (twoGroups .resident []) 4 1, (groupOf (twoGroups .resident []) g).state ≠ .ending) ∧
    (∃ g ∈ gangGroups (twoGroups .ending []) 4 1, (groupOf (twoGroups .ending []) g).state = .ending) ∧ (gangGroups (yoked wv (plotAt 0#2 0#4) (yoke1 .idle)) 4 1).length = 1 := by
  decide +kernel
theorem wit_Leases_join : ∃ (s : State) (w : Wave) (k : Yoke), lookup s.waves s.cur = some w ∧ checkYacq s w ((w.sreg 1).toNat % 2 ^ 32) = .ok (.join (some (7, k))) ∧
    lookup s.yokes 7 = some k ∧ k.shape = (w.sreg 1).extractLsb' 0 32 ∧
    shapeCores k.shape.toNat ≤ (gangGroups s (groupOf s w.group).launch (groupOf s w.group).gang).length :=
  ⟨yoked (asks 8) (plotAt 0#2 0#4) (forming none), asks 8, forming none, rfl, ok_eq (by decide +kernel), rfl, by decide +kernel, by decide +kernel⟩

/-- ArrayInstructions: a run still owes row 0 and an operation that waits for it stands before. -/
def owing : Yoke := { loadedYoke .running with runs := [{ runAt 0 0 with id := 1 }], ops := [(2, .zero 0)] }
theorem wit_ArrayInstructions_owed : ∃ (s : State) (w : Wave) (k : Yoke), lookup s.waves s.cur = some w ∧ lookup s.yokes 7 = some k ∧ checkRows s w 0 1 = .ok (7, k) ∧
    rowPending s k 0 1 = true ∧ (∀ e ∈ k.ops, runOwes k e.1 e.2.row = true ∨ imageOwes s k e.1 = true) ∧ k.ops ≠ [] ∧ runOwes k s.uid 0 = true ∧
    checkRows s w 4 1 = .ok (7, k) ∧ rowPending s k 4 1 = false ∧
    checkMcadr s w 0x10100 64 0 1 false = .ok (7, k, none) :=
  ⟨arrays referer owing, referer, owing, rfl, rfl, ok_eq (by decide +kernel), by decide +kernel, by decide +kernel, by decide, by decide +kernel, ok_eq (by decide +kernel),
    by decide +kernel, ok_eq (by decide +kernel)⟩

/-- RowsAndGarner: a core of the yoke whose clock is stretched; a row whose update an MZERO awaits; a run with factors that are exact. -/
theorem wit_RowsAndGarner_stretched : ∃ (s : State) (k : Yoke), lookup s.yokes 7 = some k ∧ entryStretched s k = true ∧ garnerStretched s k = true ∧
    yokeStretched s k = true ∧ (runAt 2 1).past ≤ (runAt 2 1).done ∧ { runAt 2 1 with past := 2 }.done < { runAt 2 1 with past := 2 }.past :=
  ⟨{ arrays wv { loadedYoke .running with runs := [runAt 2 1] } with cores := [(0, { stretch := true })] }, _, rfl, by decide +kernel, by decide +kernel, by decide +kernel, by decide, by decide⟩
theorem wit_RowsAndGarner_ops : ∃ (k : Yoke) (c : Run), k.runs = [c] ∧ c.done < c.inj ∧ k.ops = [(9, .zero (c.g0 + c.done))] ∧ c.id < 9 :=
  ⟨{ loadedYoke .running with runs := [runAt 2 1], ops := [(9, .zero 1)] }, runAt 2 1, rfl, by decide, rfl, by decide⟩
theorem wit_RowsAndGarner_exact : ∃ (neg : Bool) (m : Nat) (e : Int), elemA ((runAt 0 0).a[0]?) 24 16 0 0 = .fin neg m e := by
  refine ⟨_, _, _, (rfl : elemA ((runAt 0 0).a[0]?) 24 16 0 0 = .fin false 0 _)⟩

/-- PeersAndLinks: an atomic that a window allows, one that is turned down, a read beyond every window, and NODEID naming no node. -/
theorem wit_PeersAndLinks_atomic : peerAtomicOk 0#4 0#3 [(0x1C, 1#64, 0#64)] = true ∧ peerShape windowed 0 0 64 = true ∧ windowAllows windowed 5 0 0 64 true = true ∧
    peerAtomicOk 10#4 0#3 [(0, 1#64, 0#64)] = false ∧ windowAllows windowed 5 0 0x10000 64 false = false ∧ State.reset.bar.recovery = false ∧
    ({ State.reset.bar with nodeidNext := 0xFFF#64 } : Bar0).nodeidNext.toNat % 4096 = 0xFFF := by decide +kernel

/-- Queues: a record whose page is not mapped, one at an address that is none, and one whose take a KILL has answered. -/
def ringAt (k : Nat) (v : Byte) : List Host.Cell := (queueMem.filter fun c => c.1 < k) ++ (k, v) :: queueMem.filter fun c => k < c.1
theorem wit_Queues_unread : ∃ (s t u : State) (a b d : List Byte) (l : Leader) (nw : Bool) (r : Nat), canTake s 0 false 0 = some (a, { l with kill := true }) ∧ l.kill = false ∧
    canTake t 0 false 0 = some (b, l) ∧ readRecord t 0 l.die (recordAddr b (descHead b)) = .error (.recoverable nw) ∧
    canTake u 0 false 0 = some (d, l) ∧ readRecord u 0 l.die (recordAddr d (descHead d)) = .error (.fatal r) ∧ r ≠ 11 ∧ canTake State.reset 0 false 0 = none := by
  obtain ⟨⟨b, l⟩, h1, p⟩ := some_of (x := canTake (queued led (ringAt 0x402 3#8)) 0 false 0) (p := fun e => decide (e.2 = led) &&
    decide (readRecord (queued led (ringAt 0x402 3#8)) 0 0 (recordAddr e.1 (descHead e.1)) = .error (.recoverable false))) (by decide +kernel)
  obtain ⟨⟨d, l'⟩, h2, q⟩ := some_of (x := canTake (queued led (ringAt 0x407 0x80#8)) 0 false 0) (p := fun e => decide (e.2 = led) &&
    decide (readRecord (queued led (ringAt 0x407 0x80#8)) 0 0 (recordAddr e.1 (descHead e.1)) = .error (.fatal 1))) (by decide +kernel)
  simp only [Bool.and_eq_true, decide_eq_true_eq] at p q
  obtain ⟨rfl, p⟩ := p
  obtain ⟨rfl, q⟩ := q
  exact ⟨queued { led with kill := true } queueMem, _, _, desc 0, b, d, led, false, 1, by decide +kernel, rfl, h1, p, h2, q, by decide, by decide +kernel⟩
/-- Where a take, an append to the ring and one to the overflow area write, each in memory of this device. -/
theorem wit_Queues_places : ∃ (s : State) (b : List Byte) (p q r : Place), readDesc s 0 false 0 = some b ∧ descAddr (ctxOf s 0) false 0 % 64 = 0 ∧
    translate s (.die 0) 0 (descAddr (ctxOf s 0) false 0 + 24) 1 false = .ok p ∧ translate s (.die 0) 0 (descAddr (ctxOf s 0) false 0 + 32) 1 false = .ok q ∧
    translate s (.die 0) 0 (recordAddr b (descTail b)).toNat 1 false = .ok r ∧ p.loc ≠ 2 ∧ q.loc ≠ 2 ∧ r.loc ≠ 2 ∧ (recordAddr b (descTail b)).toNat % 64 = 0 ∧
    (∀ k n, UnderKey s p.kid k n) ∧ s.snaps = [] ∧ (ringAppend s 0 false 0 b (zeroBytes 64)).isSome ∧ overflowAppend s 0 false 0 b (zeroBytes 64) = none := by
  refine ⟨queued led queueMem, desc 0, ⟨0, 0x418, 0, 0xF#64⟩, ⟨0, 0x420, 0, 0xF#64⟩, ⟨0, 0x840, 0, 0xF#64⟩, by decide +kernel, by decide +kernel, ok_eq (by decide +kernel),
    ok_eq (by decide +kernel), ok_eq (by decide +kernel), by decide, by decide, by decide, by decide +kernel, fun _ _ => under_key0 rfl _ _, rfl, by decide +kernel,
    by decide +kernel⟩
/-- A queue that moves and whose descriptor is not there, or lies on a lost die. -/
theorem wit_Queues_gone : ∃ (s t : State) (l m : Leader), leaderOf (ctxOf s 0) false 0 = some l ∧ readDesc s 0 false 0 = none ∧ l.state = .moving ∧
    descLost s 0 false 0 = false ∧ leaderOf (ctxOf t 0) false 0 = some m ∧ readDesc t 0 false 0 = none ∧ m.state = .moving ∧ descLost t 0 false 0 = true :=
  ⟨{ queued { led with state := .moving } queueMem with tlb := [] }, { queued { led with state := .moving } queueMem with dies := [(0, { state := .lost })] },
    { led with state := .moving }, { led with state := .moving }, by decide +kernel⟩
/-- Two places in the overflow area, one taken, which a third and a second record find full and open. -/
def overflowing (n : Byte) : List Byte := ((((desc 0).set 41 0x0E#8).set 42 1#8).set 48 2#8).set 50 n
theorem wit_Queues_overflowAppend : (overflowAppend (queued led queueMem) 0 false 0 (overflowing 1#8) (zeroBytes 64)).isSome ∧ descOvfl (overflowing 1#8) ≠ 0 ∧
    descOvflc (overflowing 1#8) < fieldOf (overflowing 1#8) 48 2 ∧ (descOvfl (overflowing 1#8) + 64 * descOvflc (overflowing 1#8)) % 64 = 0 ∧
    fieldOf (overflowing 2#8) 48 2 ≤ descOvflc (overflowing 2#8) := by decide +kernel
/-- A queue on its way back from a die that is offline; EN of a queue that moves, and of one that does not; a task that finds no slot. -/
theorem wit_Queues_back : isOnline { State.reset with dies := [(1, { state := .lost })] } (1 - led.die) = false ∧
    isOnline { State.reset with dies := [(1, { state := .lost })] } led.die = true ∧ isOnline State.reset (1 - led.die) = true := by decide +kernel

theorem lookup_const {α : Type} (l : List Nat) (x : α) {k : Nat} (h : k ∈ l) : lookup (l.map fun k => (k, x)) k = some x := by
  induction l with
  | nil => cases h
  | cons j t ih =>
    rw [List.map_cons, lookup]
    split
    · rfl
    · exact ih ((List.mem_cons.1 h).resolve_left fun e => absurd e.symm ‹_›)
theorem freeSlots_taken {s : State} {die : Nat} (h : ∀ k, k < Config.frtSlots → (frtOf s die k).state ≠ 0#2) (f k n : Nat) : freeSlots f s die k n = [] := by
  induction f generalizing k with
  | zero => simp [freeSlots]
  | succ f ih =>
    cases n with
    | zero => simp [freeSlots]
    | succ m =>
      rw [freeSlots]
      split
      · rfl
      · simp [h k (by omega), ih]
/-- A task record that finds every slot of its home taken. -/
def takenSt (l : List Nat) : State := { queued led queueMem with dies := [(0, { frt := l.map fun k => (k, { state := 1#2 }) })] }
theorem frt_taken {l : List Nat} {k : Nat} (h : k ∈ l) : (frtOf (takenSt l) 0 k).state ≠ 0#2 := by
  have : lookup (dieOf (takenSt l) 0).frt k = some { state := 1#2 } := lookup_const l _ h
  simp [frtOf, this]
def fullSt : State := takenSt (List.range Config.frtSlots)
theorem wit_Queues_full : ∃ (s : State) (b r : List Byte) (l : Leader), canTake s 0 true 0 = some (b, l) ∧ l.kill = false ∧
    readRecord s 0 l.die (recordAddr b (descHead b)) = .ok r ∧ taskRecordOk r (descHead b) = true ∧ (r.getD 1 0#8).toNat % 2 = 0 ∧ isLost s 0 = false ∧
    (∃ chain, checkRegion s 0 (BitVec.ofNat 64 (fieldOf r 32 8)) = .ok chain) ∧ grantable s 0 1 = [] := by
  obtain ⟨c, h3, -⟩ := ok_of (x := checkRegion fullSt 0 (BitVec.ofNat 64 (fieldOf (record 1) 32 8))) (p := fun _ => true) (by decide +kernel)
  refine ⟨fullSt, desc 1, record 1, led, by decide +kernel, rfl, ok_eq (by decide +kernel), by decide +kernel, by decide +kernel, by decide +kernel, ⟨c, h3⟩,
    freeSlots_taken (fun k hk => frt_taken (List.mem_range.2 hk)) _ _ _⟩

/-- Binding: a device with nothing to bind. -/
theorem wit_Binding_none : pick State.reset 0 = none ∧ gangNext State.reset 0 = none := by decide +kernel

/-- PowerAndTime: temperatures at and below both limits of a trip, and the least droop that trips. -/
theorem wit_PowerAndTime_limits : (∃ x ∈ [20, 105], 105 ≤ x) ∧ (∀ x ∈ [20, 104], x < 105) ∧ (List.replicate 40 94).length = 40 ∧ (∀ x ∈ List.replicate 40 94, x < 95) ∧
    (∃ x ∈ [95], 95 ≤ x) ∧ (dieOf { State.reset with dies := [(0, { trip := true })] } 0).trip = true ∧ 59 < 5 * max 1 (min (State.reset.bar.droopcfg0.toNat % 64) 24) ∧
    5 * max 1 (min (State.reset.bar.droopcfg0.toNat % 64) 24) ≤ 60 := by decide +kernel

/-- Preemption: a drain that an evacuation held up. -/
theorem wit_Preemption_drain : ({ ctx := some 0, cstate := .restoring, drain := some 7 } : Context).drain = some 7 ∧ (ctxOf (restoring [] []) 0).drain = none := by decide
/-- ManagementCommands: a SUMMARY with room for its header below the completion record, and an access to a peer that holds up TLBINV. -/
theorem wit_ManagementCommands_more : 64 ≤ (64#64 : DWord).toNat ∧ hostKey (0x1000#64 : DWord).toNat + (64#64 : DWord).toNat ≤ hostKey (0x1040#64 : DWord).toNat ∧
    peersOut { st wv with waves := [(3, { wv with peer := [⟨9, 0, 0, 0, none, 0⟩] })] } 0 = true ∧ peersOut (st wv) 0 = false ∧
    (∀ i, (dieOf (st wv) i).barrierQ = []) := ⟨by decide, by decide, by decide +kernel, by decide +kernel, fun _ => rfl⟩
theorem wit_RegistersAndResets_reads : (0x028 : Nat) ∉ [0x000, 0x008, 0x010, 0x018, 0x020, 0x100, 0x108, 0x110, 0x118, 0x120, 0x128, 0x200, 0x208, 0x210, 0x218, 0x300, 0x400,
    0x408, 0x410, 0x418, 0x420, 0x428, 0x430] := by decide
/-- StepRunsDecoded: a register that the garner still owes. -/
theorem wit_StepRunsDecoded_owed : awaits (st { wv with pending := [⟨7, [.v 5], [], false⟩] }) 2 [RegName.v 5] = true ∧
    awaits (st { wv with pending := [⟨7, [.s 1], [], false⟩] }) 2 (namingRegs (.pld 0#2 5#6 1#6 0#4)) = true ∧
    awaits (st wv) 2 (namingRegs (.pld 0#2 5#6 1#6 0#4)) = false := by decide

/-- StepRunsDecoded: the first instruction of the group, once its line is in the instruction cache; the turn is the wave's. -/
def fetched : State := { st wv with cores := [(0, { icache := [(0, (0, 0, bytesOf 4 0x0E050007 ++ zeroBytes 124))] })], turnCore := 0 }
theorem wit_StepRunsDecoded : lookup fetched.waves fetched.cur = some wv ∧ nextTime fetched = none ∧ fetched.agenda = [] ∧ fetched.devTurn = false ∧
    curReady fetched = true ∧ wv.stepDone = none ∧ wv.preempt = none ∧ wv.stall = none ∧
    (okAnd (translate { fetched with devTurn := true } (.core 0) 0 0x10000 2 false) fun p => decide (p = ⟨0, 0, 0, 0xF#64⟩)) = true ∧
    decode (BitVec.ofNat 32 (fieldOf (fetchLine { fetched with devTurn := true } 0 0 ⟨0, 0, 0, 0xF#64⟩).2 0 4)) = .ok (.smovi 0#2 5#6 7#16) ∧
    wellFormed (.smovi 0#2 5#6 7#16) = true ∧ wellFormedIn (.smovi 0#2 5#6 7#16) wv.ty = true ∧ brokenWindow wv (regsOf (.smovi 0#2 5#6 7#16) wv.ty false) = none := by
  decide +kernel
theorem wit_StepRunsDecoded_fill : lookup (coreOf (st wv) 0).icache (lineOf 0) = none ∧ 0 % 4 = 0 ∧ UnderKey (st wv) 0 (lineOf 0 * 128) 128 ∧
    lookup [((0 : Nat), (0, 3, zeroBytes 128))] (lineOf 0) = some (0, 3, zeroBytes 128) := ⟨rfl, rfl, under_key0 rfl _ _, rfl⟩
theorem wit_IssueChecks : decode 0xFF000000#32 = .error .illegalOp ∧ decode 0x00000001#32 = .error .illegalEnc ∧
    (∃ i, decode (0x0B#8 ++ 0#2 ++ 1#6 ++ 14#16) = .ok i ∧ (wellFormed i && wellFormedIn i 0) = false) ∧
    (∃ i, decode 0x0E050007#32 = .ok i ∧ (wellFormed i && wellFormedIn i 0) = true ∧ ∃ (w : Wave) (win : Window) (r : RegName), w.windows = [win] ∧ w.pending = [] ∧
      (regsOf i w.ty false).filter (fun k => win.regs.contains k) = [r]) :=
  ⟨by decide, by decide, ⟨.readsr 0#2 1#6 14#16, by decide, by decide⟩,
    .smovi 0#2 5#6 7#16, by decide, by decide, { wv with windows := [⟨3, [.s 5], 0#64⟩] }, _, .s 5, rfl, rfl, by decide +kernel⟩
/-- DecodeEncode: an instruction of each end of the table has a word. -/
theorem wit_DecodeEncode : encode (.nop 3#2) = some 0x00C00000#32 ∧ (encode (.yield 0#2)).isSome ∧ decode 0x00C00000#32 = .ok (.nop 3#2) := by decide
theorem wit_ControlAligned : ∃ s t : State, step s = .next t := ⟨State.reset, _, rfl⟩
/-- A step from a state with a current wave runs its instruction: the word that withFetchWord placed. -/
theorem test_step : (match step (State.reset.withFetchWord 32 0x0E050007) with
    | .next t => (waveOf t t.cur).sreg 5
    | _ => 0#64) = 7#64 := by decide +kernel

/-- ElementsAndScans: the last register, of a type that is not wide. -/
theorem wit_ElementsAndScans_last : (63 : Nat) < 64 ∧ (isWide 10 = true → 63 + 1 < 64) ∧ 10 ≤ 10 := by decide

/-- ScalarAccesses: SATOMF on an f32 one byte off. -/
theorem wit_ScalarAccesses_satomf : ∃ (s : State) (w : Wave), lookup s.waves s.cur = some w ∧ (w.sreg 1).toNat % typeBytes (satomfType 4) ≠ 0 :=
  ⟨st (at1 0x10101), at1 0x10101, rfl, by decide +kernel⟩

/-- VectorAccesses: every lane one byte off, by gather, stride, word operands and broadcast; the lowest is lane 0. -/
def lanesOff : Wave := { lanesAt with s := ((at1 0x10101).setS 2 4#64).s }
theorem wit_VectorAccesses_misaligned :
    lookup (st lanesOff).waves (st lanesOff).cur = some lanesOff ∧ lanesOff.ty ≤ 10 ∧ okAtomic 8 lanesOff.ty = true ∧ lanesOff.active ≠ 0#32 ∧
    ((List.range 32).filter fun l => lanesOff.active.getLsbD l &&
      decide ((lanesOff.sreg 1 + (lanesOff.lane 2 l).signExtend 64).toNat % typeBytes lanesOff.ty ≠ 0)).head? = some 0 ∧
    ((List.range 32).filter fun l => lanesOff.active.getLsbD l &&
      decide ((lanesOff.sreg 1 + BitVec.ofNat 64 l * lanesOff.sreg 2).toNat % typeBytes lanesOff.ty ≠ 0)).head? = some 0 ∧
    (lanesOff.sreg 1 + lanesOff.sreg 2).toNat % typeBytes lanesOff.ty ≠ 0 := by decide +kernel

/-- FencesAndHints: PREFETCH of a page that the tables map to this device. -/
theorem wit_FencesAndHints_prefetch : ∃ q, translate (st wv) (.core 0) 0 0x10100 0 false = .ok q ∧ q.loc ≠ 2 :=
  let ⟨q, h, e⟩ := ok_of (x := translate (st wv) (.core 0) 0 0x10100 0 false) (p := fun q => q.loc != 2) (by decide +kernel)
  ⟨q, h, by simpa using e⟩

/-- EventSlots, Waits: a slot 7 that a future has posted, and one that a plot has; nothing is outstanding. -/
def ready7 (kind : BitVec 4) : Wave := { wv with slots := tab 8 fun i => if i = 7 then ⟨kind, true, 0#56, 0#32, 0⟩ else { }, pev := 0x80#8 }
theorem wit_EventSlots_future : (7 < 8 ∧ ((ready7 3#4).slot 7).bound = true ∧ ((ready7 3#4).slot 7).kind = 3#4 ∧ (ready7 3#4).pev.getLsbD 7 = true) ∧
    ∀ i, i < 8 → ¬(((ready7 1#4).slot i).bound = true ∧ ((ready7 1#4).slot i).kind = 3#4 ∧ (ready7 1#4).pev.getLsbD i = true) := by decide +kernel
theorem wit_EventSlots_far : ∃ s : State, ownNode s (handleNode 0xA00000001#64) = false ∧ futureState s 0 0xA00000001#64 = .pending ∧
    (0xA00000001#64 : DWord).toNat < 2 ^ 45 := ⟨{ st wv with bar := { State.reset.bar with nodeid := 7#64 } }, by decide +kernel⟩
theorem wit_Waits_future : ((List.range 8).filter fun i => ((ready7 3#4).slot i).bound && !(ready7 3#4).evm.getLsbD i).find? (fun i => (ready7 3#4).pev.getLsbD i) = some 7 ∧
    ((ready7 3#4).slot 7).kind = 3#4 ∧ (ready7 3#4).pending = [] ∧ (ready7 3#4).posted ≠ [] := by decide +kernel

/-- FatalFaults: a sheaf wave with one task, inside its handler and not; a fault of its only lane, of another lane, of none, and a trap that is not fatal. -/
theorem wit_FatalFaults_sheaf : ∃ (s : State) (w : Wave) (t e f x : Trap) (sh : SheafInfo), lookup s.waves 2 = some w ∧ w.pending = [] ∧ w.windows = [] ∧
    w.sheaf = some sh ∧ (∀ y ∈ [t, e, f], isFatal y.cause = true ∧ ¬(y.cause = 9 ∧ y.reason = 11)) ∧ (t.cause = 9 ∧ t.lanes ≠ 0#32 ∧ w.live &&& ~~~t.lanes = 0#32) ∧
    (e.cause = 11 ∧ e.lanes ≠ 0#32 ∧ w.live &&& ~~~e.lanes ≠ 0#32) ∧ f.lanes = 0#32 ∧ isFatal x.cause = false ∧ w.handler = true :=
  let w : Wave := { sheafWave with handler := true, live := 1#32 }
  ⟨handled w, w, ⟨9, 10, 0, 1#32⟩, ⟨11, 0, 0, 2#32⟩, ⟨9, 0, 0, 0#32⟩, ⟨14, 0, 0, 0#32⟩, _, rfl, rfl, rfl, rfl, by decide, by decide, by decide, by decide, by decide, rfl⟩

/-- Futures: an ACTIVE lane's future that is complete acquires. -/
theorem wit_Futures_acquires : futureAcquires (futureState (futures handles 2#2) 0 (handles.pair64 2 31)) = true ∧
    futureAcquires (futureState (futures handles 1#2) 0 (handles.pair64 2 31)) = false := by decide +kernel

/-- Regroup: the second wave has parked to wait for the first, which names a third. -/
def threeWaves (r : Bool) : State :=
  { st wv with
    groups := [(1, { gr1 with nwave := 3, wmask := 7#16 })]
    waves := [(2, (wv.setS 1 2#64)), (3, { wv with waveId := 1, status := .parked (.regroup 0#2 (if r then 0 else 2) 0#64) }), (4, { wv with waveId := 2 })] }
theorem wit_Regroup_third : ∀ r, ∃ (w x : Wave) (l : List Nat), lookup (threeWaves r).waves (threeWaves r).cur = some w ∧
    waveByWaveId (threeWaves r) w.group ((w.sreg 1).toNat % 16) = some (4, x) ∧ (∀ xnx q m, x.status ≠ .parked (.regroup xnx q m)) ∧
    (((threeWaves r).waves.filter fun e => e.1 != (threeWaves r).cur && e.2.group == w.group && (match e.2.status with
       | .parked (.regroup _ q _) => q == w.waveId
       | _ => false)).map (·.1)) = l ∧ (l = [] ↔ r = false) := by
  intro r
  cases r
  · exact ⟨_, _, [], rfl, rfl, (by intro _ _ _ h; cases h), (by decide +kernel), (by decide)⟩
  · exact ⟨_, _, [3], rfl, rfl, (by intro _ _ _ h; cases h), (by decide +kernel), (by decide)⟩
theorem wit_Regroup_end : ∃ x : Wave, lookup (threeWaves true).waves 3 = some x ∧ x.status = .parked (.regroup 0#2 0 0#64) := ⟨_, rfl, rfl⟩

end Sys2Proof.Tests
end

/-! SUPPORT. Elements, integer results, RNE32 and integer scans (R16, R96, R257, R258, R279): the laws of the operations that vector instructions share,
and the statement about them. -/
namespace Sys2Proof
open Machine

/-- The table of a function holds its values. -/
theorem tab_getD {α : Type} {n i : Nat} (f : Nat → α) (d : α) (hi : i < n) : (tab n f).toList.getD i d = f i := by
  simp [tab, hi]

/-! ### Placement of vector results (R257) -/

theorem Wave.vreg_setLanes_ne (w : Wave) {r k : Nat} (m : Word) (f : Nat → Word) (h : k ≠ r) : (w.setLanes r m f).vreg k = w.vreg k := by
  simp only [Wave.setLanes, Wave.setV, Wave.vreg, vector_getD_set, h, false_and, if_false]

/-- R257: what a lane holds after the chosen lanes of a register were written. -/
theorem Wave.lane_setLanes (w : Wave) {r l : Nat} (k : Nat) (m : Word) (f : Nat → Word) (hr : r < 64) (hl : l < 32) :
    (w.setLanes r m f).lane k l = if k = r ∧ m.getLsbD l = true then f l else w.lane k l := by
  by_cases hk : k = r
  · subst hk
    simp only [Wave.lane, Wave.setLanes, Wave.vreg_setV _ _ hr, if_true, true_and, tab_getD _ _ hl]
  · simp [Wave.lane, Wave.vreg_setLanes_ne _ _ _ hk, hk]

theorem Wave.setLanes_frame (w : Wave) (r : Nat) (m : Word) (f : Nat → Word) : ∃ v, w.setLanes r m f = { w with v := v } := ⟨_, rfl⟩

theorem Wave.putElems_wide (w : Wave) {ty : Nat} (r : Nat) (m : Word) (f : Nat → Nat) (h : isWide ty = true) :
    w.putElems ty r m f =
      (w.setLanes r m fun i => BitVec.ofNat 32 (f i)).setLanes (r + 1) m fun i => BitVec.ofNat 32 (f i / 2 ^ 32) := by
  simp [Wave.putElems, h]

theorem Wave.putElems_narrow (w : Wave) {ty : Nat} (r : Nat) (m : Word) (f : Nat → Nat) (h : isWide ty = false) :
    w.putElems ty r m f = w.setLanes r m fun i => BitVec.ofNat 32 (extendElem ty (f i)) := by
  simp [Wave.putElems, h]

/-- Two halves of a number make its low 64 bits. -/
theorem toNat_append_halves (x : Nat) : (BitVec.ofNat 32 (x / 2 ^ 32) ++ BitVec.ofNat 32 x).toNat = x % 2 ^ 64 := by
  rw [BitVec.toNat_append, ← Nat.shiftLeft_add_eq_or_of_lt (BitVec.isLt _)]
  simp only [BitVec.toNat_ofNat, Nat.shiftLeft_eq]
  omega

/-- A signed reading keeps its pattern's residue. -/
theorem signedOf_emod (n x : Nat) : signedOf n x % ((2 ^ n : Nat) : Int) = ((x % 2 ^ n : Nat) : Int) := by
  have hx : ((x % 2 ^ n : Nat) : Int) % ((2 ^ n : Nat) : Int) = ((x % 2 ^ n : Nat) : Int) := by
    rw [← Int.natCast_mod, Nat.mod_mod]
  simp only [signedOf]
  split
  · exact hx
  · rw [Int.sub_emod_right, hx]

theorem wrapOf_cast (n : Nat) (x : Int) : (wrapOf n x : Int) = x % ((2 ^ n : Nat) : Int) :=
  Int.toNat_of_nonneg (Int.emod_nonneg _ (by positivity))

theorem wrapOf_lt (n : Nat) (x : Int) : wrapOf n x < 2 ^ n := by
  have h := Int.emod_lt_of_pos x (b := ((2 ^ n : Nat) : Int)) (by positivity)
  rw [← wrapOf_cast] at h
  exact_mod_cast h

/-- R257: the low bits of the lane that holds an element are the element's. -/
theorem extendElem_mod {ty : Nat} (x : Nat) (h : typeBits ty ≤ 32) :
    extendElem ty x % 2 ^ 32 % 2 ^ typeBits ty = x % 2 ^ typeBits ty := by
  have hd : (2 : Nat) ^ typeBits ty ∣ 2 ^ 32 := pow_dvd_pow 2 h
  rw [Nat.mod_mod_of_dvd _ hd]
  simp only [extendElem]
  split
  · have hz : ((wrapOf 32 (signedOf (typeBits ty) (x % 2 ^ typeBits ty)) % 2 ^ typeBits ty : Nat) : Int) = ((x % 2 ^ typeBits ty : Nat) : Int) := by
      rw [Int.natCast_mod, wrapOf_cast, Int.emod_emod_of_dvd _ (by exact_mod_cast hd), signedOf_emod, Nat.mod_mod]
    exact_mod_cast hz
  · exact Nat.mod_mod _ _

/-- Of the types that an instruction of R257 writes, those that take a pair have 64 bits, and the others at most 32. -/
theorem typeBits_of_isWide {ty : Nat} (h : isWide ty = true) : typeBits ty = 64 := by
  simp only [isWide, Bool.or_eq_true, beq_iff_eq] at h
  obtain rfl | rfl := h <;> rfl

theorem typeBits_le_of_not_isWide {ty : Nat} (h : isWide ty = false) : typeBits ty ≤ 32 := by
  obtain ⟨h6, h7⟩ : ty ≠ 6 ∧ ty ≠ 7 := by simpa [isWide] using h
  unfold typeBits typeBytes
  split <;> omega

theorem Wave.elem_putElems (w : Wave) {ty r l : Nat} (m : Word) (f : Nat → Nat) (hl : l < 32) (hr : r < 64) (hw : isWide ty = true → r + 1 < 64)
    (hm : m.getLsbD l = true) : (w.putElems ty r m f).elem ty r l = f l % 2 ^ typeBits ty := by
  cases h : isWide ty
  · simp only [Wave.putElems_narrow _ _ _ _ h, Wave.elem, h, Wave.lane_setLanes _ _ _ _ hr hl, hm, and_self, if_true, BitVec.toNat_ofNat,
      Bool.false_eq_true, if_false]
    exact extendElem_mod _ (typeBits_le_of_not_isWide h)
  · simp only [Wave.putElems_wide _ _ _ _ h, Wave.elem, h, Wave.pair64, Wave.lane_setLanes _ _ _ _ (hw h) hl, Wave.lane_setLanes _ _ _ _ hr hl, hm,
      and_true, if_true, typeBits_of_isWide h]
    rw [if_neg (by omega)]
    exact toNat_append_halves _

/-- R257: an element of at most 32 bits lies extended in its lane. -/
theorem Wave.lane_putElems (w : Wave) {ty r l : Nat} (m : Word) (f : Nat → Nat) (hl : l < 32) (hr : r < 64) (hb : typeBits ty ≤ 32)
    (hm : m.getLsbD l = true) : (w.putElems ty r m f).lane r l = BitVec.ofNat 32 (extendElem ty (f l)) := by
  have h : isWide ty = false := by
    by_contra h
    have := typeBits_of_isWide (by simpa using h)
    omega
  simp [Wave.putElems_narrow _ _ _ _ h, Wave.lane_setLanes _ _ _ _ hr hl, hm]

/-- R257: a lane that is not chosen keeps what it holds, in every register. -/
theorem Wave.lane_putElems_unchosen (w : Wave) {ty r l : Nat} (k : Nat) (m : Word) (f : Nat → Nat) (hl : l < 32) (hr : r < 64)
    (hw : isWide ty = true → r + 1 < 64) (hm : m.getLsbD l = false) : (w.putElems ty r m f).lane k l = w.lane k l := by
  cases h : isWide ty
  · simp [Wave.putElems_narrow _ _ _ _ h, Wave.lane_setLanes _ _ _ _ hr hl, hm]
  · simp [Wave.putElems_wide _ _ _ _ h, Wave.lane_setLanes _ _ _ _ (hw h) hl, Wave.lane_setLanes _ _ _ _ hr hl, hm]

theorem Wave.vreg_putElems_ne (w : Wave) {ty r k : Nat} (m : Word) (f : Nat → Nat) (hk : k ≠ r) (hp : k = r + 1 → ¬isWide ty) :
    (w.putElems ty r m f).vreg k = w.vreg k := by
  cases h : isWide ty
  · rw [Wave.putElems_narrow _ _ _ _ h, Wave.vreg_setLanes_ne _ _ _ hk]
  · rw [Wave.putElems_wide _ _ _ _ h, Wave.vreg_setLanes_ne _ _ _ fun e => hp e h, Wave.vreg_setLanes_ne _ _ _ hk]

theorem Wave.putElems_frame (w : Wave) (ty r : Nat) (m : Word) (f : Nat → Nat) : ∃ v, w.putElems ty r m f = { w with v := v } := by
  unfold Wave.putElems
  split <;> exact ⟨_, rfl⟩

/-! ### Integer results (R96, R258) -/

theorem typeBits_pos {ty : Nat} (h : ty ≤ 7) : 0 < typeBits ty := by
  revert h ty
  decide

theorem intVal_emod (ty x : Nat) : intVal ty x % ((2 ^ typeBits ty : Nat) : Int) = ((x % 2 ^ typeBits ty : Nat) : Int) := by
  unfold intVal
  split
  · exact signedOf_emod _ _
  · rw [← Int.natCast_mod, Nat.mod_mod]

/-- The bounds of a type are as far apart as its patterns are many. -/
theorem intMax_sub_intMin {ty : Nat} (h : ty ≤ 7) : intMax ty - intMin ty = ((2 ^ typeBits ty : Nat) : Int) - 1 := by
  have hp : (2 : Nat) ^ typeBits ty = 2 * 2 ^ (typeBits ty - 1) := by
    rw [← Nat.pow_succ', Nat.succ_eq_add_one, Nat.sub_add_cancel (typeBits_pos h)]
  unfold intMax intMin
  split
  · rw [hp]
    push_cast
    ring
  · ring

theorem intVal_bounds {ty : Nat} (h : ty ≤ 7) (x : Nat) : intMin ty ≤ intVal ty x ∧ intVal ty x ≤ intMax ty := by
  have hp : (2 : Nat) ^ typeBits ty = 2 * 2 ^ (typeBits ty - 1) := by
    rw [← Nat.pow_succ', Nat.succ_eq_add_one, Nat.sub_add_cancel (typeBits_pos h)]
  have hx : x % 2 ^ typeBits ty < 2 ^ typeBits ty := Nat.mod_lt _ (by positivity)
  unfold intVal intMin intMax signedOf
  split
  · simp only
    split <;> omega
  · omega

/-- R96: the pattern of an integer reads as the integer, modulo 2^N. -/
theorem intVal_wrapOf_emod (ty : Nat) (x : Int) :
    intVal ty (wrapOf (typeBits ty) x) % ((2 ^ typeBits ty : Nat) : Int) = x % ((2 ^ typeBits ty : Nat) : Int) := by
  rw [intVal_emod, Nat.mod_eq_of_lt (wrapOf_lt _ _), wrapOf_cast]

/-- An integer that the type has is read back as it is. -/
theorem intVal_wrapOf_of_mem {ty : Nat} (h : ty ≤ 7) {x : Int} (h1 : intMin ty ≤ x) (h2 : x ≤ intMax ty) :
    intVal ty (wrapOf (typeBits ty) x) = x := by
  obtain ⟨h3, h4⟩ := intVal_bounds h (wrapOf (typeBits ty) x)
  have hs := intMax_sub_intMin h
  refine Int.eq_of_sub_eq_zero (Int.eq_zero_of_abs_lt_dvd (m := ((2 ^ typeBits ty : Nat) : Int)) ?_ (abs_lt.2 ⟨by omega, by omega⟩))
  exact Int.dvd_of_emod_eq_zero (Int.emod_eq_emod_iff_emod_sub_eq_zero.1 (intVal_wrapOf_emod ty x))

theorem intMin_le_intMax {ty : Nat} (h : ty ≤ 7) : intMin ty ≤ intMax ty := (intVal_bounds h 0).1.trans (intVal_bounds h 0).2

/-- R16, R258: a saturated result reads as SAT of the exact one. -/
theorem intVal_intResult_sat {ty : Nat} (h : ty ≤ 7) (x : Int) : intVal ty (intResult ty true x) = max (intMin ty) (min x (intMax ty)) :=
  intVal_wrapOf_of_mem h (le_max_left _ _) (max_le (intMin_le_intMax h) (min_le_right _ _))

theorem isSigned_iff {ty : Nat} (h : ty ≤ 7) : isSigned ty = true ↔ ty % 2 = 0 := by simp [isSigned, isInt, h]

/-- Table 8.9: the bounds of a signed type. -/
theorem intBounds_signed {ty : Nat} (h : ty ≤ 7) (h2 : ty % 2 = 0) :
    intMin ty = -2 ^ (typeBits ty - 1) ∧ intMax ty = 2 ^ (typeBits ty - 1) - 1 := by
  simp [intMin, intMax, (isSigned_iff h).2 h2]

/-- Table 8.9: the bounds of an unsigned type. -/
theorem intBounds_unsigned {ty : Nat} (h : ty ≤ 7) (h2 : ty % 2 = 1) : intMin ty = 0 ∧ intMax ty = 2 ^ typeBits ty - 1 := by
  have : ¬isSigned ty = true := by
    rw [isSigned_iff h]
    omega
  simp [intMin, intMax, this]

/-! ### Integer scans (R279) -/

/-- What an adding scan gives a lane: the total before it and with it, from an accumulated one on. -/
theorem lookup_scanInt_add (ty : Nat) (g : Nat × Int × Int → Nat) (x : Nat → Int) (l : Nat) (p q : List Nat) (hp : l ∉ p) (acc : Int) :
    lookup ((scanInt 0 ty acc ((p ++ l :: q).map fun i => (i, x i))).map fun e => (e.1, g e)) l =
      some (g (l, acc + (p.map x).sum, acc + (p.map x).sum + x l)) := by
  induction p generalizing acc with
  | nil => simp [scanInt, lookup, reduceInt]
  | cons i p ih =>
    simp only [List.mem_cons, not_or] at hp
    simp only [List.cons_append, List.map_cons, scanInt, lookup, Ne.symm hp.1, if_false, reduceInt, ih hp.2, List.sum_cons]
    simp only [add_assoc]

/-- The chosen lanes, split at one of them. -/
theorem bitsOf_split {l : Nat} (m : Word) (hl : l < 32) (h : m.getLsbD l = true) :
    ∃ q, bitsOf m = ((List.range l).filter fun k => m.getLsbD k) ++ l :: q := by
  obtain ⟨n, hn⟩ : ∃ n, 32 = l + (n + 1) := ⟨31 - l, by omega⟩
  refine ⟨((List.range n).map fun i => l + (i + 1)).filter fun k => m.getLsbD k, ?_⟩
  have hr : List.range 32 = List.range l ++ l :: (List.range n).map fun i => l + (i + 1) := by
    rw [hn, List.range_add, List.range_succ_eq_map]
    simp [Function.comp_def]
  rw [bitsOf, hr, List.filter_append, List.filter_cons_of_pos h]

/-- The total of the ACTIVE elements below a lane (R279). -/
def Machine.Wave.activeTotal (w : Wave) (a n : Nat) : Int :=
  (((List.range n).filter fun k => w.active.getLsbD k).map fun k => intVal w.ty (w.elem w.ty a k)).sum

theorem Wave.activeTotal_succ (w : Wave) (a : Nat) {l : Nat} (h : w.active.getLsbD l = true) :
    w.activeTotal a (l + 1) = w.activeTotal a l + intVal w.ty (w.elem w.ty a l) := by
  simp [Machine.Wave.activeTotal, List.range_succ, h]

/-- R279: an integer VSCAN.add gives an ACTIVE lane the total up to it. -/
theorem Wave.lookup_scan_add (w : Wave) (excl : Bool) (a : BitVec 6) {l : Nat} (ht : w.ty ≤ 7) (hl : l < 32) (h : w.active.getLsbD l = true) :
    lookup (w.scan 0 excl a) l = some (intResult w.ty w.sat (w.activeTotal a.toNat (if excl then l else l + 1))) := by
  obtain ⟨q, hq⟩ := bitsOf_split w.active hl h
  have hi : isInt w.ty = true := by simp [isInt, ht]
  have hn : l ∉ (List.range l).filter fun k => w.active.getLsbD k := by simp
  have e := lookup_scanInt_add w.ty (fun e => w.totalElem 0 (if excl then e.2.1 else e.2.2)) (fun k => intVal w.ty (w.elem w.ty a.toNat k)) l _ q hn 0
  simp only [Wave.scan, hi, if_true, hq, identityInt, e]
  cases excl
  · rw [if_neg Bool.false_ne_true, if_neg Bool.false_ne_true, Wave.activeTotal_succ _ _ h]
    simp [Wave.totalElem, Machine.Wave.activeTotal]
  · simp [Wave.totalElem, Machine.Wave.activeTotal]

/-! ### RNE32 (R16) -/

/-- The rational number that a finite value stands for. -/
def finVal (neg : Bool) (m : Nat) (e : Int) : ℚ := (if neg then -1 else 1) * (m : ℚ) * (2 : ℚ) ^ e

/-- `n` is the integer nearest to `z`, and even where two are equally near. -/
def IsNearestEven (n : Nat) (z : ℚ) : Prop := |(n : ℚ) - z| * 2 ≤ 1 ∧ (|(n : ℚ) - z| * 2 = 1 → n % 2 = 0)

/-- No integer is nearer, and of two that are equally near the even one was taken. -/
theorem IsNearestEven.le {n : Nat} {z : ℚ} (h : IsNearestEven n z) (k : Int) :
    |(n : ℚ) - z| ≤ |(k : ℚ) - z| ∧ (|(n : ℚ) - z| = |(k : ℚ) - z| → (k : ℚ) ≠ n → n % 2 = 0) := by
  obtain ⟨hle, heven⟩ := h
  by_cases hk : k = (n : Int)
  · subst hk
    exact ⟨le_of_eq (by simp), fun _ hne => absurd (by simp) hne⟩
  · have h1 : (1 : ℚ) ≤ |(k : ℚ) - n| := by
      have : (1 : Int) ≤ |k - n| := Int.one_le_abs (sub_ne_zero.2 hk)
      exact_mod_cast this
    have h2 : |(k : ℚ) - n| ≤ |(k : ℚ) - z| + |(n : ℚ) - z| := by
      rw [abs_sub_comm (n : ℚ) z]
      exact abs_sub_le _ _ _
    exact ⟨by linarith, fun he _ => heven (by linarith)⟩

theorem IsNearestEven.le_of_le {n N : Nat} {z : ℚ} (h : IsNearestEven n z) (hz : z ≤ N) : n ≤ N := by
  have h1 := (h.le N).1
  by_contra hlt
  have h2 : (N : ℚ) < n := by exact_mod_cast not_le.1 hlt
  rw [abs_of_nonneg (by linarith), Int.cast_natCast, abs_of_nonneg (by linarith)] at h1
  linarith

theorem IsNearestEven.ge_of_ge {n N : Nat} {z : ℚ} (h : IsNearestEven n z) (hz : (N : ℚ) ≤ z) : N ≤ n := by
  have h1 := (h.le N).1
  by_contra hlt
  have h2 : (n : ℚ) < N := by exact_mod_cast not_le.1 hlt
  rw [abs_of_nonpos (by linarith), Int.cast_natCast, abs_of_nonpos (by linarith)] at h1
  linarith

theorem isNearestEven_cast (n : Nat) : IsNearestEven n (n : ℚ) := by simp [IsNearestEven]

/-- The nearest integer to a quotient, by whole numbers alone. -/
theorem isNearestEven_div {n m p : Nat} (hp : 0 < p) (h : 2 * |(n : Int) * p - m| ≤ p) (he : 2 * |(n : Int) * p - m| = p → n % 2 = 0) :
    IsNearestEven n ((m : ℚ) / p) := by
  have hq : (0 : ℚ) < p := by exact_mod_cast hp
  have e : |(n : ℚ) - m / p| * 2 = ((2 * |(n : Int) * p - m| : Int) : ℚ) / p := by
    have : (n : ℚ) - m / p = ((n : ℚ) * p - m) / p := by field_simp
    rw [this, abs_div, abs_of_pos hq]
    push_cast
    ring
  refine ⟨?_, fun h1 => he ?_⟩
  · rw [e, div_le_one hq]
    exact_mod_cast h
  · rw [e, div_eq_one_iff_eq hq.ne'] at h1
    exact_mod_cast h1

/-- Table 3.5: `roundShift` under rne takes the nearest integer. -/
theorem isNearestEven_roundShift (neg : Bool) (m sh : Nat) : IsNearestEven (roundShift 0 neg m sh) ((m : ℚ) / (2 ^ sh : Nat)) := by
  unfold roundShift
  split
  · subst_vars
    simpa using isNearestEven_cast m
  · have hp : 0 < 2 ^ sh := by positivity
    have hm := Nat.div_add_mod m (2 ^ sh)
    have hr := Nat.mod_lt m hp
    rw [Nat.shiftRight_eq_div_pow]
    generalize 2 ^ sh = p at *
    generalize m / p = q at *
    generalize m % p = r at *
    subst hm
    have e0 : (q : Int) * p - ((p * q + r : Nat) : Int) = -r := by
      push_cast
      ring
    have e1 : ((q + 1 : Nat) : Int) * p - ((p * q + r : Nat) : Int) = p - r := by
      push_cast
      ring
    simp only [Bool.or_eq_true, Bool.and_eq_true, decide_eq_true_eq, beq_iff_eq]
    split
    · have ha : |(p : Int) - r| = p - r := abs_of_nonneg (by omega)
      refine isNearestEven_div (n := q + 1) hp ?_ fun he => ?_
      · rw [e1, ha]
        omega
      · rw [e1, ha] at he
        omega
    · refine isNearestEven_div (n := q) hp ?_ fun he => ?_
      · rw [e0, abs_neg, Nat.abs_cast]
        omega
      · rw [e0, abs_neg, Nat.abs_cast] at he
        omega

theorem lt_two_pow_bitLen (m : Nat) : m < 2 ^ bitLen m := by
  unfold bitLen
  split
  · subst_vars
    decide
  · exact Nat.lt_log2_self

theorem two_pow_le_of_bitLen {m : Nat} (h : m ≠ 0) : 2 ^ (bitLen m - 1) ≤ m := by
  simp only [bitLen, h, if_false, Nat.add_sub_cancel]
  exact Nat.log2_self_le h

/-- The exponent to which `magBits` rounds. -/
def Machine.FFmt.quantum (f : FFmt) (m : Nat) (e : Int) : Int := max (e + (bitLen m : Int) - (f.mbits + 1 : Nat)) f.qmin

/-- The magnitude bits under rne are the steps above the least exponent and the nearest multiple of the step. -/
theorem magBits_eq (f : FFmt) (neg : Bool) (m : Nat) (e : Int) :
    ∃ big, magBits f 0 neg m e = (f.quantum m e - f.qmin).toNat * 2 ^ f.mbits + big ∧ IsNearestEven big ((m : ℚ) * 2 ^ (e - f.quantum m e)) := by
  refine ⟨_, rfl, ?_⟩
  rw [← Machine.FFmt.quantum]
  generalize f.quantum m e = q
  split
  · obtain ⟨k, hk⟩ := Int.eq_ofNat_of_zero_le (show 0 ≤ e - q by omega)
    have : ((m : ℚ) * 2 ^ (e - q)) = ((m <<< (e - q).toNat : Nat) : ℚ) := by
      simp [hk, Nat.shiftLeft_eq]
    rw [this]
    exact isNearestEven_cast _
  · obtain ⟨k, hk⟩ := Int.eq_ofNat_of_zero_le (show 0 ≤ q - e by omega)
    have hz : ((m : ℚ) * 2 ^ (e - q)) = (m : ℚ) / (2 ^ k : Nat) := by
      rw [show e - q = -(k : Int) by omega, zpow_neg, zpow_natCast, div_eq_mul_inv]
      push_cast
      rfl
    simp only [hz, hk, Int.toNat_natCast]
    split
    · have hm : 2 * m < 2 ^ k := by
        have h1 := lt_two_pow_bitLen m
        have h2 : 2 ^ (bitLen m + 1) ≤ 2 ^ k := Nat.pow_le_pow_right (by decide) (by omega)
        rw [pow_succ] at h2
        omega
      have h0 : roundShift 0 neg 1 2 = 0 := rfl
      rw [h0]
      refine isNearestEven_div (by positivity) ?_ fun _ => rfl
      rw [Nat.cast_zero, zero_mul, zero_sub, abs_neg, Nat.abs_cast]
      exact_mod_cast hm.le
    · exact isNearestEven_roundShift _ _ _

/-- What is rounded lies within the format's precision, and above the least step it has all of it. -/
theorem quantum_range (f : FFmt) {m : Nat} (e : Int) (hm : m ≠ 0) :
    (m : ℚ) * 2 ^ (e - f.quantum m e) ≤ (2 ^ (f.mbits + 1) : Nat) ∧
    (f.qmin < f.quantum m e → ((2 ^ f.mbits : Nat) : ℚ) ≤ (m : ℚ) * 2 ^ (e - f.quantum m e)) := by
  have hb : 1 ≤ bitLen m := by simp [bitLen, hm]
  have key : ∀ a : Int, ((2 : ℚ) ^ a) * 2 ^ (e - f.quantum m e) = 2 ^ (a + (e - f.quantum m e)) := fun a => (zpow_add₀ two_ne_zero _ _).symm
  have hpos : (0 : ℚ) < 2 ^ (e - f.quantum m e) := by positivity
  constructor
  · have h1 : (m : ℚ) ≤ 2 ^ (bitLen m : Int) := by exact_mod_cast (lt_two_pow_bitLen m).le
    calc (m : ℚ) * 2 ^ (e - f.quantum m e) ≤ 2 ^ (bitLen m : Int) * 2 ^ (e - f.quantum m e) := by gcongr
      _ = 2 ^ ((bitLen m : Int) + (e - f.quantum m e)) := key _
      _ ≤ 2 ^ ((f.mbits + 1 : Nat) : Int) := zpow_le_zpow_right₀ (by norm_num) (by unfold Machine.FFmt.quantum; omega)
      _ = (2 ^ (f.mbits + 1) : Nat) := by rw [zpow_natCast]; push_cast; rfl
  · intro hq
    have h1 : (2 : ℚ) ^ ((bitLen m - 1 : Nat) : Int) ≤ m := by exact_mod_cast two_pow_le_of_bitLen hm
    calc ((2 ^ f.mbits : Nat) : ℚ) = 2 ^ (f.mbits : Int) := by rw [zpow_natCast]; push_cast; rfl
      _ = 2 ^ (((bitLen m - 1 : Nat) : Int) + (e - f.quantum m e)) := by
        congr 1
        unfold Machine.FFmt.quantum at hq ⊢
        omega
      _ = 2 ^ ((bitLen m - 1 : Nat) : Int) * 2 ^ (e - f.quantum m e) := (key _).symm
      _ ≤ (m : ℚ) * 2 ^ (e - f.quantum m e) := by gcongr

/-- The sign bit of an FP32 pattern. -/
def signWeight32 (neg : Bool) : Nat := 2 ^ 31 * neg.toNat

theorem signBit32_eq (neg : Bool) : (if neg = true then 2 ^ 31 else 0 : Nat) = signWeight32 neg := by cases neg <;> rfl

/-- Table 3.4: the numbers of FP32. -/
theorem fF32_numbers : fF32.mbits = 23 ∧ fF32.ebits = 8 ∧ fF32.qmin = -149 ∧ fF32.signBit = 2 ^ 31 ∧ fF32.infBits = 255 * 2 ^ 23 := by decide

theorem val32_infinity (neg : Bool) : val32 (signWeight32 neg + 255 * 2 ^ 23) = .inf neg := by
  cases neg <;> decide

/-- RNE32 of a finite value overflows, or is a sign and the nearest multiple of a step that FP32 has there. -/
theorem rne32_cases (neg : Bool) (m : Nat) (e : Int) :
    val32 (rne32 (.fin neg m e)) = .inf neg ∨
    ∃ (k big : Nat) (z : ℚ), rne32 (.fin neg m e) = signWeight32 neg + (k * 2 ^ 23 + big) ∧ k * 2 ^ 23 + big < 255 * 2 ^ 23 ∧
      IsNearestEven big z ∧ z ≤ (2 ^ 24 : Nat) ∧ (0 < k → ((2 ^ 23 : Nat) : ℚ) ≤ z) ∧ (m : ℚ) * 2 ^ e = z * 2 ^ ((k : Int) - 149) := by
  obtain ⟨hmb, -, hqm, hsg, hinf⟩ := fF32_numbers
  by_cases hm : m = 0
  · refine .inr ⟨0, 0, 0, ?_, by norm_num, isNearestEven_cast 0, by norm_num, by simp, by simp [hm]⟩
    simp only [rne32, resultF, hm, if_true, hsg, signBit32_eq, Nat.zero_mul, Nat.add_zero]
  · obtain ⟨big, hb, hn⟩ := magBits_eq fF32 neg m e
    obtain ⟨h1, h2⟩ := quantum_range fF32 e hm
    have hq : fF32.qmin ≤ fF32.quantum m e := le_max_right _ _
    rw [hmb] at hb h1 h2
    simp only [rne32, resultF, hm, if_false, ge_iff_le, hinf, hsg, signBit32_eq, Bool.false_and, Bool.false_eq_true]
    by_cases ho : 255 * 2 ^ 23 ≤ magBits fF32 0 neg m e
    · left
      rw [if_pos ho, show overflowBits fF32 0 false neg = 255 * 2 ^ 23 by simp [overflowBits, hinf]]
      exact val32_infinity neg
    · rw [if_neg ho, hb]
      refine .inr ⟨(fF32.quantum m e - fF32.qmin).toNat, big, _, rfl, ?_, hn, h1, fun hk => h2 (by omega), ?_⟩
      · rw [hb] at ho
        exact not_le.1 ho
      · rw [mul_assoc, ← zpow_add₀ two_ne_zero]
        congr 2
        omega

/-- The value of an FP32 pattern that is a sign, `k` steps and a multiple. -/
theorem val32_steps (neg : Bool) {k big : Nat} (h : k * 2 ^ 23 + big < 255 * 2 ^ 23) (hb : big ≤ 2 ^ 24) (hk : 0 < k → 2 ^ 23 ≤ big) :
    ∃ (m : Nat) (e : Int), val32 (signWeight32 neg + (k * 2 ^ 23 + big)) = .fin neg m e ∧ (m : ℚ) * 2 ^ e = big * 2 ^ ((k : Int) - 149) := by
  have hc : neg.toNat ≤ 1 := neg.toNat_le
  have hs : (signWeight32 neg + (k * 2 ^ 23 + big)) / 2 ^ 31 % 2 = neg.toNat := by
    unfold signWeight32
    omega
  have hsign : (neg.toNat == 1) = neg := by cases neg <;> rfl
  have hf : (signWeight32 neg + (k * 2 ^ 23 + big)) % 2 ^ 23 = big % 2 ^ 23 := by
    unfold signWeight32
    omega
  have he : (signWeight32 neg + (k * 2 ^ 23 + big)) / 2 ^ 23 % 2 ^ 8 = k + big / 2 ^ 23 := by
    unfold signWeight32
    omega
  obtain ⟨hmb, heb, hqm, hsg, -⟩ := fF32_numbers
  simp only [val32, decodeF, bitsAt, Nat.shiftRight_eq_div_pow, hmb, heb, hqm, hsg, hs, hf, he, hsign]
  rw [if_neg (by omega)]
  split
  · refine ⟨_, _, rfl, ?_⟩
    rw [Nat.mod_eq_of_lt (by omega), show k = 0 by omega]
    norm_num
  · refine ⟨_, _, rfl, ?_⟩
    by_cases ht : big = 2 ^ 24
    · subst ht
      have : (-149 + ((k + 2 ^ 24 / 2 ^ 23 : Nat) : Int) - 1) = ((k : Int) - 149) + 1 := by push_cast; omega
      rw [this, zpow_add₀ two_ne_zero]
      norm_num
      ring
    · have hm : 2 ^ 23 + big % 2 ^ 23 = big := by omega
      have : (-149 + ((k + big / 2 ^ 23 : Nat) : Int) - 1) = (k : Int) - 149 := by omega
      rw [this, hm]

/-- A finite FP32 value has 24 bits at most, at an exponent that is not below the least. -/
theorem val32_bounds {x : Nat} {neg : Bool} {m : Nat} {e : Int} (h : val32 x = .fin neg m e) : m < 2 ^ 24 ∧ -149 ≤ e := by
  obtain ⟨hmb, -, hqm, -, -⟩ := fF32_numbers
  simp only [val32, decodeF, hmb, hqm] at h
  split at h
  · split at h <;> cases h
  · split at h <;> cases h <;> omega

/-- A finite value as a sign and a magnitude at an exponent. -/
theorem finVal_scaled {neg : Bool} {m : Nat} {e q : Int} {z : ℚ} (h : (m : ℚ) * 2 ^ e = z * 2 ^ q) :
    finVal neg m e = (if neg then -1 else 1) * z * 2 ^ q := by
  rw [finVal, mul_assoc, h, mul_assoc]

theorem abs_sign (neg : Bool) : |(if neg then -1 else 1 : ℚ)| = 1 := by cases neg <;> simp

theorem sign_mul_sign (neg : Bool) : (if neg then -1 else 1 : ℚ) * (if neg then -1 else 1) = 1 := by cases neg <;> simp

/-- The distance of a value from another of known sign, in steps. -/
theorem abs_sub_scaled (neg : Bool) (y z : ℚ) (q : Int) :
    |y * 2 ^ q - (if neg then -1 else 1) * z * 2 ^ q| = |(if neg then -1 else 1) * y - z| * 2 ^ q := by
  have h : y * 2 ^ q - (if neg then -1 else 1) * z * 2 ^ q = (if neg then -1 else 1) * ((if neg then -1 else 1) * y - z) * 2 ^ q := by
    cases neg <;> simp <;> ring
  rw [h, abs_mul, abs_mul, abs_sign, one_mul, abs_of_pos (show (0 : ℚ) < 2 ^ q by positivity)]

/-- A finite FP32 value is a multiple of a step, or nearer to zero than any that has all its bits at that step. -/
theorem finVal_multiple_or_small (neg : Bool) {m : Nat} {e : Int} (q : Int) (hm : m < 2 ^ 24) :
    (∃ k : Int, finVal neg m e = k * 2 ^ q) ∨ (e < q ∧ |finVal neg m e| < (2 ^ 23 : Nat) * 2 ^ q) := by
  by_cases h : q ≤ e
  · left
    obtain ⟨n, hn⟩ := Int.eq_ofNat_of_zero_le (show 0 ≤ e - q by omega)
    refine ⟨(if neg then -1 else 1) * (m * 2 ^ n), ?_⟩
    rw [finVal, show e = (n : Int) + q by omega, zpow_add₀ two_ne_zero, zpow_natCast]
    cases neg <;> push_cast <;> simp <;> ring
  · right
    refine ⟨by omega, ?_⟩
    have h1 : (m : ℚ) < 2 ^ 24 := by exact_mod_cast hm
    have h2 : (2 : ℚ) ^ e ≤ 2 ^ (q - 1) := zpow_le_zpow_right₀ (by norm_num) (by omega)
    rw [finVal, abs_mul, abs_mul, abs_sign, one_mul, Nat.abs_cast, abs_of_pos (show (0 : ℚ) < 2 ^ e by positivity)]
    calc (m : ℚ) * 2 ^ e < 2 ^ 24 * 2 ^ e := by gcongr
      _ ≤ 2 ^ 24 * 2 ^ (q - 1) := by gcongr
      _ = (2 ^ 23 : Nat) * 2 ^ q := by
        rw [zpow_sub₀ two_ne_zero]
        norm_num
        ring

/-- A value nearer to zero than a multiple that the exact one is not below is farther from it than the nearest multiple. -/
theorem IsNearestEven.lt_of_small {n N : Nat} {x y z u : ℚ} (h : IsNearestEven n z) (hz : (N : ℚ) ≤ z) (hu : 0 < u) (hx : |x| = z * u)
    (hy : |y| < N * u) : |(n : ℚ) - z| * u < |y - x| := by
  have h1 : |(n : ℚ) - z| ≤ z - N := by
    have h1 := (h.le N).1
    rwa [Int.cast_natCast, abs_sub_comm (N : ℚ), abs_of_nonneg (sub_nonneg.2 hz)] at h1
  calc |(n : ℚ) - z| * u ≤ (z - N) * u := by gcongr
    _ = |x| - N * u := by rw [hx, sub_mul]
    _ < |x| - |y| := by linarith
    _ ≤ |x - y| := abs_sub_abs_le_abs_sub _ _
    _ = |y - x| := abs_sub_comm _ _

/-- R16: of the finite values of FP32 none is nearer to the exact one than RNE32's, and of two that are equally near it is the one whose last bit is 0. -/
theorem rne32_nearest {neg : Bool} {m : Nat} {e : Int} {rn : Bool} {rm : Nat} {re : Int} (hr : val32 (rne32 (.fin neg m e)) = .fin rn rm re)
    {y : Nat} {yn : Bool} {ym : Nat} {ye : Int} (hy : val32 y = .fin yn ym ye) :
    |finVal rn rm re - finVal neg m e| ≤ |finVal yn ym ye - finVal neg m e| ∧
    (|finVal rn rm re - finVal neg m e| = |finVal yn ym ye - finVal neg m e| → finVal yn ym ye ≠ finVal rn rm re → rne32 (.fin neg m e) % 2 = 0) := by
  obtain hi | ⟨k, big, z, hx, hlt, hn, hz, hk, hv⟩ := rne32_cases neg m e
  · rw [hi] at hr
    cases hr
  obtain ⟨m', e', hd, hv'⟩ := val32_steps neg hlt (hn.le_of_le hz) fun h => hn.ge_of_ge (hk h)
  obtain ⟨rfl, rfl, rfl⟩ : neg = rn ∧ m' = rm ∧ e' = re := by
    rw [hx, hd] at hr
    cases hr
    exact ⟨rfl, rfl, rfl⟩
  obtain ⟨hym, hye⟩ := val32_bounds hy
  have heven : big % 2 = 0 → rne32 (.fin neg m e) % 2 = 0 := by
    rw [hx, signWeight32]
    omega
  have hpos : (0 : ℚ) < 2 ^ ((k : Int) - 149) := by positivity
  have hnear : |finVal neg m' e' - finVal neg m e| = |(big : ℚ) - z| * 2 ^ ((k : Int) - 149) := by
    rw [finVal_scaled hv, finVal_scaled hv', abs_sub_scaled, ← mul_assoc, sign_mul_sign, one_mul]
  rw [hnear]
  obtain ⟨j, hj⟩ | ⟨hlow, hsmall⟩ := finVal_multiple_or_small yn ((k : Int) - 149) hym (e := ye)
  · obtain ⟨hle, htie⟩ := hn.le ((if neg then -1 else 1) * j)
    have hc : (((if neg then -1 else 1) * j : Int) : ℚ) = (if neg then -1 else 1) * (j : ℚ) := by cases neg <;> simp
    rw [hc] at hle htie
    rw [hj, finVal_scaled hv, abs_sub_scaled]
    refine ⟨by gcongr, fun he hne => heven (htie (mul_right_cancel₀ hpos.ne' he) fun h => hne ?_)⟩
    rw [finVal_scaled hv', ← h, ← mul_assoc, sign_mul_sign, one_mul]
  · have h23 : ((2 ^ 23 : Nat) : ℚ) ≤ z := hk (by omega)
    have hval : |finVal neg m e| = z * 2 ^ ((k : Int) - 149) := by
      rw [finVal_scaled hv, abs_mul, abs_mul, abs_sign, one_mul, abs_of_pos hpos, abs_of_nonneg (le_trans (by positivity) h23)]
    have hfar := hn.lt_of_small h23 hpos hval hsmall
    exact ⟨hfar.le, fun he => absurd he hfar.ne⟩

/-- Settles O8: each part by the law of its operation. -/
theorem elementsAndScans : Obligations.ElementsAndScans := by
  unfold Obligations.ElementsAndScans
  refine ⟨fun w ty r k l m f _ hl hr hw => ?_, fun ty x ht => ?_, fun neg m e rn rm re hr y yn ym ye hy => rne32_nearest hr hy,
    fun w a l ht hl h => ⟨Wave.lookup_scan_add w false a ht hl h, Wave.lookup_scan_add w true a ht hl h⟩⟩
  · exact ⟨Wave.elem_putElems w m f hl hr hw, fun hm hb => Wave.lane_putElems w m f hl hr hb hm,
      fun hm => ⟨Wave.lane_putElems_unchosen w r m f hl hr hw hm, Wave.lane_putElems_unchosen w (r + 1) m f hl hr hw hm⟩,
      Wave.vreg_putElems_ne w m f, Wave.putElems_frame w ty r m f⟩
  · have hsat := intVal_intResult_sat ht x
    have hle := intMin_le_intMax ht
    refine ⟨Int.emod_eq_emod_iff_emod_sub_eq_zero.1 (intVal_wrapOf_emod ty x), fun h1 h2 => ?_, fun h1 => ?_, fun h1 => ?_, intBounds_signed ht,
      intBounds_unsigned ht⟩ <;> omega

end Sys2Proof

/-! SUPPORT. Registers, resets and the loss of a die (R12, R13, R388, R404-R415): what each leaves of the state, and the statement about them. -/
namespace Sys2Proof
open Machine

/-! ### Registers of BAR0 -/

theorem bitsAt_eq (x lo n : Nat) : bitsAt x lo n = x / 2 ^ lo % 2 ^ n := by rw [bitsAt, Nat.shiftRight_eq_div_pow]

/-- R12: a write to an offset that is not listed, or whose register is read-only, changes nothing. -/
theorem writeRegister_unlisted (s : State) {off : Nat} (v : DWord)
    (h : off ∉ [0x008, 0x100, 0x108, 0x110, 0x118, 0x120, 0x128, 0x200, 0x208, 0x210, 0x300, 0x400, 0x408, 0x410, 0x418, 0x420, 0x428]) :
    writeRegister s off v = s := by
  unfold writeRegister
  split
  case h_18 => rfl
  all_goals exact absurd (by decide) h

/-- R12: an offset that is not listed reads 0. -/
theorem readRegister_unlisted (s : State) {off : Nat}
    (h : off ∉ [0x000, 0x008, 0x010, 0x018, 0x020, 0x100, 0x108, 0x110, 0x118, 0x120, 0x128, 0x200, 0x208, 0x210, 0x218, 0x300, 0x400, 0x408, 0x410,
      0x418, 0x420, 0x428, 0x430]) : readRegister s off = 0#64 := by
  unfold readRegister
  split
  case h_24 => rfl
  all_goals exact absurd (by decide) h

/-- Noting the throttle levels changes the dies' records alone (R200). -/
theorem noteThrottle_frame (s : State) : ∃ d, noteThrottle s = { s with dies := d } := ⟨_, rfl⟩

/-- Table 15.1: the droop threshold as it reads. -/
theorem droopThr_eq (s : State) (die : Nat) :
    droopThr s die = max 1 (min ((if die = 0 then s.bar.droopcfg0 else s.bar.droopcfg1).toNat % 64) 24) := by
  simp only [droopThr, bitsAt_eq, pow_zero, Nat.div_one, show (2 : Nat) ^ 6 = 64 from rfl]
  generalize BitVec.toNat _ % 64 = t
  split <;> omega

theorem plimit_eq (s : State) : plimit s = min (s.bar.pwrcfg.toNat % 4096) 3000 := by simp [plimit, bitsAt_eq]
theorem guardBand_eq (s : State) : guardBand s = s.bar.pwrcfg.toNat / 4096 % 256 := by simp [guardBand, bitsAt_eq]
theorem thot_eq (s : State) : thot s = s.bar.thermcfg.toNat % 256 := by simp [thot, bitsAt_eq]
theorem temerg_eq (s : State) : temerg s = min (s.bar.thermcfg.toNat / 256 % 256) 104 := by simp [temerg, bitsAt_eq]

/-- R13, R404, R405, Table 16.1: a listed register keeps of a write what it may change. -/
theorem registerWrite_stores (s : State) (v : DWord) :
    let set := fun (off : Nat) (b : Bar0) => exec (.registerWrite off v) s = .next { s with bar := b }
    set 0x008 { s.bar with nodeidNext := v &&& 0xFFF#64 } ∧ set 0x100 { s.bar with fqbase := v &&& 0xFFFFFFFFFF000#64 } ∧
    set 0x110 { s.bar with eqbase := v &&& 0xFFFFFFFFFF000#64 } ∧ set 0x118 { s.bar with eqcfg := v &&& 0x11F#64 } ∧
    set 0x200 { s.bar with mqbase := v &&& 0xFFFFFFFFFF000#64 } ∧ set 0x208 { s.bar with mqcfg := v &&& 0x11F#64 } ∧
    set 0x210 { s.bar with mqtail := v.setWidth 32 } ∧ set 0x400 { s.bar with pwrcfg := v &&& 0xFFFFF#64 } ∧
    set 0x408 { s.bar with thermcfg := v &&& 0xFFFF#64 } ∧ set 0x418 { s.bar with droopcfg0 := v &&& 0x3F#64 } ∧
    set 0x420 { s.bar with droopcfg1 := v &&& 0x3F#64 } ∧ set 0x428 { s.bar with wdstat := s.bar.wdstat &&& ~~~(v &&& 1#64) } := by
  have ht : v.extractLsb' 0 32 = v.setWidth 32 := by
    ext i hi
    simp
  refine ⟨rfl, rfl, rfl, rfl, rfl, rfl, ?_, rfl, rfl, rfl, rfl, rfl⟩
  rw [← ht]
  rfl

/-! ### FRTBASE (R406) -/

theorem lookup_erase_self {α : Type} (m : AMap α) (k : Nat) : lookup (erase m k) k = none := by
  induction m with
  | nil => rfl
  | cons e t ih =>
    obtain ⟨j, a⟩ := e
    by_cases h : j = k
    · simpa [erase, h] using ih
    · simpa [erase, h, lookup] using ih

theorem dieOf_setDie_ne (s : State) {d e : Nat} (x : Die) (h : e ≠ d) : dieOf (setDie s d x) e = dieOf s e := by
  simp [dieOf, setDie, lookup_put_ne _ _ h]

/-- A future table that moves is empty where it comes to lie, and no slot of it is granted. -/
theorem moveFrt_tables (s : State) {d : Nat} (hd : d < 2) :
    (dieOf (moveFrt s d) d).frt = [] ∧ ∀ e, e < 2 → lookup (dieOf (moveFrt s d) e).pools d = none := by
  have h01 : ∀ (t : State) (x : Die), dieOf (setDie t 1 x) 0 = dieOf t 0 := fun t x => dieOf_setDie_ne t x (by decide)
  have h10 : ∀ (t : State) (x : Die), dieOf (setDie t 0 x) 1 = dieOf t 1 := fun t x => dieOf_setDie_ne t x (by decide)
  simp only [moveFrt, List.foldl_cons, List.foldl_nil]
  constructor
  · obtain rfl | rfl : d = 0 ∨ d = 1 := by omega
    all_goals simp [h01, h10]
  · intro e he
    obtain rfl | rfl : e = 0 ∨ e = 1 := by omega
    all_goals simp [h01, h10, lookup_erase_self]

theorem moveFrt_frame (s : State) (d : Nat) : ∃ x, moveFrt s d = { s with dies := x } := ⟨_, rfl⟩

/-- R406: while a context is loaded, or with a BASE past the die's memory, FRTBASE keeps its value. -/
theorem writeFrtbase_refused (s : State) (die : Nat) {v : DWord} (h : s.contexts ≠ [] ∨ 1536 ≤ v.toNat / 2 ^ 27 % 2048) :
    writeFrtbase s die v = s := by
  unfold writeFrtbase
  rw [if_pos]
  simpa [bitsAt_eq] using h

theorem writeFrtbase_taken (s : State) (die : Nat) {v : DWord} (hc : s.contexts = []) (hv : v.toNat / 2 ^ 27 % 2048 < 1536) :
    writeFrtbase s die v =
      if die = 0 then { moveFrt s die with bar := { s.bar with frtbase0 := v &&& 0x3FF8000001#64 } }
      else { moveFrt s die with bar := { s.bar with frtbase1 := v &&& 0x3FF8000001#64 } } := by
  unfold writeFrtbase
  rw [if_neg]
  · rfl
  · simpa [hc, bitsAt_eq] using hv

/-- R406: with no context loaded, a BASE in the die's memory is taken, and the future table lies there. -/
theorem frtbaseWrite_taken (s : State) {die : Nat} {v : DWord} (hd : die < 2) (hc : s.contexts = []) (hv : v.toNat / 2 ^ 27 % 2048 < 1536) :
    Completes (.frtbaseWrite die v) s fun t =>
      t.bar = (if die = 0 then { s.bar with frtbase0 := v &&& 0x3FF8000001#64 } else { s.bar with frtbase1 := v &&& 0x3FF8000001#64 }) ∧
      (dieOf t die).frt = [] ∧ (∀ e, e < 2 → lookup (dieOf t e).pools die = none) ∧ SameMemory s t ∧ t.waves = s.waves := by
  obtain ⟨hfrt, hpools⟩ := moveFrt_tables s hd
  refine ⟨_, congrArg Host.Outcome.next ((if_pos hd).trans (writeFrtbase_taken s die hc hv)), ?_⟩
  split <;> exact ⟨rfl, hfrt, hpools, fun _ => rfl, rfl⟩

theorem frtbaseWrite_refused (s : State) {die : Nat} {v : DWord} (hd : die < 2) (h : s.contexts ≠ [] ∨ 1536 ≤ v.toNat / 2 ^ 27 % 2048) :
    exec (.frtbaseWrite die v) s = .next s :=
  congrArg Host.Outcome.next ((if_pos hd).trans (writeFrtbase_refused s die h))

/-! ### Resets (R410-R415) -/

theorem cellGet_filter_key (q : Nat → Bool) (m : List Host.Cell) (k : Nat) :
    cellGet (m.filter fun c => q c.1) k = if q k = true then cellGet m k else none := by
  induction m with
  | nil => simp [cellGet]
  | cons e t ih =>
    obtain ⟨j, b⟩ := e
    by_cases hq : q j = true
    · by_cases hj : j = k
      · subst hj
        simp [cellGet, hq]
      · simp [cellGet, hq, hj, ih]
    · by_cases hj : j = k
      · subst hj
        simp [hq, ih]
      · simp [cellGet, hq, hj, ih]

theorem physByte_eq_getD (s : State) (k : Nat) : physByte s k = (cellGet s.l2 k).getD ((cellGet s.mem k).getD 0#8) := by
  unfold physByte
  cases cellGet s.l2 k <;> rfl

/-- R410-R413: what the ROM leaves of the security state, and whether RECOVERY is set. -/
theorem boot_result (s : State) (x : Security) (h0 h1 : BitVec 36) (dv : DWord) (lc : BitVec 3) :
    let ok := imageOk s (reeveImage x) && imageOk s (pwcImage x)
    let r := boot s x h0 h1 dv lc
    r.2 = !ok ∧ r.1.session = none ∧ r.1.staged = [] ∧ r.1.reeve = x.reeve ∧ r.1.pwc = x.pwc ∧ r.1.measurements.length = 5 ∧
    r.1.measurements.getD 1 0#512 = measure 0#512 (reeveImage x) ∧ r.1.measurements.getD 2 0#512 = measure 0#512 (pwcImage x) ∧
    r.1.keys = [(0, 2 * x.nextKey)] ∧ s.sec.rollback ≤ r.1.rollback ∧ (ok = false → r.1.rollback = s.sec.rollback) := by
  refine ⟨rfl, rfl, rfl, rfl, rfl, rfl, rfl, rfl, rfl, ?_, fun hok => ?_⟩
  · simp only [boot]
    split
    · exact le_max_left _ _
    · exact le_rfl
  · simp only [boot, hok, Bool.false_eq_true, if_false]

/-- R410-R413: `t` stands as the ROM leaves a device whose images and keys `x` names, from the rollback counter of `s`. -/
def BootsAs (s t : State) (x : Security) : Prop :=
  let ok := imageOk s (reeveImage x) && imageOk s (pwcImage x)
  t.bar.recovery = !ok ∧ t.sec.session = none ∧ t.sec.staged = [] ∧ t.sec.reeve = x.reeve ∧ t.sec.pwc = x.pwc ∧
  t.sec.measurements.length = 5 ∧ t.sec.measurements.getD 1 0#512 = measure 0#512 (reeveImage x) ∧
  t.sec.measurements.getD 2 0#512 = measure 0#512 (pwcImage x) ∧
  t.sec.keys = [(0, 2 * x.nextKey)] ∧ s.sec.rollback ≤ t.sec.rollback ∧ (ok = false → t.sec.rollback = s.sec.rollback)

theorem bootsAs_of_boot {s t : State} {x : Security} {h0 h1 : BitVec 36} {dv : DWord} {lc : BitVec 3}
    (hs : t.sec = (boot s x h0 h1 dv lc).1) (hr : t.bar.recovery = (boot s x h0 h1 dv lc).2) : BootsAs s t x := by
  unfold BootsAs
  rw [hs, hr]
  exact boot_result s x h0 h1 dv lc

/-- R415: after a cold reset HBM reads zero. -/
theorem coldReset_zeroes {s t : State} {f : Fuses} (h : exec (.coldReset f) s = .next t) {k : Nat} (hk : isHostKey k = false) :
    physByte t k = 0#8 := by
  cases h
  rw [physByte_eq_getD, cellGet_filter_key isHostKey, hk]
  rfl

theorem exec_warmReset (s : State) (h : s.bar.recovery = false ∨ warmCommanded s = false) : exec .warmReset s = .next (warmReset s) := by
  show Host.Outcome.next (if (s.bar.recovery && warmCommanded s) = true then _ else _) = _
  rw [if_neg]
  obtain h | h := h <;> simp [h]

/-- R410: RECOVERY refuses the command. -/
theorem exec_warmReset_refused (s : State) (h : s.bar.recovery = true) (hw : warmCommanded s = true) :
    exec .warmReset s = .next (completeCommand s (mgmtArg (mgmtRecord s) 6) 6 0) := by
  show Host.Outcome.next (if (s.bar.recovery && warmCommanded s) = true then _ else _) = _
  rw [if_pos]
  simp [h, hw]

/-- Without a context, a warm reset has no descriptor to write (R415). -/
theorem warmReset_memory (s : State) (h : s.contexts = []) : (warmReset s).mem = s.mem ∧ (warmReset s).tags = s.tags := by
  simp [warmReset, h, boot]

/-- Table 16.7, log 56: AGESTAT after a warm reset. -/
theorem warmReset_agestat (s : State) :
    (warmReset s).bar.agestat =
      ageWord 0 (min (s.bar.agestat.toNat / 65536 % 256) 100) (if 100 ≤ s.bar.agestat.toNat / 65536 % 256 then 2 else 0) :=
  congrArg ageReset (bitsAt_eq _ 16 8)

/-- R411, R413: a warm reset verifies and measures the staged Reeve image, where one is staged, and the PWC image. -/
theorem warmReset_boots (s : State) :
    BootsAs s (warmReset s) { s.sec with reeve := if s.sec.staged = [] then s.sec.reeve else s.sec.staged } := by
  have e : (if s.sec.staged.isEmpty = true then s.sec.reeve else s.sec.staged) = if s.sec.staged = [] then s.sec.reeve else s.sec.staged := by
    simp only [List.isEmpty_iff]
  rw [← e]
  exact bootsAs_of_boot (h0 := s.bar.hmap0) (h1 := s.bar.hmap1) (dv := s.bar.devid) (lc := s.bar.lcstate) rfl rfl

/-! ### What a break of futures leaves of the contexts -/

/-- A fold keeps what each of its steps keeps. -/
theorem foldl_keeps {α β γ : Type} (g : β → γ) (f : β → α → β) (hf : ∀ t x, g (f t x) = g t) (l : List α) (s : β) : g (l.foldl f s) = g s := by
  induction l generalizing s with
  | nil => rfl
  | cons x t ih => rw [List.foldl_cons, ih, hf]

@[simp] theorem l2Write_contexts (s : State) (k : Nat) (l : List Byte) : (l2Write s k l).contexts = s.contexts := by
  induction l generalizing s k with
  | nil => rfl
  | cons b t ih => rw [l2Write, ih]

@[simp] theorem seekLine_contexts (s : State) (die line : Nat) (wr : Bool) (n : Nat) : (seekLine s die line wr n).contexts = s.contexts := by
  obtain ⟨r, g, h⟩ := seekLine_eq s die line wr n
  rw [h]

@[simp] theorem recallOwned_contexts (s : State) (line : Nat) (c : Option Nat) : (recallOwned s line c).contexts = s.contexts := by
  unfold recallOwned
  split
  · rfl
  · split <;> rfl

@[simp] theorem retag_contexts (s : State) (line kid : Nat) : (retag s line kid).contexts = s.contexts := by
  unfold retag
  split
  · rfl
  · simp only
    split <;> rfl

@[simp] theorem retagMany_contexts (s : State) (line n kid : Nat) : (retagMany s line n kid).contexts = s.contexts := by
  induction n generalizing s line with
  | zero => rfl
  | succ n ih => rw [retagMany, ih, retag_contexts]

@[simp] theorem touch_contexts (s : State) (kid k n : Nat) : (touch s kid k n).contexts = s.contexts := by
  unfold touch
  split
  · rfl
  · exact retagMany_contexts _ _ _ _

/-- A write at a slice, with the copies aside that come before it, leaves the contexts. -/
@[simp] theorem performWrite_contexts (fuel : Nat) (s : State) (die : Nat) (src : Option Nat) (kid k : Nat) (l : List Byte) :
    (performWrite fuel s die src kid k l).contexts = s.contexts := by
  induction fuel generalizing s die src kid k l with
  | zero => rfl
  | succ f ih =>
    unfold performWrite
    split
    · rfl
    · simp only [markCounted, l2Write_contexts]
      rw [foldl_keeps State.contexts _ fun t e => ih t _ _ _ _ _]
      simp only [noteAside, recallOwned_contexts, seekLine_contexts, touch_contexts]

@[simp] theorem agentWrite_contexts (s : State) (kid k : Nat) (l : List Byte) : (agentWrite s kid k l).contexts = s.contexts :=
  foldl_keeps State.contexts _ (fun t _ => performWrite_contexts _ t _ _ _ _ _) _ _

/-- A write through a context's tables, where it can be made, leaves the contexts. -/
theorem ctxWrite_contexts {s t : State} {ctag va : Nat} {l : List Byte} {engine : Bool} (h : ctxWrite s ctag va l engine = some t) :
    t.contexts = s.contexts := by
  revert t
  refine List.foldlRecOn (motive := fun acc : Option State => ∀ {t}, acc = some t → t.contexts = s.contexts) _ _ (fun h => by cases h; rfl) ?_
  intro acc ih e _ t h
  cases acc with
  | none => cases h
  | some a =>
    have ha : a.contexts = s.contexts := ih rfl
    simp only at h
    split at h
    · cases h
    · split at h <;> cases h
      · exact ha
      · rw [agentWrite_contexts, ha]

@[simp] theorem ctxRecord_contexts (s : State) (ctag va : Nat) (l : List Byte) : (ctxRecord s ctag va l).contexts = s.contexts := by
  unfold ctxRecord
  cases h : ctxWrite s ctag va l false with
  | none => rfl
  | some t => exact ctxWrite_contexts h

@[simp] theorem writeFrtLine_contexts (s : State) (die slot : Nat) : (writeFrtLine s die slot).contexts = s.contexts := by
  unfold writeFrtLine
  simp only
  split
  · split
    · rfl
    · exact agentWrite_contexts _ _ _ _
  · rfl

@[simp] theorem setFrt_contexts (s : State) (die slot : Nat) (x : FrtSlot) : (setFrt s die slot x).contexts = s.contexts := by
  rw [setFrt, foldl_keeps State.contexts _ fun t k => writeFrtLine_contexts t die k, setDie_contexts]

@[simp] theorem tryFree_contexts (s : State) (die slot : Nat) : (tryFree s die slot).contexts = s.contexts := by
  unfold tryFree
  simp only
  split
  · simp only [freeSlot, setDie_contexts, setFrt_contexts]
  · rfl

@[simp] theorem leaveFifo_contexts (s : State) (die slot : Nat) (target : Option Nat) : (leaveFifo s die slot target).contexts = s.contexts := by
  cases target with
  | none => rfl
  | some t => exact setFrt_contexts _ _ _ _

@[simp] theorem reportEnd_contexts (s : State) (die slot : Nat) : (reportEnd s die slot).contexts = s.contexts := by
  unfold reportEnd
  simp only
  split <;> split <;> simp only [setFrt_contexts, ctxRecord_contexts]

@[simp] theorem startForward_contexts (s : State) (die slot : Nat) (val : DWord) : (startForward s die slot val).contexts = s.contexts := by
  unfold startForward
  simp only
  split
  · simp only [sendTask, setDie_contexts, setFrt_contexts]
  · rfl

@[simp] theorem endSlot_contexts (s : State) (die slot : Nat) (broken : Bool) (value : DWord) :
    (endSlot s die slot broken value).1.contexts = s.contexts := by
  unfold endSlot
  simp only
  split
  · rfl
  · rw [tryFree_contexts]
    split
    · simp only [reportEnd_contexts, leaveFifo_contexts, setFrt_contexts]
    · rw [foldl_keeps State.contexts _ fun t k => startForward_contexts t die k value]
      simp only [reportEnd_contexts, leaveFifo_contexts, setFrt_contexts]

@[simp] theorem breakSlots_contexts (fuel : Nat) (s : State) (die : Nat) (work : List Nat) (cause : DWord) :
    (breakSlots fuel s die work cause).contexts = s.contexts := by
  induction fuel generalizing s work with
  | zero => rw [breakSlots]
  | succ n ih =>
    cases work with
    | nil => rw [breakSlots]; simp
    | cons k rest =>
      rw [breakSlots]
      simp only [ih, endSlot_contexts]

/-- A die with no PENDING future has none to break (R388). -/
theorem breakDie_none (s : State) (die : Nat) (cause : DWord) (h : ∀ e ∈ (dieOf s die).frt, e.2.state ≠ 1#2) : breakDie s die cause = s := by
  have hl : ((dieOf s die).frt.filter fun e => e.2.state == 1#2) = [] := by
    rw [List.filter_eq_nil_iff]
    intro e he
    simpa using h e he
  simp only [breakDie, hl, List.map_nil, List.length_nil, Nat.add_zero]
  rw [breakSlots]
  simp

/-! ### What looking again at waves leaves of the device -/

/-- A wave that is looked at again changes itself and its core's copies alone (R307). -/
theorem recheckAt_frame (s : State) (u now : Nat) : ∃ w c, recheckAt s u now = { s with waves := w, cores := c } := by
  unfold recheckAt
  split
  · exact ⟨_, _, rfl⟩
  · simp only
    repeat' split
    all_goals exact ⟨_, _, rfl⟩

theorem recheckAll_frame (s : State) : ∃ w c, recheckAll s = { s with waves := w, cores := c } := by
  have key : ∀ l : AMap Wave, ∃ w c, l.foldl (fun t e => recheck t e.1) s = { s with waves := w, cores := c } := fun l =>
    List.foldlRecOn (motive := fun t => ∃ w c, t = { s with waves := w, cores := c }) l _ ⟨_, _, rfl⟩ fun t ⟨w, c, ht⟩ e _ => by
      obtain ⟨w', c', h⟩ := recheckAt_frame t e.1 t.tsc.toNat
      exact ⟨w', c', by rw [recheck, h, ht]⟩
  exact key _

/-- The future-ready posting changes the waves and what their cores hold alone (Table 11.7). -/
theorem postFutures_frame (s : State) : ∃ w c, postFutures s = { s with waves := w, cores := c } := by
  have hd : ∀ l : List Nat, ∃ c, l.foldl dropShared s = { s with cores := c } := fun l =>
    List.foldlRecOn (motive := fun t => ∃ c, t = { s with cores := c }) l _ ⟨_, rfl⟩ fun t ⟨c, ht⟩ k _ => by
      subst ht
      exact ⟨_, rfl⟩
  unfold postFutures
  simp only
  generalize List.filter _ _ = cs
  obtain ⟨c, hc⟩ := hd cs
  simp only [hc, settleChoices]
  obtain ⟨w', c', h⟩ := recheckAll_frame _
  exact ⟨w', c', h⟩

/-- Neither looking again nor posting changes dies or memory. -/
theorem recheckAll_postFutures_device (s : State) :
    (recheckAll (postFutures s)).dies = s.dies ∧ (recheckAll (postFutures s)).mem = s.mem ∧ (recheckAll (postFutures s)).l2 = s.l2 := by
  obtain ⟨w, c, hp⟩ := postFutures_frame s
  obtain ⟨w', c', hr⟩ := recheckAll_frame (postFutures s)
  rw [hr, hp]
  exact ⟨rfl, rfl, rfl⟩

theorem postEvent_frame (s : State) (source kind : Nat) (data : List Byte) :
    ∃ e n d, postEvent s source kind data = { s with events := e, dropped := n, dropSource := d } := by
  unfold postEvent
  split <;> exact ⟨_, _, _, rfl⟩

theorem moveFrom_noContexts (s : State) (die : Nat) (h : s.contexts = []) : moveFrom s die = s := by
  unfold moveFrom
  split
  · rfl
  · rw [h]
    rfl

/-! ### The loss of a die (R388, R118) -/

theorem loseMemory_contexts (s : State) (die : Nat) : (loseMemory s die).contexts = s.contexts := rfl

theorem loseMemory_state (s : State) (die : Nat) : (dieOf (loseMemory s die) die).state = .lost := by
  have : dieOf (loseMemory s die) die = dieOf (setDie s die { dieOf s die with
    state := .lost, former := [], ready := [], tasks := [], forwards := [], drops := [], ends := [], grantReqs := [], barrierQ := [] }) die := rfl
  rw [this, dieOf_setDie]

/-- Every byte after a die's memory is gone: what the slices that are left hold, then what is left of HBM, and the host's memory. -/
theorem physByte_loseMemory (s : State) (die k : Nat) :
    physByte (loseMemory s die) k = (if homedOn die k = true then none else cellGet s.l2 k).getD
      ((if isHostKey k = false ∧ homedOn die k = true then none else cellGet s.mem k).getD 0#8) := by
  have hl : cellGet (loseMemory s die).l2 k = if homedOn die k = true then none else cellGet s.l2 k := by
    rw [show (loseMemory s die).l2 = s.l2.filter fun c => !homedOn die c.1 from rfl, cellGet_filter_key fun k => !homedOn die k]
    cases homedOn die k <;> rfl
  have hm : cellGet (loseMemory s die).mem k = if isHostKey k = false ∧ homedOn die k = true then none else cellGet s.mem k := by
    rw [show (loseMemory s die).mem = s.mem.filter fun c => isHostKey c.1 || !homedOn die c.1 from rfl,
      cellGet_filter_key fun k => isHostKey k || !homedOn die k]
    cases isHostKey k <;> cases homedOn die k <;> simp
  rw [physByte_eq_getD, hl, hm]

theorem homedOn_host {k : Nat} (die : Nat) (h : isHostKey k = true) : homedOn die k = (die == 0) := by simp [homedOn, h]
theorem homedOn_hbm {k : Nat} (die : Nat) (h : isHostKey k = false) : homedOn die k = (homeOf k == die) := by simp [homedOn, h]

/-- R388: with no context loaded, what follows a die's loss of its futures and its memory changes neither dies nor memory. -/
theorem exec_dieLoss (s : State) {d : Nat} (hd : d ≤ 1) (hl : isLost s d = false) (hc : s.contexts = []) :
    Completes (.dieLoss d) s fun t => let m := loseMemory (breakDie s d (brokenCause 5 0)) d
      t.dies = m.dies ∧ t.mem = m.mem ∧ t.l2 = m.l2 := by
  refine ⟨_, rfl, ?_⟩
  have hm : (loseMemory (breakDie s d (brokenCause 5 0)) d).contexts = [] := by
    rw [loseMemory_contexts, breakDie, breakSlots_contexts, hc]
  have hdie : ¬(decide (d > 1) || isLost s d) = true := by simp [hl, hd]
  rw [if_neg hdie]
  simp only [hc, List.map_nil, List.filter_nil, List.foldl_nil]
  generalize loseMemory (breakDie s d (brokenCause 5 0)) d = m at *
  obtain ⟨e, n, r, he⟩ := postEvent_frame m 0 3 [BitVec.ofNat 8 d, 3#8]
  have hp : (postEvent m 0 3 [BitVec.ofNat 8 d, 3#8]).contexts = [] := by rw [he, hm]
  rw [moveFrom_noContexts _ _ hp, hp, List.map_nil, List.filter_nil, List.foldl_nil, he]
  exact recheckAll_postFutures_device _

/-- R36, R118: nothing of a lost die's memory can be read. -/
theorem loseMemory_gone (s : State) {d k : Nat} (hk : isHostKey k = false) (hh : homeOf k = d) : physByte (loseMemory s d) k = 0#8 := by
  simp [physByte_loseMemory, homedOn_hbm d hk, hh, hk]

/-- R118: the other die's memory stays. -/
theorem loseMemory_other (s : State) {d k : Nat} (hk : isHostKey k = false) (hh : homeOf k ≠ d) : physByte (loseMemory s d) k = physByte s k := by
  rw [physByte_loseMemory, physByte_eq_getD]
  simp [homedOn_hbm d hk, hh]

/-- R114, R118: a byte of the host stays, but for what die 0, its home, held of it and the host had not. -/
theorem loseMemory_host (s : State) {d k : Nat} (hk : isHostKey k = true) :
    (d ≠ 0 ∨ cellGet s.l2 k = none → physByte (loseMemory s d) k = physByte s k) ∧
    (d = 0 → physByte (loseMemory s d) k = (cellGet s.mem k).getD 0#8) := by
  rw [physByte_loseMemory, physByte_eq_getD, homedOn_host d hk]
  constructor
  · rintro (h | h) <;> simp [h, hk]
  · rintro rfl
    simp [hk]

/-- R36, R118, R388: the loss of a die, with no context loaded. -/
theorem dieLoss_memory (s : State) {d : Nat} (hd : d ≤ 1) (hl : isLost s d = false) (hc : s.contexts = []) :
    Completes (.dieLoss d) s fun t => (dieOf t d).state = .lost ∧ (∀ k, isHostKey k = false → homeOf k = d → physByte t k = 0#8) ∧
      ((∀ e ∈ (dieOf s d).frt, e.2.state ≠ 1#2) → (∀ k, isHostKey k = false → homeOf k ≠ d → physByte t k = physByte s k) ∧
        ∀ k, isHostKey k = true → (d = 1 ∨ cellGet s.l2 k = none → physByte t k = physByte s k) ∧
          (d = 0 → physByte t k = (cellGet s.mem k).getD 0#8)) := by
  obtain ⟨t, ht, hdies, hmem, hl2⟩ := exec_dieLoss s hd hl hc
  have hb := physByte_congr hmem hl2
  refine ⟨t, ht, ?_, fun k hk hh => (hb k).trans (loseMemory_gone _ hk hh), fun hf => ?_⟩
  · rw [dieOf, hdies]
    exact loseMemory_state _ _
  · rw [breakDie_none s d _ hf] at hb
    refine ⟨fun k hk hh => (hb k).trans (loseMemory_other s hk hh), fun k hk => ?_⟩
    obtain ⟨hstays, hzero⟩ := loseMemory_host s (d := d) hk
    rw [hb k]
    exact ⟨fun h => hstays (h.imp_left fun h1 => by omega), hzero⟩

/-- Settles O53: each clause by what its operation leaves. -/
theorem registersAndResets : Obligations.RegistersAndResets := by
  unfold Obligations.RegistersAndResets
  intro s
  refine ⟨fun off v h => congrArg Host.Outcome.next (writeRegister_unlisted s v h), fun v => ?_, ?_, fun v => ⟨fun h => ?_, fun hc hv => ?_⟩, fun f => ?_,
    fun h => ?_, fun h hw => exec_warmReset_refused s h hw, fun d hd hl hc => ?_⟩
  · obtain ⟨h008, h100, h110, h118, h200, h208, h210, h400, h408, h418, h420, h428⟩ := registerWrite_stores s v
    exact ⟨h008, h100, h110, h118, h200, h208, h210, h400, h408, h418, h420, h428, ⟨_, rfl, rfl, rfl⟩, rfl, rfl, rfl⟩
  · refine ⟨fun off h => readRegister_unlisted s h, rfl, rfl, rfl, rfl, rfl, rfl, rfl, rfl, rfl, rfl, rfl, rfl, rfl, rfl, rfl, rfl, ?_, ?_, rfl, ?_, ?_,
      rfl, rfl⟩
    · rw [← plimit_eq, ← guardBand_eq]
      rfl
    · rw [← thot_eq, ← temerg_eq]
      rfl
    · exact congrArg (BitVec.ofNat 64) (droopThr_eq s 0)
    · exact congrArg (BitVec.ofNat 64) (droopThr_eq s 1)
  · exact ⟨frtbaseWrite_refused s (by decide) h, frtbaseWrite_refused s (by decide) h⟩
  · exact ⟨frtbaseWrite_taken s (by decide) hc hv, frtbaseWrite_taken s (by decide) hc hv⟩
  · exact ⟨_, rfl, rfl, rfl, rfl, rfl, rfl, rfl, rfl, rfl, rfl, bootsAs_of_boot rfl rfl, fun k hk => coldReset_zeroes rfl hk⟩
  · exact ⟨_, exec_warmReset s h, rfl, rfl, rfl, rfl, warmReset_memory s, rfl, rfl, rfl, rfl, rfl, rfl, rfl, rfl, rfl, rfl, warmReset_agestat s,
      warmReset_boots s⟩
  · obtain ⟨t, ht, hstate, hgone, hrest⟩ := dieLoss_memory s hd hl hc
    exact ⟨t, ht, hstate, hgone, fun _ => hrest⟩

end Sys2Proof

/-! SUPPORT. Memory in canonical form and the L2s in rising order (R28, R116, log 2): every operation of the model keeps both, one lemma for each, and the
statement about a step. -/
namespace Sys2Proof
open Machine

/-! ### The invariant, and how it is carried -/

/-- Memory is in its canonical form, and what the L2 caches hold stands in rising order. -/
def Canonical (s : State) : Prop := Memory.wf s.mem = true ∧ risingFrom none s.l2 = true

/-- Every state that an outcome answers is canonical. -/
def KeepsOut (o : Out) : Prop := ∀ t, o = .next t → Canonical t

/-- Every state that an optional answer holds is canonical. -/
def KeepsOpt (o : Option State) : Prop := ∀ ⦃t⦄, o = some t → Canonical t

section
variable {s t : State} {α β : Type}

/-- Only memory and the L2s matter: every other field may become whatever it likes. -/
protected theorem Canonical.update (h : Canonical s) :
    Canonical
      ⟨tsc, stepNo, agenda, cur, turnCore, devTurn, uid, waves, groups, launches, contexts, cores, dies, s.mem, s.l2, remote, granted,
      decays, tags, tagBase, tlb, predictor, packets, windows, binds, remotes, ports, transfers, publishes, snaps, yokes, faults, faultRoom,
      events, dropped, dropSource, bar, sec, power, rails, draining, planTsc, aged⟩ := h

/-- The same, for a state given by its name. -/
protected theorem Canonical.same (h : Canonical s) (hm : t.mem = s.mem) (hl : t.l2 = s.l2) : Canonical t := by
  rwa [Canonical, hm, hl]

protected theorem Canonical.fst {p : State × α} {a : α} (h : Canonical p.1) (e : p = (t, a)) : Canonical t := by
  rwa [e] at h

protected theorem Canonical.ite {c : Prop} {_ : Decidable c} (hs : Canonical s) (ht : Canonical t) : Canonical (if c then s else t) := by
  split
  · exact hs
  · exact ht

protected theorem Canonical.foldl {f : State → α → State} {l : List α} (h : Canonical s) (hf : ∀ t x, Canonical t → Canonical (f t x)) :
    Canonical (l.foldl f s) :=
  List.foldlRecOn l f h fun t ht x _ => hf t x ht

protected theorem Canonical.foldlFst {f : State × β → α → State × β} {l : List α} {p : State × β} (h : Canonical p.1)
    (hf : ∀ q x, Canonical q.1 → Canonical (f q x).1) : Canonical (l.foldl f p).1 :=
  List.foldlRecOn l f h fun q hq x _ => hf q x hq

theorem KeepsOpt.none : KeepsOpt none := nofun

theorem KeepsOpt.some (h : Canonical s) : KeepsOpt (some s) := by
  rintro _ ⟨⟩
  exact h

theorem KeepsOpt.bind {o : Option State} {f : State → Option State} (h : KeepsOpt o) (hf : ∀ t, Canonical t → KeepsOpt (f t)) :
    KeepsOpt (o.bind f) := by
  intro t e
  obtain ⟨r, hr, hf'⟩ := Option.bind_eq_some_iff.1 e
  exact hf r (h hr) hf'

theorem KeepsOpt.foldl {f : Option State → α → Option State} {l : List α} {o : Option State} (h : KeepsOpt o)
    (hf : ∀ p x, KeepsOpt p → KeepsOpt (f p x)) : KeepsOpt (l.foldl f o) :=
  List.foldlRecOn l f h fun p hp x _ => hf p x hp

theorem KeepsOpt.getD {o : Option State} (h : KeepsOpt o) (hs : Canonical s) : Canonical (o.getD s) := by
  cases o with
  | none => exact hs
  | some t => exact h rfl

theorem KeepsOut.next (h : Canonical s) : KeepsOut (.next s) := by
  rintro _ ⟨⟩
  exact h

theorem KeepsOut.fault (r : Fault) : KeepsOut (.fault r) := nofun

theorem KeepsOut.refused (r : Refusal) : KeepsOut (.refused r) := nofun

/-! ### Memory, the L2s and the cores' paths -/

protected theorem Canonical.l2Write (h : Canonical s) {k : Nat} {l : List Byte} : Canonical (l2Write s k l) := by
  induction l generalizing s k with
  | nil => exact h
  | cons b r ih =>
    have hb : Canonical { s with l2 := cellPut s.l2 k b } := ⟨h.1, risingFrom_cellPut k b h.2 (by simp)⟩
    exact ih hb

protected theorem Canonical.cleanLine (h : Canonical s) {line : Nat} : Canonical (cleanLine s line) :=
  ⟨wf_foldSet _ h.1, risingFrom_filter _ h.2⟩

protected theorem Canonical.evictLine (h : Canonical s) {line : Nat} : Canonical (evictLine s line) :=
  h.cleanLine.same rfl rfl

protected theorem Canonical.retag (h : Canonical s) {line kid : Nat} : Canonical (retag s line kid) := by
  refine ⟨wf_retag s line kid h.1, ?_⟩
  unfold retag
  split
  · exact h.2
  · generalize rekeyLine = f
    dsimp only
    split
    · exact h.2
    · exact (h.evictLine (line := line)).2

protected theorem Canonical.retagMany (h : Canonical s) {line n kid : Nat} : Canonical (retagMany s line n kid) := by
  induction n generalizing s line with
  | zero => exact h
  | succ n ih => exact ih h.retag

protected theorem Canonical.seekLine (h : Canonical s) {die line n : Nat} {wr : Bool} : Canonical (seekLine s die line wr n) :=
  h.same (seekLine_mem ..) (seekLine_l2 ..)

protected theorem Canonical.recallOwned (h : Canonical s) {line : Nat} {c : Option Nat} : Canonical (recallOwned s line c) :=
  h.same (recallOwned_mem ..) (recallOwned_l2 ..)

protected theorem Canonical.touch {kid k n : Nat} (h : Canonical s) : Canonical (touch s kid k n) := h.ite h.retagMany

protected theorem Canonical.setCore {c : Nat} {x : Core} (h : Canonical s) : Canonical (setCore s c x) := h.update

protected theorem Canonical.setDie {d : Nat} {x : Die} (h : Canonical s) : Canonical (setDie s d x) := h.update

protected theorem Canonical.leaveSlice {die line : Nat} (h : Canonical s) : Canonical (leaveSlice s die line) := h.evictLine.ite h.update

protected theorem Canonical.trimSlices (h : Canonical s) : Canonical (trimSlices s) := by
  unfold trimSlices
  split
  · exact h
  · exact h.foldl fun _ _ ht => ht.foldl fun _ _ ht' => ht'.leaveSlice

protected theorem Canonical.markCounted {src : Option Nat} {k n : Nat} (h : Canonical s) : Canonical (markCounted s src k n) := h.update

protected theorem Canonical.noteAside {line : Nat} (h : Canonical s) : Canonical (noteAside s line) := h.update

protected theorem Canonical.performWrite {fuel die kid k : Nat} {src : Option Nat} {l : List Byte} (h : Canonical s) :
    Canonical (performWrite fuel s die src kid k l) := by
  induction fuel generalizing s die src kid k l with
  | zero => exact h
  | succ n ih =>
    unfold performWrite
    split
    · exact h
    · exact (h.touch.seekLine.recallOwned.noteAside.foldl fun _ _ ht => ih ht).l2Write.markCounted

protected theorem Canonical.holdAside {line : Nat} (h : Canonical s) : Canonical (holdAside s line) :=
  h.noteAside.foldl fun _ _ ht => ht.performWrite

protected theorem Canonical.holdSnaps {ctag : Nat} (h : Canonical s) : Canonical (holdSnaps s ctag) := h.foldl fun _ _ ht => ht.holdAside

protected theorem Canonical.sliceWrite {src : Option Nat} {kid k : Nat} {l : List Byte} (h : Canonical s) : Canonical (sliceWrite s src kid k l) :=
  h.performWrite

protected theorem Canonical.homeWrite {src : Option Nat} {kid k : Nat} {l : List Byte} (h : Canonical s) : Canonical (homeWrite s src kid k l) :=
  h.performWrite

protected theorem Canonical.performRead {die kid k n : Nat} {src : Option Nat} (h : Canonical s) : Canonical (performRead s die src kid k n).1 :=
  h.touch.seekLine.recallOwned

protected theorem Canonical.sliceRead {src : Option Nat} {kid k n : Nat} (h : Canonical s) : Canonical (sliceRead s src kid k n).1 := h.performRead

protected theorem Canonical.homeRead {src : Option Nat} {kid k n : Nat} (h : Canonical s) : Canonical (homeRead s src kid k n).1 := h.performRead

protected theorem Canonical.agentWrite {kid k : Nat} {l : List Byte} (h : Canonical s) : Canonical (agentWrite s kid k l) :=
  h.foldl fun _ _ ht => ht.sliceWrite

protected theorem Canonical.agentRead {kid k n : Nat} (h : Canonical s) : Canonical (agentRead s kid k n).1 :=
  h.touch.foldl fun _ _ ht => ht.seekLine.recallOwned

protected theorem Canonical.viaDie {die k n : Nat} {wr : Bool} (h : Canonical s) : Canonical (viaDie s die k n wr) :=
  h.foldl fun _ _ ht => ht.seekLine

protected theorem Canonical.atomicAt {src : Option Nat} {kid k n op ty d c : Nat} (h : Canonical s) :
    Canonical (atomicAt s src kid k n op ty d c).1 := by
  unfold atomicAt
  split
  rename_i e
  dsimp only
  split
  · exact (h.touch.seekLine.homeRead.fst e).homeWrite
  · exact h.touch.seekLine.homeRead.fst e

protected theorem Canonical.fillLine {c kid k : Nat} (h : Canonical s) : Canonical (fillLine s c kid k) := h.sliceRead.setCore

protected theorem Canonical.onWaveRec {u : Nat} {f : Wave → Wave} (h : Canonical s) : Canonical (onWaveRec s u f) := by
  unfold onWaveRec
  split
  · exact h
  · exact h.update

protected theorem Canonical.readEarly {c a kid key n : Nat} (h : Canonical s) : Canonical (readEarly s c a kid key n).1 := h.sliceRead.setCore

protected theorem Canonical.performEntry {c : Nat} {e : PathEntry} (h : Canonical s) : Canonical (performEntry s c e) := by
  unfold performEntry
  split
  · split
    · split
      rename_i e
      exact (h.readEarly.fst e).onWaveRec
    · exact h.fillLine.onWaveRec
  · exact h.sliceWrite
  · exact h.setCore.ite h.sliceWrite
  · split
    rename_i e
    refine Canonical.onWaveRec ?_
    split
    · exact h.recallOwned.atomicAt.fst e
    · exact (h.recallOwned.atomicAt.fst e).setCore

protected theorem Canonical.performWay {c way : Nat} (h : Canonical s) : Canonical (performWay s c way) := by
  unfold performWay
  dsimp only
  split
  · exact h
  · exact h.setCore.performEntry

protected theorem Canonical.performHead {c : Nat} (h : Canonical s) : Canonical (performHead s c) := by
  unfold performHead
  split
  · exact h
  · exact h.performWay

protected theorem Canonical.performMany {c n : Nat} (h : Canonical s) : Canonical (performMany s c n) := by
  induction n generalizing s with
  | zero => exact h
  | succ n ih => exact ih h.performHead

protected theorem Canonical.performWayMany {c way n : Nat} (h : Canonical s) : Canonical (performWayMany s c way n) := by
  induction n generalizing s with
  | zero => exact h
  | succ n ih => exact ih h.performWay

protected theorem Canonical.drainWay {c way : Nat} (h : Canonical s) : Canonical (drainWay s c way) := h.performWayMany

protected theorem Canonical.settleEarly {c line : Nat} (h : Canonical s) : Canonical (settleEarly s c line) := by
  unfold settleEarly
  split
  · exact h
  · exact h.drainWay.setCore

protected theorem Canonical.settleSeen {c : Nat} (h : Canonical s) : Canonical (settleSeen s c) := h.foldl fun _ _ ht => ht.settleEarly

protected theorem Canonical.drainPath {c : Nat} (h : Canonical s) : Canonical (drainPath s c) := h.performMany.settleSeen

protected theorem Canonical.drainFor {c : Nat} {ids : List Nat} (h : Canonical s) : Canonical (drainFor s c ids) :=
  h.foldl fun _ _ ht => ht.drainWay

protected theorem Canonical.settleLine {c line : Nat} (h : Canonical s) : Canonical (settleLine s c line) :=
  h.settleEarly.drainWay.ite h.settleEarly

protected theorem Canonical.coreRead {c kid k n : Nat} (h : Canonical s) : Canonical (coreRead s c kid k n).1 := by
  unfold coreRead
  dsimp only
  split
  · exact h
  · split
    · exact h.homeRead
    · exact h.drainWay.fillLine

protected theorem Canonical.coreLoad {c u kid k n id part : Nat} (h : Canonical s) : Canonical (coreLoad s c u kid k n id part).1 := by
  unfold coreLoad
  dsimp only
  split
  · exact h
  · split
    · exact h.homeRead
    · exact h.setCore

protected theorem Canonical.coreWrite {c w kid k : Nat} {b : List Byte} (h : Canonical s) : Canonical (coreWrite s c w kid k b) :=
  h.drainWay.homeWrite.ite h.setCore

protected theorem Canonical.orderedWrite {c kid k : Nat} {b : List Byte} (h : Canonical s) : Canonical (orderedWrite s c kid k b) :=
  h.drainWay.homeWrite

protected theorem Canonical.orderedRead {c kid k n : Nat} (h : Canonical s) : Canonical (orderedRead s c kid k n).1 := h.drainWay.homeRead

protected theorem Canonical.dropLine {c line : Nat} (h : Canonical s) : Canonical (dropLine s c line) := by
  unfold dropLine
  split
  · exact h
  · exact h.setCore

protected theorem Canonical.reachLine {c k : Nat} (h : Canonical s) : Canonical (reachLine s c k) := h.settleEarly.drainWay.dropLine

protected theorem Canonical.queueAtomic {c kid k : Nat} {r : AtomReq} (h : Canonical s) : Canonical (queueAtomic s c kid k r).1 := h.setCore

protected theorem Canonical.coreAtomic {c kid k scope : Nat} {sc : Bool} {r : AtomReq} (h : Canonical s) :
    Canonical (coreAtomic s c kid k sc scope r).1 := by
  unfold coreAtomic
  split
  · split
    rename_i e
    exact h.drainWay.atomicAt.fst e
  · split
    · exact h.queueAtomic
    · dsimp only
      split
      · split
        · exact h.settleLine.setCore
        · exact h.settleLine
      · split
        · split
          · exact h.settleLine.drainWay.seekLine.recallOwned.setCore.atomicAt
          · exact h.settleLine.drainWay.queueAtomic
        · exact h.settleLine.queueAtomic

protected theorem Canonical.dropShared {c : Nat} (h : Canonical s) : Canonical (dropShared s c) := h.setCore

/-! ### Translation -/

protected theorem Canonical.setCtx {ctag : Nat} {c : Context} (h : Canonical s) : Canonical (setCtx s ctag c) := h.update

protected theorem Canonical.walkRecalls {ctag va : Nat} (h : Canonical s) : Canonical (walkRecalls s ctag va) :=
  h.foldl fun _ _ ht => ht.seekLine.recallOwned

protected theorem Canonical.setGroup {g : Nat} {x : Group} (h : Canonical s) : Canonical (setGroup s g x) := h.update

protected theorem Canonical.ctxWrite {ctag va : Nat} {l : List Byte} {engine : Bool} (h : Canonical s) : KeepsOpt (ctxWrite s ctag va l engine) := by
  refine .foldl (.some h) fun p x hp => ?_
  split
  · exact .none
  · split
    · exact .none
    · dsimp only
      split
      · exact .some ((hp rfl).update)
      · exact .some (hp rfl).agentWrite

protected theorem Canonical.ctxRecord {ctag va : Nat} {l : List Byte} (h : Canonical s) : Canonical (ctxRecord s ctag va l) := h.ctxWrite.getD h

/-! ### Parked waves and postings -/

protected theorem Canonical.settleChoices {now : Nat} (h : Canonical s) : Canonical (settleChoices s now) := h.update

protected theorem Canonical.writeFrtLine {die slot : Nat} (h : Canonical s) : Canonical (writeFrtLine s die slot) := by
  unfold writeFrtLine
  dsimp only
  split
  · exact h.ite h.agentWrite
  · exact h

protected theorem Canonical.setFrt {die slot : Nat} {x : FrtSlot} (h : Canonical s) : Canonical (setFrt s die slot x) :=
  h.setDie.foldl fun _ _ ht => ht.writeFrtLine

protected theorem Canonical.askRemotes {w : Wave} {hs : List DWord} (h : Canonical s) : Canonical (askRemotes s w hs) := h.update

protected theorem Canonical.recheckAt {u now : Nat} (h : Canonical s) : Canonical (recheckAt s u now) := by
  unfold recheckAt
  split
  · exact h
  · split
    · exact h.ite h.update
    · exact h.update.ite h
    · exact h.update.ite h
    · exact (h.dropShared.ite h).update.ite h
    · exact h.update.ite h
    · exact h

protected theorem Canonical.recheck {u : Nat} (h : Canonical s) : Canonical (recheck s u) := h.recheckAt

protected theorem Canonical.recheckAll (h : Canonical s) : Canonical (recheckAll s) := h.foldl fun _ _ ht => ht.recheck

protected theorem Canonical.post {p : Nat → Wave → EvSlot → Bool} (h : Canonical s) : Canonical (post s p) := h.settleChoices.update.recheckAll

protected theorem Canonical.postPlotFull {holder h : Nat} (hc : Canonical s) : Canonical (postPlotFull s holder h) := hc.post

protected theorem Canonical.postFutures (h : Canonical s) : Canonical (postFutures s) :=
  (h.foldl fun _ _ ht => ht.dropShared).settleChoices.update.recheckAll

protected theorem Canonical.postEvent {source kind : Nat} {data : List Byte} (h : Canonical s) : Canonical (postEvent s source kind data) :=
  h.update.ite h.update

/-! ### Futures -/

protected theorem Canonical.sendTask {die slot : Nat} (h : Canonical s) : Canonical (sendTask s die slot) := h.setDie

protected theorem Canonical.freeSlot {die slot : Nat} (h : Canonical s) : Canonical (freeSlot s die slot) := h.setFrt.setDie

protected theorem Canonical.tryFree {die slot : Nat} (h : Canonical s) : Canonical (tryFree s die slot) := h.freeSlot.ite h

protected theorem Canonical.startForward {die slot : Nat} {val : DWord} (h : Canonical s) : Canonical (startForward s die slot val) :=
  h.setFrt.sendTask.ite h

protected theorem Canonical.reportEnd {die slot : Nat} (h : Canonical s) : Canonical (reportEnd s die slot) := by
  unfold reportEnd
  dsimp only
  split
  · split
    · exact h
    · exact h.update
  · refine Canonical.setFrt (Canonical.ctxRecord ?_)
    split
    · exact h
    · exact h.update

protected theorem Canonical.leaveFifo {die slot : Nat} {target : Option Nat} (h : Canonical s) : Canonical (leaveFifo s die slot target) := by
  unfold leaveFifo
  split
  · exact h
  · exact h.setFrt

protected theorem Canonical.endSlot {die slot : Nat} {broken : Bool} {value : DWord} (h : Canonical s) :
    Canonical (endSlot s die slot broken value).1 := by
  unfold endSlot
  dsimp only
  split
  · exact h
  · refine Canonical.tryFree ?_
    split
    · exact h.setFrt.leaveFifo.reportEnd
    · exact h.setFrt.leaveFifo.reportEnd.foldl fun _ _ ht => ht.startForward

protected theorem Canonical.breakSlots {fuel die : Nat} {work : List Nat} {cause : DWord} (h : Canonical s) :
    Canonical (breakSlots fuel s die work cause) := by
  induction fuel generalizing s work with
  | zero => exact h
  | succ n ih =>
    cases work with
    | nil => exact h
    | cons k rest => exact ih h.endSlot

protected theorem Canonical.breakSlot {die slot : Nat} {cause : DWord} (h : Canonical s) : Canonical (breakSlot s die slot cause) := h.breakSlots

protected theorem Canonical.finishSlot {die slot ctag : Nat} {tag : BitVec 12} {broken : Bool} {value : DWord} (h : Canonical s) :
    Canonical (finishSlot s die slot tag ctag broken value) :=
  h.ite (h.breakSlot.ite h.endSlot)

protected theorem Canonical.sendEnd {ctag : Nat} {handle value : DWord} {broken : Bool} (h : Canonical s) :
    Canonical (sendEnd s ctag handle broken value) :=
  h.setDie

protected theorem Canonical.breakLanes {u : Nat} {lanes : Word} {cause : DWord} (h : Canonical s) : Canonical (breakLanes s u lanes cause) := by
  unfold breakLanes
  split
  · exact h
  · split
    · exact h
    · exact Canonical.update (h.foldl fun _ _ ht => ht.sendEnd)

protected theorem Canonical.arriveForward {die slot : Nat} {target : DWord} (h : Canonical s) : Canonical (arriveForward s die target slot) := by
  unfold arriveForward
  dsimp only
  split
  · exact h
  · split
    · exact h.breakSlot
    · split
      · exact h.setFrt.setFrt
      · exact h.startForward
      · exact h.breakSlot

protected theorem Canonical.arriveDrop {handle : DWord} (h : Canonical s) : Canonical (arriveDrop s handle) := h.ite h.setFrt.tryFree

protected theorem Canonical.takeFrt {die slot ctag : Nat} {target : Option Nat} {entry argp region : DWord} (h : Canonical s) :
    Canonical (takeFrt s die slot ctag target entry argp region) :=
  h.setFrt

protected theorem Canonical.breakRegion {ctag : Nat} {p : DWord → Bool} {cause : DWord} (h : Canonical s) : Canonical (breakRegion s ctag p cause) :=
  h.foldl fun _ _ ht => ht.breakSlots

protected theorem Canonical.freeContextSlots {ctag : Nat} (h : Canonical s) : Canonical (freeContextSlots s ctag) :=
  h.foldl fun _ _ ht => ht.foldl fun _ _ ht' => ht'.freeSlot

/-! ### Plots -/

protected theorem Canonical.setPlot {g h : Nat} {p : Plot} (hc : Canonical s) : Canonical (setPlot s g h p) := hc.setGroup

protected theorem Canonical.drainEnd {g h : Nat} (hc : Canonical s) : Canonical (drainEnd s g h) := by
  unfold drainEnd
  split
  · exact hc
  · split
    · split
      · exact hc.setPlot
      · exact hc.setPlot.postPlotFull.ite (hc.setPlot.postPlotFull.ite hc.setPlot.recheckAll)
    · exact hc

protected theorem Canonical.addAccess {g h : Nat} {a : Access} (hc : Canonical s) : Canonical (addAccess s g h a) := by
  unfold addAccess
  split
  · exact hc
  · exact hc.setPlot

protected theorem Canonical.endAccess {g h : Nat} {a : Access} (hc : Canonical s) : Canonical (endAccess s g h a) := by
  unfold endAccess
  dsimp only
  split
  · exact hc.setGroup
  · exact hc.setGroup.setPlot.drainEnd

protected theorem Canonical.acceptRead {g h : Nat} {rel : Bool} {a : Access} (hc : Canonical s) : Canonical (acceptRead s g h rel a) := by
  unfold acceptRead
  split
  · exact hc
  · exact hc.setPlot

protected theorem Canonical.creditPlot {g h n : Nat} (hc : Canonical s) : Canonical (creditPlot s g h n) := by
  unfold creditPlot
  split
  · exact hc
  · exact hc.setPlot

protected theorem Canonical.deliver {g h n : Nat} (hc : Canonical s) : Canonical (deliver s g h n) := by
  unfold deliver
  split
  · exact hc
  · exact hc.ite (hc.setPlot.postPlotFull.ite hc.setPlot)

protected theorem Canonical.failPlot {g h : Nat} {code : BitVec 2} (hc : Canonical s) : Canonical (failPlot s g h code) := by
  unfold failPlot
  split
  · exact hc
  · exact hc.setPlot.postPlotFull.ite (hc.setPlot.ite hc)

protected theorem Canonical.armPlot {g h q : Nat} {p : Plot} (hc : Canonical s) : Canonical (armPlot s g h q p) :=
  (hc.setPlot.postPlotFull.ite hc.setPlot.recheckAll).ite hc.setPlot.drainEnd

protected theorem Canonical.freePlot {g h : Nat} (hc : Canonical s) : Canonical (freePlot s g h) := by
  unfold freePlot
  dsimp only
  split
  · exact hc
  · exact hc.update.setGroup.recheckAll

/-! ### Faults -/

protected theorem Canonical.postFault {token : Nat} (h : Canonical s) : Canonical (postFault s token) := by
  unfold postFault
  split
  · exact h
  · exact h.ite (h.agentWrite.agentWrite.update.ite h)

protected theorem Canonical.postFaults (h : Canonical s) : Canonical (postFaults s) := h.foldl fun _ _ ht => ht.postFault

protected theorem Canonical.raiseFault {ctag die : Nat} {who : Waiter} {f : Recov} (h : Canonical s) : Canonical (raiseFault s ctag die who f).1 := by
  unfold raiseFault
  dsimp only
  split <;> exact h.update

protected theorem Canonical.barPut {o : BarObj} {off n v : Nat} (h : Canonical s) : Canonical (barPut s o off n v) := h.sliceWrite

protected theorem Canonical.barCheck {o : BarObj} (h : Canonical s) : Canonical (barCheck s o) := h.barPut.barPut.barPut.post.ite h

protected theorem Canonical.barArrive {o : BarObj} {n : Nat} (h : Canonical s) : Canonical (barArrive s o n) := h.barPut.barCheck

protected theorem Canonical.barRegister {o : BarObj} (h : Canonical s) : Canonical (barRegister s o) := h.barPut

protected theorem Canonical.barApply {e : BarObj × Nat × Nat × Option (Nat × Nat)} (h : Canonical s) : Canonical (barApply s e) := by
  unfold barApply
  split
  dsimp only
  split
  · exact h.barArrive.ite h.barRegister
  · split
    · exact h.barArrive.ite h.barRegister
    · exact ((h.barArrive.ite h.barRegister).update).dropLine

protected theorem Canonical.barStep {die : Nat} (h : Canonical s) : Canonical (barStep s die) := by
  unfold barStep
  split
  · exact h
  · exact h.setDie.barApply

protected theorem Canonical.barSteps {die n : Nat} (h : Canonical s) : Canonical (barSteps s die n) := by
  induction n generalizing s with
  | zero => exact h
  | succ n ih => exact ih h.barStep

protected theorem Canonical.barFlush {key : Nat} (h : Canonical s) : Canonical (barFlush s key) := h.barSteps

protected theorem Canonical.barOrder {c key : Nat} (h : Canonical s) : Canonical (barOrder s c key) := h.reachLine.barFlush

protected theorem Canonical.barSend {o : BarObj} {op n : Nat} {dst : Option (Nat × Nat)} (h : Canonical s) : Canonical (barSend s o op n dst) :=
  h.setDie

protected theorem Canonical.completeResults {u : Nat} {p : Pending → Bool} (h : Canonical s) : Canonical (completeResults s u p) := by
  unfold completeResults
  dsimp only
  split
  · exact h
  · split
    · exact h.drainFor.ite h.drainFor.barSteps.barSteps
    · exact h.ite h.barSteps.barSteps

protected theorem Canonical.settleWave {u : Nat} (h : Canonical s) : Canonical (settleWave s u) := by
  unfold settleWave
  dsimp only
  split
  · exact h.completeResults
  · exact h.completeResults.ite h.completeResults.update

protected theorem Canonical.parkWave {u : Nat} {p : Park} (h : Canonical s) : Canonical (parkWave s u p) := by
  unfold parkWave
  dsimp only
  split
  · exact h.settleWave
  · exact h.settleWave.ite h.settleWave.update

protected theorem Canonical.parkFaults {u : Nat} {fs : List Recov} (h : Canonical s) : Canonical (parkFaults s u fs) := by
  unfold parkFaults
  split
  · split
    rename_i e
    refine Canonical.postFaults (Canonical.parkWave (Canonical.fst ?_ e))
    exact Canonical.foldlFst h fun _ _ hq => hq.raiseFault
  · exact h

protected theorem Canonical.admitWait {u : Nat} (h : Canonical s) : Canonical (admitWait s u) := by
  unfold admitWait
  split
  · exact h
  · split
    · exact h.ite (h.update.ite h.update)
    · exact h

protected theorem Canonical.admitWaits (h : Canonical s) : Canonical (admitWaits s) := h.foldl fun _ _ ht => ht.admitWait

protected theorem Canonical.barLeave {o : BarObj} (h : Canonical s) : Canonical (barLeave s o) := h.barFlush.barPut.barCheck

protected theorem Canonical.leaveBarriers {u : Nat} (h : Canonical s) : Canonical (leaveBarriers s u) := by
  unfold leaveBarriers
  split
  · exact h
  · refine h.update.foldl fun _ _ ht => ?_
    split
    · exact ht.barLeave
    · exact ht

/-! ### Yokes -/

protected theorem Canonical.setYoke {y : Nat} {x : Yoke} (h : Canonical s) : Canonical (setYoke s y x) := h.update

protected theorem Canonical.completeParks {groups : List Nat} {sel : Park → Option (BitVec 2)} {c : Option Bool} (h : Canonical s) :
    Canonical (completeParks s groups sel c) :=
  h.update

protected theorem Canonical.powerBands {k : Yoke} {bands : BitVec 4} (h : Canonical s) : Canonical (powerBands s k bands) :=
  h.foldl fun _ _ ht => ht.setCore

protected theorem Canonical.dropYoke {y : Nat} (h : Canonical s) : Canonical (dropYoke s y) := by
  unfold dropYoke
  split
  · exact h
  · exact h.update.ite h.update.powerBands

protected theorem Canonical.failFormation {y : Nat} (h : Canonical s) : Canonical (failFormation s y) := by
  unfold failFormation
  split
  · exact h
  · exact h.dropYoke.completeParks

protected theorem Canonical.endRun {y : Nat} {r : Run} (h : Canonical s) : Canonical (endRun s y r) := h.foldl fun _ _ ht => ht.endAccess

protected theorem Canonical.holdYoke {g : Nat} (h : Canonical s) : Canonical (holdYoke s g) := by
  unfold holdYoke
  split
  · exact h
  · exact h.setYoke.ite h

protected theorem Canonical.unholdYoke {y : Nat} (h : Canonical s) : Canonical (unholdYoke s y) := by
  unfold unholdYoke
  split
  · exact h
  · exact h.setYoke

protected theorem Canonical.lostDone {y : Nat} (h : Canonical s) : Canonical (lostDone s y) := by
  unfold lostDone
  split
  · exact h
  · exact h.dropYoke.ite h

protected theorem Canonical.takeRow {x i : Nat} {g : List Word} (h : Canonical s) : Canonical (takeRow s x i g) := by
  unfold takeRow
  split
  · exact h
  · exact h.update

protected theorem Canonical.garnerEffect {o : GarnerOp} {g : List Word} (h : Canonical s) : Canonical (garnerEffect s o g).1 := by
  unfold garnerEffect
  split
  · exact h
  · exact h
  · exact h.onWaveRec
  · exact h.takeRow

protected theorem Canonical.garnerPass {y : Nat} {work : List (Nat × GarnerOp)} {held : List Nat} (h : Canonical s) :
    Canonical (garnerPass s y work held) := by
  induction work generalizing s held with
  | nil => exact h
  | cons o rest ih =>
    unfold garnerPass
    split
    · exact h
    · split
      · exact ih h
      · exact ih h.garnerEffect.setYoke

protected theorem Canonical.garnerSettle {y : Nat} (h : Canonical s) : Canonical (garnerSettle s y) := by
  unfold garnerSettle
  split
  · exact h
  · exact h.garnerPass

protected theorem Canonical.garnerLost {k : Yoke} (h : Canonical s) : Canonical (garnerLost s k) := h.foldl fun _ _ ht => ht.garnerEffect

protected theorem Canonical.loseYoke {y : Nat} (h : Canonical s) : Canonical (loseYoke s y) := by
  unfold loseYoke
  split
  · exact h
  · exact Canonical.lostDone (Canonical.completeParks (Canonical.setYoke (Canonical.completeParks (Canonical.setYoke (h.garnerLost.foldl
      fun _ _ ht => ht.endRun)))))

protected theorem Canonical.releaseLease {g : Nat} (h : Canonical s) : Canonical (releaseLease s g).1 := by
  unfold releaseLease
  split
  · exact h
  · split
    · exact h.failFormation
    · split
      · exact h
      · exact h.setYoke.lostDone
    · split
      · exact h
      · split
        · exact h.setYoke
        · split
          · exact h
          · exact h.setYoke

protected theorem Canonical.garnerQueue {y i : Nat} {k : Yoke} {l : List GarnerOp} (h : Canonical s) : Canonical (garnerQueue s y k i l) :=
  h.setYoke.garnerSettle

protected theorem Canonical.yokeSettle {y : Nat} (h : Canonical s) : Canonical (yokeSettle s y) := by
  unfold yokeSettle
  split
  · exact h
  · dsimp only
    split
    · split
      · split
        · split
          · exact Canonical.update (Canonical.garnerSettle (Canonical.setYoke (h.foldl fun _ _ ht => ht.endRun)))
          · exact Canonical.garnerSettle (Canonical.setYoke (h.foldl fun _ _ ht => ht.endRun))
        · split
          · exact Canonical.update (Canonical.garnerSettle (Canonical.setYoke (h.foldl fun _ _ ht => ht.endRun)))
          · exact Canonical.garnerSettle (Canonical.setYoke (h.foldl fun _ _ ht => ht.endRun))
      · split
        · split
          · exact Canonical.update (Canonical.garnerSettle (Canonical.setYoke (h.foldl fun _ _ ht => ht.endRun)))
          · exact Canonical.garnerSettle (Canonical.setYoke (h.foldl fun _ _ ht => ht.endRun))
        · split
          · exact Canonical.update (Canonical.garnerSettle (Canonical.setYoke (h.foldl fun _ _ ht => ht.endRun)))
          · exact Canonical.garnerSettle (Canonical.setYoke (h.foldl fun _ _ ht => ht.endRun))
    · split
      · split
        · exact Canonical.update (Canonical.garnerSettle (Canonical.setYoke (h.foldl fun _ _ ht => ht.endRun)))
        · exact Canonical.garnerSettle (Canonical.setYoke (h.foldl fun _ _ ht => ht.endRun))
      · split
        · exact Canonical.update (Canonical.garnerSettle (Canonical.setYoke (h.foldl fun _ _ ht => ht.endRun)))
        · exact Canonical.garnerSettle (Canonical.setYoke (h.foldl fun _ _ ht => ht.endRun))

/-! ### Groups -/

protected theorem Canonical.checkGbar {g : Nat} (h : Canonical s) : Canonical (checkGbar s g) := h.setGroup.update.ite h

protected theorem Canonical.releasePartners {g waveId : Nat} (h : Canonical s) : Canonical (releasePartners s g waveId) := h.update

protected theorem Canonical.drainAll (h : Canonical s) : Canonical (drainAll s) := h.foldl fun _ _ ht => ht.drainPath

protected theorem Canonical.leaveCore {core : Nat} (h : Canonical s) : Canonical (leaveCore s core) := h.drainPath.setCore

protected theorem Canonical.performAll (h : Canonical s) : Canonical (performAll s) := h.drainAll.barSteps.barSteps

protected theorem Canonical.writeCompletion {ctag status faults : Nat} {cpla : DWord} {launchId : Word} (h : Canonical s) :
    Canonical (writeCompletion s ctag cpla status launchId faults) :=
  h.ite h.drainAll.ctxRecord

protected theorem Canonical.freeEntry {ctag : Nat} {dep : Option Nat} (h : Canonical s) : Canonical (freeEntry s ctag dep) := by
  unfold freeEntry
  split
  · exact h
  · exact h.ctxRecord

protected theorem Canonical.checkLaunch {k : Nat} (h : Canonical s) : Canonical (checkLaunch s k) := by
  unfold checkLaunch
  split
  · exact h
  · exact ((h.ite h.writeCompletion).freeEntry).update.ite h

protected theorem Canonical.removeGroup {g : Nat} (h : Canonical s) : Canonical (removeGroup s g) := by
  unfold removeGroup
  dsimp only
  refine Canonical.checkLaunch ?_
  split <;> exact h.update

protected theorem Canonical.checkEnding {g : Nat} (h : Canonical s) : Canonical (checkEnding s g) := ((h.ite h.setGroup).ite h.removeGroup).ite h

protected theorem Canonical.checkEndings (h : Canonical s) : Canonical (checkEndings s) := by
  unfold checkEndings
  dsimp only
  refine Canonical.foldl ?_ fun _ _ ht => ?_
  · refine h.foldl fun _ _ ht => ?_
    split
    · exact ht.checkEnding
    · exact ht
  · split
    · exact ht.checkEnding
    · exact ht

protected theorem Canonical.checkLaunches (h : Canonical s) : Canonical (checkLaunches s) := h.foldl fun _ _ ht => ht.checkLaunch

protected theorem Canonical.endGroup {g : Nat} (h : Canonical s) : Canonical (endGroup s g) :=
  Canonical.checkEndings (h.setGroup.releaseLease.foldl fun _ _ ht => ht.ite ht.freePlot)

protected theorem Canonical.retireWave {u : Nat} {cause : DWord} (h : Canonical s) : Canonical (retireWave s u cause) := by
  unfold retireWave
  dsimp only
  split
  · refine Canonical.leaveBarriers ?_
    split
    · exact h
    · exact h.breakLanes
  · split
    · split
      · exact h.leaveBarriers.update.releasePartners.checkGbar.endGroup
      · exact h.leaveBarriers.update.releasePartners.checkGbar
    · split
      · split
        · exact h.breakLanes.leaveBarriers.update.releasePartners.checkGbar.endGroup
        · exact h.breakLanes.leaveBarriers.update.releasePartners.checkGbar
      · split
        · exact h.breakLanes.leaveBarriers.update.releasePartners.checkGbar.endGroup
        · exact h.breakLanes.leaveBarriers.update.releasePartners.checkGbar

/-! ### Kills -/

protected theorem Canonical.logFault {ctag cause : Nat} {region info : DWord} (h : Canonical s) : Canonical (logFault s ctag region cause info) := by
  unfold logFault
  dsimp only
  split
  · exact h
  · exact h.ctxRecord.ctxRecord.ite h.ctxRecord

protected theorem Canonical.countFault {launch : Nat} (h : Canonical s) : Canonical (countFault s launch) := by
  unfold countFault
  split
  · exact h
  · exact h.update

protected theorem Canonical.waveFault {u cause : Nat} {info : DWord} (h : Canonical s) : Canonical (waveFault s u cause info) := by
  unfold waveFault
  split
  · exact h
  · exact h.logFault.countFault

protected theorem Canonical.transferFault {t : Transfer} {reason va : Nat} (h : Canonical s) : Canonical (transferFault s t reason va) := by
  unfold transferFault
  dsimp only
  refine Canonical.countFault (Canonical.logFault ?_)
  split
  · exact h
  · exact h.update

protected theorem Canonical.commandRecord {t : Transfer} {status reason : Nat} (h : Canonical s) : Canonical (commandRecord s t status reason) :=
  h.ctxRecord.ite h

protected theorem Canonical.endOutcome {x status reason va : Nat} {t : Transfer} (h : Canonical s) :
    Canonical (endOutcome s x t status reason va) := by
  unfold endOutcome
  dsimp only
  split
  · split
    · refine Canonical.foldl ?_ fun _ _ ht => ht.failPlot
      split
      · split
        · split
          · exact h
          · exact h.setYoke
        · exact h
      · exact h
    · split
      · split
        · split
          · exact h
          · exact h.setYoke
        · exact h
      · exact h
  · split
    · refine Canonical.transferFault ?_
      split
      · split
        · exact h
        · exact h.setYoke
      · exact h
    · split <;> exact h

protected theorem Canonical.arrive {t : Transfer} (h : Canonical s) : Canonical (arrive s t) := by
  unfold arrive
  split
  · exact h
  · exact ((h.update.ite h).barFlush).barArrive

protected theorem Canonical.leaveEngine {x status reason : Nat} {t : Transfer} (h : Canonical s) : Canonical (leaveEngine s x t status reason) := by
  unfold leaveEngine
  dsimp only
  refine Canonical.checkLaunch (Canonical.checkEndings ?_)
  split
  · exact Canonical.commandRecord (h.update.foldl fun _ _ ht => ht.endAccess)
  · exact Canonical.arrive (Canonical.commandRecord (h.update.foldl fun _ _ ht => ht.endAccess))

protected theorem Canonical.endTransfer {x status reason va : Nat} (h : Canonical s) : Canonical (endTransfer s x status reason va) := by
  unfold endTransfer
  split
  · exact h
  · exact h.endOutcome.leaveEngine

protected theorem Canonical.cancelTransfer {x : Nat} (h : Canonical s) : Canonical (cancelTransfer s x) := h.endTransfer

protected theorem Canonical.resetTransfer {x : Nat} (h : Canonical s) : Canonical (resetTransfer s x) := by
  unfold resetTransfer
  split
  · exact h
  · exact h.leaveEngine

protected theorem Canonical.releaseTransfers (h : Canonical s) : Canonical (releaseTransfers s) := by
  unfold releaseTransfers
  dsimp only
  refine h.update.foldl fun _ _ ht => ?_
  split
  · exact ht
  · split
    · exact ht.ite ht.endTransfer
    · exact ht

protected theorem Canonical.killGroup {g : Nat} (h : Canonical s) : Canonical (killGroup s g) := by
  unfold killGroup
  split
  · exact h
  · dsimp only
    split
    · refine Canonical.removeGroup ?_
      split
      · refine Canonical.releaseTransfers (Canonical.setGroup ?_)
        split
        · exact h.ite h.loseYoke
        · exact h
      · refine Canonical.setGroup ?_
        split
        · exact h.ite h.loseYoke
        · exact h
    · refine Canonical.checkEndings (Canonical.foldl ?_ fun _ _ ht => ?_)
      · refine Canonical.update (Canonical.foldl ?_ fun _ _ ht => ht.settleWave)
        split
        · refine Canonical.releaseTransfers (Canonical.setGroup ?_)
          split
          · exact h.ite h.loseYoke
          · exact h
        · refine Canonical.setGroup ?_
          split
          · exact h.ite h.loseYoke
          · exact h
      · split
        · exact ht.ite ht.retireWave
        · exact ht

protected theorem Canonical.killWhere {ctag : Nat} {stop : State → Nat → State} {p : DWord → Bool} (h : Canonical s) (hstop : ∀ a b, Canonical a →
    Canonical (stop a b)) :
    Canonical (killWhere s ctag stop p) :=
  Canonical.postFutures (Canonical.checkLaunches (Canonical.checkEndings (Canonical.foldl (Canonical.update (Canonical.breakRegion (h.update.foldl
    fun _ _ ht => hstop _ _ ht))) fun _ _ ht => ht.killGroup)))

protected theorem Canonical.killDomain {ctag root : Nat} (h : Canonical s) : Canonical (killDomain s ctag root) :=
  Canonical.killWhere (h.foldl fun _ _ ht => ht.ctxRecord) fun _ _ ht => ht.cancelTransfer

protected theorem Canonical.killTree {ctag : Nat} {stop : State → Nat → State} (h : Canonical s) (hstop : ∀ a b, Canonical a → Canonical (stop a b)) :
    Canonical (killTree s ctag stop) := by
  unfold killTree
  exact Canonical.killWhere (h.foldl fun _ _ ht => ht.ctxRecord) fun _ _ ht => hstop _ _ ht

protected theorem Canonical.killContext {ctag : Nat} (h : Canonical s) : Canonical (killContext s ctag) :=
  h.killTree fun _ _ ht => ht.cancelTransfer

/-! ### The operations that meanings are written over -/

protected theorem Canonical.setWave {u : Nat} {w : Wave} (h : Canonical s) : Canonical (setWave s u w) := h.update

protected theorem Canonical.onWave {f : Nat → Wave → State} (h : Canonical s) (hf : ∀ a b, Canonical (f a b)) :
    KeepsOut (onWave s f) := by
  unfold onWave
  split
  · exact .fault _
  · exact .next (hf _ _)

protected theorem Canonical.regOp {nx : BitVec 2} {f : Wave → Wave} (h : Canonical s) : KeepsOut (regOp s nx f) :=
  h.onWave fun _ _ => h.setWave

protected theorem Canonical.holdWave {u : Nat} {w : Wave} {t : Trap} (h : Canonical s) : Canonical (holdWave s u w t) :=
  h.setWave.ite h.setWave.postEvent

protected theorem Canonical.breakSheafLanes {u : Nat} {t : Trap} (h : Canonical s) : Canonical (breakSheafLanes s u t) := by
  unfold breakSheafLanes
  dsimp only
  split
  · exact h.breakLanes
  · exact h.breakLanes.setWave.retireWave.ite h.breakLanes.setWave

protected theorem Canonical.takeTrap {u : Nat} {t : Trap} {replay laneWise : Bool} (h : Canonical s) :
    Canonical (takeTrap s u t replay laneWise) := by
  unfold takeTrap
  dsimp only
  split
  · exact h.settleWave
  · split
    · exact (h.settleWave.waveFault.ite h.settleWave).killContext
    · split
      · split
        · exact (h.settleWave.waveFault.ite h.settleWave).breakSheafLanes
        · exact ((h.settleWave.waveFault.ite h.settleWave).breakLanes).retireWave
      · split
        · exact ((h.settleWave.waveFault.ite h.settleWave).breakLanes).retireWave
        · split
          · exact (h.settleWave.waveFault.ite h.settleWave).killDomain
          · split
            · split
              · exact h.settleWave.waveFault.killDomain
              · exact h.settleWave.setWave.ite h.settleWave.holdWave
            · split
              · exact (h.settleWave.waveFault.ite h.settleWave).holdWave
              · split
                · exact ((h.settleWave.waveFault.ite h.settleWave).setWave).holdYoke
                · exact (h.settleWave.waveFault.ite h.settleWave).setWave

protected theorem Canonical.stopWave {u : Nat} {e : Stop} {laneWise : Bool} (h : Canonical s) : Canonical (stopWave s u e laneWise) := by
  unfold stopWave
  split
  · exact h.takeTrap
  · exact h.parkFaults
  · exact h

protected theorem Canonical.raise {u cause reason arg : Nat} (h : Canonical s) : Canonical (raise s u cause reason arg) := h.takeTrap

protected theorem Canonical.checked {α : Type} {c : Nat → Wave → Check α} {f : Nat → Wave → α → State} (h : Canonical s) (hf : ∀ a b c,
    Canonical (f a b c)) :
    KeepsOut (checked s c f) := by
  unfold checked
  refine h.onWave fun _ _ => ?_
  split
  · exact h.stopWave
  · exact hf _ _ _

protected theorem Canonical.returnTrap {u next : Nat} (h : Canonical s) : Canonical (returnTrap s u next) := by
  unfold returnTrap
  split
  · exact h
  · dsimp only
    split
    · split
      · exact (h.breakLanes.ite h).unholdYoke.ite (h.breakLanes.ite h)
      · exact h.breakLanes.ite h
    · split
      · refine Canonical.retireWave (Canonical.setWave ?_)
        split
        · exact (h.breakLanes.ite h).unholdYoke.ite (h.breakLanes.ite h)
        · exact h.breakLanes.ite h
      · refine Canonical.setWave ?_
        split
        · exact (h.breakLanes.ite h).unholdYoke.ite (h.breakLanes.ite h)
        · exact h.breakLanes.ite h

protected theorem Canonical.flushResults {u : Nat} (h : Canonical s) : Canonical (flushResults s u) := by
  unfold flushResults
  dsimp only
  split
  · exact h.completeResults
  · exact h.completeResults.ite h.completeResults.setWave

protected theorem Canonical.fenceRelease {c scope : Nat} (h : Canonical s) : Canonical (fenceRelease s c scope) := h.drainPath.ite h

protected theorem Canonical.fenceAcquire {c scope : Nat} (h : Canonical s) : Canonical (fenceAcquire s c scope) := h.dropShared.ite h

protected theorem Canonical.dropCode {c ctag : Nat} (h : Canonical s) : Canonical (dropCode s c ctag) := h.setCore

/-! ### Accesses of waves -/

protected theorem Canonical.sendAsks {u : Nat} {w : Wave} {l : Placed} {asks : List PeerAsk} (h : Canonical s) : Canonical (sendAsks s u w l asks) :=
  h.update.setWave

protected theorem Canonical.withPeers {u : Nat} {w : Wave} {l : Placed} {asks : List PeerAsk} {laneWise : Bool}
    {k : State → List (List Byte) → State} (h : Canonical s) (hk : ∀ a b, Canonical a → Canonical (k a b)) :
    Canonical (withPeers s u w l asks laneWise k) := by
  unfold withPeers
  split
  · exact hk _ _ h
  · split
    · exact h.sendAsks
    · split
      · exact h
      · dsimp only
        split
        · exact hk _ _ h.setWave
        · exact h.setWave.takeTrap

protected theorem Canonical.readPiece {c : Nat} {p : Place × Nat} (h : Canonical s) : Canonical (readPiece s c p).1 := by
  unfold readPiece
  split
  · exact h.orderedRead
  · exact h.settleLine.coreRead

protected theorem Canonical.readPlaces {c : Nat} {asks : List PeerAsk} {scalar : Bool} {answers : List (List Byte)} {l : List (Place × Nat)}
    (h : Canonical s) : Canonical (readPlaces s c asks scalar answers l).1 := by
  refine Canonical.foldlFst h fun _ _ hq => ?_
  split
  · exact hq
  · exact hq.readPiece

protected theorem Canonical.loadPiece {c u id part : Nat} {asks : List PeerAsk} {scalar : Bool} {answers : List (List Byte)} {p : Place × Nat}
    (h : Canonical s) :
    Canonical (loadPiece s c u id part asks scalar answers p).1 := by
  unfold loadPiece
  split
  · exact h
  · split
    · split
      rename_i e
      exact h.orderedRead.fst e
    · exact h.settleLine.coreLoad

protected theorem Canonical.issueLoads {c u id : Nat} {scalar : Bool} {answers : List (List Byte)} {l : Placed} (h : Canonical s) :
    Canonical (issueLoads s c u id scalar answers l).1 :=
  Canonical.foldlFst h fun _ _ hq => hq.loadPiece

protected theorem Canonical.writePiece {c u : Nat} {p : Place} {b : List Byte} (h : Canonical s) : Canonical (writePiece s c u p b) :=
  h.ite (h.orderedWrite.ite h.settleLine.coreWrite)

protected theorem Canonical.writeLane {c u : Nat} {l : List (Place × Nat)} {b : List Byte} (h : Canonical s) : Canonical (writeLane s c u l b) :=
  Canonical.foldlFst h fun _ _ hq => hq.writePiece

protected theorem Canonical.loadAt {u : Nat} {w : Wave} {nx : BitVec 2} {la : BitVec 4} {scalar laneWise : Bool} {regs : List RegName}
    {form : LoadForm}
    {l : Placed} (h : Canonical s) : Canonical (loadAt s u w nx la scalar laneWise regs form l) :=
  h.withPeers fun t _ ht => ht.update.issueLoads.setWave

protected theorem Canonical.scalarLoad {nx : BitVec 2} {d : BitVec 6} {n : Nat} {la : BitVec 4} {addr : Wave → Nat} {signed : Bool}
    (h : Canonical s) :
    KeepsOut (scalarLoad s nx d n la addr signed) :=
  h.checked fun _ _ _ => h.loadAt

protected theorem Canonical.scalarStore {nx : BitVec 2} {d : BitVec 6} {n : Nat} {la : BitVec 4} {addr : Wave → Nat} (h : Canonical s) :
    KeepsOut (scalarStore s nx d n la addr) :=
  h.checked fun _ _ _ => h.withPeers fun _ _ ht => Canonical.setWave (ht.foldl fun _ _ ht' => ht'.writeLane)

protected theorem Canonical.atomLane {c scope : Nat} {p : Place} {r : AtomReq} (h : Canonical s) : Canonical (atomLane s c scope p r).1 :=
  h.coreAtomic

protected theorem Canonical.scalarAtomic {nx : BitVec 2} {d a : BitVec 6} {ty op scope : Nat} (h : Canonical s) :
    KeepsOut (scalarAtomic s nx d a ty op scope) := by
  unfold scalarAtomic
  dsimp only
  refine h.checked fun _ _ _ => ?_
  refine h.withPeers fun _ _ ht => ?_
  split
  · split
    · exact ht.update.setWave
    · split <;> exact ht.update.atomLane.setWave
  · exact ht.update

/-! ### Plots, as instructions use them -/

protected theorem Canonical.execPalloc {nx : BitVec 2} {v : BitVec 1} {a b : BitVec 6} {t : BitVec 4} (h : Canonical s) :
    KeepsOut (execPalloc nx v a b t s) := by
  unfold execPalloc
  dsimp only
  refine h.checked fun _ _ _ => ?_
  split
  · exact h.setWave
  · exact h.setWave.setPlot

protected theorem Canonical.execPfree {nx : BitVec 2} {a : BitVec 6} (h : Canonical s) : KeepsOut (execPfree nx a s) := by
  unfold execPfree
  exact h.checked fun _ _ _ => h.setWave.freePlot.checkEndings

protected theorem Canonical.execParm {nx : BitVec 2} {a b : BitVec 6} (h : Canonical s) : KeepsOut (execParm nx a b s) := by
  unfold execParm
  exact h.checked fun _ _ _ => h.setWave.armPlot

protected theorem Canonical.execPstate {nx : BitVec 2} {d a : BitVec 6} (h : Canonical s) : KeepsOut (execPstate nx d a s) := by
  unfold execPstate
  exact h.checked fun _ _ _ => h.setWave

protected theorem Canonical.execPinfo {nx k : BitVec 2} {d a : BitVec 6} (h : Canonical s) : KeepsOut (execPinfo nx d a k s) := by
  unfold execPinfo
  exact h.checked fun _ _ _ => h.setWave

protected theorem Canonical.execPwait {nx : BitVec 2} {a : BitVec 6} (h : Canonical s) : KeepsOut (execPwait nx a s) := by
  unfold execPwait
  exact h.checked fun _ _ _ => (h.parkWave.ite h.setWave)

protected theorem Canonical.execPld {nx : BitVec 2} {d a : BitVec 6} {l : BitVec 4} (h : Canonical s) : KeepsOut (execPld nx d a l s) := by
  unfold execPld
  exact h.checked fun _ _ _ => h.update.setWave.acceptRead

protected theorem Canonical.execPst {nx : BitVec 2} {d a : BitVec 6} {l : BitVec 4} (h : Canonical s) : KeepsOut (execPst nx d a l s) := by
  unfold execPst
  refine h.checked fun _ _ _ => ?_
  dsimp only
  split
  · exact h.setWave.setPlot.deliver
  · exact h.setWave.setPlot

/-! ### Transfers -/

protected theorem Canonical.sendPeer {x va kind key : Nat} {t : Transfer} {pkt : Nat → Packet} (h : Canonical s) :
    Canonical (sendPeer s x t va kind pkt key).1 :=
  h.update

protected theorem Canonical.readBlock {x : Nat} {t : Transfer} {va : DWord} (h : Canonical s) : Canonical (readBlock s x t va).1 := by
  unfold readBlock
  dsimp only
  split
  · exact h
  · split
    · exact h
    · split
      · exact h.sendPeer
      · exact h.agentRead.viaDie

protected theorem Canonical.readOnce {x : Nat} {t : Transfer} {va : DWord} (h : Canonical s) : Canonical (readOnce s x t va).1 := by
  unfold readOnce
  dsimp only
  split
  · exact h
  · split
    · rename_i e
      exact h.readBlock.fst e
    · rename_i e
      exact (h.readBlock.fst e).update

protected theorem Canonical.readOnceAll {x : Nat} {t : Transfer} {bs : List DWord} (h : Canonical s) : Canonical (readOnceAll s x t bs).1 := by
  induction bs generalizing s with
  | nil => exact h
  | cons b rest ih =>
    unfold readOnceAll
    split
    · rename_i e
      exact h.readOnce.fst e
    · rename_i e
      exact ih (h.readOnce.fst e)

protected theorem Canonical.writeBlock {x : Nat} {t : Transfer} {va : DWord} {m : List (Option Byte)} (h : Canonical s) :
    Canonical (writeBlock s x t va m).1 := by
  unfold writeBlock
  split
  · exact h
  · split
    · exact h
    · split
      · split
        rename_i e
        exact h.sendPeer.fst e
      · exact Canonical.viaDie (h.foldl fun _ _ ht => ht.agentWrite)

protected theorem Canonical.writeBlocks {x : Nat} {t : Transfer} {c : OutCells} {far : Bool} {bs : List Nat} (h : Canonical s) :
    Canonical (writeBlocks s x t c far bs).1 := by
  induction bs generalizing s t with
  | nil => exact h
  | cons b rest ih =>
    unfold writeBlocks
    dsimp only
    split
    · exact h
    · split
      · exact ih h
      · split
        · rename_i e
          exact h.writeBlock.fst e
        · rename_i e
          exact ih (h.writeBlock.fst e)

protected theorem Canonical.writeCells {x : Nat} {t : Transfer} {c : OutCells} (h : Canonical s) : Canonical (writeCells s x t c).1 := by
  unfold writeCells
  dsimp only
  split
  · exact h
  · split
    · rename_i e
      exact h.writeBlocks.fst e
    · rename_i e
      exact (h.writeBlocks.fst e).writeBlocks

protected theorem Canonical.parkTransfer {x : Nat} {f : Recov} (h : Canonical s) : Canonical (parkTransfer s x f) := by
  unfold parkTransfer
  split
  · exact h
  · split
    rename_i e
    exact ((h.raiseFault.fst e).update).postFaults

protected theorem Canonical.haltTransfer {x : Nat} {h : Halt} (hc : Canonical s) : Canonical (haltTransfer s x h) := by
  unfold haltTransfer
  split
  · exact hc.endTransfer.killContext.ite hc.endTransfer
  · exact hc.parkTransfer
  · exact hc

protected theorem Canonical.advance {x n : Nat} (h : Canonical s) : Canonical (advance s x n) := by
  unfold advance
  split
  · exact h
  · exact h.update.endTransfer.ite h.update

protected theorem Canonical.deliverTo {x n : Nat} {t : Transfer} {elems : List (Nat × Nat × List Byte)} {q : Nat × Nat} (h : Canonical s) :
    Canonical (deliverTo s x t elems n q) := by
  unfold deliverTo
  split
  · exact h
  · exact (h.failPlot.ite h.setPlot.deliver).ite (((h.failPlot.ite h).ite ((h.setPlot.ite h))))

protected theorem Canonical.copyIn {x : Nat} {t : Transfer} (h : Canonical s) : Canonical (copyIn s x t) := by
  unfold copyIn
  dsimp only
  split
  · rename_i e
    exact (h.readOnce.fst e).haltTransfer
  · rename_i e
    split
    · split
      · exact Canonical.endTransfer (Canonical.foldl (h.readOnce.fst e) fun _ _ ht => ht.deliverTo)
      · exact Canonical.advance (Canonical.foldl (h.readOnce.fst e) fun _ _ ht => ht.deliverTo)
    · split
      · exact Canonical.endTransfer (Canonical.foldl (h.readOnce.fst e) fun _ _ ht => ht.deliverTo)
      · exact Canonical.foldl (h.readOnce.fst e) fun _ _ ht => ht.deliverTo

protected theorem Canonical.snapBytes {x i o n : Nat} {t : Transfer} (h : Canonical s) : Canonical (snapBytes s x t i o n).1 := by
  unfold snapBytes
  dsimp only
  split
  · exact h
  · split
    · split
      · rename_i e
        exact h.readOnce.fst e
      · rename_i e
        exact h.readOnce.fst e
    · exact h

protected theorem Canonical.snapRange {x o n : Nat} {t : Transfer} (h : Canonical s) : Canonical (snapRange s x t o n).1 := by
  unfold snapRange
  dsimp only
  split
  · rename_i e
    exact h.snapBytes.fst e
  · rename_i e
    split
    · exact h.snapBytes.fst e
    · split
      · rename_i e'
        exact (h.snapBytes.fst e).snapBytes.fst e'
      · rename_i e'
        exact (h.snapBytes.fst e).snapBytes.fst e'

protected theorem Canonical.putPiece {x n : Nat} {t : Transfer} {c : OutCells} (h : Canonical s) : Canonical (putPiece s x t n c) := by
  unfold putPiece
  split
  · rename_i e
    exact (h.writeCells.fst e).haltTransfer
  · rename_i e
    exact (h.writeCells.fst e).advance

protected theorem Canonical.copyOut {x : Nat} {t : Transfer} (h : Canonical s) : Canonical (copyOut s x t) := h.putPiece

protected theorem Canonical.matrixOut {x : Nat} {t : Transfer} (h : Canonical s) : Canonical (matrixOut s x t) := by
  unfold matrixOut
  dsimp only
  split
  · exact h
  · split
    · exact h.putPiece
    · split
      · rename_i e
        exact (h.writeBlock.fst e).haltTransfer
      · rename_i e
        exact (h.writeBlock.fst e).advance

protected theorem Canonical.pieceBytesOf {x n : Nat} {t : Transfer} (h : Canonical s) : Canonical (pieceBytesOf s x t n).1 := by
  unfold pieceBytesOf
  dsimp only
  split
  · exact h
  · split
    · exact h
    · split
      · rename_i e
        exact h.readOnceAll.fst e
      · rename_i e
        exact h.readOnceAll.fst e

protected theorem Canonical.readOld {x : Nat} {t : Transfer} {bs : List Nat} (h : Canonical s) : Canonical (readOld s x t bs).1 := by
  induction bs generalizing s with
  | nil => exact h
  | cons b rest ih =>
    unfold readOld
    split
    · rename_i e
      exact h.readBlock.fst e
    · rename_i e
      have hb := ih (h.readBlock.fst e)
      split
      · rename_i e'
        exact hb.fst e'
      · rename_i e'
        exact hb.fst e'

/-! ### Management commands -/

protected theorem Canonical.done {result : Nat} (h : Canonical s) : Canonical (done s result).1 := h

protected theorem Canonical.commandBlock {x : Nat} {t : Transfer} (h : Canonical s) : Canonical (commandBlock s x t) := by
  unfold commandBlock
  dsimp only
  split
  · exact h.endTransfer
  · split
    · exact h.endTransfer
    · generalize hg : (if cmdOpc t.cmd = 3 then snapRange s x t t.done (pieceLen s t) else pieceBytesOf s x t (pieceLen s t)) = got
      have hgot : Canonical got.1 := by
        rw [← hg]
        split
        · exact h.snapRange
        · exact h.pieceBytesOf
      split
      · exact hgot.haltTransfer
      · split
        · exact hgot.putPiece
        · split
          · rename_i e
            exact (hgot.readOld.fst e).haltTransfer
          · rename_i e
            exact (hgot.readOld.fst e).putPiece

protected theorem Canonical.transferBlock {x : Nat} (h : Canonical s) : Canonical (transferBlock s x) := by
  unfold transferBlock
  split
  · exact h
  · split
    · exact h
    · split
      · exact h.commandBlock
      · exact h.copyOut
      · exact h.matrixOut
      · exact h.copyIn

/-! ### Copies -/

protected theorem Canonical.registerBar {c : Nat} {bar : Option Place} (h : Canonical s) : Canonical (registerBar s c bar) := by
  unfold registerBar
  split
  · exact h
  · exact h.reachLine.barSend

protected theorem Canonical.startTransfer {t : Transfer} {moves : Bool} (h : Canonical s) : Canonical (startTransfer s t moves) :=
  h.update.ite h.update.endTransfer

protected theorem Canonical.acceptCopy {nx : BitVec 2} {u h : Nat} {w : Wave} {p : CopyPlan} (hc : Canonical s) :
    Canonical (acceptCopy s nx u w p h) := by
  unfold acceptCopy
  dsimp only
  refine Canonical.startTransfer (Canonical.registerBar ?_)
  split
  · exact hc.drainPath.setWave.foldl fun _ _ ht => ht.creditPlot
  · exact hc.drainPath.setWave

protected theorem Canonical.copyInto {nx : BitVec 2} {c : CopyArgs} (h : Canonical s) : KeepsOut (copyInto s nx c) :=
  h.checked fun _ _ _ => h.acceptCopy

protected theorem Canonical.execCpyout {nx : BitVec 2} {d a b : BitVec 6} {c r : BitVec 1} (h : Canonical s) :
    KeepsOut (execCpyout nx d a b c r s) := by
  unfold execCpyout
  exact h.checked fun _ _ _ => Canonical.startTransfer (Canonical.registerBar (h.drainPath.setWave.foldl fun _ _ ht => ht.acceptRead))

protected theorem Canonical.execCpybar {nx : BitVec 2} {d a : BitVec 6} (h : Canonical s) : KeepsOut (execCpybar nx d a s) := by
  unfold execCpybar
  exact h.checked fun _ _ _ => h.setWave

protected theorem Canonical.fenceSystem {u : Nat} {w : Wave} (h : Canonical s) : Canonical (fenceSystem s u w) :=
  h.flushResults.fenceRelease.fenceAcquire

protected theorem Canonical.snapPoint {x : Nat} {t : Transfer} (h : Canonical s) : Canonical (snapPoint s x t) := by
  unfold snapPoint
  dsimp only
  split
  · exact h
  · exact h.performAll.update

protected theorem Canonical.fixSnap {p : Snap} (h : Canonical s) : Canonical (fixSnap s p) := by
  unfold fixSnap
  split
  · exact h
  · exact h.ite (h.endTransfer.ite h.update)

protected theorem Canonical.resolveSnaps (h : Canonical s) : Canonical (resolveSnaps s) :=
  Canonical.update (h.update.foldl fun _ _ ht => ht.fixSnap)

protected theorem Canonical.execXeng {nx : BitVec 2} {d a : BitVec 6} (h : Canonical s) : KeepsOut (execXeng nx d a s) := by
  unfold execXeng
  refine h.checked fun _ _ _ => ?_
  refine h.drainPath.withPeers fun _ _ ht => ?_
  split
  rename_i e
  dsimp only
  split
  · exact (ht.readPlaces.fst e).stopWave
  · split
    · split
      · split
        · split
          · exact (((((((ht.readPlaces.fst e).fenceSystem).setWave).acceptRead).registerBar).startTransfer).snapPoint).setWave
          · exact ((((((ht.readPlaces.fst e).fenceSystem).setWave).acceptRead).registerBar).startTransfer).snapPoint
        · split
          · exact ((((((ht.readPlaces.fst e).setWave).acceptRead).registerBar).startTransfer).snapPoint).setWave
          · exact (((((ht.readPlaces.fst e).setWave).acceptRead).registerBar).startTransfer).snapPoint
      · split
        · split
          · exact ((((((ht.readPlaces.fst e).fenceSystem).setWave).registerBar).startTransfer).snapPoint).setWave
          · exact (((((ht.readPlaces.fst e).fenceSystem).setWave).registerBar).startTransfer).snapPoint
        · split
          · exact (((((ht.readPlaces.fst e).setWave).registerBar).startTransfer).snapPoint).setWave
          · exact ((((ht.readPlaces.fst e).setWave).registerBar).startTransfer).snapPoint
    · refine Canonical.startTransfer (Canonical.registerBar ?_)
      split
      · exact (((ht.readPlaces.fst e).fenceSystem.ite (ht.readPlaces.fst e)).setWave).acceptRead
      · exact ((ht.readPlaces.fst e).fenceSystem.ite (ht.readPlaces.fst e)).setWave

protected theorem Canonical.execPublish {nx : BitVec 2} {a b : BitVec 6} (h : Canonical s) : KeepsOut (execPublish nx a b s) := by
  unfold execPublish
  refine h.checked fun _ _ _ => ?_
  dsimp only
  split
  · exact h.fenceSystem.setWave
  · exact h.fenceSystem.setWave.update

protected theorem Canonical.dropTlb {ctag base n : Nat} (h : Canonical s) : Canonical (dropTlb s ctag base n) := h.update

protected theorem Canonical.dropLines {hit : Nat → Bool} (h : Canonical s) : Canonical (dropLines s hit) := h.update

protected theorem Canonical.publishLeaf {e : Nat × DWord × Nat} (h : Canonical s) : Canonical (publishLeaf s e) := by
  unfold publishLeaf
  split
  exact h.ite h.dropLines.agentWrite

protected theorem Canonical.publishNow {p : Publish} (h : Canonical s) : Canonical (publishNow s p) :=
  Canonical.foldl (Canonical.dropTlb (h.foldl fun _ _ ht => ht.drainPath)) fun _ _ ht => ht.publishLeaf

protected theorem Canonical.execPublishPoint {x : Nat} (h : Canonical s) : KeepsOut (execPublishPoint x s) := by
  unfold execPublishPoint
  refine .next ?_
  split
  · exact h
  · split
    · exact h
    · dsimp only
      split
      · exact h.update.publishNow
      · split
        · exact h.update.publishNow.dropShared.setWave.ite h.update.publishNow.dropShared
        · exact h.update.publishNow.dropShared

/-! ### Sequencing -/

protected theorem Canonical.execSetmode {nx : BitVec 2} {a : BitVec 6} (h : Canonical s) : KeepsOut (execSetmode nx a s) := by
  unfold execSetmode
  exact h.checked fun _ _ _ => h.setWave

protected theorem Canonical.execReadsr {nx : BitVec 2} {d : BitVec 6} {i : BitVec 16} (h : Canonical s) : KeepsOut (execReadsr nx d i s) := by
  unfold execReadsr
  refine h.onWave fun _ _ => ?_
  split
  exact h.setWave

protected theorem Canonical.execYield {nx : BitVec 2} (h : Canonical s) : KeepsOut (execYield nx s) := by
  unfold execYield
  exact h.onWave fun _ _ => h.setWave

/-! ### Barriers and events -/

protected theorem Canonical.execBarrive {nx : BitVec 2} {d a b : BitVec 6} (h : Canonical s) : KeepsOut (execBarrive nx d a b s) := by
  unfold execBarrive
  exact h.checked fun _ _ _ => h.reachLine.update.barSend.setWave

protected theorem Canonical.execBwait {nx : BitVec 2} {a b : BitVec 6} (h : Canonical s) : KeepsOut (execBwait nx a b s) := by
  unfold execBwait
  exact h.checked fun _ _ _ => (h.barOrder.setWave.ite h.barOrder.parkWave)

protected theorem Canonical.execBjoin {nx : BitVec 2} {d a : BitVec 6} (h : Canonical s) : KeepsOut (execBjoin nx d a s) := by
  unfold execBjoin
  exact h.checked fun _ _ _ => (h.barOrder.setWave.ite h.barOrder.barPut.setWave)

protected theorem Canonical.execBleave {nx : BitVec 2} {d a : BitVec 6} (h : Canonical s) : KeepsOut (execBleave nx d a s) := by
  unfold execBleave
  exact h.checked fun _ _ _ => (h.barOrder.setWave.barLeave.ite h.barOrder.setWave)

protected theorem Canonical.execBinit {nx : BitVec 2} {a b : BitVec 6} {p : BitVec 3} (h : Canonical s) : KeepsOut (execBinit nx a b p s) := by
  unfold execBinit
  exact h.checked fun _ _ _ => (h.barOrder.stopWave.ite h.barOrder.sliceWrite.setWave)

protected theorem Canonical.countGbar {w : Wave} (h : Canonical s) : Canonical (countGbar s w) := h.setGroup

protected theorem Canonical.execGbar {nx : BitVec 2} (h : Canonical s) : KeepsOut (execGbar nx s) := by
  unfold execGbar
  refine h.onWave fun _ _ => ?_
  dsimp only
  split
  · exact h.countGbar.flushResults.setWave.checkGbar
  · exact h.settleWave.ite h.settleWave.countGbar.parkWave

protected theorem Canonical.bindSlot {u k kind : Nat} {src : BitVec 56} {o : BarObj} (h : Canonical s) : Canonical (bindSlot s u k kind src o).1 := by
  unfold bindSlot
  dsimp only
  split
  · exact h.setWave.setWave
  · split
    · exact h.setWave.setWave
    · exact h.setWave
  · exact h.setWave.askRemotes.setWave
  · exact h.setWave.setWave
  · exact h.setWave.setCtx.setWave
  · exact h.setWave.setWave

protected theorem Canonical.execEvbind {nx : BitVec 2} {k : BitVec 3} {a b : BitVec 6} {t : BitVec 4} (h : Canonical s) :
    KeepsOut (execEvbind nx k a b t s) := by
  unfold execEvbind
  refine h.checked fun _ _ _ => ?_
  dsimp only
  split
  · exact h.barOrder.bindSlot.setWave
  · exact h.bindSlot.setWave

protected theorem Canonical.acquireEvents {u : Nat} {seen : Nat → Bool} (h : Canonical s) : Canonical (acquireEvents s u seen) :=
  h.flushResults.fenceAcquire.ite h

protected theorem Canonical.execEvpend {nx : BitVec 2} {d : BitVec 6} (h : Canonical s) : KeepsOut (execEvpend nx d s) := by
  unfold execEvpend
  exact h.onWave fun _ _ => h.acquireEvents.setWave

protected theorem Canonical.execWaitany {d a : BitVec 6} (h : Canonical s) : KeepsOut (execWaitany d a s) := by
  unfold execWaitany
  refine h.onWave fun _ _ => ?_
  split
  · exact h.setWave
  · split
    · exact h.acquireEvents.setWave
    · exact h.parkWave.recheck

protected theorem Canonical.execMbsend {nx : BitVec 2} {d a b : BitVec 6} {t : BitVec 1} (h : Canonical s) : KeepsOut (execMbsend nx d a b t s) := by
  unfold execMbsend
  refine h.onWave fun _ _ => ?_
  dsimp only
  split
  · exact h.setWave
  · exact (h.setWave.ite h.raise).ite h.setWave.setWave.recheck

protected theorem Canonical.execSleep {nx : BitVec 2} {a : BitVec 6} (h : Canonical s) : KeepsOut (execSleep nx a s) := by
  unfold execSleep
  exact h.onWave fun _ _ => (h.setWave.ite h.parkWave)

protected theorem Canonical.execSleepEv {nx : BitVec 2} {d a : BitVec 6} (h : Canonical s) : KeepsOut (execSleepEv nx d a s) := by
  unfold execSleepEv
  exact h.onWave fun _ _ => (h.acquireEvents.setWave.ite (h.setWave.ite h.parkWave.recheck))

/-! ### System instructions -/

protected theorem Canonical.execTret {k : BitVec 1} (h : Canonical s) : KeepsOut (execTret k s) := by
  unfold execTret
  exact h.onWave fun _ _ => (h.setWave.returnTrap.ite h.raise)

protected theorem Canonical.writeSlot {u k : Nat} {w : Wave} {x : DWord} {p : Option Place} (h : Canonical s) :
    Canonical (writeSlot s u w k x p) := by
  unfold writeSlot
  dsimp only
  split
  · exact h.setWave
  · split
    · exact h.setWave
    · exact h.barOrder.bindSlot.ite h.barOrder.bindSlot.setWave
    · exact h.bindSlot
    · exact h.bindSlot

protected theorem Canonical.execCtlw {nx : BitVec 2} {d : BitVec 6} {i : BitVec 16} (h : Canonical s) : KeepsOut (execCtlw nx d i s) := by
  unfold execCtlw
  exact h.checked fun _ _ _ => (h.writeSlot.ite h.setWave).setWave

protected theorem Canonical.dropTlbAll {ctag : Nat} (h : Canonical s) : Canonical (dropTlbAll s ctag) := h.update

protected theorem Canonical.invalidate {ctag : Nat} {range : Option (Nat × Nat)} (h : Canonical s) : Canonical (invalidate s ctag range) := by
  unfold invalidate
  dsimp only
  split
  · exact h.performAll.holdSnaps.dropTlbAll
  · exact h.performAll.holdSnaps.dropTlb

protected theorem Canonical.releaseFence {u : Nat} {w : Wave} (h : Canonical s) : Canonical (finishTlbinv.releaseFence s u w) :=
  h.flushResults.fenceRelease

protected theorem Canonical.finishTlbinv {nx : BitVec 2} {u : Nat} {w : Wave} {range : Option (Nat × Nat)} (h : Canonical s) :
    Canonical (finishTlbinv s nx u w range) := by
  unfold finishTlbinv
  dsimp only
  refine Canonical.setWave ?_
  split
  · exact h.releaseFence
  · exact h.releaseFence.invalidate

protected theorem Canonical.execTlbinv {nx : BitVec 2} {a b : BitVec 6} (h : Canonical s) : KeepsOut (execTlbinv nx a b s) := by
  unfold execTlbinv
  exact h.checked fun _ _ _ => h.finishTlbinv

protected theorem Canonical.execTlbinvAll {nx : BitVec 2} (h : Canonical s) : KeepsOut (execTlbinvAll nx s) := by
  unfold execTlbinvAll
  exact h.checked fun _ _ _ => h.finishTlbinv

/-! ### Events of the memory system -/

protected theorem Canonical.writeResult {u : Nat} (h : Canonical s) : Canonical (writeResult s u) := by
  unfold writeResult
  split
  · exact h
  · split
    · exact h
    · exact h.setWave

protected theorem Canonical.execLlResultWrite {w : Nat} (h : Canonical s) : KeepsOut (execLlResultWrite w s) := by
  unfold execLlResultWrite
  refine .next ?_
  split
  · exact h
  · split
    · exact h
    · split
      · exact h.writeResult
      · exact h.drainFor.writeResult
      · exact h

protected theorem Canonical.execTranslationWalk {walker : Walker} {ctx : Nat} {va : BitVec 64} (h : Canonical s) :
    KeepsOut (execTranslationWalk walker ctx va s) := by
  unfold execTranslationWalk
  dsimp only
  refine .next ?_
  split
  · exact h
  · split
    · exact h.walkRecalls
    · split <;> exact h.walkRecalls.update

protected theorem Canonical.execWriteThroughPerform {path : SlicePath} (h : Canonical s) : KeepsOut (execWriteThroughPerform path s) := by
  unfold execWriteThroughPerform
  refine .next ?_
  split
  · exact h.performWay
  · exact h.performWay
  · exact h

protected theorem Canonical.execSliceAtomicPerform {path : SlicePath} (h : Canonical s) : KeepsOut (execSliceAtomicPerform path s) := by
  unfold execSliceAtomicPerform
  refine .next ?_
  split
  · exact h.performWay
  · exact h

protected theorem Canonical.execLineEviction {copy : CachedLine} (h : Canonical s) : KeepsOut (execLineEviction copy s) := by
  unfold execLineEviction
  refine .next ?_
  split
  · exact h.evictLine
  · exact h.setCore

protected theorem Canonical.evictExtent {k n : Nat} (h : Canonical s) : Canonical (evictExtent s k n) := h.foldl fun _ _ ht => ht.evictLine

protected theorem Canonical.revoke {k n : Nat} (h : Canonical s) : Canonical (revoke s k n) := h.update

protected theorem Canonical.execHostSnoop {addr : Nat} {data : List (BitVec 8)} (h : Canonical s) : KeepsOut (execHostSnoop addr data s) := by
  unfold execHostSnoop
  dsimp only
  refine .next ?_
  split
  · exact h.agentRead.evictExtent.revoke
  · exact h.agentRead.evictExtent.revoke.agentWrite.evictExtent.revoke

protected theorem Canonical.hostAccess {wr : Bool} {a n : Nat} {data : List Byte} (h : Canonical s) : Canonical (hostAccess s wr a n data) := by
  unfold hostAccess
  refine h.foldl fun _ _ ht => ?_
  split
  · exact ht.agentWrite
  · split
    rename_i e
    exact (ht.agentRead.fst e).update

protected theorem Canonical.peerAtomics {die n op t : Nat} {words : List (Nat × DWord × DWord)} (h : Canonical s) :
    Canonical (peerAtomics s die n op t words).1 :=
  Canonical.foldlFst h fun _ _ hq => hq.atomicAt

protected theorem Canonical.answerPeer {node : BitVec 12} {ok : Bool} {b : List Byte} (h : Canonical s) : Canonical (answerPeer s node ok b) :=
  h.update

protected theorem Canonical.execPeerRequest {node : BitVec 12} {req : PeerReq} (h : Canonical s) : KeepsOut (execPeerRequest node req s) := by
  unfold execPeerRequest
  refine .next ?_
  split
  · split
    · split
      rename_i e
      exact (h.agentRead.fst e).answerPeer
    · exact h.answerPeer
  · split
    · exact Canonical.answerPeer (h.foldl fun _ _ ht => ht.agentWrite)
    · exact h.answerPeer
  · dsimp only
    split
    · exact h.peerAtomics.answerPeer
    · exact h.answerPeer
  · exact h.answerPeer

protected theorem Canonical.peerAnswer {id : Nat} {ok : Bool} {b : List Byte} (h : Canonical s) : Canonical (peerAnswer s id ok b) := h.update

protected theorem Canonical.execPeerTimeout (h : Canonical s) : KeepsOut (execPeerTimeout s) := by
  unfold execPeerTimeout
  refine .next ?_
  split
  · exact h
  · exact h.peerAnswer

/-! ### Tasks -/

protected theorem Canonical.releaseAt {u scope : Nat} {w : Wave} (h : Canonical s) : Canonical (releaseAt s u w scope) := h.flushResults.fenceRelease

protected theorem Canonical.askGrant {die ctag key : Nat} (h : Canonical s) : Canonical (askGrant s die ctag key) := (h.ite h.setDie).ite h.update

protected theorem Canonical.takePool {die key : Nat} (h : Canonical s) : Canonical (takePool s die key).1 := by
  unfold takePool
  split
  · exact h
  · exact h.setDie

protected theorem Canonical.sendAsk {u die : Nat} {w : Wave} {entry : DWord} {a : TaskAsk} (h : Canonical s) :
    Canonical (sendAsk s u w die entry a).1 := by
  unfold sendAsk
  split
  · exact h
  · dsimp only
    split
    · split
      · exact h.takePool.takeFrt.sendTask
      · exact h.takePool.takeFrt.setDie
    · exact h.takePool.update

protected theorem Canonical.sendAllAsks {u die : Nat} {w : Wave} {entry : DWord} {l : List TaskAsk} (h : Canonical s) :
    Canonical (sendAllAsks s u w die entry l).1 :=
  Canonical.foldlFst h fun _ _ hq => hq.sendAsk

protected theorem Canonical.createTasks {nx : BitVec 2} {u d : Nat} {w : Wave} {entry : DWord} {l : List TaskAsk} {fixed : List (Nat × DWord)}
    (h : Canonical s) :
    Canonical (createTasks s nx u w d entry l fixed) := by
  unfold createTasks
  dsimp only
  split
  · exact h.releaseAt.sendAllAsks.setWave
  · exact Canonical.parkWave (h.foldl fun _ _ ht => ht.askGrant)

protected theorem Canonical.execInvoke {nx : BitVec 2} {d a b : BitVec 6} (h : Canonical s) : KeepsOut (execInvoke nx d a b s) := by
  unfold execInvoke
  exact h.checked fun _ _ _ => (h.setWave.ite h.createTasks)

protected theorem Canonical.execInvokef {nx : BitVec 2} {d a b : BitVec 6} (h : Canonical s) : KeepsOut (execInvokef nx d a b s) := by
  unfold execInvokef
  exact h.checked fun _ _ _ => (h.setWave.ite h.createTasks)

protected theorem Canonical.acquireFutures {u : Nat} {w : Wave} {hs : List DWord} (h : Canonical s) : Canonical (acquireFutures s u w hs) :=
  h.flushResults.fenceAcquire.ite h

protected theorem Canonical.execFpoll {nx : BitVec 2} {d a b : BitVec 6} (h : Canonical s) : KeepsOut (execFpoll nx d a b s) := by
  unfold execFpoll
  exact h.onWave fun _ _ => h.askRemotes.acquireFutures.setWave

protected theorem Canonical.execFget {nx : BitVec 2} {d a b : BitVec 6} (h : Canonical s) : KeepsOut (execFget nx d a b s) := by
  unfold execFget
  exact h.onWave fun _ _ => (h.askRemotes.parkWave.ite h.acquireFutures.setWave)

protected theorem Canonical.sendDrop {w : Wave} {h : DWord} (hc : Canonical s) : Canonical (sendDrop s w h) :=
  hc.ite ((hc.update.ite ((hc.ite hc.setDie))))

protected theorem Canonical.execFdrop {nx : BitVec 2} {a : BitVec 6} (h : Canonical s) : KeepsOut (execFdrop nx a s) := by
  unfold execFdrop
  exact h.onWave fun _ _ => Canonical.setWave (h.foldl fun _ _ ht => ht.sendDrop)

protected theorem Canonical.endTasks {nx : BitVec 2} {u : Nat} {w : Wave} {broken : Bool} {value : Nat → DWord} (h : Canonical s) :
    Canonical (endTasks s nx u w broken value) := by
  unfold endTasks
  dsimp only
  split
  · split
    · refine Canonical.retireWave (Canonical.setWave (Canonical.settleWave (Canonical.setWave (h.releaseAt.foldl fun _ _ ht => ?_))))
      split
      · exact ht.sendEnd
      · exact ht
    · refine Canonical.setWave (h.releaseAt.foldl fun _ _ ht => ?_)
      split
      · exact ht.sendEnd
      · exact ht
  · split
    · refine Canonical.retireWave (Canonical.setWave (Canonical.settleWave (Canonical.setWave (h.releaseAt.foldl fun _ _ ht => ?_))))
      split
      · exact ht.sendEnd
      · exact ht
    · refine Canonical.setWave (h.releaseAt.foldl fun _ _ ht => ?_)
      split
      · exact ht.sendEnd
      · exact ht

protected theorem Canonical.execTaskret {nx : BitVec 2} {a : BitVec 6} (h : Canonical s) : KeepsOut (execTaskret nx a s) := by
  unfold execTaskret
  exact h.checked fun _ _ _ => h.endTasks

protected theorem Canonical.execTaskbrk {nx : BitVec 2} {a : BitVec 6} (h : Canonical s) : KeepsOut (execTaskbrk nx a s) := by
  unfold execTaskbrk
  exact h.checked fun _ _ _ => h.endTasks

protected theorem Canonical.fireEntry {ctag die i : Nat} (h : Canonical s) : Canonical (fireEntry s ctag die i) := h.update.setCtx

protected theorem Canonical.entryWrite {w : Wave} {p : Place} {b : List Byte} (h : Canonical s) : Canonical (entryWrite s w p b) :=
  h.drainPath.agentWrite.dropLine

protected theorem Canonical.entryRead {w : Wave} {p : Place} {off n : Nat} (h : Canonical s) : Canonical (entryRead s w p off n).1 :=
  h.drainPath.dropLine.agentRead

protected theorem Canonical.execLaunch {nx : BitVec 2} {d a b : BitVec 6} (h : Canonical s) : KeepsOut (execLaunch nx d a b s) := by
  unfold execLaunch
  dsimp only
  refine h.checked fun _ _ _ => ?_
  refine h.releaseAt.drainPath.withPeers fun _ _ ht => ?_
  split
  · exact ht.readPlaces.update.setWave
  · split
    · exact ht.readPlaces.entryRead.update.setWave
    · exact ((ht.readPlaces.entryRead.entryWrite.fireEntry.ite ht.readPlaces.entryRead.entryWrite).update).setWave

protected theorem Canonical.execDepsig {nx : BitVec 2} {d a : BitVec 6} (h : Canonical s) : KeepsOut (execDepsig nx d a s) := by
  unfold execDepsig
  dsimp only
  refine h.checked fun _ _ _ => ?_
  split
  · exact h.releaseAt.setWave
  · split
    · exact (h.releaseAt.entryRead.entryWrite.fireEntry.ite h.releaseAt.entryRead.entryWrite).setWave
    · exact h.releaseAt.entryRead.setWave

protected theorem Canonical.fuseNow {nx xnx : BitVec 2} {u k : Nat} {mask : DWord} (h : Canonical s) : Canonical (fuseNow s nx xnx u k mask) :=
  h.settleWave.settleWave.setWave.retireWave

protected theorem Canonical.endRegroup {k : Nat} (h : Canonical s) : Canonical (endRegroup s k) := by
  unfold endRegroup
  split
  · exact h
  · split
    · exact h.setWave
    · exact h

protected theorem Canonical.execRegroup {nx : BitVec 2} {a b : BitVec 6} (h : Canonical s) : KeepsOut (execRegroup nx a b s) := by
  unfold execRegroup
  refine h.onWave fun _ _ => ?_
  dsimp only
  split
  · exact Canonical.setWave (h.foldl fun _ _ ht => ht.endRegroup)
  · split
    · exact Canonical.setWave (h.foldl fun _ _ ht => ht.endRegroup)
    · split
      · split
        · exact h.settleWave
        · split
          · exact h.fuseNow.foldl fun _ _ ht => ht.endRegroup
          · exact Canonical.endRegroup (Canonical.setWave (h.foldl fun _ _ ht => ht.endRegroup))
      · split
        · exact h.parkWave
        · exact Canonical.setWave (h.foldl fun _ _ ht => ht.endRegroup)

/-! ### Events of futures -/

protected theorem Canonical.releaseSheaf {die k : Nat} (h : Canonical s) : Canonical (releaseSheaf s die k) := by
  unfold releaseSheaf
  dsimp only
  split
  · exact h
  · exact h.update.setDie

protected theorem Canonical.formTask {die slot : Nat} (h : Canonical s) : Canonical (formTask s die slot) := by
  unfold formTask
  dsimp only
  split
  · exact h.setFrt.setDie
  · exact h.setFrt.setDie.releaseSheaf.ite h.setFrt.setDie

protected theorem Canonical.execTaskArrival {die : Nat} (h : Canonical s) : KeepsOut (execTaskArrival die s) := by
  unfold execTaskArrival
  refine .next ?_
  split
  · exact h
  · dsimp only
    split
    · exact h.setDie.formTask.ite h.setDie
    · exact h.setDie

protected theorem Canonical.execSheafTimeout {die k : Nat} (h : Canonical s) : KeepsOut (execSheafTimeout die k s) := by
  unfold execSheafTimeout
  refine .next ?_
  split
  · exact h
  · exact h.releaseSheaf.ite h

protected theorem Canonical.grantSlots {die : Nat} {l : List Nat} (h : Canonical s) : Canonical (grantSlots s die l) :=
  h.foldl fun _ _ ht => ht.setFrt

protected theorem Canonical.grantWave {u home : Nat} {got : Bool} (h : Canonical s) : Canonical (grantWave s u home got) := by
  unfold grantWave
  split
  · exact h
  · split
    · dsimp only
      split
      · exact h
      · split
        · exact h.setWave
        · split
          · exact h.setWave
          · exact h.setWave.raise
    · exact h

protected theorem Canonical.grantWaves {die home : Nat} {got : Bool} (h : Canonical s) : Canonical (grantWaves s die home got) :=
  h.foldl fun _ _ ht => ht.grantWave

protected theorem Canonical.grantTo {die home : Nat} {l : List Nat} (h : Canonical s) : Canonical (grantTo s die home l) :=
  (h.ite h.setDie).grantWaves

protected theorem Canonical.execPoolGrant {home : Nat} {slots : List (BitVec 32)} (h : Canonical s) : KeepsOut (execPoolGrant home slots s) := by
  unfold execPoolGrant
  refine .next ?_
  split
  · split
    · exact h
    · exact h.setDie.grantSlots.grantTo
  · exact h.grantTo

protected theorem Canonical.execFrtTaskEnd {die : Nat} (h : Canonical s) : KeepsOut (execFrtTaskEnd die s) := by
  unfold execFrtTaskEnd
  refine .next ?_
  split
  · exact h
  · dsimp only
    split
    · exact h.setDie.finishSlot.postFutures
    · exact h.setDie

protected theorem Canonical.execForwardArrival {die : Nat} (h : Canonical s) : KeepsOut (execForwardArrival die s) := by
  unfold execForwardArrival
  refine .next ?_
  split
  · exact h
  · dsimp only
    split
    · exact h.setDie.arriveForward.postFutures
    · exact h.setDie

protected theorem Canonical.execDropArrival {die : Nat} (h : Canonical s) : KeepsOut (execDropArrival die s) := by
  unfold execDropArrival
  refine .next ?_
  dsimp only
  split
  · exact h
  · split
    · exact h.setDie.arriveDrop.postFutures
    · exact h.setDie

protected theorem Canonical.refuseTask {node die slot : Nat} {tag : BitVec 12} (h : Canonical s) : Canonical (refuseTask s node die slot tag) :=
  (h.setFrt.ite h).update

protected theorem Canonical.takePeer {node die slot ctag : Nat} {tag : BitVec 12} {target : Option Nat} {entry argp : DWord} (h : Canonical s) :
    KeepsOpt (takePeer s node die slot tag ctag target entry argp) := by
  unfold takePeer
  dsimp only
  split
  · exact .some h.takeFrt.setFrt
  · exact .none

protected theorem Canonical.execPeerTaskMessage {node : BitVec 12} {peerCtx : Nat} {msg : PeerTask} (h : Canonical s) :
    KeepsOut (execPeerTaskMessage node peerCtx msg s) := by
  unfold execPeerTaskMessage
  refine .next ?_
  split
  · split
    · rename_i e
      obtain ⟨c, -, hc⟩ := Option.bind_eq_some_iff.1 e
      exact (h.takePeer hc).sendTask
    · exact h.refuseTask
  · dsimp only
    split
    · rename_i e
      obtain ⟨c, -, hc⟩ := Option.bind_eq_some_iff.1 e
      exact (h.takePeer hc).setDie
    · exact h.refuseTask
  · split
    · exact h
    · exact h.setDie.ite h
  · exact h.grantSlots.update

/-! ### Queues -/

protected theorem Canonical.noteBlocks {ctag : Nat} {l : List (Nat × List Byte)} (h : Canonical s) : Canonical (noteBlocks s ctag l) := h.setCtx

protected theorem Canonical.killIfLost {ctag : Nat} {lost : Bool} (h : Canonical s) : Canonical (killIfLost s ctag lost) := h.killContext.ite h

protected theorem Canonical.takeLaunch {ctag die index : Nat} {b : List Byte} {queue : Option (Bool × Nat)} {dep : Option Nat} {ordered : Bool}
    (h : Canonical s) :
    Canonical (takeLaunch s ctag die b queue index dep ordered) := by
  unfold takeLaunch
  dsimp only
  split
  · exact h.setCtx.writeCompletion.freeEntry.killIfLost
  · exact h.setCtx.noteBlocks.update

protected theorem Canonical.writeTake {ctag q head : Nat} {qt : Bool} {l : Leader} (h : Canonical s) : KeepsOpt (writeTake s ctag qt q head l) :=
  h.ctxWrite

protected theorem Canonical.setLeader {ctag q : Nat} {qt : Bool} {l : Leader} (h : Canonical s) : Canonical (setLeader s ctag qt q l) :=
  h.setCtx.ctxRecord

protected theorem Canonical.keepIdle {ctag q : Nat} {qt : Bool} {l : Leader} (h : Canonical s) : Canonical (keepIdle s ctag qt q l) :=
  h.ite h.setLeader

protected theorem Canonical.serveQueue {ctag q : Nat} {qt : Bool} (h : Canonical s) : Canonical (serveQueue s ctag qt q) := by
  unfold serveQueue
  split
  · exact h.killIfLost
  · dsimp only
    split
    · exact h
    · split
      · exact h.setLeader
      · split
        · exact h.keepIdle
        · split
          · exact h.keepIdle
          · split
            · exact h.keepIdle
            · rename_i e
              exact (h.writeTake e).setLeader

protected theorem Canonical.serveContext {ctag : Nat} (h : Canonical s) : Canonical (serveContext s ctag) :=
  h.foldl fun _ _ ht => ht.serveQueue

protected theorem Canonical.serveIdle (h : Canonical s) : Canonical (serveIdle s) :=
  h.foldl fun _ _ ht => ht.foldl fun _ _ ht' => ht'.serveQueue

protected theorem Canonical.moveFrom {die : Nat} (h : Canonical s) : Canonical (moveFrom s die) := by
  unfold moveFrom
  split
  · exact h
  · exact h.foldl fun _ _ ht => ht.foldl fun _ _ ht' => ht'.setLeader

protected theorem Canonical.dieReturned {die : Nat} (h : Canonical s) : Canonical (dieReturned s die) := (h.ite h.moveFrom).serveIdle

protected theorem Canonical.passLaunches {ctag die : Nat} {q : Bool × Nat} (h : Canonical s) : Canonical (passLaunches s ctag q die) := by
  unfold passLaunches
  refine h.foldl fun _ _ ht => ?_
  split
  · exact ht
  · exact ht.ite ht.update

protected theorem Canonical.execLeadershipMove {ctag q : Nat} {qt : Bool} (h : Canonical s) : KeepsOut (execLeadershipMove ctag qt q s) := by
  unfold execLeadershipMove
  refine .next ?_
  split
  · split
    · exact h
    · dsimp only
      split
      · exact h
      · rename_i e
        split
        · split
          · exact ((((h.writeTake e).setLeader).passLaunches).postEvent).serveIdle
          · exact (((h.writeTake e).setLeader).passLaunches).postEvent
        · split
          · split
            · exact ((((h.writeTake e).setLeader).passLaunches).postEvent).serveIdle
            · exact (((h.writeTake e).setLeader).passLaunches).postEvent
          · split
            · exact ((((h.writeTake e).setLeader).passLaunches).postEvent).serveIdle
            · exact (((h.writeTake e).setLeader).passLaunches).postEvent
  · exact h.killIfLost
  · exact h

protected theorem Canonical.noteThrottle (h : Canonical s) : Canonical (noteThrottle s) := h.foldl fun _ _ ht => ht.setDie

protected theorem Canonical.execLeaderThrottleTimeout (h : Canonical s) : KeepsOut (execLeaderThrottleTimeout s) := by
  unfold execLeaderThrottleTimeout
  refine .next ?_
  split
  · exact h
  · exact h.moveFrom

protected theorem Canonical.execQueueDescriptorEnWrite {ctag q : Nat} {qt en : Bool} (h : Canonical s) :
    KeepsOut (execQueueDescriptorEnWrite ctag qt q en s) := by
  unfold execQueueDescriptorEnWrite
  refine .next ?_
  split
  · exact h.killIfLost
  · dsimp only
    split
    · exact (h.ctxRecord.setLeader.ite h.ctxRecord).serveQueue
    · exact h.ctxRecord.ite h.ctxRecord.setLeader.serveIdle

protected theorem Canonical.unreadRecord {ctag die : Nat} {who : Waiter} {va : DWord} {refuse : State → State} {wait : State → Nat → State}
    {e : XFail} (h : Canonical s) (hrefuse : ∀ a, Canonical a → Canonical (refuse a)) (hwait : ∀ a b, Canonical a → Canonical (wait a b)) :
    Canonical (unreadRecord s ctag die who va refuse wait e) := by
  unfold unreadRecord
  split
  · split
    rename_i e
    exact (hwait _ _ (h.raiseFault.fst e)).postFaults
  · exact (hrefuse _ h).killContext.ite (hrefuse _ h)

protected theorem Canonical.takeHead {ctag q : Nat} {qt : Bool} {b : List Byte} {l : Leader} {k : State → State} (h : Canonical s)
    (hk : ∀ a, Canonical a → Canonical (k a)) :
    Canonical (takeHead s ctag qt q b l k) := by
  unfold takeHead
  split
  · exact h
  · rename_i e
    exact hk _ ((h.writeTake e).setLeader)

protected theorem Canonical.mendQueue {ctag q : Nat} {qt : Bool} (h : Canonical s) : Canonical (mendQueue s ctag qt q) := by
  unfold mendQueue
  split
  · exact h
  · split
    · exact h
    · exact h.setLeader.serveIdle.ite h.serveQueue

protected theorem Canonical.takeNext {ctag q : Nat} {qt : Bool} {hold : State → List Byte → Nat → Bool} {lost : State → State}
    {k : State → Leader → List Byte → List Byte → State} (h : Canonical s) (hlost : ∀ a, Canonical a → Canonical (lost a))
      (hk : ∀ a b c d, Canonical a → Canonical (k a b c d)) :
    Canonical (takeNext s ctag qt q hold lost k) := by
  unfold takeNext
  split
  · exact h.mendQueue
  · split
    · exact h.takeHead fun _ ht => hlost _ ht
    · dsimp only
      split
      · exact Canonical.unreadRecord h (fun _ ht => ht.takeHead fun _ ht' => hlost _ ht') fun _ _ ht => ht.setLeader
      · split
        · exact h
        · exact h.takeHead fun _ ht => hk _ _ _ _ ht

protected theorem Canonical.skipLaunch {ctag : Nat} (h : Canonical s) : Canonical (skipLaunch s ctag) := h.setCtx

protected theorem Canonical.refuseRecord {ctag : Nat} {b : List Byte} {cause : DWord} (h : Canonical s) :
    Canonical (refuseRecord s ctag b cause) := by
  unfold refuseRecord
  exact (h.ite h.ctxRecord)

protected theorem Canonical.takeTask {ctag index : Nat} {b : List Byte} (h : Canonical s) : Canonical (takeTask s ctag b index) := by
  unfold takeTask
  dsimp only
  split
  · exact h.refuseRecord
  · split
    · exact h.refuseRecord.killIfLost
    · split
      · exact h.noteBlocks.refuseRecord
      · split
        · exact h.noteBlocks
        · exact h.noteBlocks.takeFrt.setFrt.sendTask

protected theorem Canonical.ringAppend {ctag q : Nat} {qt : Bool} {b r : List Byte} (h : Canonical s) : KeepsOpt (ringAppend s ctag qt q b r) :=
  .bind h.ctxWrite fun _ ht => ht.ctxWrite

protected theorem Canonical.overflowAppend {ctag q : Nat} {qt : Bool} {b r : List Byte} (h : Canonical s) :
    KeepsOpt (overflowAppend s ctag qt q b r) := by
  unfold overflowAppend
  split
  · exact .none
  · exact .bind h.ctxWrite fun _ ht => ht.ctxWrite

protected theorem Canonical.placeRecord {ctag q : Nat} {qt : Bool} {b r : List Byte} (h : Canonical s) : KeepsOpt (placeRecord s ctag qt q b r) := by
  unfold placeRecord
  split
  · rename_i e
    split at e
    · exact .some (h.ringAppend e)
    · cases e
  · exact h.overflowAppend

protected theorem Canonical.execFabricEnqueue {handle : BitVec 64} {bytes : List (BitVec 8)} (h : Canonical s) :
    KeepsOut (execFabricEnqueue handle bytes s) := by
  unfold execFabricEnqueue
  dsimp only
  refine .next ?_
  split
  · split
    · exact h.update
    · split
      · rename_i e
        exact (h.placeRecord e).update
      · exact h.update
  · exact h.killIfLost.update
  · exact h.update

protected theorem Canonical.execOverflowMove {ctag q : Nat} {qt : Bool} (h : Canonical s) : KeepsOut (execOverflowMove ctag qt q s) := by
  unfold execOverflowMove
  refine .next ?_
  split
  · exact h
  · split
    · exact h.killIfLost
    · exact KeepsOpt.getD (.bind (.bind h.ringAppend fun _ ht => ht.ctxWrite) fun _ ht => ht.ctxWrite) h

protected theorem Canonical.dropFired {ctag : Nat} {f : Nat × Nat × Nat} (h : Canonical s) : Canonical (dropFired s ctag f) := h.setCtx

protected theorem Canonical.refuseFired {ctag : Nat} {f : Nat × Nat × Nat} (h : Canonical s) : Canonical (refuseFired s ctag f) :=
  h.dropFired.skipLaunch.freeEntry

protected theorem Canonical.execFiredEntryTake {die : Nat} (h : Canonical s) : KeepsOut (execFiredEntryTake die s) := by
  unfold execFiredEntryTake
  refine .next ?_
  split
  · exact h
  · split
    · exact h
    · split
      · exact h.refuseFired
      · dsimp only
        split
        · exact Canonical.unreadRecord h (fun _ ht => ht.refuseFired) fun _ _ ht => ht.setCtx
        · exact h.dropFired.takeLaunch

/-! ### Binding -/

protected theorem Canonical.bindOne {it : Item} {core grpid ypos gang : Nat} {launchId : Word} {sheaf : Option SheafInfo} (h : Canonical s) :
    Canonical (bindOne s it core grpid ypos gang launchId sheaf) := by
  unfold bindOne
  split
  · exact h
  · refine Canonical.update ?_
    split
    · exact h
    · exact h.ite h.update.dropCode

protected theorem Canonical.bindItem {it : Item} {cores : List Nat} (h : Canonical s) : Canonical (bindItem s it cores) := by
  unfold bindItem
  dsimp only
  split
  · exact h.noteBlocks.setDie.bindOne
  · split
    · exact h.noteBlocks
    · exact Canonical.foldl (Canonical.update (h.noteBlocks.foldl fun _ _ ht => ht.bindOne)) fun _ _ ht => ht.setDie

protected theorem Canonical.execGroupBind {die : Nat} (h : Canonical s) : KeepsOut (execGroupBind die s) := by
  unfold execGroupBind
  refine .next ?_
  split
  · exact h
  · split
    · exact h
    · exact h.setDie.bindItem

protected theorem Canonical.startWave {g waveId wslot : Nat} {gr : Group} (h : Canonical s) : Canonical (startWave s g gr waveId wslot) := h.update

protected theorem Canonical.makeResident {g : Nat} (h : Canonical s) : Canonical (makeResident s g) :=
  h.setGroup.dropShared.foldl fun _ _ ht => ht.startWave

protected theorem Canonical.execGroupResident {g : Nat} (h : Canonical s) : KeepsOut (execGroupResident g s) := by
  unfold execGroupResident
  refine .next ?_
  split
  · exact h
  · exact h.foldl fun _ _ ht => ht.makeResident

protected theorem Canonical.execGangWaitTimeout {die : Nat} (h : Canonical s) : KeepsOut (execGangWaitTimeout die s) := by
  unfold execGangWaitTimeout
  refine .next ?_
  split
  · exact h
  · exact h.update
  · exact h.setDie

/-! ### The matrix array -/

protected theorem Canonical.execYacq {nx : BitVec 2} {a : BitVec 6} (h : Canonical s) : KeepsOut (execYacq nx a s) := by
  unfold execYacq
  refine h.checked fun _ _ _ => ?_
  dsimp only
  split
  · exact h.setWave
  · split
    · exact h.setWave.ite (h.setWave.failFormation.ite h.setYoke.parkWave)
    · exact h.update.setWave.ite (h.update.setWave.failFormation.ite h.update.setYoke.parkWave)

protected theorem Canonical.execYrel {nx : BitVec 2} (h : Canonical s) : KeepsOut (execYrel nx s) := by
  unfold execYrel
  refine h.onWave fun _ _ => ?_
  split
  rename_i e
  exact (h.releaseLease.fst e).parkWave.ite ((h.releaseLease.fst e).setWave)

protected theorem Canonical.execYstat {nx : BitVec 2} {d : BitVec 6} (h : Canonical s) : KeepsOut (execYstat nx d s) := by
  unfold execYstat
  refine h.onWave fun _ _ => ?_
  dsimp only
  split
  · exact h.setWave
  · exact h.setWave.setYoke

protected theorem Canonical.execMbands {nx : BitVec 2} {a : BitVec 6} (h : Canonical s) : KeepsOut (execMbands nx a s) := by
  unfold execMbands
  refine h.checked fun _ _ _ => ?_
  dsimp only
  split <;> exact h.setYoke.powerBands.setWave

protected theorem Canonical.execMloadb {nx q : BitVec 2} {d : BitVec 6} {r : BitVec 1} (h : Canonical s) : KeepsOut (execMloadb nx d q r s) := by
  unfold execMloadb
  exact h.checked fun _ _ _ => Canonical.setYoke (h.update.setWave.foldl fun _ _ ht => ht.acceptRead)

protected theorem Canonical.execMrun {nx : BitVec 2} {d a : BitVec 6} {r : BitVec 1} (h : Canonical s) : KeepsOut (execMrun nx d a r s) := by
  unfold execMrun
  exact h.checked fun _ _ _ => Canonical.yokeSettle (Canonical.setYoke (Canonical.foldl (h.update.setWave.foldl fun _ _ ht => ht.acceptRead)
    fun _ _ ht => ht.endAccess.ite ht))

protected theorem Canonical.execMzero {nx : BitVec 2} {a : BitVec 6} (h : Canonical s) : KeepsOut (execMzero nx a s) := by
  unfold execMzero
  exact h.checked fun _ _ _ => (h.setWave.update.garnerQueue.ite h.setWave.setYoke)

protected theorem Canonical.execMreadg {nx : BitVec 2} {d a : BitVec 6} (h : Canonical s) : KeepsOut (execMreadg nx d a s) := by
  unfold execMreadg
  exact h.checked fun _ _ _ => (h.update.setWave.garnerQueue.ite h.update.setWave)

protected theorem Canonical.execMaccg {nx : BitVec 2} {d a : BitVec 6} (h : Canonical s) : KeepsOut (execMaccg nx d a s) := by
  unfold execMaccg
  exact h.checked fun _ _ _ => (h.setWave.update.garnerQueue.ite h.setWave.setYoke)

protected theorem Canonical.execMcadr {nx t : BitVec 2} {d a b : BitVec 6} {c : BitVec 1} (h : Canonical s) :
    KeepsOut (execMcadr nx d a b c t s) := by
  unfold execMcadr
  exact h.checked fun _ _ _ => (h.setWave.registerBar.startTransfer.garnerQueue.ite h.setWave.registerBar.startTransfer)

protected theorem Canonical.haltRuns {y : Nat} {k : Yoke} (h : Canonical s) : Canonical (haltRuns s y k) := by
  unfold haltRuns
  split
  · exact h.setYoke
  · exact Canonical.yokeSettle (h.setYoke.foldl fun _ _ ht => ht.endRun)

protected theorem Canonical.execMhalt {nx : BitVec 2} {d : BitVec 6} (h : Canonical s) : KeepsOut (execMhalt nx d s) := by
  unfold execMhalt
  exact h.checked fun _ _ _ => (h.setWave.haltRuns.ite h.setWave)

protected theorem Canonical.execMdrain {nx : BitVec 2} (h : Canonical s) : KeepsOut (execMdrain nx s) := by
  unfold execMdrain
  exact h.checked fun _ _ _ => h.setYoke.setWave.yokeSettle

protected theorem Canonical.execMsave {nx : BitVec 2} {a : BitVec 6} (h : Canonical s) : KeepsOut (execMsave nx a s) := by
  unfold execMsave
  exact h.checked fun _ _ _ => h.update.setWave

protected theorem Canonical.execMrest {nx : BitVec 2} {a : BitVec 6} (h : Canonical s) : KeepsOut (execMrest nx a s) := by
  unfold execMrest
  exact h.checked fun _ _ _ => h.update.setWave

protected theorem Canonical.finishMsave {u : Nat} {w : Wave} {nx : BitVec 2} {a : DWord} (h : Canonical s) : Canonical (finishMsave s u w nx a) := by
  unfold finishMsave
  split
  · exact h.setWave.stopWave
  · exact h.withPeers fun _ _ ht => Canonical.setWave (ht.foldl fun _ _ ht' => ht'.writeLane)

protected theorem Canonical.finishMrest {u : Nat} {w : Wave} {nx : BitVec 2} {a : DWord} (h : Canonical s) : Canonical (finishMrest s u w nx a) := by
  unfold finishMrest
  split
  · exact h.setWave.stopWave
  · refine h.withPeers fun _ _ ht => Canonical.setWave (Canonical.setYoke ?_)
    exact Canonical.foldlFst ht fun _ _ hq => hq.readPlaces

protected theorem Canonical.settleGroup {g : Nat} (h : Canonical s) : Canonical (settleGroup s g) := by
  unfold settleGroup
  split
  · exact h
  · exact h.garnerSettle

protected theorem Canonical.execMsaveMrestComplete {u : Nat} (h : Canonical s) : KeepsOut (execMsaveMrestComplete u s) := by
  unfold execMsaveMrestComplete
  refine .next ?_
  split
  · exact h
  · split
    · exact h
    · split
      · exact h.finishMsave.settleGroup
      · exact h.finishMrest.settleGroup
      · exact h

protected theorem Canonical.execRowInjection {y : Nat} (h : Canonical s) : KeepsOut (execRowInjection y s) := by
  unfold execRowInjection
  refine .next ?_
  split
  · exact h
  · split
    · exact h
    · split
      · exact h
      · dsimp only
        split
        · exact h.setYoke
        · exact h.setYoke.setWave

protected theorem Canonical.execRowGarnerUpdate {y : Nat} (h : Canonical s) : KeepsOut (execRowGarnerUpdate y s) := by
  unfold execRowGarnerUpdate
  refine .next ?_
  split
  · exact h
  · split
    · exact h
    · exact h.ite h.setYoke.yokeSettle

protected theorem Canonical.formYoke {y : Nat} {k : Yoke} (h : Canonical s) : Canonical (formYoke s y k) :=
  Canonical.completeParks (h.setYoke.powerBands.foldl fun _ _ ht => ht.setGroup)

protected theorem Canonical.execBandUp {y : Nat} (h : Canonical s) : KeepsOut (execBandUp y s) := by
  unfold execBandUp
  refine .next ?_
  split
  · exact h
  · exact h.formYoke.ite (h.powerBands.update.ite h)

protected theorem Canonical.execLeaseEnd {y : Nat} (h : Canonical s) : KeepsOut (execLeaseEnd y s) := by
  unfold execLeaseEnd
  refine .next ?_
  split
  · exact h
  · split
    · exact h
    · refine Canonical.checkEndings ?_
      split
      · split
        · exact h
        · exact h.setYoke.completeParks
      · split
        · split
          · exact h
          · exact h.setYoke.completeParks
        · refine Canonical.dropYoke ?_
          split
          · exact h
          · exact h.setYoke.completeParks

protected theorem Canonical.execPlotAccessEnd {g h : Nat} (hc : Canonical s) : KeepsOut (execPlotAccessEnd g h s) := by
  unfold execPlotAccessEnd
  refine .next ?_
  split
  · exact hc
  · split
    · exact hc
    · exact hc.endAccess

/-! ### Pre-emption -/

protected theorem Canonical.setCState {ctag status : Nat} {st : CState} (h : Canonical s) : Canonical (setCState s ctag st status) :=
  h.setCtx.postEvent

protected theorem Canonical.withdrawAcq {g : Nat} (h : Canonical s) : Canonical (withdrawAcq s g) := by
  unfold withdrawAcq
  split
  · exact h
  · exact h.ite (h.dropYoke.ite h.setYoke)

protected theorem Canonical.abandonPark {w : Wave} {p : Park} (h : Canonical s) : Canonical (abandonPark s w p) := by
  unfold abandonPark
  split
  · exact h.setGroup
  · exact h.withdrawAcq
  · exact h

protected theorem Canonical.deliverPreempt {reason deadline u : Nat} (h : Canonical s) : Canonical (deliverPreempt s reason deadline u) := by
  unfold deliverPreempt
  split
  · exact h
  · dsimp only
    split
    · exact h.setWave
    · split
      · exact h.setWave
      · exact h.setWave
      · exact h.setWave
      · exact h.setWave
      · exact h.setWave.abandonPark.takeTrap
      · exact h

protected theorem Canonical.deliverGroup {reason deadline g : Nat} (h : Canonical s) : Canonical (deliverGroup s reason deadline g) := by
  unfold deliverGroup
  split
  · exact h
  · exact h.foldl fun _ _ ht => ht.deliverPreempt

protected theorem Canonical.startTrapping {ctag d2 : Nat} (h : Canonical s) : Canonical (startTrapping s ctag d2) :=
  Canonical.foldl (h.setCState.setCtx.foldl fun _ _ ht => ht.setGroup.holdYoke) fun _ _ ht => ht.deliverGroup

protected theorem Canonical.withdrawTasks {ctag : Nat} (h : Canonical s) : Canonical (withdrawTasks s ctag) :=
  h.foldl fun _ _ ht => ht.setDie.foldl fun _ _ ht' => ht'.setFrt

protected theorem Canonical.requeueTasks {ctag : Nat} (h : Canonical s) : Canonical (requeueTasks s ctag) := h.foldl fun _ _ ht => ht.setDie

protected theorem Canonical.holdQueues {ctag : Nat} (h : Canonical s) : Canonical (holdQueues s ctag) := h.foldl fun _ _ ht => ht.setLeader

protected theorem Canonical.admitStaged {ctag : Nat} (h : Canonical s) : Canonical (admitStaged s ctag) :=
  h.foldl fun _ _ ht => ht.foldl fun _ _ ht' => ht'.makeResident

protected theorem Canonical.startDraining {ctag d1 d2 : Nat} (h : Canonical s) : Canonical (startDraining s ctag d1 d2) :=
  h.admitStaged.setCState.setCtx.withdrawTasks.holdQueues.serveIdle

protected theorem Canonical.markEvac {ctag die : Nat} (h : Canonical s) : Canonical (markEvac s ctag die) := h.setCtx.update

protected theorem Canonical.evacuateContext {ctag die : Nat} (h : Canonical s) : Canonical (evacuateContext s ctag die) := by
  unfold evacuateContext
  split
  · exact h
  · dsimp only
    split
    · split
      · exact h.admitStaged
      · split
        · exact h.admitStaged.withdrawTasks.markEvac.startTrapping
        · exact h.admitStaged.markEvac.startTrapping
        · exact h.admitStaged.setCtx.markEvac.startTrapping
        · exact h.admitStaged
    · split
      · exact h
      · split
        · exact h.withdrawTasks.markEvac.startTrapping
        · exact h.markEvac.startTrapping
        · exact h.setCtx.markEvac.startTrapping
        · exact h

protected theorem Canonical.cancelMoves {die : Nat} (h : Canonical s) : Canonical (cancelMoves s die) := h.update

protected theorem Canonical.evacuateDie {die code : Nat} {st : DieState} (h : Canonical s) : Canonical (evacuateDie s die st code) :=
  h.setDie.postEvent.cancelMoves.moveFrom.foldl fun _ _ ht => ht.evacuateContext

protected theorem Canonical.checkEmergency (h : Canonical s) : Canonical (checkEmergency s) := by
  unfold checkEmergency
  split
  · exact h
  · exact h.evacuateDie

protected theorem Canonical.evacuateLate {ctag : Nat} (h : Canonical s) : Canonical (evacuateLate s ctag) :=
  h.foldl fun _ _ ht => ht.ite ht.evacuateContext

protected theorem Canonical.forceReset {ctag : Nat} (h : Canonical s) : Canonical (forceReset s ctag) :=
  Canonical.ctxRecord (h.setCState.setCtx.killTree fun _ _ ht => ht.resetTransfer)

protected theorem Canonical.execAutoSurrender {g : Nat} (h : Canonical s) : KeepsOut (execAutoSurrender g s) := by
  unfold execAutoSurrender
  refine .next ?_
  split
  · exact h
  · split
    · exact h.releaseLease
    · split
      · exact h.haltRuns
      · exact h.unholdYoke.ite h.setYoke
      · exact h.setGroup.releaseLease

/-! ### Answers to faults -/

protected theorem Canonical.finishFault {u : Nat} (h : Canonical s) : Canonical (finishFault s u) := by
  unfold finishFault
  split
  · exact h
  · split
    · dsimp only
      split
      · exact h.setWave
      · exact h.setWave.takeTrap
    · exact h

protected theorem Canonical.answerWave {token u : Nat} {kill : Bool} (h : Canonical s) : Canonical (answerWave s token kill u) := by
  unfold answerWave
  split
  · exact h
  · split
    · exact h.setWave.ite h.setWave.finishFault
    · exact h

protected theorem Canonical.answerTransfer {f : FaultRec} {kill : Bool} {x : Nat} (h : Canonical s) : Canonical (answerTransfer s f kill x) := by
  unfold answerTransfer
  split
  · exact h
  · exact h.update.endTransfer.ite h.update

protected theorem Canonical.answerQueue {f : FaultRec} {kill : Bool} {q : Bool × Nat} (h : Canonical s) : Canonical (answerQueue s f kill q) :=
  h.setCtx

protected theorem Canonical.answerEntry {f : FaultRec} {kill : Bool} {i : Nat} (h : Canonical s) : Canonical (answerEntry s f kill i) := h.setCtx

protected theorem Canonical.answerFault {f : FaultRec} {kill : Bool} (h : Canonical s) : Canonical (answerFault s f kill) := by
  unfold answerFault
  dsimp only
  refine Canonical.postFaults ?_
  split
  · exact Canonical.foldl (Canonical.foldl (Canonical.foldl (h.update.foldl fun _ _ ht => ht.answerWave) fun _ _ ht => ht.answerTransfer)
      fun _ _ ht => ht.answerQueue) fun _ _ ht => ht.answerEntry
  · split
    · exact Canonical.foldl (Canonical.foldl (Canonical.foldl (h.update.foldl fun _ _ ht => ht.answerWave) fun _ _ ht => ht.answerTransfer)
        fun _ _ ht => ht.answerQueue) fun _ _ ht => ht.answerEntry
    · split
      · exact Canonical.forceReset (Canonical.foldl (Canonical.foldl (Canonical.foldl (h.update.foldl fun _ _ ht => ht.answerWave)
          fun _ _ ht => ht.answerTransfer) fun _ _ ht => ht.answerQueue) fun _ _ ht => ht.answerEntry)
      · exact Canonical.setCtx (Canonical.foldl (Canonical.foldl (Canonical.foldl (h.update.foldl fun _ _ ht => ht.answerWave)
          fun _ _ ht => ht.answerTransfer) fun _ _ ht => ht.answerQueue) fun _ _ ht => ht.answerEntry)

protected theorem Canonical.execFaultResponse {idx : Nat} {resp : BitVec 32} (h : Canonical s) : KeepsOut (execFaultResponse idx resp s) := by
  unfold execFaultResponse
  refine .next ?_
  split
  · exact h
  · exact h.agentWrite.ite h.agentWrite.answerFault

/-! ### Issue -/

protected theorem Canonical.fillCode {c ctag : Nat} {p : Place} (h : Canonical s) : Canonical (fillCode s c ctag p).1 := by
  unfold fillCode
  split
  rename_i e
  exact (h.sliceRead.fst e).setCore

protected theorem Canonical.fetchLine {c ctag : Nat} {p : Place} (h : Canonical s) : Canonical (fetchLine s c ctag p).1 := by
  unfold fetchLine
  split
  · split
    · exact h
    · exact h.fillCode
  · exact h.fillCode

protected theorem Canonical.waitForRegs {u : Nat} {names : List RegName} (h : Canonical s) : Canonical (waitForRegs s u names) := by
  unfold waitForRegs
  dsimp only
  split
  · exact h
  · exact h.completeResults.setWave.ite h

protected theorem Canonical.countIssue {u : Nat} (h : Canonical s) : Canonical (countIssue s u) := h.update

protected theorem Canonical.afterIssue {u : Nat} {w : Wave} (h : Canonical s) : Canonical (afterIssue s u w) := by
  unfold afterIssue
  split
  · exact h.countIssue
  · exact h.setWave.ite h.countIssue

protected theorem Canonical.chargeSlot {u : Nat} (h : Canonical s) : Canonical (chargeSlot s u) := by
  unfold chargeSlot
  split
  · exact h
  · exact h.setCore.ite h.setCore.setGroup

protected theorem Canonical.giveSlot {c : Nat} {here : AMap Wave} (h : Canonical s) : Canonical (giveSlot s c here) := h.setCore.update

protected theorem Canonical.nextWave (h : Canonical s) : Canonical (nextWave s) := by
  unfold nextWave
  dsimp only
  split
  · exact h
  · exact h.giveSlot

protected theorem Canonical.passTurn {turn : Bool} (h : Canonical s) : Canonical (passTurn turn s) :=
  (h.chargeSlot.ite h).ite ((h.chargeSlot.ite h).nextWave)

protected theorem Canonical.tick {turn : Bool} (h : Canonical s) : Canonical (tick turn s) :=
  h.update.trimSlices.resolveSnaps.settleChoices.admitWaits.passTurn

/-! ### Save images -/

protected theorem Canonical.adoptPlots {ctag : Nat} (h : Canonical s) : Canonical (adoptPlots s ctag) := by
  unfold adoptPlots
  refine h.foldl fun _ _ ht => ?_
  dsimp only
  split
  · exact ht
  · exact Canonical.update (ht.foldl fun _ _ ht' => ht'.ite ht'.setGroup)

protected theorem Canonical.startSettling {ctag : Nat} (h : Canonical s) : Canonical (startSettling s ctag) :=
  h.setCtx.setCState.foldl fun _ _ ht => ht.cancelTransfer

protected theorem Canonical.keepAside {ctag : Nat} {gs : List Nat} (h : Canonical s) : Canonical (keepAside s ctag gs) := h.setCtx.update

protected theorem Canonical.removeSaved {gs : List Nat} (h : Canonical s) : Canonical (removeSaved s gs) :=
  Canonical.update (h.foldl fun _ _ ht => ht.dropYoke)

protected theorem Canonical.swapOut {ctag : Nat} (h : Canonical s) : Canonical (swapOut s ctag) := h.setCtx.setCState.update.dropTlbAll.serveIdle

protected theorem Canonical.quiesce {ctag : Nat} (h : Canonical s) : Canonical (quiesce s ctag) :=
  h.performAll.foldl fun _ _ ht => ht.leaveCore

protected theorem Canonical.writeImage {ctag : Nat} (h : Canonical s) : KeepsOpt (writeImage s ctag) := by
  unfold writeImage
  dsimp only
  split
  · exact .none
  · rename_i e
    exact (h.ctxWrite e).drainAll.ctxWrite

protected theorem Canonical.saveNow {ctag : Nat} (h : Canonical s) : Canonical (saveNow s ctag) := by
  have hq : Canonical (quiesce ((scopeWaves s ctag).foldl settleWave s) ctag) := (h.foldl fun _ _ ht => ht.settleWave).quiesce
  unfold saveNow
  generalize quiesce ((scopeWaves s ctag).foldl settleWave s) ctag = r at hq
  dsimp only
  split
  · exact hq.forceReset
  · exact hq.raiseFault.setCtx.postFaults
  · split
    · exact hq.forceReset
    · rename_i e
      exact (hq.adoptPlots.writeImage e).keepAside.removeSaved.swapOut.ite (hq.adoptPlots.writeImage e).keepAside.removeSaved.setCtx

/-! ### Restore -/

protected theorem Canonical.launchFor {ctag count : Nat} {r : GroupRec} (h : Canonical s) : Canonical (launchFor s ctag r count).1 := by
  unfold launchFor
  dsimp only
  split
  · exact h
  · split
    · exact h
    · exact h.update

protected theorem Canonical.takeAside {ctag g : Nat} (h : Canonical s) : Canonical (takeAside s ctag g) := h.setGroup.update.setCtx

protected theorem Canonical.addGroup {ctag : Nat} {all : List GroupRec} {r : GroupRec} (h : Canonical s) : Canonical (addGroup s ctag all r) :=
  Canonical.setCtx (Canonical.takeAside (h.launchFor.update.foldl fun _ _ ht => ht.update))

protected theorem Canonical.takePlace {g core : Nat} (h : Canonical s) : KeepsOpt (takePlace s g core) := by
  unfold takePlace
  dsimp only
  split
  · exact .none
  · rintro t e
    obtain ⟨p, -, rfl⟩ := Option.map_eq_some_iff.1 e
    exact h.setGroup

protected theorem Canonical.placePart {part cores : List Nat} (h : Canonical s) : KeepsOpt (placePart s part cores) :=
  .foldl (.some h) fun _ _ hp => .bind hp fun _ ht => ht.takePlace

protected theorem Canonical.placeUnit {all : List Nat} {parts : List (List Nat)} (h : Canonical s) : KeepsOpt (placeUnit s all parts) := by
  induction parts generalizing s with
  | nil => exact .some h
  | cons p rest ih =>
    intro t e
    obtain ⟨cs, -, hcs⟩ := List.exists_of_findSome?_eq_some e
    refine KeepsOpt.bind h.placePart (fun r hr => ?_) hcs
    split
    · exact ih hr
    · exact .none

protected theorem Canonical.enterTables {u : List Nat} (h : Canonical s) : KeepsOpt (enterTables s u) := by
  refine .foldl (.some h) fun p x hp => .bind hp fun t ht => ?_
  dsimp only
  split
  · exact .some ht
  · split
    · exact .some ht
    · intro r e
      obtain ⟨d, -, rfl⟩ := Option.map_eq_some_iff.1 e
      exact ht.update

protected theorem Canonical.bindable {ctag : Nat} {u : List Nat} (h : Canonical s) (e : bindable s ctag = some (u, t)) : Canonical t := by
  obtain ⟨g, -, hg⟩ := List.exists_of_findSome?_eq_some e
  obtain ⟨r, hr, hrt⟩ := Option.map_eq_some_iff.1 hg
  cases hrt
  exact KeepsOpt.bind h.placeUnit (fun _ ht => ht.enterTables) hr

protected theorem Canonical.repostGroup {core g : Nat} (h : Canonical s) : Canonical (repostGroup s core g) :=
  h.foldl fun _ _ ht => ht.setWave.askRemotes

protected theorem Canonical.adoptSnap {x i : Nat} {t : Transfer} (h : Canonical s) : Canonical (adoptSnap s x i t) := h.update.ite h.snapPoint

protected theorem Canonical.restoreXfer {g i : Nat} {b : List Byte} (h : Canonical s) : Canonical (restoreXfer s g i b) :=
  Canonical.foldl ((h.adoptSnap.ite h).update) fun _ _ ht => ht.addAccess.ite ht

protected theorem Canonical.seatWaves {g : Nat} (h : Canonical s) : Canonical (seatWaves s g) := h.foldl fun _ _ ht => ht.setWave

protected theorem Canonical.readyWaves {g : Nat} (h : Canonical s) : Canonical (readyWaves s g) := h.update

protected theorem Canonical.readyAll {ctag : Nat} (h : Canonical s) : Canonical (readyAll s ctag) := h.foldl fun _ _ ht => ht.readyWaves

protected theorem Canonical.receiveCore {core ctag : Nat} (h : Canonical s) : Canonical (receiveCore s core ctag) := h.drainPath.dropShared.dropCode

protected theorem Canonical.retagGang {part : List Nat} (h : Canonical s) : Canonical (retagGang s part) := by
  unfold retagGang
  dsimp only
  split
  · exact h
  · exact h.foldl fun _ _ ht => ht.setGroup

protected theorem Canonical.bindUnit {u : List Nat} (h : Canonical s) : Canonical (bindUnit s u) :=
  Canonical.foldl (Canonical.foldl (Canonical.foldl (Canonical.foldl (Canonical.foldl (h.foldl fun _ _ ht => ht.retagGang)
    fun _ _ ht => ht.update.setGroup.leaveCore.receiveCore) fun _ _ ht => ht.foldl fun _ _ ht' => ht'.restoreXfer) fun _ _ ht => ht.setGroup.foldl
      fun _ _ ht' => ht'.drainEnd) fun _ _ ht => ht.seatWaves) fun _ _ ht => ht.readyWaves.ite ht

protected theorem Canonical.endRestore {ctag : Nat} (h : Canonical s) : Canonical (endRestore s ctag) := by
  unfold endRestore
  dsimp only
  split
  · exact h.readyAll.setCState.setCtx.evacuateLate
  · exact h.readyAll.setCState.setCtx.serveContext.requeueTasks.evacuateLate

protected theorem Canonical.execRestoreBind {ctag : Nat} (h : Canonical s) : KeepsOut (execRestoreBind ctag s) := by
  unfold execRestoreBind
  refine .next ?_
  split
  · exact h
  · split
    · exact h.endRestore
    · split
      · exact h
      · rename_i e
        have hb := h.bindable e
        exact hb.bindUnit.setCtx.endRestore.ite hb.bindUnit.setCtx

protected theorem Canonical.startRestore {ctag : Nat} {l : List GroupRec} (h : Canonical s) : Canonical (startRestore s ctag l) :=
  Canonical.foldl (h.setCState.foldl fun _ _ ht => ht.addGroup) fun _ _ ht => ht.repostGroup

protected theorem Canonical.restorePartial {ctag : Nat} (h : Canonical s) : Canonical (restorePartial s ctag) := by
  unfold restorePartial
  split
  · exact h
  · split
    · exact h.forceReset
    · exact h.startRestore

protected theorem Canonical.execContextSaveComplete {ctag : Nat} (h : Canonical s) : KeepsOut (execContextSaveComplete ctag s) := by
  unfold execContextSaveComplete
  refine .next ?_
  split
  · exact h
  · exact h.startSettling.ite (h.ite h.saveNow.restorePartial.checkEmergency)

/-! ### Power and temperature -/

protected theorem Canonical.throttleNotice {ctag : Nat} (h : Canonical s) : Canonical (throttleNotice s ctag) := h.ite h.setCtx.post

protected theorem Canonical.writeIcad {cores : List Nat} {v : Nat → Nat} (h : Canonical s) : Canonical (writeIcad s cores v) :=
  Canonical.noteThrottle (Canonical.foldl (h.foldl fun _ _ ht => ht.setCore) fun _ _ ht => ht.throttleNotice)

protected theorem Canonical.setIcad {die v : Nat} (h : Canonical s) : Canonical (setIcad s die v) := h.ite h.writeIcad

protected theorem Canonical.stepIcad (h : Canonical s) : Canonical (stepIcad s) := h.setIcad.setIcad

protected theorem Canonical.strikeTrip {die : Nat} (h : Canonical s) : Canonical (strikeTrip s die) := h.ite h.setDie.writeIcad

protected theorem Canonical.sampleDie {die : Nat} {bands temps quads : List Nat} (h : Canonical s) :
    Canonical (sampleDie s die bands temps quads) := by
  unfold sampleDie
  dsimp only
  split
  · exact Canonical.strikeTrip (Canonical.setDie (Canonical.setDie (h.foldl fun _ _ ht => ht.setCore)))
  · exact Canonical.setDie (Canonical.setDie (h.foldl fun _ _ ht => ht.setCore))

protected theorem Canonical.returnDie {die : Nat} (h : Canonical s) : Canonical (returnDie s die) :=
  h.setDie.postEvent.noteThrottle.ite h.setDie.postEvent.noteThrottle.dieReturned

protected theorem Canonical.execEmergencyExit (h : Canonical s) : KeepsOut (execEmergencyExit s) := by
  unfold execEmergencyExit
  refine .next ?_
  split
  · exact h
  · exact (h.setDie.returnDie.ite h.setDie).checkEmergency

protected theorem Canonical.markRows {core : Nat} (h : Canonical s) : Canonical (markRows s core) := h.update

protected theorem Canonical.holdIcad (h : Canonical s) : Canonical (holdIcad s) := h.writeIcad

protected theorem Canonical.resetDie {die : Nat} (h : Canonical s) : Canonical (resetDie s die) := h.evacuateDie.ite h

protected theorem Canonical.writeBackDie {die : Nat} (h : Canonical s) : Canonical (writeBackDie s die) :=
  h.foldl fun _ _ ht => ht.evictLine

protected theorem Canonical.resetCaches {die : Nat} (h : Canonical s) : Canonical (resetCaches s die) := by
  have hd : Canonical ((List.range 36).foldl (fun s i => drainPath s (36 * die + i)) s) := h.foldl fun _ _ ht => ht.drainPath
  unfold resetCaches
  generalize (List.range 36).foldl (fun s i => drainPath s (36 * die + i)) s = r at hd
  have hw (gs : List Nat) : Canonical (writeBackDie (gs.foldl removeGroup r) die) := (hd.foldl fun _ _ ht => ht.removeGroup).writeBackDie
  exact Canonical.foldl ((hw _).update) fun _ _ ht => ht.setCore

protected theorem Canonical.execDieResetDone (h : Canonical s) : KeepsOut (execDieResetDone s) := by
  unfold execDieResetDone
  refine .next ?_
  split
  · exact h.resetCaches.returnDie
  · split
    · exact h.resetCaches
    · exact h

protected theorem Canonical.setAge {days margin astate : Nat} (h : Canonical s) : Canonical (setAge s days margin astate) := h.update.postEvent

protected theorem Canonical.execAgeingReplan {margin : BitVec 8} {done : Bool} (h : Canonical s) : KeepsOut (execAgeingReplan margin done s) := by
  unfold execAgeingReplan
  dsimp only
  refine .next ?_
  split
  · exact h.setAge.ite h
  · split
    · exact h.update.setAge.foldl fun _ _ ht => ht.setIcad.ite ht
    · exact h

protected theorem Canonical.execEventTimerExpiry {w slot : Nat} (h : Canonical s) : KeepsOut (execEventTimerExpiry w slot s) := by
  unfold execEventTimerExpiry
  refine .next ?_
  split
  · exact h
  · exact h.settleChoices.setWave.recheckAt.ite h

protected theorem Canonical.execSleepExpiry {w : Nat} (h : Canonical s) : KeepsOut (execSleepExpiry w s) := by
  unfold execSleepExpiry
  refine .next ?_
  split
  · exact h
  · exact h.recheck.ite h

protected theorem Canonical.planPair {p : Nat × Nat} (h : Canonical s) : Canonical (planPair s p) :=
  Canonical.foldl (h.foldl fun _ _ ht => ht.setGroup) fun _ _ ht => ht.setGroup

protected theorem Canonical.rotateDie {die : Nat} (h : Canonical s) : Canonical (rotateDie s die) :=
  h.setDie.foldl fun _ _ ht => ht.planPair

protected theorem Canonical.execRotationTick (h : Canonical s) : KeepsOut (execRotationTick s) := by
  unfold execRotationTick
  refine .next ?_
  split
  · exact h
  · exact h.rotateDie

protected theorem Canonical.startExchange {cand : List Nat} (h : Canonical s) : Canonical (startExchange s cand) :=
  h.foldl fun _ _ ht => ht.setGroup

protected theorem Canonical.freezeGroup {g dest : Nat} (h : Canonical s) : Canonical (freezeGroup s g dest) := by
  have hs : Canonical ((wavesOf s g).foldl settleWave s) := h.foldl fun _ _ ht => ht.settleWave
  unfold freezeGroup
  generalize (wavesOf s g).foldl settleWave s = r at hs
  exact (hs.leaveCore.receiveCore.update).setGroup

protected theorem Canonical.execFreezeBegin {g : Nat} (h : Canonical s) : KeepsOut (execFreezeBegin g s) := by
  unfold execFreezeBegin
  refine .next ?_
  split
  · exact h
  · refine h.startExchange.foldl fun _ _ ht => ?_
    split
    · exact ht
    · exact ht.freezeGroup

protected theorem Canonical.landGroup {g : Nat} {m : Move} (h : Canonical s) : Canonical (landGroup s g m) :=
  h.receiveCore.setGroup.foldl fun _ _ ht => ht.setWave

protected theorem Canonical.thawGroup {g : Nat} (h : Canonical s) : Canonical (thawGroup s g) := h.setGroup

protected theorem Canonical.releaseGroup {g : Nat} (h : Canonical s) : Canonical (releaseGroup s g) := by
  unfold releaseGroup
  dsimp only
  split
  · exact Canonical.deliverGroup (h.foldl fun _ _ ht => ht.finishFault)
  · exact h.foldl fun _ _ ht => ht.finishFault

protected theorem Canonical.execFreezeEnd {g : Nat} (h : Canonical s) : KeepsOut (execFreezeEnd g s) := by
  unfold execFreezeEnd
  refine .next ?_
  split
  · exact h
  · refine Canonical.foldl ?_ fun _ _ ht => ht.releaseGroup
    refine Canonical.recheckAll (Canonical.releaseTransfers (h.foldl fun _ _ ht => ?_))
    split
    · exact ht.landGroup
    · exact ht.thawGroup

protected theorem Canonical.completeCommand {cpla : DWord} {status result : Nat} (h : Canonical s) :
    Canonical (completeCommand s cpla status result) :=
  h.agentWrite.update

protected theorem Canonical.command {cpla : DWord} {f : State → Answer} (h : Canonical s) (hf : ∀ t, Canonical t → Canonical (f t).1) :
    KeepsOut (command s cpla f) := by
  refine .next ?_
  split
  · exact h.completeCommand
  · split
    · rename_i e
      exact (hf s h).fst e
    · rename_i e
      exact ((hf s h).fst e).completeCommand

protected theorem Canonical.refuse {status : Nat} (h : Canonical s) : Canonical (refuse s status).1 := h

protected theorem Canonical.onContext {n : DWord} {f : Nat → Context → Answer} (h : Canonical s) (hf : ∀ c x, Canonical (f c x).1) :
    Canonical (onContext s n f).1 := by
  unfold onContext
  split
  · exact h
  · split
    · exact h
    · exact hf ..

protected theorem Canonical.loadQueues {ctag : Nat} (h : Canonical s) : Canonical (loadQueues s ctag) := h.setCtx

protected theorem Canonical.ctxLoad {desc : DWord} (h : Canonical s) : Canonical (ctxLoad s desc).1 := by
  unfold ctxLoad
  dsimp only
  split
  · exact h.refuse
  · split
    · exact h.refuse
    · exact h.setCtx.dropTlbAll.loadQueues.setCState.serveContext.killIfLost.done

protected theorem Canonical.idleQueues {ctag : Nat} (h : Canonical s) : Canonical (idleQueues s ctag) := h.foldl fun _ _ ht => ht.setLeader

protected theorem Canonical.destroyContext {ctag : Nat} (h : Canonical s) : Canonical (destroyContext s ctag) := by
  have hk : Canonical (idleQueues (killContext s ctag) ctag) := h.killContext.idleQueues
  unfold destroyContext
  generalize idleQueues (killContext s ctag) ctag = r at hk
  have hy (ys : List Nat) : Canonical (freeContextSlots (withdrawTasks (ys.foldl dropYoke r) ctag) ctag) :=
    (hk.foldl fun _ _ ht => ht.dropYoke).withdrawTasks.freeContextSlots
  exact ((hy _).update).dropTlbAll.serveIdle.postFaults.checkEmergency

protected theorem Canonical.execCtxDestroy {ctx cpla : BitVec 64} (h : Canonical s) : KeepsOut (execCtxDestroy ctx cpla s) := by
  unfold execCtxDestroy
  exact h.command fun _ ht => ht.onContext fun _ _ => ht.destroyContext.done

protected theorem Canonical.preempt {ctx d1 d2 : DWord} (h : Canonical s) : Canonical (preempt s ctx d1 d2).1 := by
  unfold preempt
  split
  · exact h.refuse
  · refine h.onContext fun _ _ => ?_
    split
    · exact h
    · split
      · exact h.startDraining.done
      · exact h.refuse

protected theorem Canonical.restore {desc image : DWord} (h : Canonical s) : Canonical (restore s desc image).1 := by
  unfold restore
  dsimp only
  split
  · exact h.refuse
  · split
    · exact h.refuse
    · split
      · exact h.refuse
      · exact h.setCtx.dropTlbAll.loadQueues.startRestore.killIfLost.done

protected theorem Canonical.execKillRegion {ctx rcb cpla : BitVec 64} (h : Canonical s) : KeepsOut (execKillRegion ctx rcb cpla s) := by
  unfold execKillRegion
  refine h.command fun _ ht => ?_
  refine ht.onContext fun _ _ => ?_
  split
  · exact ht.refuse
  · exact ht.killDomain.done

protected theorem Canonical.execTlbinvCommand {ctx base len cpla : BitVec 64} (h : Canonical s) :
    KeepsOut (execTlbinvCommand ctx base len cpla s) := by
  unfold execTlbinvCommand
  refine h.command fun _ ht => ?_
  refine ht.onContext fun _ _ => ?_
  split
  · exact ht.refuse
  · split
    · exact ht
    · exact ht.invalidate.done

protected theorem Canonical.summary {buf len : DWord} (h : Canonical s) : Canonical (summary s buf len).1 := h.agentWrite.done

protected theorem Canonical.dieDrain {die : DWord} (h : Canonical s) : Canonical (dieDrain s die).1 := by
  unfold dieDrain
  dsimp only
  split
  · exact h.refuse
  · split
    · split
      · exact h.update.done
      · exact h
    · split
      · exact h.refuse
      · split
        · exact h.evacuateDie.done
        · exact h.evacuateDie.update

protected theorem Canonical.dieOnline {die : DWord} (h : Canonical s) : Canonical (dieOnline s die).1 := by
  unfold dieOnline
  split
  · exact h.refuse
  · split
    · exact h.returnDie.done
    · exact h.refuse

protected theorem Canonical.execDebugAttach {ctx cpla : BitVec 64} (h : Canonical s) : KeepsOut (execDebugAttach ctx cpla s) := by
  unfold execDebugAttach
  refine h.command fun _ ht => ?_
  refine ht.onContext fun _ _ => ?_
  split
  · exact ht.refuse
  · exact ht.setCtx.done

protected theorem Canonical.resumeHandler {u : Nat} (h : Canonical s) : Canonical (resumeHandler s u) := h.setWave

protected theorem Canonical.resumeHeld {ctag : Nat} (h : Canonical s) : Canonical (resumeHeld s ctag) :=
  h.foldl fun _ _ ht => ht.returnTrap.ite ht.resumeHandler

protected theorem Canonical.execDebugDetach {ctx cpla : BitVec 64} (h : Canonical s) : KeepsOut (execDebugDetach ctx cpla s) := by
  unfold execDebugDetach
  refine h.command fun _ ht => ?_
  refine ht.onContext fun _ _ => ?_
  split
  · exact ht.refuse
  · exact ht.setCtx.resumeHeld.done

protected theorem Canonical.debugResume {ctx core wslot mode : DWord} (h : Canonical s) : Canonical (debugResume s ctx core wslot mode).1 := by
  unfold debugResume
  split
  · exact h.refuse
  · refine h.onContext fun _ _ => ?_
    split
    · exact h.refuse
    · split
      · exact h.refuse
      · split
        · exact h.returnTrap.done
        · split
          · exact h.refuse
          · exact h.resumeHandler.done

protected theorem Canonical.execPeerWindow {idx node die base len perm cpla : BitVec 64} (h : Canonical s) :
    KeepsOut (execPeerWindow idx node die base len perm cpla s) := by
  unfold execPeerWindow
  refine h.command fun _ ht => ?_
  split
  · exact ht.refuse
  · exact ht.update.done

protected theorem Canonical.peerBind {node peerCtx localCtx : DWord} (h : Canonical s) : Canonical (peerBind s node peerCtx localCtx).1 := by
  unfold peerBind
  split
  · exact h.refuse
  · dsimp only
    split
    · exact h.update.done
    · refine h.onContext fun _ _ => ?_
      split
      · exact h.refuse
      · exact h.update.done

/-! ### The host, the fabric and resets -/

protected theorem Canonical.keyLoad {slot addr : DWord} (h : Canonical s) : Canonical (keyLoad s slot addr).1 := by
  unfold keyLoad
  split
  · exact h.refuse
  · split
    · exact h.refuse
    · exact h.update.done

protected theorem Canonical.execKeyEmpty {slot cpla : BitVec 64} (h : Canonical s) : KeepsOut (execKeyEmpty slot cpla s) := by
  unfold execKeyEmpty
  refine h.command fun _ ht => ?_
  split
  · exact ht.refuse
  · exact ht.update.done

protected theorem Canonical.applyImage {target : Nat} {b : List Byte} (h : Canonical s) : Canonical (applyImage s target b) :=
  h.update.holdIcad.ite h.update

protected theorem Canonical.wipe (h : Canonical s) : Canonical (wipe s) := ⟨h.1, rfl⟩

protected theorem Canonical.zeroHbm (h : Canonical s) : Canonical (zeroHbm s) := ⟨wf_filter _ h.1, rfl⟩

protected theorem Canonical.idleAtReset {ctag : Nat} (h : Canonical s) : Canonical (idleAtReset s ctag) := by
  unfold idleAtReset
  refine h.idleQueues.foldl fun _ _ ht => ?_
  split
  · exact ht.ite ht.evictLine
  · exact ht

protected theorem Canonical.changeLife {next : Nat} (h : Canonical s) : Canonical (changeLife s next) :=
  Canonical.update (Canonical.wipe (Canonical.zeroHbm (Canonical.update (h.foldl fun _ _ ht => ht.idleAtReset.destroyContext))))

protected theorem Canonical.warmReset (h : Canonical s) : Canonical (warmReset s) :=
  ⟨(Canonical.foldl (f := idleAtReset) h fun _ _ ht => ht.idleAtReset).1, rfl⟩

protected theorem Canonical.execColdReset {fuses : Fuses} (h : Canonical s) : KeepsOut (execColdReset fuses s) :=
  .next ⟨wf_filter _ (Canonical.foldl (f := idleAtReset) h fun _ _ ht => ht.idleAtReset).1, rfl⟩

protected theorem Canonical.breakDie {die : Nat} {cause : DWord} (h : Canonical s) : Canonical (breakDie s die cause) := h.breakSlots

protected theorem Canonical.loseMemory {die : Nat} (h : Canonical s) : Canonical (loseMemory s die) :=
  ⟨wf_filter _ h.1, risingFrom_filter _ h.2⟩

protected theorem Canonical.execDieLoss {die : Nat} (h : Canonical s) : KeepsOut (execDieLoss die s) := by
  unfold execDieLoss
  refine .next ?_
  split
  · exact h
  · exact Canonical.recheckAll (Canonical.postFutures (Canonical.foldl (h.breakDie.loseMemory.postEvent.moveFrom.foldl
      fun _ _ ht => ht.killContext) fun _ _ ht => ht.killContext))

protected theorem Canonical.moveFrt {die : Nat} (h : Canonical s) : Canonical (moveFrt s die) := h.setDie.foldl fun _ _ ht => ht.setDie

protected theorem Canonical.writeFrtbase {die : Nat} {v : DWord} (h : Canonical s) : Canonical (writeFrtbase s die v) :=
  h.ite (h.moveFrt.update.ite h.moveFrt.update)

protected theorem Canonical.writeNodeid {v : DWord} (h : Canonical s) : Canonical (writeNodeid s v) := h.update

protected theorem Canonical.writeRotcfg {v : DWord} (h : Canonical s) : Canonical (writeRotcfg s v) := by
  unfold writeRotcfg
  dsimp only
  refine Canonical.update ?_
  split
  · split
    · exact h
    · exact h.foldl fun _ _ ht => ht.setDie
  · split
    · exact h
    · exact h.foldl fun _ _ ht => ht.setDie

protected theorem Canonical.writeRegister {off : Nat} {v : DWord} (h : Canonical s) : Canonical (writeRegister s off v) := by
  unfold writeRegister
  dsimp only
  split
  · exact h.writeNodeid
  · exact h.update
  · exact h.update.postFaults
  · exact h.update
  · exact h.update
  · exact h.writeFrtbase
  · exact h.writeFrtbase
  · exact h.update
  · exact h.update
  · exact h.update
  · exact h.update.noteThrottle
  · exact h.update
  · exact h.update
  · exact h.writeRotcfg
  · exact h.update
  · exact h.update
  · exact h.update
  · exact h

protected theorem Canonical.noteDropped (h : Canonical s) : Canonical (noteDropped s) := h.ite h.update.postEvent

protected theorem Canonical.execEventRecordWrite (h : Canonical s) : KeepsOut (execEventRecordWrite s) := by
  unfold execEventRecordWrite
  refine .next ?_
  split
  · exact h
  · exact h.agentWrite.agentWrite.update.noteDropped

protected theorem Canonical.dropPort {port : Nat} (h : Canonical s) : Canonical (dropPort s port) := h.update.postEvent.ite h

protected theorem Canonical.trainNode (h : Canonical s) : Canonical (trainNode s) := by
  unfold trainNode
  dsimp only
  split
  · exact h.update.foldl fun _ _ ht => ht.dropPort
  · exact h.update

/-! ### Vector instructions -/

protected theorem Canonical.vecOp {nx : BitVec 2} {ok : Nat → Bool} {f : Wave → Wave} (h : Canonical s) : KeepsOut (vecOp s nx ok f) :=
  h.checked fun _ _ _ => h.setWave

protected theorem Canonical.llVec {nx : BitVec 2} {la : BitVec 4} {ok : Nat → Bool} {regs : Wave → List RegName} {writes : Wave → List RegWrite}
    (h : Canonical s) :
    KeepsOut (llVec s nx la ok regs writes) :=
  h.checked fun _ _ _ => h.update.setWave

protected theorem Canonical.llFun {nx : BitVec 2} {d a : BitVec 6} {l : BitVec 4} {f : Wave → Nat → Nat} (h : Canonical s) :
    KeepsOut (llFun s nx d a l f) :=
  h.llVec

protected theorem Canonical.execVsqrt {nx : BitVec 2} {d a : BitVec 6} {l : BitVec 4} (h : Canonical s) : KeepsOut (execVsqrt nx d a l s) := by
  unfold execVsqrt
  exact h.llFun

protected theorem Canonical.laneOp {nx : BitVec 2} {d : BitVec 6} {f : Wave → Nat → Word} (h : Canonical s) : KeepsOut (laneOp s nx d f) := h.regOp

protected theorem Canonical.execVdot4 {nx : BitVec 2} {d a b : BitVec 6} (h : Canonical s) : KeepsOut (execVdot4 nx d a b s) := by
  unfold execVdot4
  exact h.vecOp

protected theorem Canonical.execVdot2 {nx : BitVec 2} {d a b : BitVec 6} (h : Canonical s) : KeepsOut (execVdot2 nx d a b s) := by
  unfold execVdot2
  exact h.vecOp

protected theorem Canonical.execVuntilth {nx : BitVec 2} {d a : BitVec 6} (h : Canonical s) : KeepsOut (execVuntilth nx d a s) := by
  unfold execVuntilth
  exact h.checked fun _ _ _ => h.setWave

/-! ### Reductions -/

protected theorem Canonical.pred2 {nx : BitVec 2} {d a b : BitVec 3} {n : BitVec 1} {f : Word → Word → Word} (h : Canonical s) :
    KeepsOut (pred2 s nx d a b n f) :=
  h.regOp

protected theorem Canonical.execPfirst {nx : BitVec 2} {d : BitVec 6} {a : BitVec 3} {h : BitVec 1} (hc : Canonical s) :
    KeepsOut (execPfirst nx d a h s) := by
  unfold execPfirst
  exact hc.regOp

protected theorem Canonical.execPseti {nx : BitVec 2} {d : BitVec 3} {h : BitVec 1} {c : BitVec 6} (hc : Canonical s) :
    KeepsOut (execPseti nx d h c s) := by
  unfold execPseti
  exact hc.regOp

/-! ### Scalar instructions -/

protected theorem Canonical.scalarRR {nx : BitVec 2} {d a b : BitVec 6} {f : DWord → DWord → DWord} (h : Canonical s) :
    KeepsOut (scalarRR s nx d a b f) :=
  h.regOp

protected theorem Canonical.scalarR {nx : BitVec 2} {d a : BitVec 6} {f : DWord → DWord} (h : Canonical s) : KeepsOut (scalarR s nx d a f) := h.regOp

protected theorem Canonical.execSmovk1 {nx : BitVec 2} {d : BitVec 6} {i : BitVec 16} (h : Canonical s) : KeepsOut (execSmovk1 nx d i s) := by
  unfold execSmovk1
  exact h.scalarR

protected theorem Canonical.execSmovk2 {nx : BitVec 2} {d : BitVec 6} {i : BitVec 16} (h : Canonical s) : KeepsOut (execSmovk2 nx d i s) := by
  unfold execSmovk2
  exact h.scalarR

protected theorem Canonical.execSmovk3 {nx : BitVec 2} {d : BitVec 6} {i : BitVec 16} (h : Canonical s) : KeepsOut (execSmovk3 nx d i s) := by
  unfold execSmovk3
  exact h.scalarR

protected theorem Canonical.execSshl {nx : BitVec 2} {d a b : BitVec 6} (h : Canonical s) : KeepsOut (execSshl nx d a b s) := by
  unfold execSshl
  exact h.scalarRR

protected theorem Canonical.execSshr {nx : BitVec 2} {d a b : BitVec 6} (h : Canonical s) : KeepsOut (execSshr nx d a b s) := by
  unfold execSshr
  exact h.scalarRR

protected theorem Canonical.execSsra {nx : BitVec 2} {d a b : BitVec 6} (h : Canonical s) : KeepsOut (execSsra nx d a b s) := by
  unfold execSsra
  exact h.scalarRR

protected theorem Canonical.execSaddi {nx : BitVec 2} {d a : BitVec 6} {i : BitVec 10} (h : Canonical s) : KeepsOut (execSaddi nx d a i s) := by
  unfold execSaddi
  exact h.scalarR

protected theorem Canonical.execSandi {nx : BitVec 2} {d a : BitVec 6} {i : BitVec 10} (h : Canonical s) : KeepsOut (execSandi nx d a i s) := by
  unfold execSandi
  exact h.scalarR

protected theorem Canonical.execSori {nx : BitVec 2} {d a : BitVec 6} {i : BitVec 10} (h : Canonical s) : KeepsOut (execSori nx d a i s) := by
  unfold execSori
  exact h.scalarR

protected theorem Canonical.execSmuli {nx : BitVec 2} {d a : BitVec 6} {i : BitVec 10} (h : Canonical s) : KeepsOut (execSmuli nx d a i s) := by
  unfold execSmuli
  exact h.scalarR

protected theorem Canonical.execSshli {nx : BitVec 2} {d a i : BitVec 6} (h : Canonical s) : KeepsOut (execSshli nx d a i s) := by
  unfold execSshli
  exact h.scalarR

protected theorem Canonical.execSshri {nx : BitVec 2} {d a i : BitVec 6} (h : Canonical s) : KeepsOut (execSshri nx d a i s) := by
  unfold execSshri
  exact h.scalarR

protected theorem Canonical.execSsrai {nx : BitVec 2} {d a i : BitVec 6} (h : Canonical s) : KeepsOut (execSsrai nx d a i s) := by
  unfold execSsrai
  exact h.scalarR

protected theorem Canonical.execScnt {nx c : BitVec 2} {d a : BitVec 6} (h : Canonical s) : KeepsOut (execScnt nx d a c s) := by
  unfold execScnt
  exact h.scalarR

protected theorem Canonical.execSext {nx : BitVec 2} {d a : BitVec 6} {w : BitVec 3} (h : Canonical s) : KeepsOut (execSext nx d a w s) := by
  unfold execSext
  exact h.scalarR

/-! ### Vector accesses -/

protected theorem Canonical.checkedLanes {α : Type} {c : Nat → Wave → Check α} {f : Nat → Wave → α → State} (h : Canonical s) (hf : ∀ a b c,
    Canonical (f a b c)) :
    KeepsOut (checkedLanes s c f) := by
  unfold checkedLanes
  refine h.onWave fun _ _ => ?_
  split
  · exact h.stopWave
  · exact hf _ _ _

protected theorem Canonical.vectorLoad {nx : BitVec 2} {d : BitVec 6} {la : BitVec 4} {ea : Wave → Nat → Nat} (h : Canonical s) :
    KeepsOut (vectorLoad s nx d la ea) :=
  h.checkedLanes fun _ _ _ => h.loadAt

protected theorem Canonical.vectorStore {nx : BitVec 2} {d : BitVec 6} {la : BitVec 4} {ea : Wave → Nat → Nat} (h : Canonical s) :
    KeepsOut (vectorStore s nx d la ea) :=
  h.checkedLanes fun _ _ _ => h.withPeers fun _ _ ht => Canonical.setWave (ht.foldl fun _ _ ht' => ht'.writeLane)

protected theorem Canonical.execVldb {nx : BitVec 2} {d a b : BitVec 6} {la : BitVec 4} (h : Canonical s) : KeepsOut (execVldb nx d a b la s) := by
  unfold execVldb
  exact h.checked fun _ _ _ => h.loadAt

protected theorem Canonical.atomicLane {u id d ty op scope dat cmp : Nat} {a : LaneAcc} {p : Place} (h : Canonical s) :
    Canonical (atomicLane s u id d ty op scope a p dat cmp) := by
  unfold atomicLane
  dsimp only
  split <;> exact h.atomLane.setWave

protected theorem Canonical.execVatom {nx : BitVec 2} {d a : BitVec 6} {p k : BitVec 3} {o : BitVec 4} (h : Canonical s) :
    KeepsOut (execVatom nx d a p k o s) := by
  unfold execVatom
  refine h.checkedLanes fun _ _ _ => ?_
  refine h.withPeers fun _ _ ht => ?_
  refine Canonical.setWave (ht.update.foldl fun _ _ ht' => ?_)
  split
  · exact ht'.setWave.ite ht'.atomicLane
  · exact ht'

protected theorem Canonical.execFence {nx k : BitVec 2} {p : BitVec 3} (h : Canonical s) : KeepsOut (execFence nx p k s) := by
  unfold execFence
  refine h.onWave fun _ _ => ?_
  refine Canonical.setWave ?_
  split
  · exact h.flushResults.ite h.flushResults.fenceRelease
  · exact (h.flushResults.ite h.flushResults.fenceRelease).fenceAcquire

protected theorem Canonical.prefetchL2 {c : Nat} {p : Place} (h : Canonical s) : Canonical (prefetchL2 s c p) := h.sliceRead

protected theorem Canonical.prefetchL1 {c : Nat} {p : Place} (h : Canonical s) : Canonical (prefetchL1 s c p) := h.settleLine.coreRead.coreRead

protected theorem Canonical.execPrefetch {nx : BitVec 2} {a b : BitVec 6} {m : BitVec 1} (h : Canonical s) : KeepsOut (execPrefetch nx a b m s) := by
  unfold execPrefetch
  refine h.onWave fun _ _ => ?_
  refine Canonical.setWave ?_
  split
  · exact h
  · exact h.ite ((h.prefetchL2.ite ((h.ite h.prefetchL1))))

protected theorem Canonical.execCflush {nx m : BitVec 2} {a b : BitVec 6} (h : Canonical s) : KeepsOut (execCflush nx a b m s) := by
  unfold execCflush
  exact h.onWave fun _ _ => (h.setWave.ite h.setWave)

protected theorem Canonical.flushLine {c line k : Nat} (h : Canonical s) : Canonical (flushLine s c line k) := by
  unfold flushLine
  dsimp only
  split
  · exact h.setCore
  · exact h.setCore
  · exact h.cleanLine
  · exact h.evictLine.update

protected theorem Canonical.execCflushComplete {u : Nat} (h : Canonical s) : KeepsOut (execCflushComplete u s) := by
  unfold execCflushComplete
  refine .next ?_
  split
  · exact h
  · split
    · exact Canonical.setWave (h.drainPath.foldl fun _ _ ht => ht.flushLine)
    · exact h

/-! ### Dispatch -/

/-- Every instruction and every operation keeps memory canonical. -/
theorem keepsOut_exec (h : Canonical s) (i : Instr) : KeepsOut (exec i s) := by
  cases i with
  | nop => exact h.regOp
  | halt => exact Canonical.onWave h fun _ _ => (h.settleWave.ite h.settleWave.setWave.retireWave)
  | setbt => exact h.regOp
  | setbts => exact h.regOp
  | setlt => exact h.regOp
  | setlc => exact h.regOp
  | savepc => exact h.regOp
  | setmode => exact h.execSetmode
  | getmode => exact h.regOp
  | scmp => exact h.regOp
  | scmpi => exact h.regOp
  | readsr => exact h.execReadsr
  | ssel => exact h.regOp
  | smovi => exact h.regOp
  | smovk1 => exact h.execSmovk1
  | sadd => exact h.regOp
  | ssub => exact h.regOp
  | smul => exact h.scalarRR
  | smulh => exact h.scalarRR
  | sdiv => exact h.scalarRR
  | srem => exact h.scalarRR
  | sand => exact h.scalarRR
  | sor => exact h.scalarRR
  | sxor => exact h.scalarRR
  | sshl => exact h.execSshl
  | sshr => exact h.execSshr
  | ssra => exact h.execSsra
  | smin => exact h.scalarRR
  | smax => exact h.scalarRR
  | sld => exact h.scalarLoad
  | sldi => exact h.scalarLoad
  | sst => exact h.scalarStore
  | ssti => exact h.scalarStore
  | satom => exact h.scalarAtomic
  | scnt => exact h.execScnt
  | saddi => exact h.execSaddi
  | sandi => exact h.execSandi
  | sori => exact h.execSori
  | sshli => exact h.execSshli
  | sshri => exact h.execSshri
  | ssrai => exact h.execSsrai
  | smuli => exact h.execSmuli
  | sext => exact h.execSext
  | smovk2 => exact h.execSmovk2
  | smovk3 => exact h.execSmovk3
  | vadd => exact h.vecOp
  | vsub => exact h.vecOp
  | vmul => exact h.vecOp
  | vmad => exact h.vecOp
  | vmin => exact h.vecOp
  | vmax => exact h.vecOp
  | vabs => exact h.vecOp
  | vneg => exact h.vecOp
  | vdiv => exact h.llVec
  | vrem => exact h.vecOp
  | vsqrt => exact h.execVsqrt
  | vrcp => exact h.llFun
  | vrsq => exact h.llFun
  | vexp2 => exact h.llFun
  | vlog2 => exact h.llFun
  | vsincos => exact h.llVec
  | vand => exact h.vecOp
  | vor => exact h.vecOp
  | vxor => exact h.vecOp
  | vnot => exact h.vecOp
  | vshl => exact h.vecOp
  | vshr => exact h.vecOp
  | vsra => exact h.vecOp
  | vmulh => exact h.vecOp
  | vcmp => exact h.vecOp
  | vsel => exact h.vecOp
  | vcvt => exact h.vecOp
  | vclass => exact h.vecOp
  | vaddi => exact h.vecOp
  | vmovs => exact h.vecOp
  | vmovi => exact h.vecOp
  | vmov => exact h.vecOp
  | vlane => exact h.laneOp
  | vperm => exact h.vecOp
  | vshfl => exact h.vecOp
  | vred => exact h.vecOp
  | vscan => exact h.vecOp
  | vextr => exact h.vecOp
  | vinsr => exact h.vecOp
  | vvote => exact h.regOp
  | vvotePballot => exact h.regOp
  | vpack => exact h.vecOp
  | vunpk => exact h.vecOp
  | vcmpi => exact h.vecOp
  | vdot4 => exact h.execVdot4
  | vdot2 => exact h.execVdot2
  | vbfe => exact h.laneOp
  | vbfi => exact h.laneOp
  | vcnt => exact h.laneOp
  | vtilth => exact h.vecOp
  | vuntilth => exact h.execVuntilth
  | vexpo => exact h.vecOp
  | vldexp => exact h.vecOp
  | pand => exact h.pred2
  | por => exact h.pred2
  | pxor => exact h.pred2
  | pnot => exact h.regOp
  | pmov => exact h.regOp
  | pmovFs => exact h.regOp
  | pmovTs => exact h.regOp
  | pcnt => exact h.regOp
  | pfirst => exact h.execPfirst
  | pseti => exact h.execPseti
  | planes => exact h.regOp
  | vld => exact h.vectorLoad
  | vst => exact h.vectorStore
  | vlds => exact h.vectorLoad
  | vsts => exact h.vectorStore
  | vldb => exact h.execVldb
  | vatom => exact h.execVatom
  | satomf => exact h.scalarAtomic
  | fence => exact h.execFence
  | prefetch => exact h.execPrefetch
  | cflush => exact h.execCflush
  | locq => exact h.regOp
  | palloc => exact h.execPalloc
  | pfree => exact h.execPfree
  | parm => exact h.execParm
  | pld => exact h.execPld
  | pst => exact h.execPst
  | pstate => exact h.execPstate
  | pwait => exact h.execPwait
  | cpy => exact h.copyInto
  | cpyt => exact h.copyInto
  | cpyim => exact h.copyInto
  | cpym => exact h.copyInto
  | cpyout => exact h.execCpyout
  | publish => exact h.execPublish
  | xeng => exact h.execXeng
  | cpybar => exact h.execCpybar
  | pinfo => exact h.execPinfo
  | yacq => exact h.execYacq
  | yrel => exact h.execYrel
  | ystat => exact h.execYstat
  | mloadb => exact h.execMloadb
  | mrun => exact h.execMrun
  | mzero => exact h.execMzero
  | mreadg => exact h.execMreadg
  | mhalt => exact h.execMhalt
  | mdrain => exact h.execMdrain
  | msave => exact h.execMsave
  | mrest => exact h.execMrest
  | mbands => exact h.execMbands
  | mcadr => exact h.execMcadr
  | maccg => exact h.execMaccg
  | barrive => exact h.execBarrive
  | bwait => exact h.execBwait
  | bjoin => exact h.execBjoin
  | bleave => exact h.execBleave
  | binit => exact h.execBinit
  | evbind => exact h.execEvbind
  | evunb => exact h.regOp
  | evmask => exact h.regOp
  | evpend => exact h.execEvpend
  | evclr => exact h.regOp
  | waitany => exact h.execWaitany
  | mbsend => exact h.execMbsend
  | mbrecv => exact h.regOp
  | sleep => exact h.execSleep
  | sleepEv => exact h.execSleepEv
  | gbar => exact h.execGbar
  | invoke => exact h.execInvoke
  | invokef => exact h.execInvokef
  | fget => exact h.execFget
  | fpoll => exact h.execFpoll
  | fdrop => exact h.execFdrop
  | taskarg => exact h.regOp
  | taskret => exact h.execTaskret
  | taskbrk => exact h.execTaskbrk
  | launch => exact h.execLaunch
  | depsig => exact h.execDepsig
  | regroup => exact h.execRegroup
  | trap => exact Canonical.onWave h fun _ _ => h.raise
  | tret => exact h.execTret
  | ctlr => exact h.regOp
  | ctlw => exact h.execCtlw
  | tlbinv => exact h.execTlbinv
  | tlbinvAll => exact h.execTlbinvAll
  | brk => exact Canonical.onWave h fun _ _ => h.raise
  | perfr => exact h.regOp
  | yield => exact h.execYield
  | llResultWrite => exact h.execLlResultWrite
  | writeThroughPerform => exact h.execWriteThroughPerform
  | sliceAtomicPerform => exact h.execSliceAtomicPerform
  | barrierUnitOperation => exact .next h.barStep
  | transferBlock => exact .next h.transferBlock
  | plotAccessEnd => exact h.execPlotAccessEnd
  | publishPoint => exact h.execPublishPoint
  | rowInjection => exact h.execRowInjection
  | rowGarnerUpdate => exact h.execRowGarnerUpdate
  | bandUp => exact h.execBandUp
  | leaseEnd => exact h.execLeaseEnd
  | taskArrival => exact h.execTaskArrival
  | sheafTimeout => exact h.execSheafTimeout
  | poolGrant => exact h.execPoolGrant
  | frtTaskEnd => exact h.execFrtTaskEnd
  | forwardArrival => exact h.execForwardArrival
  | dropArrival => exact h.execDropArrival
  | recordTake => exact .next (Canonical.takeNext h (fun _ ht => ht.skipLaunch) fun _ _ _ _ ht => ht.takeLaunch)
  | taskRecordTake => exact .next (Canonical.takeNext h (fun _ ht => ht) fun _ _ _ _ ht => ht.takeTask)
  | overflowMove => exact h.execOverflowMove
  | leadershipMove => exact h.execLeadershipMove
  | groupBind => exact h.execGroupBind
  | groupResident => exact h.execGroupResident
  | gangWaitTimeout => exact h.execGangWaitTimeout
  | firedEntryTake => exact h.execFiredEntryTake
  | freezeBegin => exact h.execFreezeBegin
  | freezeEnd => exact h.execFreezeEnd
  | stretchEnd => exact .next (h.setCore.ite h)
  | halvedIssueEnd => exact .next (h.setCore.ite h)
  | ageingReplan => exact h.execAgeingReplan
  | eventTimerExpiry => exact h.execEventTimerExpiry
  | sleepExpiry => exact h.execSleepExpiry
  | preemptD1Expiry => exact .next (h.startTrapping.ite h)
  | preemptD2Expiry => exact .next (h.forceReset.checkEmergency.ite h)
  | autoSurrender => exact h.execAutoSurrender
  | contextSaveComplete => exact h.execContextSaveComplete
  | restoreBind => exact h.execRestoreBind
  | ctxLoad => exact Canonical.command h fun _ ht => ht.ctxLoad
  | ctxDestroy => exact h.execCtxDestroy
  | preempt => exact Canonical.command h fun _ ht => ht.preempt
  | restore => exact Canonical.command h fun _ ht => ht.restore
  | killRegion => exact h.execKillRegion
  | tlbinvCommand => exact h.execTlbinvCommand
  | summary => exact Canonical.command h fun _ ht => ht.summary
  | dieDrain => exact Canonical.command h fun _ ht => ht.dieDrain
  | dieOnline => exact Canonical.command h fun _ ht => ht.dieOnline
  | keyLoad => exact Canonical.command h fun _ ht => ht.keyLoad
  | keyEmpty => exact h.execKeyEmpty
  | debugAttach => exact h.execDebugAttach
  | debugDetach => exact h.execDebugDetach
  | debugResume => exact Canonical.command h fun _ ht => ht.debugResume
  | peerWindow => exact h.execPeerWindow
  | peerBind => exact Canonical.command h fun _ ht => ht.peerBind
  | fwUpdate => exact .next ((h.completeCommand.ite ((h.completeCommand.ite h.applyImage.completeCommand))))
  | lcChange => exact .next (h.changeLife.completeCommand.ite h.completeCommand)
  | mgmtBadRecord => exact .next h.completeCommand
  | msaveMrestComplete => exact h.execMsaveMrestComplete
  | cflushComplete => exact h.execCflushComplete
  | translationWalk => exact h.execTranslationWalk
  | faultResponse => exact h.execFaultResponse
  | faultQueueHeadUpdate => exact .next h.agentWrite.postFaults
  | fqcfgWrite => exact .next h.update.postFaults
  | lineEviction => exact h.execLineEviction
  | hostSnoop => exact h.execHostSnoop
  | hostMemAccess => exact .next h.hostAccess
  | rdmaWrite => exact .next h.hostAccess
  | peerRequest => exact h.execPeerRequest
  | peerResponse => exact .next h.peerAnswer
  | futureAnswerArrival => exact .next (h.ite h.update.postFutures)
  | peerTaskMessage => exact h.execPeerTaskMessage
  | fabricEnqueue => exact h.execFabricEnqueue
  | telemetrySample => exact .next h.update.sampleDie.sampleDie.stepIcad.checkEmergency
  | thermalTrip => exact .next (h.strikeTrip.checkEmergency.ite h)
  | thermalTripRelease => exact .next (h.setDie.ite h)
  | droopTrip => exact .next (h.ite h.markRows.setCore.update)
  | reeveWatchdogExpiry => exact .next (h.postEvent.resetDie.ite h)
  | eventQueueHeadUpdate => exact .next h.agentWrite
  | frtbaseWrite => exact .next (h.writeFrtbase.ite h)
  | nodeidWrite => exact .next h.writeNodeid
  | rotcfgWrite => exact .next h.writeRotcfg
  | registerWrite => exact .next h.writeRegister
  | coldReset => exact h.execColdReset
  | dieLoss => exact h.execDieLoss
  | linkUp => exact .next ((h.ite (((h.trainNode.ite h).ite (((h.trainNode.ite h).update).postEvent)))))
  | linkDown => exact .next h.dropPort
  | spdmRequest => exact .next h.update
  | queueDescriptorEnWrite => exact h.execQueueDescriptorEnWrite
  | predictorDecay => exact .next (h.update.ite h)
  | peerTimeout => exact h.execPeerTimeout
  | leaderThrottleTimeout => exact h.execLeaderThrottleTimeout
  | rotationTick => exact h.execRotationTick
  | emergencyExit => exact h.execEmergencyExit
  | pwcWatchdogExpiry => exact .next h.update.postEvent.holdIcad.resetDie
  | dieResetDone => exact h.execDieResetDone
  | warmReset => exact .next (h.completeCommand.ite h.warmReset)
  | eventRecordWrite => exact h.execEventRecordWrite
  | agestatDaysIncrement => exact .next (h.setAge.ite h)

/-! ### A step -/

protected theorem Canonical.fetchWord {w : Wave} {x : Word} (h : Canonical s) (e : fetchWord s w = .ok (t, x)) : Canonical t := by
  unfold fetchWord at e
  split at e
  · split at e
    · cases e
    · split at e <;> cases e
  · cases e
    exact h.fetchLine

/-- Every state that a turn goes on from is canonical. -/
def KeepsTurn (r : Turn) : Prop :=
  match r with
  | .done t => Canonical t
  | .run _ t => Canonical t

protected theorem Canonical.issueWord {u : Nat} {w : Wave} {x : Word} (h : Canonical s) : KeepsTurn (issueWord s u w x) := by
  unfold issueWord
  split
  · exact h.takeTrap
  · dsimp only
    split
    · exact h.waitForRegs
    · split
      · exact h.waitForRegs.takeTrap
      · split
        · exact h.waitForRegs.waitForRegs
        · exact h.waitForRegs.waitForRegs.setWave

protected theorem Canonical.fetchTurn {u : Nat} {w : Wave} (h : Canonical s) : KeepsTurn (fetchTurn s u w) := by
  unfold fetchTurn
  split
  · exact h.stopWave
  · rename_i e
    exact (h.fetchWord e).issueWord

protected theorem Canonical.turnOf {u : Nat} (h : Canonical s) : KeepsTurn (turnOf s u) := by
  unfold turnOf
  split
  · exact h
  · split
    · exact h.takeTrap
    · dsimp only
      split
      · exact h.setWave.takeTrap
      · split
        · exact h
        · exact h.fetchTurn
        · exact h.setWave.fetchTurn

protected theorem KeepsOut.endStep {turn : Bool} {o : Out} (h : KeepsOut o) : KeepsOut (endStep turn o) := by
  cases o with
  | next t => exact .next (h t rfl).tick
  | fault r => exact .fault r
  | refused r => exact .refused r

protected theorem Canonical.waveStep (h : Canonical s) : KeepsOut (waveStep s) := by
  have ht := h.turnOf (u := s.cur)
  unfold waveStep
  split
  · rename_i e
    rw [e] at ht
    exact .next ht
  · rename_i i t e
    rw [e] at ht
    have hx := keepsOut_exec ht i
    split
    · rename_i e'
      exact .next (hx _ e').afterIssue
    · exact .fault _
    · exact .refused _

protected theorem Canonical.freeStep (h : Canonical s) : KeepsOut (freeStep s) := by
  unfold freeStep
  split
  · exact .endStep h.update.waveStep
  · split
    · exact .endStep (keepsOut_exec h.update _)
    · split
      · exact .endStep h.update.waveStep
      · exact .next h.update.tick

protected theorem Canonical.step (h : Canonical s) : KeepsOut (step s) := by
  unfold step
  split
  · exact .endStep (keepsOut_exec h _)
  · split
    · exact .endStep (keepsOut_exec h.update _)
    · exact h.freeStep

/-- Settles O59: a step is made of operations that each keep the invariant. -/
theorem memoryCanonical : Obligations.MemoryCanonical := by
  unfold Obligations.MemoryCanonical
  intro s t hm hl e
  exact Canonical.step ⟨hm, hl⟩ t e


end

end Sys2Proof

/-! SUPPORT. Accesses to memory (R35, R110, R115): what an access leaves of the rest of the state, what an extent reads after a write to it, and the
accesses of the host to its own memory. -/
namespace Sys2Proof
open Machine

@[simp] theorem groupOf_setWave (s : State) (u g : Nat) (w : Wave) : groupOf (setWave s u w) g = groupOf s g := rfl
@[simp] theorem ctxOf_setWave (s : State) (u c : Nat) (w : Wave) : ctxOf (setWave s u w) c = ctxOf s c := rfl
@[simp] theorem coreOf_setWave (s : State) (u c : Nat) (w : Wave) : coreOf (setWave s u w) c = coreOf s c := rfl
@[simp] theorem physByte_setWave (s : State) (u k : Nat) (w : Wave) : physByte (setWave s u w) k = physByte s k := rfl

/-! ### What an access leaves of the state -/

/-- `t` is `s` but for what the L2s, the host's grants, the predictor and the cores hold. -/
def SliceOnly (s t : State) : Prop :=
  ∃ l2 remote granted predictor cores, t = { s with l2 := l2, remote := remote, granted := granted, predictor := predictor, cores := cores }

namespace SliceOnly
variable {s t v : State}

protected theorem refl (s : State) : SliceOnly s s := ⟨_, _, _, _, _, rfl⟩

protected theorem trans (h : SliceOnly s t) (h' : SliceOnly t v) : SliceOnly s v := by
  obtain ⟨_, _, _, _, _, rfl⟩ := h
  obtain ⟨_, _, _, _, _, rfl⟩ := h'
  exact ⟨_, _, _, _, _, rfl⟩

/-- A step that changes nothing else keeps every field that a slice does not hold. -/
protected theorem congr {α : Type} (h : SliceOnly s t) (f : State → α)
    (hf : ∀ l2 remote granted predictor cores, f { s with l2 := l2, remote := remote, granted := granted, predictor := predictor, cores := cores } = f s) :
    f t = f s := by
  obtain ⟨_, _, _, _, _, rfl⟩ := h
  exact hf _ _ _ _ _

protected theorem waves (h : SliceOnly s t) : t.waves = s.waves := h.congr State.waves fun _ _ _ _ _ => rfl
protected theorem groups (h : SliceOnly s t) : t.groups = s.groups := h.congr State.groups fun _ _ _ _ _ => rfl
protected theorem contexts (h : SliceOnly s t) : t.contexts = s.contexts := h.congr State.contexts fun _ _ _ _ _ => rfl
protected theorem dies (h : SliceOnly s t) : t.dies = s.dies := h.congr State.dies fun _ _ _ _ _ => rfl
protected theorem bar (h : SliceOnly s t) : t.bar = s.bar := h.congr State.bar fun _ _ _ _ _ => rfl
protected theorem faults (h : SliceOnly s t) : t.faults = s.faults := h.congr State.faults fun _ _ _ _ _ => rfl
protected theorem events (h : SliceOnly s t) : t.events = s.events := h.congr State.events fun _ _ _ _ _ => rfl
protected theorem snaps (h : SliceOnly s t) : t.snaps = s.snaps := h.congr State.snaps fun _ _ _ _ _ => rfl
protected theorem tlb (h : SliceOnly s t) : t.tlb = s.tlb := h.congr State.tlb fun _ _ _ _ _ => rfl
protected theorem tags (h : SliceOnly s t) : t.tags = s.tags := h.congr State.tags fun _ _ _ _ _ => rfl
protected theorem mem (h : SliceOnly s t) : t.mem = s.mem := h.congr State.mem fun _ _ _ _ _ => rfl
protected theorem packets (h : SliceOnly s t) : t.packets = s.packets := h.congr State.packets fun _ _ _ _ _ => rfl
protected theorem sec (h : SliceOnly s t) : t.sec = s.sec := h.congr State.sec fun _ _ _ _ _ => rfl

protected theorem waveOf (h : SliceOnly s t) (u : Nat) : waveOf t u = waveOf s u := by simp only [Machine.waveOf, h.waves]
protected theorem groupOf (h : SliceOnly s t) (g : Nat) : groupOf t g = groupOf s g := by simp only [Machine.groupOf, h.groups]
protected theorem ctxOf (h : SliceOnly s t) (c : Nat) : ctxOf t c = ctxOf s c := by simp only [Machine.ctxOf, h.contexts]
protected theorem dieOf (h : SliceOnly s t) (d : Nat) : dieOf t d = dieOf s d := by simp only [Machine.dieOf, h.dies]
protected theorem key0 (h : SliceOnly s t) : key0 t = key0 s := by simp only [Machine.key0, keyId, h.sec]
protected theorem isLost (h : SliceOnly s t) (d : Nat) : isLost t d = isLost s d := by simp only [Machine.isLost, h.dieOf]

protected theorem underKey (h : SliceOnly s t) {kid k n : Nat} (hk : UnderKey s kid k n) : UnderKey t kid k n := by
  obtain ⟨_, _, _, _, _, rfl⟩ := h
  exact hk

end SliceOnly

theorem sliceOnly_foldl {α : Type} {f : State → α → State} (hf : ∀ t x, SliceOnly t (f t x)) (l : List α) (s : State) : SliceOnly s (l.foldl f s) :=
  List.foldlRecOn (motive := SliceOnly s) l f (.refl s) fun _ ih x _ => ih.trans (hf _ x)

theorem sliceOnly_seekLine (s : State) (die line : Nat) (wr : Bool) (n : Nat) : SliceOnly s (seekLine s die line wr n) := by
  obtain ⟨r, g, h⟩ := seekLine_eq s die line wr n
  rw [h]
  exact ⟨_, _, _, _, _, rfl⟩

theorem sliceOnly_recallOwned (s : State) (line : Nat) (keep : Option Nat) : SliceOnly s (recallOwned s line keep) := by
  unfold recallOwned
  split
  · exact .refl s
  · split
    · exact .refl s
    · exact ⟨_, _, _, _, _, rfl⟩

theorem sliceOnly_setCore (s : State) (c : Nat) (x : Core) : SliceOnly s (setCore s c x) := ⟨_, _, _, _, _, rfl⟩

theorem sliceOnly_l2Write (s : State) (k : Nat) (l : List Byte) : SliceOnly s (l2Write s k l) := by
  induction l generalizing s k with
  | nil => exact .refl s
  | cons b t ih => exact SliceOnly.trans ⟨_, _, _, _, _, rfl⟩ (ih _ _)

theorem sliceOnly_markCounted (s : State) (src : Option Nat) (k n : Nat) : SliceOnly s (markCounted s src k n) := ⟨_, _, _, _, _, rfl⟩

/-! ### Accesses of one line -/

/-- A line that is read: its copy at the other die and an owned copy return. -/
def reached (s : State) (die : Nat) (src : Option Nat) (k : Nat) (wr : Bool) (n : Nat) : State :=
  recallOwned (seekLine s die (lineOf k) wr n) (lineOf k) src

theorem sliceOnly_reached (s : State) (die : Nat) (src : Option Nat) (k : Nat) (wr : Bool) (n : Nat) : SliceOnly s (reached s die src k wr n) :=
  (sliceOnly_seekLine ..).trans (sliceOnly_recallOwned ..)

@[simp] theorem physByte_reached (s : State) (die : Nat) (src : Option Nat) (k : Nat) (wr : Bool) (n a : Nat) :
    physByte (reached s die src k wr n) a = physByte s a :=
  physByte_congr ((recallOwned_mem ..).trans (seekLine_mem ..)) ((recallOwned_l2 ..).trans (seekLine_l2 ..)) a

/-- Without a snapshot, a write to lines that stand under its key is a write into the L2. -/
theorem performWrite_plain (fuel : Nat) (s : State) (die : Nat) (src : Option Nat) {kid k : Nat} {l : List Byte} (h : UnderKey s kid k l.length)
    (hs : s.snaps = []) (hl : l ≠ []) :
    performWrite (fuel + 1) s die src kid k l = markCounted (l2Write (reached s die src k true l.length) k l) src k l.length := by
  have hr : (reached s die src k true l.length).snaps = [] := (sliceOnly_reached ..).snaps.trans hs
  have hn : noteAside (reached s die src k true l.length) (lineOf k) = reached s die src k true l.length := by
    simp only [noteAside, hr, List.map_nil]
    rw [← hr]
  have hd : asideDue (reached s die src k true l.length) (lineOf k) = [] := by simp [asideDue, hr]
  rw [performWrite, if_neg (by simpa using hl), touch_same s kid k _ h]
  show markCounted (l2Write (((asideDue (reached s die src k true l.length) (lineOf k)).flatMap _).foldl _
    (noteAside (reached s die src k true l.length) (lineOf k))) k l) src k l.length = _
  rw [hd, hn]
  rfl

theorem performWrite_nil (fuel : Nat) (s : State) (die : Nat) (src : Option Nat) (kid k : Nat) : performWrite fuel s die src kid k [] = s := by
  cases fuel <;> rfl

theorem performWrite_only (fuel : Nat) (s : State) (die : Nat) (src : Option Nat) {kid k : Nat} {l : List Byte} (h : UnderKey s kid k l.length)
    (hs : s.snaps = []) : SliceOnly s (performWrite (fuel + 1) s die src kid k l) := by
  by_cases hl : l = []
  · rw [hl, performWrite_nil]
    exact .refl s
  · rw [performWrite_plain fuel s die src h hs hl]
    exact ((sliceOnly_reached ..).trans (sliceOnly_l2Write ..)).trans (sliceOnly_markCounted ..)

theorem performWrite_written (fuel : Nat) (s : State) (die : Nat) (src : Option Nat) {kid k : Nat} {l : List Byte} (h : UnderKey s kid k l.length)
    (hs : s.snaps = []) : Written s (performWrite (fuel + 1) s die src kid k l) k l := by
  intro a
  by_cases hl : l = []
  · subst hl
    rw [performWrite_nil, if_neg (by simp)]
  · rw [performWrite_plain fuel s die src h hs hl, physByte_congr (t := markCounted _ _ _ _) (s := l2Write _ k l) rfl rfl, physByte_l2Write,
      physByte_reached]

theorem asideFuel_eq (s : State) : ∃ f, asideFuel s = f + 1 := ⟨_, rfl⟩

theorem sliceWrite_only (s : State) (src : Option Nat) {kid k : Nat} {l : List Byte} (h : UnderKey s kid k l.length) (hs : s.snaps = []) :
    SliceOnly s (sliceWrite s src kid k l) := performWrite_only _ s _ src h hs

theorem homeWrite_only (s : State) (src : Option Nat) {kid k : Nat} {l : List Byte} (h : UnderKey s kid k l.length) (hs : s.snaps = []) :
    SliceOnly s (homeWrite s src kid k l) := performWrite_only _ s _ src h hs

theorem homeWrite_written (s : State) (src : Option Nat) {kid k : Nat} {l : List Byte} (h : UnderKey s kid k l.length) (hs : s.snaps = []) :
    Written s (homeWrite s src kid k l) k l := performWrite_written _ s _ src h hs

theorem performRead_eq (s : State) (die : Nat) (src : Option Nat) {kid k n : Nat} (h : UnderKey s kid k n) :
    performRead s die src kid k n = (reached s die src k false n, physBytes (reached s die src k false n) k n) := by
  rw [performRead, touch_same s kid k n h]
  rfl

/-! ### Extents -/

theorem physBytes_congr {s t : State} (h : SameMemory s t) (k n : Nat) : physBytes t k n = physBytes s k n := by
  induction n generalizing k with
  | zero => rfl
  | succ n ih => rw [physBytes, physBytes, h, ih]

@[simp] theorem physBytes_length (s : State) (k n : Nat) : (physBytes s k n).length = n := by
  induction n generalizing k with
  | zero => rfl
  | succ n ih => rw [physBytes, List.length_cons, ih]

/-- An extent reads as `b` when each of its bytes does. -/
theorem physBytes_eq_of {s : State} {k : Nat} {b : List Byte} (h : ∀ i, i < b.length → physByte s (k + i) = b.getD i 0#8) :
    physBytes s k b.length = b := by
  induction b generalizing k with
  | nil => rfl
  | cons x t ih =>
    have h0 : physByte s k = x := h 0 (by simp)
    rw [List.length_cons, physBytes, h0, ih]
    intro i hi
    rw [show k + 1 + i = k + (i + 1) by omega, h (i + 1) (by simpa using hi)]
    rfl

theorem SameMemory.refl (s : State) : SameMemory s s := fun _ => rfl
theorem SameMemory.trans {s t v : State} (h : SameMemory s t) (h' : SameMemory t v) : SameMemory s v := fun k => (h' k).trans (h k)

namespace Written
variable {s t v : State} {k : Nat} {b : List Byte}

/-- What was written reads back. -/
protected theorem bytes (h : Written s t k b) : physBytes t k b.length = b :=
  physBytes_eq_of fun i hi => by
    rw [h, if_pos (by omega)]
    congr 1
    omega

/-- The first of the bytes that were written read back. -/
protected theorem left {c : List Byte} (h : Written s t k (b ++ c)) : physBytes t k b.length = b :=
  physBytes_eq_of fun i hi => by
    rw [h, if_pos (by rw [List.length_append]; omega), List.getD_append _ _ _ _ (by omega)]
    congr 1
    omega

/-- A byte outside of what was written reads as before. -/
protected theorem other (h : Written s t k b) {a : Nat} (ha : a < k ∨ k + b.length ≤ a) : physByte t a = physByte s a := by
  rw [h, if_neg (by omega)]

/-- An extent beside what was written reads as before. -/
protected theorem others (h : Written s t k b) {a n : Nat} (ha : a + n ≤ k ∨ k + b.length ≤ a) : physBytes t a n = physBytes s a n := by
  induction n generalizing a with
  | zero => rfl
  | succ n ih => rw [physBytes, physBytes, ih (by omega), h.other (by omega)]

protected theorem congr (h : Written s t k b) (h' : SameMemory t v) : Written s v k b := fun a => (h' a).trans (h a)
protected theorem congrLeft (h : SameMemory s t) (h' : Written t v k b) : Written s v k b := fun a => by rw [h' a, h a]

protected theorem nil (h : SameMemory s t) : Written s t k [] := fun a => by rw [if_neg (by simp), h a]

/-- Two writes, the second where the first one ends, are one write. -/
protected theorem append {c : List Byte} (h : Written s t k b) (h' : Written t v (k + b.length) c) : Written s v k (b ++ c) := by
  intro a
  rw [h' a, h a, List.length_append]
  by_cases h1 : a < k + b.length
  · rw [if_neg (by omega)]
    by_cases h2 : k ≤ a
    · rw [if_pos (by omega), if_pos (by omega), List.getD_append _ _ _ _ (by omega)]
    · rw [if_neg (by omega), if_neg (by omega)]
  · by_cases h2 : a < k + b.length + c.length
    · rw [if_pos (by omega), if_pos (by omega), List.getD_append_right _ _ _ _ (by omega), Nat.sub_add_eq]
    · rw [if_neg (by omega), if_neg (by omega), if_neg (by omega)]

end Written

theorem UnderKey.sub {s : State} {kid k n j m : Nat} (h : UnderKey s kid k n) (hj : k ≤ j) (hm : j + m ≤ k + n) (h0 : 0 < m) : UnderKey s kid j m :=
  fun line h1 h2 => h line (by omega) (by omega)

/-- Memory of the host needs no key (R39). -/
theorem underKey_host (s : State) (kid n : Nat) {k : Nat} (h : 2 ^ 53 ≤ k) : UnderKey s kid k n :=
  fun line h1 _ => .inl (by simp only [isHostKey, decide_eq_true_eq]; omega)

theorem hostKey_ge (a : Nat) : 2 ^ 53 ≤ hostKey a := Nat.le_add_right _ _
theorem ringBase_ge (v : DWord) : 2 ^ 53 ≤ ringBase v := hostKey_ge _

/-! ### Writes and reads of any extent (R128) -/

theorem sliceWrite_nil (s : State) (src : Option Nat) (kid k : Nat) : sliceWrite s src kid k [] = s := performWrite_nil _ _ _ _ _ _

/-- Blocks written in ascending order are the extent written. -/
theorem splitBlocks_written (fuel : Nat) (s : State) {kid k : Nat} {l : List Byte} (hf : k % 64 + l.length ≤ 64 * fuel) (h : UnderKey s kid k l.length)
    (hs : s.snaps = []) :
    let t := (splitBlocks fuel k l).foldl (fun s e => sliceWrite s none kid e.1 e.2) s
    SliceOnly s t ∧ Written s t k l := by
  induction fuel generalizing s k l with
  | zero =>
    have : l = [] := List.length_eq_zero_iff.1 (by omega)
    subst this
    exact ⟨.refl s, .nil (.refl s)⟩
  | succ f ih =>
    rw [splitBlocks]
    by_cases hl : l = []
    · subst hl
      exact ⟨.refl s, .nil (.refl s)⟩
    · have hpos : 0 < l.length := List.length_pos_iff.2 hl
      rw [if_neg (by simpa using hl), List.foldl_cons]
      have htl : (l.take (64 - k % 64)).length = min (64 - k % 64) l.length := List.length_take
      have hk1 : UnderKey s kid k (l.take (64 - k % 64)).length := h.sub (le_refl k) (by omega) (by omega)
      have ho := sliceWrite_only s none hk1 hs
      have hw := sliceWrite_written s none kid k _ hk1 hs
      by_cases hshort : l.length ≤ 64 - k % 64
      · rw [List.drop_of_length_le hshort, List.take_of_length_le hshort] at *
        have hnil : ∀ f k, splitBlocks f k [] = [] := fun f k => by cases f <;> rfl
        rw [hnil]
        exact ⟨ho, hw⟩
      · have hk2 : UnderKey (sliceWrite s none kid k (l.take (64 - k % 64))) kid (k + (64 - k % 64)) (l.drop (64 - k % 64)).length :=
          ho.underKey (h.sub (by omega) (by rw [List.length_drop]; omega) (by rw [List.length_drop]; omega))
        obtain ⟨ho2, hw2⟩ := ih _ (by rw [List.length_drop]; omega) hk2 (ho.snaps.trans hs)
        refine ⟨ho.trans ho2, ?_⟩
        have := hw.append (c := l.drop (64 - k % 64)) (v := _) (by rw [htl, Nat.min_eq_left (by omega)]; exact hw2)
        rwa [List.take_append_drop] at this

section
variable (s : State) {kid k : Nat} {l : List Byte}

theorem agentWrite_only (h : UnderKey s kid k l.length) (hs : s.snaps = []) : SliceOnly s (agentWrite s kid k l) :=
  (splitBlocks_written _ s (by omega) h hs).1

theorem agentWrite_written (h : UnderKey s kid k l.length) (hs : s.snaps = []) : Written s (agentWrite s kid k l) k l :=
  (splitBlocks_written _ s (by omega) h hs).2

theorem hostWrite_only (hk : 2 ^ 53 ≤ k) (hs : s.snaps = []) : SliceOnly s (agentWrite s kid k l) := agentWrite_only s (underKey_host _ _ _ hk) hs

theorem hostWrite_written (hk : 2 ^ 53 ≤ k) (hs : s.snaps = []) : Written s (agentWrite s kid k l) k l := agentWrite_written s (underKey_host _ _ _ hk) hs

end

/-- Lines recalled one after another. -/
theorem reachLines_same (die : State → Nat → Nat) (n : Nat) (l : List Nat) (s : State) :
    let t := l.foldl (fun s i => recallOwned (seekLine s (die s i) i false n) i none) s
    SliceOnly s t ∧ SameMemory s t :=
  List.foldlRecOn (motive := fun t => SliceOnly s t ∧ SameMemory s t) l _ ⟨.refl s, .refl s⟩ fun _ ⟨ho, hm⟩ _ _ =>
    ⟨ho.trans ((sliceOnly_seekLine ..).trans (sliceOnly_recallOwned ..)),
      hm.trans (physByte_congr ((recallOwned_mem ..).trans (seekLine_mem ..)) ((recallOwned_l2 ..).trans (seekLine_l2 ..)))⟩

theorem agentRead_same (s : State) {kid k n : Nat} (h : UnderKey s kid k n) :
    SliceOnly s (agentRead s kid k n).1 ∧ SameMemory s (agentRead s kid k n).1 ∧ (agentRead s kid k n).2 = physBytes s k n := by
  simp only [agentRead, touch_same s kid k n h]
  obtain ⟨ho, hm⟩ := reachLines_same (fun _ _ => homeOf k) 64 (linesOf k n) s
  exact ⟨ho, hm, physBytes_congr hm _ _⟩

/-! ### Numbers in memory -/

theorem natOf_bytesOf (n x : Nat) : natOf (bytesOf n x) = x % 256 ^ n := by
  induction n generalizing x with
  | zero => simp [bytesOf, natOf, Nat.mod_one]
  | succ n ih =>
    have : (BitVec.ofNat 8 x).toNat = x % 256 := rfl
    rw [bytesOf, natOf, ih, this, Nat.pow_succ', Nat.mod_mul]

@[simp] theorem bytesOf_length (n x : Nat) : (bytesOf n x).length = n := by
  induction n generalizing x with
  | zero => rfl
  | succ n ih => rw [bytesOf, List.length_cons, ih]

/-- A word written in memory reads as its value. -/
theorem hostWord_written {s t : State} {k x : Nat} (h : Written s t k (bytesOf 4 x)) : hostWord t k = x % 2 ^ 32 := by
  have := h.bytes
  rw [bytesOf_length] at this
  rw [hostWord, this, natOf_bytesOf, show (256 : Nat) ^ 4 = 2 ^ 32 from rfl]

theorem hostWord_lt (s : State) (k : Nat) : hostWord s k < 2 ^ 32 := by
  have h : ∀ l : List Byte, natOf l < 256 ^ l.length := fun l => by
    induction l with
    | nil => simp [natOf]
    | cons b t ih => have := b.isLt; rw [natOf, List.length_cons, Nat.pow_succ']; omega
  have := h (physBytes s k 4)
  rwa [physBytes_length] at this

/-! ### What any access to memory leaves of the state -/

/-- `t` is `s` but for memory, what the caches and the cores hold, and what was sent to other devices. -/
def MemoryOnly (s t : State) : Prop :=
  ∃ mem l2 remote granted predictor cores tags snaps packets, t = { s with
    mem := mem, l2 := l2, remote := remote, granted := granted, predictor := predictor, cores := cores, tags := tags, snaps := snaps, packets := packets }

namespace MemoryOnly
variable {s t v : State}

protected theorem refl (s : State) : MemoryOnly s s := ⟨_, _, _, _, _, _, _, _, _, rfl⟩

protected theorem trans (h : MemoryOnly s t) (h' : MemoryOnly t v) : MemoryOnly s v := by
  obtain ⟨_, _, _, _, _, _, _, _, _, rfl⟩ := h
  obtain ⟨_, _, _, _, _, _, _, _, _, rfl⟩ := h'
  exact ⟨_, _, _, _, _, _, _, _, _, rfl⟩

protected theorem waves (h : MemoryOnly s t) : t.waves = s.waves := by obtain ⟨_, _, _, _, _, _, _, _, _, rfl⟩ := h; rfl
protected theorem groups (h : MemoryOnly s t) : t.groups = s.groups := by obtain ⟨_, _, _, _, _, _, _, _, _, rfl⟩ := h; rfl
protected theorem contexts (h : MemoryOnly s t) : t.contexts = s.contexts := by obtain ⟨_, _, _, _, _, _, _, _, _, rfl⟩ := h; rfl
protected theorem dies (h : MemoryOnly s t) : t.dies = s.dies := by obtain ⟨_, _, _, _, _, _, _, _, _, rfl⟩ := h; rfl
protected theorem launches (h : MemoryOnly s t) : t.launches = s.launches := by obtain ⟨_, _, _, _, _, _, _, _, _, rfl⟩ := h; rfl
protected theorem faults (h : MemoryOnly s t) : t.faults = s.faults := by obtain ⟨_, _, _, _, _, _, _, _, _, rfl⟩ := h; rfl
protected theorem tlb (h : MemoryOnly s t) : t.tlb = s.tlb := by obtain ⟨_, _, _, _, _, _, _, _, _, rfl⟩ := h; rfl
protected theorem bar (h : MemoryOnly s t) : t.bar = s.bar := by obtain ⟨_, _, _, _, _, _, _, _, _, rfl⟩ := h; rfl
protected theorem sec (h : MemoryOnly s t) : t.sec = s.sec := by obtain ⟨_, _, _, _, _, _, _, _, _, rfl⟩ := h; rfl

protected theorem foldl {α : Type} {f : State → α → State} (hf : ∀ t x, MemoryOnly t (f t x)) (l : List α) (s : State) : MemoryOnly s (l.foldl f s) :=
  List.foldlRecOn (motive := MemoryOnly s) l f (.refl s) fun _ ih x _ => ih.trans (hf _ x)

end MemoryOnly

theorem SliceOnly.memoryOnly {s t : State} (h : SliceOnly s t) : MemoryOnly s t := by
  obtain ⟨_, _, _, _, _, rfl⟩ := h
  exact ⟨_, _, _, _, _, _, _, _, _, rfl⟩

theorem memoryOnly_retag (s : State) (line kid : Nat) : MemoryOnly s (retag s line kid) := by
  unfold retag
  split
  · exact .refl s
  · dsimp only
    split
    · exact .refl s
    · exact ⟨_, _, _, _, _, _, _, _, _, rfl⟩

theorem memoryOnly_touch (s : State) (kid k n : Nat) : MemoryOnly s (touch s kid k n) := by
  have many : ∀ n (s : State) line, MemoryOnly s (retagMany s line n kid) := by
    intro n
    induction n with
    | zero => exact fun s _ => .refl s
    | succ n ih => exact fun s line => (memoryOnly_retag ..).trans (ih _ _)
  unfold touch
  split
  · exact .refl s
  · exact many ..

theorem memoryOnly_performWrite (fuel : Nat) (s : State) (die : Nat) (src : Option Nat) (kid k : Nat) (l : List Byte) :
    MemoryOnly s (performWrite fuel s die src kid k l) := by
  induction fuel generalizing s die src kid k l with
  | zero => exact .refl s
  | succ f ih =>
    unfold performWrite
    split
    · exact .refl s
    · have hn : ∀ (t : State) (line : Nat), MemoryOnly t (noteAside t line) := fun t line => ⟨_, _, _, _, _, _, _, _, _, rfl⟩
      exact (memoryOnly_touch ..).trans ((sliceOnly_reached ..).memoryOnly.trans ((hn _ _).trans
        ((MemoryOnly.foldl (fun t e => ih t _ _ _ _ _) _ _).trans ((sliceOnly_l2Write ..).trans (sliceOnly_markCounted ..)).memoryOnly)))

theorem memoryOnly_agentWrite (s : State) (kid k : Nat) (l : List Byte) : MemoryOnly s (agentWrite s kid k l) :=
  MemoryOnly.foldl (fun t _ => memoryOnly_performWrite _ t _ _ _ _ _) _ _

/-- A write through a context's tables, where it can be made. -/
theorem memoryOnly_ctxRecord (s : State) (ctag va : Nat) (l : List Byte) : MemoryOnly s (ctxRecord s ctag va l) := by
  have hw : ∀ t, ctxWrite s ctag va l false = some t → MemoryOnly s t := by
    refine List.foldlRecOn (motive := fun acc : Option State => ∀ t, acc = some t → MemoryOnly s t) _ _ (fun t h => by cases h; exact .refl s) ?_
    intro acc ih e _ t h
    cases acc with
    | none => cases h
    | some a =>
      simp only at h
      split at h
      · cases h
      · split at h <;> cases h
        · exact (ih a rfl).trans ⟨_, _, _, _, _, _, _, _, _, rfl⟩
        · exact (ih a rfl).trans (memoryOnly_agentWrite ..)
  unfold ctxRecord
  cases h : ctxWrite s ctag va l false with
  | none => exact .refl s
  | some t => exact hw t h

end Sys2Proof

/-! SUPPORT. Events of the memory system and the host (R44-R56, R110-R123, R218, R403-R423): what each leaves, and the statement about them. -/
namespace Sys2Proof
open Machine

/-! ### Lines that leave an L2 (R116) -/

theorem cellGet_none_of_rising {lo : Nat} {m : List Host.Cell} (h : risingFrom (some lo) m = true) {k : Nat} (hk : k ≤ lo) : cellGet m k = none := by
  induction m generalizing lo with
  | nil => rfl
  | cons e t ih =>
    obtain ⟨j, b⟩ := e
    simp only [risingFrom, Bool.and_eq_true, decide_eq_true_eq] at h
    rw [cellGet, if_neg (by omega)]
    exact ih h.2 (by omega)

theorem cellGet_cellDel_self {lo : Option Nat} {m : List Host.Cell} (h : risingFrom lo m = true) (k : Nat) : cellGet (cellDel m k) k = none := by
  induction m generalizing lo with
  | nil => rfl
  | cons e t ih =>
    obtain ⟨j, b⟩ := e
    simp only [risingFrom, Bool.and_eq_true] at h
    by_cases hj : j = k
    · subst hj
      rw [cellDel, if_pos rfl]
      exact cellGet_none_of_rising h.2 le_rfl
    · rw [cellDel, if_neg hj, cellGet, if_neg hj]
      exact ih h.2

/-- A byte of canonical memory reads as it was last set. -/
theorem cellGet_cellSet {m : List Host.Cell} (h : Memory.wf m = true) (a k : Nat) (b : Byte) :
    (cellGet (cellSet m a b) k).getD 0#8 = if k = a then b else (cellGet m k).getD 0#8 := by
  simp only [Memory.wf, Bool.and_eq_true] at h
  unfold cellSet
  by_cases hb : b = 0#8
  · rw [if_pos hb]
    by_cases hk : k = a
    · rw [hk, cellGet_cellDel_self h.1, if_pos rfl, hb]
      rfl
    · rw [cellGet_cellDel_ne _ hk, if_neg hk]
  · rw [if_neg hb, cellGet_cellPut]
    by_cases hk : k = a <;> simp [hk]

/-- Cells in rising order set one after another: each reads as its own cell says. -/
theorem cellGet_foldSet {lo : Option Nat} {l : List Host.Cell} (hl : risingFrom lo l = true) {m : List Host.Cell} (h : Memory.wf m = true) (k : Nat) :
    (cellGet (l.foldl (fun m c => cellSet m c.1 c.2) m) k).getD 0#8 = (cellGet l k).getD ((cellGet m k).getD 0#8) := by
  induction l generalizing lo m with
  | nil => rfl
  | cons e t ih =>
    obtain ⟨j, b⟩ := e
    simp only [risingFrom, Bool.and_eq_true] at hl
    rw [List.foldl_cons, ih hl.2 (wf_cellSet j b h), cellGet_cellSet h, cellGet]
    by_cases hj : j = k
    · subst hj
      rw [cellGet_none_of_rising hl.2 le_rfl, if_pos rfl, if_pos rfl]
      rfl
    · rw [if_neg hj, if_neg (Ne.symm hj)]

theorem evictLine_l2 (s : State) (line k : Nat) : cellGet (evictLine s line).l2 k = if k / 128 = line then none else cellGet s.l2 k := by
  rw [show (evictLine s line).l2 = s.l2.filter fun c => !(lineOf c.1 == line) from rfl, cellGet_filter_key fun k => !(lineOf k == line)]
  by_cases h : k / 128 = line <;> simp [lineOf, h]

/-- A line that leaves the L2 changes no byte. -/
theorem evictLine_same (s : State) (line : Nat) (h : Canonical s) : SameMemory s (evictLine s line) := by
  obtain ⟨hm, hl⟩ := h
  intro k
  rw [physByte_eq_getD, physByte_eq_getD, evictLine_l2,
    show (evictLine s line).mem = (s.l2.filter fun c => lineOf c.1 == line).foldl (fun m c => cellSet m c.1 c.2) s.mem from rfl,
    cellGet_foldSet (risingFrom_filter _ hl) hm, cellGet_filter_key fun k => lineOf k == line]
  by_cases hk : k / 128 = line <;> simp [lineOf, hk]

theorem lineEviction_slice (s : State) (line : Nat) (hm : Memory.wf s.mem = true) (hl : risingFrom none s.l2 = true) :
    Completes (.lineEviction ⟨none, line⟩) s fun t => SameMemory s t ∧ (∀ k, k / 128 = line → cellGet t.l2 k = none) ∧
      Memory.wf t.mem = true ∧ t.waves = s.waves ∧ t.cores = s.cores :=
  ⟨_, rfl, evictLine_same s line ⟨hm, hl⟩, fun k hk => by rw [evictLine_l2, if_pos hk], wf_evictLine s line hm, rfl, rfl⟩

theorem lineEviction_core (s : State) (line c : Nat) :
    Completes (.lineEviction ⟨some c, line⟩) s fun t => SameMemory s t ∧ (∀ d, d ≠ c → coreOf t d = coreOf s d) ∧
      coreOf t c = { coreOf s c with l1 := (coreOf s c).l1.filter fun e => e.1 != line } ∧ t.waves = s.waves :=
  ⟨_, rfl, fun _ => rfl, fun _ hd => coreOf_setCore_ne s _ hd, coreOf_setCore s c _, rfl⟩

/-! ### Results that return (R218, R219) -/

theorem exec_llResultWrite_ready (s : State) {u : Nat} {x : Wave} {p : Pending} (hx : lookup s.waves u = some x)
    (hs : (coreOf s (coreNo s x)).stretch = false) (hr : readyResult x = some p) : exec (.llResultWrite u) s = .next (writeResult s u) := by
  show Host.Outcome.next _ = _
  simp only [hx, hs, hr, Bool.false_eq_true, if_false]

theorem exec_llResultWrite_late (s : State) {u : Nat} {x : Wave} {l : LoadWait} (hx : lookup s.waves u = some x)
    (hs : (coreOf s (coreNo s x)).stretch = false) (hr : readyResult x = none) (hl : lateLoad x = some l) :
    exec (.llResultWrite u) s = .next (writeResult (drainFor s (coreNo s x) [l.id]) u) := by
  show Host.Outcome.next _ = _
  simp only [hx, hs, hr, hl, Bool.false_eq_true, if_false]

theorem writeResult_first (s : State) {u id : Nat} {regs : List RegName} {writes : List RegWrite} {rest : List Pending} {x : Wave}
    (hx : lookup s.waves u = some x) (hp : x.pending = ⟨id, regs, writes, true⟩ :: rest) (hid : ∀ q ∈ rest, q.id ≠ id) :
    writeResult s u = setWave s u { applyWrites x writes with pending := rest } := by
  have hr : readyResult x = some ⟨id, regs, writes, true⟩ := by rw [readyResult, hp]; rfl
  have hf : x.pending.filter (fun q => q.id != id) = rest := by
    rw [hp, List.filter_cons_of_neg (by simp), List.filter_eq_self]
    intro q hq
    simpa using hid q hq
  rw [writeResult, hx]
  simp only [hr, hf]

theorem llResultWrite_ready (s : State) {u id : Nat} {x : Wave} {regs : List RegName} {writes : List RegWrite} {rest : List Pending}
    (hx : lookup s.waves u = some x) (hs : (coreOf s (coreNo s x)).stretch = false) (hp : x.pending = ⟨id, regs, writes, true⟩ :: rest)
    (hid : ∀ q ∈ rest, q.id ≠ id) :
    exec (.llResultWrite u) s = .next (setWave s u { applyWrites x writes with pending := rest }) := by
  have hr : readyResult x = some ⟨id, regs, writes, true⟩ := by rw [readyResult, hp]; rfl
  rw [exec_llResultWrite_ready s hx hs hr, writeResult_first s hx hp hid]

/-! ### Loads on their way to a slice (R110, R123) -/

/-- Writing registers leaves the outstanding results. -/
theorem applyWrites_pending (w : Wave) (p : List Pending) (l : List RegWrite) :
    applyWrites { w with pending := p } l = { applyWrites w l with pending := p } := by
  induction l generalizing w with
  | nil => rfl
  | cons r t ih =>
    cases r with
    | s n v =>
      have h : Wave.setS { w with pending := p } n v = { w.setS n v with pending := p } := by unfold Wave.setS; split <;> rfl
      show applyWrites (Wave.setS { w with pending := p } n v) t = _
      rw [h]
      exact ih _
    | v n m v => exact ih (w.setLanes n m fun i => v.toList.getD i 0#32)

theorem way_eq_of_line_eq {a b : Nat} (h : a / 128 = b / 128) : wayOf a = wayOf b := by
  have hx : ∀ x j : Nat, (x % 2 ^ 52) >>> (7 + 6 * j) = (x / 128 % 2 ^ 45) >>> (6 * j) := by
    intro x j
    rw [Nat.shiftRight_add]
    congr 1
    rw [Nat.shiftRight_eq_div_pow]
    omega
  simp only [wayOf, sliceOf, hx, h]

/-- With nothing else on its way to a slice, the entry after those to other slices is the one that performs there. -/
theorem takeWay_append {early rest : List PathEntry} {e : PathEntry} (h : ∀ x ∈ early, x.way ≠ e.way) :
    takeWay (early ++ e :: rest) e.way = some (e, early ++ rest) := by
  induction early with
  | nil => simp [takeWay]
  | cons x t ih =>
    have hx := h x (by simp)
    rw [List.cons_append, takeWay, if_neg hx, ih fun y hy => h y (by simp [hy])]
    rfl

theorem mem_put {α : Type} {m : AMap α} {k : Nat} {a : α} {e : Nat × α} (h : e ∈ put m k a) : e = (k, a) ∨ e ∈ m := by
  induction m with
  | nil => simpa [put] using h
  | cons d t ih =>
    obtain ⟨j, b⟩ := d
    by_cases hj : j = k
    · rw [put, if_pos hj, List.mem_cons] at h
      exact h.imp_right (List.mem_cons_of_mem _)
    · rw [put, if_neg hj, List.mem_cons] at h
      obtain h | h := h
      · exact .inr (by simp [h])
      · exact (ih h).imp_right (List.mem_cons_of_mem _)

/-- A recall takes the line from the cores that own it and nothing else. -/
theorem coreOf_recallOwned (s : State) (line : Nat) (keep : Option Nat) (c : Nat) :
    ∃ o, coreOf (recallOwned s line keep) c = { coreOf s c with owned := o } := by
  unfold recallOwned
  split
  · exact ⟨_, rfl⟩
  · next d _ =>
    split
    · exact ⟨_, rfl⟩
    · by_cases hd : c = d
      · exact ⟨_, by rw [hd]; exact coreOf_setCore s d _⟩
      · exact ⟨_, coreOf_setCore_ne s _ hd⟩

theorem coreOf_seekLine (s : State) (die line : Nat) (wr : Bool) (n c : Nat) : coreOf (seekLine s die line wr n) c = coreOf s c := by
  obtain ⟨r, g, h⟩ := seekLine_eq s die line wr n
  rw [h]
  rfl

theorem coreOf_reached (s : State) (die : Nat) (src : Option Nat) (k : Nat) (wr : Bool) (n c : Nat) :
    ∃ o, coreOf (reached s die src k wr n) c = { coreOf s c with owned := o } := by
  obtain ⟨o, h⟩ := coreOf_recallOwned (seekLine s die (lineOf k) wr n) (lineOf k) src c
  exact ⟨o, by rw [reached, h, coreOf_seekLine]⟩

@[simp] theorem putLine_path (x : Core) (line : Nat) (ln : L1Line) : (putLine x line ln).path = x.path := by
  simp only [putLine, roomFor]
  split
  · rfl
  · split <;> rfl

/-- A read at a slice changes no byte, and of a core's record what it owns. -/
theorem sliceRead_frame (s : State) (src : Option Nat) {kid k n : Nat} (h : UnderKey s kid k n) (c : Nat) :
    SliceOnly s (sliceRead s src kid k n).1 ∧ SameMemory s (sliceRead s src kid k n).1 ∧
      ∃ o, coreOf (sliceRead s src kid k n).1 c = { coreOf s c with owned := o } := by
  simp only [sliceRead, performRead_eq s _ _ h]
  exact ⟨sliceOnly_reached .., fun a => physByte_reached .., coreOf_reached ..⟩

/-- A fill changes no byte of memory, and of its core's path nothing. -/
theorem fillLine_frame (s : State) (c : Nat) {kid k : Nat} (h : UnderKey s kid (k / 128 * 128) 128) :
    SliceOnly s (fillLine s c kid k) ∧ SameMemory s (fillLine s c kid k) ∧ (coreOf (fillLine s c kid k) c).path = (coreOf s c).path := by
  have hu : UnderKey s kid (if acrossSeam c k then k / 64 * 64 else lineOf k * 128) (if acrossSeam c k then 64 else 128) := by
    split
    · exact h.sub (by omega) (by omega) (by omega)
    · exact h
  obtain ⟨ho, hm, o, hc⟩ := sliceRead_frame s (some c) hu c
  unfold fillLine
  refine ⟨ho.trans (sliceOnly_setCore ..), hm.trans fun _ => rfl, ?_⟩
  simp only [coreOf_setCore, apply_ite Core.path, putLine_path, ite_self]
  exact (congrArg Core.path hc).trans rfl

/-- A load sees another core's stores early only where one has some on their way to the line (R138). -/
theorem earlyFrom_none (s : State) (c kid key : Nat) (he : lookup (coreOf s c).early (key / 128) = none)
    (ho : ∀ e ∈ s.cores, e.1 ≠ c → ∀ p ∈ e.2.path, p.key / 128 ≠ key / 128) : earlyFrom s c kid key = none := by
  have hf : (s.cores.filter fun e => e.1 != c && storesOnly e.2.path kid (lineOf key)) = [] := by
    rw [List.filter_eq_nil_iff]
    intro e hm h
    simp only [Bool.and_eq_true, bne_iff_ne] at h
    have hn : (e.2.path.filter fun p => lineOf p.key == lineOf key) = [] := by
      rw [List.filter_eq_nil_iff]
      exact fun p hp => by simpa [lineOf] using ho e hm h.1 p hp
    simp [storesOnly, hn] at h
  simp only [lineOf] at hf
  simp only [earlyFrom, lineOf, he, hf, List.map_nil, List.getElem?_nil, ite_self]

/-- The path of a core with one entry that serves a result: its slice is the one drained. -/
theorem drainFor_head (s : State) (c id : Nat) {e : PathEntry} {rest : List PathEntry} (hp : (coreOf s c).path = e :: rest)
    (he : e.result = some id) (hr : ∀ x ∈ rest, x.way ≠ e.way ∧ x.result ≠ some id) :
    drainFor s c [id] = performEntry (setCore s c { coreOf s c with path := rest }) c e := by
  have hf : ((coreOf s c).path.filter fun x => x.result.any [id].contains) = [e] := by
    rw [hp, List.filter_cons_of_pos (by simp [he]), List.filter_eq_nil_iff.2]
    intro x hx h
    obtain ⟨i, hi, h⟩ := (Option.any_eq_true ..).1 h
    exact (hr x hx).2 (by simpa [hi] using h)
  have hw : ((coreOf s c).path.filter fun x => x.way == e.way) = [e] := by
    rw [hp, List.filter_cons_of_pos (by simp), List.filter_eq_nil_iff.2]
    exact fun x hx h => (hr x hx).1 (by simpa using h)
  have ht : takeWay (coreOf s c).path e.way = some (e, rest) := by rw [hp, takeWay, if_pos rfl]
  rw [drainFor, hf]
  show drainWay s c e.way = _
  rw [drainWay, hw]
  show performWay s c e.way = _
  rw [performWay, ht]

/-- A load that is on its way to a slice, with nothing of its core behind it there and nothing of another core to the line: it returns what memory
holds. -/
theorem llResultWrite_late (s : State) {u id lane k kid n : Nat} {x : Wave} {regs : List RegName} {form : LoadForm} {rest : List PathEntry}
    (hx : lookup s.waves u = some x) (hs : (coreOf s (coreNo s x)).stretch = false) (hpend : x.pending = [⟨id, regs, [], false⟩])
    (hload : x.loads = [⟨id, form, [⟨lane, none⟩]⟩]) (hpath : (coreOf s (coreNo s x)).path = .load u k kid n id 0 :: rest)
    (hrest : ∀ e ∈ rest, e.way ≠ wayOf k ∧ e.result ≠ some id) (hearly : lookup (coreOf s (coreNo s x)).early (k / 128) = none)
    (hother : ∀ e ∈ s.cores, e.1 ≠ coreNo s x → ∀ p ∈ e.2.path, p.key / 128 ≠ k / 128) (hkey : UnderKey s kid (k / 128 * 128) 128) :
    Completes (.llResultWrite u) s fun t =>
      SameMemory s t ∧ (coreOf t (coreNo s x)).path = rest ∧
      waveOf t u = { applyWrites { x with loads := [] } (form.writes [⟨lane, some (physBytes s k n)⟩]) with pending := [] } := by
  set c := coreNo s x with hcdef
  let s1 := setCore s c { coreOf s c with path := rest }
  let t1 := fillLine s1 c kid k
  let y : Wave := { x with loads := [], pending := [⟨id, regs, form.writes [⟨lane, some (physBytes s k n)⟩], true⟩] }
  obtain ⟨hf, hm, hpth⟩ := fillLine_frame s1 c (show UnderKey s1 kid (k / 128 * 128) 128 from hkey)
  have hearly1 : earlyFrom s1 c kid k = none := by
    refine earlyFrom_none s1 c kid k ((congrArg (fun z => lookup (Core.early z) (k / 128)) (coreOf_setCore s c _)).trans hearly) fun e he hne => ?_
    obtain rfl | he := mem_put he
    · exact absurd rfl hne
    · exact hother e he hne
  have hbytes : physBytes t1 k n = physBytes s k n := physBytes_congr (show SameMemory s t1 from fun a => hm a) k n
  have hwaves : lookup t1.waves u = some x := (congrArg (lookup · u) hf.waves).trans hx
  have hgot : x.gotPart id 0 (physBytes s k n) = y := by
    simp [Wave.gotPart, hload, hpend, y]
  have hdrain : drainFor s c [id] = { t1 with waves := put t1.waves u y } := by
    rw [drainFor_head s c id hpath rfl hrest]
    show performEntry s1 c (.load u k kid n id 0) = _
    simp only [performEntry, hearly1]
    show onWaveRec t1 u (fun z => z.gotPart id 0 (physBytes t1 k n)) = _
    rw [onWaveRec, hwaves, hbytes]
    simp only [hgot]
  have hr : readyResult x = none := by rw [readyResult, hpend]; rfl
  have hl : lateLoad x = some ⟨id, form, [⟨lane, none⟩]⟩ := by rw [lateLoad, hload]; rfl
  refine ⟨_, exec_llResultWrite_late s hx hs hr hl, ?_⟩
  rw [hdrain, writeResult_first _ (lookup_put_self _ _ _) (rest := []) rfl (by simp)]
  refine ⟨hm, ?_, ?_⟩
  · exact hpth.trans (congrArg Core.path (coreOf_setCore s c _))
  · rw [waveOf_setWave]
    exact congrArg (fun w : Wave => { w with pending := [] }) (applyWrites_pending { x with loads := [] } _ _)

/-! ### Walks (R44, R45) -/

theorem walkRecalls_same (s : State) (ctx va : Nat) : SliceOnly s (walkRecalls s ctx va) ∧ SameMemory s (walkRecalls s ctx va) := by
  unfold walkRecalls
  exact List.foldlRecOn (motive := fun t => SliceOnly s t ∧ SameMemory s t) _ _ ⟨.refl s, .refl s⟩ fun t ⟨ho, hm⟩ k _ =>
    ⟨ho.trans (sliceOnly_reached ..), hm.trans fun a => physByte_reached ..⟩

theorem translationWalk_caches (s : State) {die ctx : Nat} {core : Option Nat} {va : DWord} (hd : die < 2) (hc : ∀ c, core = some c → c / 36 = die)
    (hcan : canonical va.toNat = true) (hpriv : isPrivate va.toNat = false) (hctx : (lookup s.contexts ctx).isSome) :
    let holder := walkHolder die core
    let read := walkRecalls s ctx va.toNat
    SameMemory s read ∧ read.waves = s.waves ∧
    (∀ leaf size, walk s ctx va.toNat = .ok (leaf, size) → tlbEntry s holder ctx va.toNat = none →
      exec (.translationWalk ⟨die, core⟩ ctx va) s = .next { read with tlb := s.tlb ++ [⟨holder, ctx, va.toNat / size * size, size, leaf, false⟩] }) ∧
    (∀ leaf size e, walk s ctx va.toNat = .ok (leaf, size) → tlbEntry s holder ctx va.toNat = some e →
      exec (.translationWalk ⟨die, core⟩ ctx va) s = .next { read with tlb := s.tlb.map fun x => if x = e then { x with loose := true } else x }) ∧
    ∀ e, walk s ctx va.toNat = .error e → exec (.translationWalk ⟨die, core⟩ ctx va) s = .next read := by
  obtain ⟨ho, hm⟩ := walkRecalls_same s ctx va.toNat
  have hh : (walkHolder die core).dieNo = die := by
    cases core with
    | none => rfl
    | some c => exact hc c rfl
  have hn : (lookup s.contexts ctx).isNone = false := by simpa using hctx
  have hwalk : ¬(!canonical va.toNat || isPrivate va.toNat || (lookup s.contexts ctx).isNone || decide (die ≥ 2) || (walkHolder die core).dieNo != die) = true := by
    simp [hcan, hpriv, hn, hh, hd]
  refine ⟨hm, ho.waves, fun leaf size hw ht => ?_, fun leaf size e hw ht => ?_, fun e hw => ?_⟩
  all_goals
    show Host.Outcome.next (if _ then _ else _) = _
    rw [if_neg hwalk]
  · simp only [hw, ht]
  · simp only [hw, ht]
  · simp only [hw]

/-! ### The fault queue and its answers (R51-R56) -/

/-- Posting records changes what memory holds and the records' places alone. -/
theorem postFault_frame (s : State) (token : Nat) :
    (postFault s token).waves = s.waves ∧ ∀ g ∈ (postFault s token).faults, ∃ f ∈ s.faults, g.token = f.token := by
  have same : s.waves = s.waves ∧ ∀ g ∈ s.faults, ∃ f ∈ s.faults, g.token = f.token := ⟨rfl, fun g hg => ⟨g, hg, rfl⟩⟩
  unfold postFault
  split
  · exact same
  · dsimp only
    split
    · exact same
    · split
      · have ho : ∀ k l k' l', MemoryOnly s (agentWrite (agentWrite s 0 k l) 0 k' l') := fun _ _ _ _ =>
          (memoryOnly_agentWrite ..).trans (memoryOnly_agentWrite ..)
        refine ⟨(ho ..).waves, fun g hg => ?_⟩
        rw [(ho ..).faults] at hg
        obtain ⟨f, hf, rfl⟩ := List.mem_map.1 hg
        exact ⟨f, hf, by split <;> rfl⟩
      · exact same

theorem postFaults_frame (s : State) :
    (postFaults s).waves = s.waves ∧ ∀ g ∈ (postFaults s).faults, ∃ f ∈ s.faults, g.token = f.token := by
  unfold postFaults
  refine List.foldlRecOn (motive := fun t : State => t.waves = s.waves ∧ ∀ g ∈ t.faults, ∃ f ∈ s.faults, g.token = f.token) _ _
    ⟨rfl, fun g hg => ⟨g, hg, rfl⟩⟩ fun t ⟨hw, ht⟩ f _ => ?_
  obtain ⟨hw', ht'⟩ := postFault_frame t f.token
  refine ⟨hw'.trans hw, fun g hg => ?_⟩
  obtain ⟨g', hg', e⟩ := ht' g hg
  obtain ⟨f, hf, e'⟩ := ht g' hg'
  exact ⟨f, hf, e.trans e'⟩

/-- With every record posted there is none to post. -/
theorem postFaults_posted (s : State) (h : ∀ f ∈ s.faults, f.posted ≠ none) : postFaults s = s := by
  have hn : (s.faults.filter fun f => f.posted.isNone && keyTracked s f) = [] := by
    rw [List.filter_eq_nil_iff]
    intro f hf hp
    exact h f hf (Option.isNone_iff_eq_none.1 (Bool.and_eq_true_iff.1 hp).1)
  rw [postFaults, hn, List.foldl_nil]

theorem faultQueueHeadUpdate_posted (s : State) (head : Word) (hs : s.snaps = []) (h : ∀ f ∈ s.faults, f.posted ≠ none) :
    Completes (.faultQueueHeadUpdate head) s fun t => Written s t (ringBase s.bar.fqbase + 64) (bytesOf 4 head.toNat) ∧ t.faults = s.faults := by
  have hk := ringBase_ge s.bar.fqbase
  have ho := hostWrite_only s (l := bytesOf 4 head.toNat) (kid := 0) (k := ringBase s.bar.fqbase + 64) (by omega) hs
  refine ⟨_, rfl, ?_⟩
  rw [postFaults_posted _ (by rw [ho.faults]; exact h)]
  exact ⟨hostWrite_written s (by omega) hs, ho.faults⟩

/-- A wave with no outstanding result and no window has nothing to settle before it leaves an instruction. -/
theorem settleWave_idle (s : State) {u : Nat} {w : Wave} (hw : lookup s.waves u = some w) (hp : w.pending = []) (hwin : w.windows = []) :
    settleWave s u = s := by
  have hc : completeResults s u (fun _ => true) = s := by simp [completeResults, hw, hp]
  simp [settleWave, hc, hw, hp, hwin]

/-- A fatal fault of a wave that is no sheaf wave and has a handler, outside of it: the wave enters the handler (R163, R358). -/
theorem takeTrap_fatal (s : State) {u : Nat} {w : Wave} {t : Trap} (replay laneWise : Bool) (hw : lookup s.waves u = some w) (hp : w.pending = [])
    (hwin : w.windows = []) (hsheaf : w.sheaf = none) (hh : w.handler = false) (htb : (ctxOf s w.ctag).tbase ≠ 0#64) (hf : isFatal t.cause = true)
    (hk : ¬(t.cause = 9 ∧ t.reason = 11)) :
    takeTrap s u t replay laneWise =
      setWave (waveFault s u t.cause (tinfoOf t.reason t.arg)) u (enterHandler (recordTrap w t replay) (ctxOf s w.ctag).tbase false) := by
  obtain ⟨h14, h15, h16⟩ : t.cause ≠ 14 ∧ t.cause ≠ 15 ∧ t.cause ≠ 16 := by simpa [isFatal, and_assoc] using hf
  have ho : (lookup s.waves u).filter (fun _ => !outstanding s u) = some w := by simp [outstanding, hw, hp]
  have hk' : (decide (t.cause = 9) && decide (t.reason = 11)) = false := by simpa using hk
  rw [takeTrap, settleWave_idle s hw hp hwin]
  simp only [ho]
  simp [hf, hk', hsheaf, hh, htb, h14, h15, h16, beq_false_of_ne h16]

/-- The one wave that waits on a record is answered, and the record is gone (R55). -/
theorem answerFault_one (s : State) {f : FaultRec} {u : Nat} (kill : Bool) (hwaves : f.waves = [u]) (hx : f.xfers = []) (hq : f.queues = [])
    (he : f.entries = []) (hsv : f.save = false) :
    answerFault s f kill = postFaults (answerWave { s with faults := s.faults.filter fun g => g.token != f.token } f.token kill u) := by
  simp [answerFault, hwaves, hx, hq, he, hsv]

/-- A wave whose only fault is answered goes on (R56). -/
theorem answerWave_last (s : State) {u token : Nat} {w : Wave} {lanes : Word} {va va' : DWord} {kind : Byte} (kill : Bool)
    (hw : lookup s.waves u = some w) (hg : (groupOf s w.group).frozen = false)
    (hst : w.status = .parked (.fault [(token, lanes, va)] [] va' kind)) :
    ∃ m, m.contexts = s.contexts ∧ m.faults = s.faults ∧ answerWave s token kill u =
      let go := setWave m u { w with status := .ready, replay := true }
      if kill then takeTrap go u ⟨9, 7, argAddr va.toNat, lanes⟩ true (lanes != 0#32) else go := by
  refine ⟨setWave s u { w with status := .parked (.fault [] (if kill then [(lanes, va)] else []) va' kind) }, rfl, rfl, ?_⟩
  cases kill <;> simp [answerWave, hw, hst, finishFault, hg]

/-- The host's word RESP in the record, at whatever place of the ring. -/
theorem exec_faultResponse (s : State) {idx : Nat} {f : FaultRec} (resp : Word) (hs : s.snaps = [])
    (hf : s.faults.find? (fun f => f.posted == some idx) = some f) :
    ∃ m, SliceOnly s m ∧ exec (.faultResponse idx resp) s = .next (if resp = 0#32 then m else answerFault m f (resp != 1#32)) := by
  have hk := ringBase_ge s.bar.fqbase
  refine ⟨agentWrite s 0 (ringBase s.bar.fqbase + 128 + 32 * idx + 28) (bytesOf 4 resp.toNat), hostWrite_only s (by omega) hs, ?_⟩
  show Host.Outcome.next _ = _
  rw [hf]

theorem faultResponse_none (s : State) {idx u : Nat} {f : FaultRec} {w : Wave} (hs : s.snaps = [])
    (hf : s.faults.find? (fun f => f.posted == some idx) = some f) (hw : lookup s.waves u = some w) :
    Completes (.faultResponse idx 0#32) s fun t => waveOf t u = w ∧ t.faults = s.faults := by
  obtain ⟨m, ho, hx⟩ := exec_faultResponse s 0#32 hs hf
  refine ⟨m, hx, ?_, ho.faults⟩
  rw [ho.waveOf, waveOf, hw]
  rfl

section
variable (s : State) {idx u : Nat} {f : FaultRec} {w : Wave} {lanes : Word} {va va' : DWord} {kind : Byte} (hs : s.snaps = [])
  (hf : s.faults.find? (fun f => f.posted == some idx) = some f) (hwaves : f.waves = [u]) (hx : f.xfers = []) (hq : f.queues = [])
  (he : f.entries = []) (hsv : f.save = false) (hw : lookup s.waves u = some w) (hg : (groupOf s w.group).frozen = false)
  (hst : w.status = .parked (.fault [(f.token, lanes, va)] [] va' kind))
include hs hf hwaves hx hq he hsv hw hg hst

theorem faultResponse_retry : Completes (.faultResponse idx 1#32) s fun t =>
    waveOf t u = { w with status := .ready, replay := true } ∧ ∀ g ∈ t.faults, g.token ≠ f.token := by
  obtain ⟨m, ho, hexec⟩ := exec_faultResponse s 1#32 hs hf
  have hw' : lookup m.waves u = some w := by rw [ho.waves, hw]
  have hg' : (groupOf m w.group).frozen = false := by rw [ho.groupOf, hg]
  obtain ⟨n, -, hfaults, hn⟩ := answerWave_last { m with faults := m.faults.filter fun g => g.token != f.token } false hw' hg' hst
  refine ⟨_, hexec, ?_⟩
  rw [if_neg (by decide), show ((1#32 : Word) != 1#32) = false from rfl, answerFault_one m false hwaves hx hq he hsv, hn]
  simp only [Bool.false_eq_true, if_false]
  obtain ⟨hwv, htok⟩ := postFaults_frame (setWave n u { w with status := .ready, replay := true })
  refine ⟨?_, fun g hgm => ?_⟩
  · rw [waveOf, hwv]
    exact waveOf_setWave ..
  · obtain ⟨g', hg', e⟩ := htok g hgm
    rw [setWave_faults, hfaults] at hg'
    rw [e]
    simpa using (List.mem_filter.1 hg').2

theorem faultResponse_kill (hh : w.handler = false) (hsheaf : w.sheaf = none) (hp : w.pending = []) (hwin : w.windows = [])
    (htb : (ctxOf s w.ctag).tbase ≠ 0#64) : Completes (.faultResponse idx 2#32) s fun t =>
      (waveOf t u).pc = (ctxOf s w.ctag).tbase ∧ (waveOf t u).handler = true ∧ (waveOf t u).trap.tpc = w.pc ∧ (waveOf t u).trap.tcause = 521#64 ∧
        (waveOf t u).trap.tinfo = tinfoOf 7 (argAddr va.toNat) := by
  obtain ⟨m, ho, hexec⟩ := exec_faultResponse s 2#32 hs hf
  have hw' : lookup m.waves u = some w := by rw [ho.waves, hw]
  have hg' : (groupOf m w.group).frozen = false := by rw [ho.groupOf, hg]
  obtain ⟨n, hctx, -, hn⟩ := answerWave_last { m with faults := m.faults.filter fun g => g.token != f.token } true hw' hg' hst
  have hc : ctxOf (setWave n u { w with status := .ready, replay := true }) w.ctag = ctxOf s w.ctag := by
    rw [← ho.ctxOf, ctxOf, ctxOf, setWave_contexts, hctx]
  refine ⟨_, hexec, ?_⟩
  rw [if_neg (by decide), show ((2#32 : Word) != 1#32) = true from rfl, answerFault_one m true hwaves hx hq he hsv, hn]
  simp only [if_true]
  rw [takeTrap_fatal _ true _ (show lookup (setWave n u { w with status := .ready, replay := true }).waves u = _ from lookup_put_self ..) hp hwin hsheaf hh (by rw [hc]; exact htb) rfl (fun h => absurd (show (7 : Nat) = 11 from h.2) (by decide))]
  rw [waveOf, (postFaults_frame _).1, ← waveOf, waveOf_setWave, hc]
  exact ⟨rfl, rfl, rfl, rfl, rfl⟩

end

/-! ### FQCFG (R52) -/

theorem fqcfgWrite_posted (s : State) (v : DWord) (h : ∀ f ∈ s.faults, f.posted ≠ none) :
    exec (.fqcfgWrite v) s = .next { s with bar := { s.bar with fqcfg := v &&& 0x11F#64 } } :=
  congrArg Host.Outcome.next (postFaults_posted _ h)

theorem ringLog_masked (v : DWord) : ringLog (v &&& 0x11F#64) = v.toNat % 32 := by
  rw [ringLog, bitsAt_eq, BitVec.toNat_and, pow_zero, Nat.div_one, Nat.and_mod_two_pow]
  exact (Nat.and_two_pow_sub_one_eq_mod _ 5).trans (Nat.mod_mod _ _)

theorem ringOn_masked (v : DWord) : ringOn (v &&& 0x11F#64) = v.getLsbD 8 := by
  rw [ringOn, BitVec.getLsbD_and]
  exact Bool.and_true _

/-- The only record of its die's key table is tracked there (R54). -/
theorem keyTracked_single (s : State) {f : FaultRec} (hf : s.faults = [f]) (hroom : 0 < s.faultRoom) : keyTracked s f = true := by
  simp [keyTracked, hf, List.findIdx_cons, hroom]

/-- R52: a record that the queue can take is written in full, then TAIL. -/
theorem postFault_taken (s : State) {f : FaultRec} {lg b slot : Nat} (hs : s.snaps = []) (hf : s.faults = [f]) (hp : f.posted = none)
    (hon : ringOn s.bar.fqcfg = true) (hlg : ringLog s.bar.fqcfg = lg) (h4 : 4 ≤ lg) (h20 : lg ≤ 20) (hb : ringBase s.bar.fqbase = b)
    (hslot : hostWord s b % 2 ^ lg = slot) (hroom : (hostWord s b + 2 ^ 32 - hostWord s (b + 64)) % 2 ^ 32 < 2 ^ lg) :
    (postFault s f.token).faults = [{ f with posted := some slot }] ∧ ∃ m, Written s m (b + 128 + 32 * slot) (faultBytes s f) ∧
      Written m (postFault s f.token) b (bytesOf 4 ((hostWord s b + 1) % 2 ^ 32)) := by
  have hge : 2 ^ 53 ≤ b := hb ▸ ringBase_ge _
  have hm := hostWrite_only s (kid := 0) (k := b + 128 + 32 * slot) (l := faultBytes s f) (by omega) hs
  have hw := hostWrite_written s (kid := 0) (k := b + 128 + 32 * slot) (l := faultBytes s f) (by omega) hs
  have ht : postFault s f.token =
      let m := agentWrite (agentWrite s 0 (b + 128 + 32 * slot) (faultBytes s f)) 0 b (bytesOf 4 ((hostWord s b + 1) % 2 ^ 32))
      { m with faults := m.faults.map fun g => if g.token = f.token then { g with posted := some slot } else g } := by
    have hfind : s.faults.find? (fun g => g.token == f.token && g.posted.isNone) = some f := by simp [hf, hp]
    have hall : s.faults.all (fun g => g.posted != some slot) = true := by simp [hf, hp]
    have hcfg : ¬(!ringOn s.bar.fqcfg || decide (lg < 4) || decide (lg > 20)) = true := by simp [hon]; omega
    simp only [postFault, hfind, hlg, hb, hslot]
    rw [if_neg hcfg, if_pos (by rw [hall, Bool.and_true]; exact decide_eq_true hroom)]
  generalize agentWrite s 0 (b + 128 + 32 * slot) (faultBytes s f) = m at hm hw ht
  have ho := hostWrite_only m (kid := 0) (l := bytesOf 4 ((hostWord s b + 1) % 2 ^ 32)) hge (hm.snaps.trans hs)
  have hw' := hostWrite_written m (kid := 0) (l := bytesOf 4 ((hostWord s b + 1) % 2 ^ 32)) hge (hm.snaps.trans hs)
  rw [ht]
  generalize agentWrite m 0 b (bytesOf 4 ((hostWord s b + 1) % 2 ^ 32)) = n at ho hw'
  refine ⟨?_, m, hw, hw'.congr fun _ => rfl⟩
  simp [ho.faults, hm.faults, hf]

/-- R52, log 73: a write that enables the queue posts the record that waits, at the place that the word at FQBASE counts to. -/
theorem fqcfgWrite_posts (s : State) (v : DWord) {f : FaultRec} (hs : s.snaps = []) (hf : s.faults = [f]) (hp : f.posted = none) (hroom : 0 < s.faultRoom)
    (hon : v.getLsbD 8 = true) (h4 : 4 ≤ v.toNat % 32) (h20 : v.toNat % 32 ≤ 20) :
    let b := ringBase s.bar.fqbase
    (hostWord s b + 2 ^ 32 - hostWord s (b + 64)) % 2 ^ 32 < 2 ^ (v.toNat % 32) →
    Completes (.fqcfgWrite v) s fun t => t.faults = [{ f with posted := some (hostWord s b % 2 ^ (v.toNat % 32)) }] ∧
      hostWord t b = (hostWord s b + 1) % 2 ^ 32 ∧
      physBytes t (b + 128 + 32 * (hostWord s b % 2 ^ (v.toNat % 32))) 8 = bytesOf 8 f.va.toNat := by
  intro b hfull
  let s1 : State := { s with bar := { s.bar with fqcfg := v &&& 0x11F#64 } }
  have hpost : postFaults s1 = postFault s1 f.token := by
    have hk : keyTracked s1 f = true := keyTracked_single s1 hf hroom
    have hl : (s1.faults.filter fun f => f.posted.isNone && keyTracked s1 f) = [f] := by
      rw [show s1.faults = [f] from hf]
      simp [hp, hk]
    rw [postFaults, hl]
    rfl
  obtain ⟨hfaults, m, hrec, htail⟩ := postFault_taken s1 hs hf hp ((ringOn_masked v).trans hon) (ringLog_masked v) h4 h20 rfl rfl hfull
  refine ⟨postFaults s1, rfl, ?_⟩
  rw [hpost]
  refine ⟨hfaults, ?_, ?_⟩
  · rw [hostWord_written htail, Nat.mod_mod]
    rfl
  · have h8 := htail.others (a := b + 128 + 32 * (hostWord s b % 2 ^ (v.toNat % 32))) (n := 8) (.inr (by rw [bytesOf_length]; show b + 4 ≤ _; omega))
    rw [h8]
    have hl := (show Written s1 m _ (bytesOf 8 f.va.toNat ++ _) by simpa only [faultBytes, List.append_assoc] using hrec).left
    rwa [bytesOf_length] at hl

/-! ### Atomics at their slice (R121), and the predictor (R123) -/

theorem lookup_map_ne {α : Type} (g : Nat × α → α) (m : AMap α) (c : Nat) (p : Nat → Prop) [DecidablePred p] (hc : p c) :
    lookup (m.map fun e => if p e.1 then e else (e.1, g e)) c = lookup m c := by
  induction m with
  | nil => rfl
  | cons e t ih =>
    obtain ⟨j, a⟩ := e
    by_cases hj : j = c
    · subst hj
      simp [lookup, hc]
    · by_cases hp : p j <;> simp [lookup, hj, hp, ih]

/-- A write marks nothing of the core that makes it (R122). -/
theorem coreOf_markCounted (s : State) (c k n : Nat) : coreOf (markCounted s (some c) k n) c = coreOf s c := by
  unfold coreOf markCounted
  dsimp only
  rw [lookup_map_ne _ s.cores c (fun j => some c = some j) rfl]

theorem coreOf_l2Write (s : State) (k : Nat) (l : List Byte) (c : Nat) : coreOf (l2Write s k l) c = coreOf s c := by
  induction l generalizing s k with
  | nil => rfl
  | cons b t ih => rw [l2Write, ih]; rfl

/-- A write of a core leaves its own record, but for what it owns. -/
theorem coreOf_homeWrite (s : State) (c : Nat) {kid k : Nat} {l : List Byte} (h : UnderKey s kid k l.length) (hs : s.snaps = []) :
    ∃ o, coreOf (homeWrite s (some c) kid k l) c = { coreOf s c with owned := o } := by
  by_cases hl : l = []
  · rw [hl, homeWrite, performWrite_nil]
    exact ⟨_, rfl⟩
  · obtain ⟨f, hf⟩ := asideFuel_eq s
    obtain ⟨o, ho⟩ := coreOf_reached s (homeOf k) (some c) k true l.length c
    exact ⟨o, by rw [homeWrite, hf, performWrite_plain f s _ _ h hs hl, coreOf_markCounted, coreOf_l2Write, ho]⟩

/-- R121: an atomic returns what memory held and writes its result, or nothing where a compare fails. -/
theorem atomicAt_frame (s : State) (c : Nat) {kid k n : Nat} (op ty d cc : Nat) (h : UnderKey s kid k n) (hs : s.snaps = []) :
    let r := atomicAt s (some c) kid k n op ty d cc
    let new := atomOp op ty (natOf (physBytes s k n)) d cc
    r.2 = natOf (physBytes s k n) ∧ SliceOnly s r.1 ∧ (∃ o, coreOf r.1 c = { coreOf s c with owned := o }) ∧
      (new.2 = true → Written s r.1 k (bytesOf n new.1)) ∧ (new.2 = false → SameMemory s r.1) := by
  let m := seekLine s (homeOf k) (lineOf k) true n
  have hm : SliceOnly s m := sliceOnly_seekLine ..
  have hmb : SameMemory s m := physByte_congr (seekLine_mem ..) (seekLine_l2 ..)
  let q := reached m (homeOf k) (some c) k false n
  have hq : SliceOnly s q := hm.trans (sliceOnly_reached ..)
  have hqb : SameMemory s q := hmb.trans fun a => physByte_reached ..
  have hqc : ∃ o, coreOf q c = { coreOf s c with owned := o } := by
    obtain ⟨o, ho⟩ := coreOf_reached m (homeOf k) (some c) k false n c
    exact ⟨o, by rw [ho, coreOf_seekLine]⟩
  have hr : atomicAt s (some c) kid k n op ty d cc =
      (if (atomOp op ty (natOf (physBytes s k n)) d cc).2 then homeWrite q (some c) kid k (bytesOf n (atomOp op ty (natOf (physBytes s k n)) d cc).1) else q,
        natOf (physBytes s k n)) := by
    rw [atomicAt, touch_same s kid k n h, homeRead, performRead_eq _ _ _ (hm.underKey h), physBytes_congr (s := s) hqb k n]
  rw [hr]
  generalize atomOp op ty (natOf (physBytes s k n)) d cc = r
  obtain ⟨new, wr⟩ := r
  have hu : UnderKey q kid k (bytesOf n new).length := by rw [bytesOf_length]; exact hq.underKey h
  have hqs : q.snaps = [] := hq.snaps.trans hs
  cases wr with
  | false => exact ⟨rfl, hq, hqc, fun h => Bool.noConfusion h, fun _ => hqb⟩
  | true =>
    refine ⟨rfl, hq.trans (homeWrite_only q _ hu hqs), ?_, fun _ => .congrLeft hqb (homeWrite_written q _ hu hqs), fun h => Bool.noConfusion h⟩
    obtain ⟨o, ho⟩ := hqc
    obtain ⟨o', ho'⟩ := coreOf_homeWrite q c hu hqs
    exact ⟨o', ho'.trans (by rw [ho])⟩

/-- A core's copy of a line after an atomic of it at the slice has returned (R122): its word is read anew, or it is dropped. -/
def refreshCopy (s : State) (c kid key : Nat) : State :=
  match lookup (coreOf s c).l1 (lineOf key) with
  | none => s
  | some ln => setCore s c { coreOf s c with
      l1 := if ln.holds kid key then put (coreOf s c).l1 (lineOf key) (refreshWord s ln key) else erase (coreOf s c).l1 (lineOf key) }

theorem refreshCopy_frame (s : State) (c kid key : Nat) :
    SliceOnly s (refreshCopy s c kid key) ∧ SameMemory s (refreshCopy s c kid key) ∧ (coreOf (refreshCopy s c kid key) c).path = (coreOf s c).path := by
  unfold refreshCopy
  split
  · exact ⟨.refl s, .refl s, rfl⟩
  · exact ⟨sliceOnly_setCore .., fun _ => rfl, (congrArg Core.path (coreOf_setCore ..)).trans rfl⟩

theorem performEntry_atomic (s : State) (c w key kid n : Nat) (op ty : BitVec 4) (d cc : DWord) (id : Nat) (dst : RegName) (lane : Nat) :
    performEntry s c (.atomic w key kid n op ty d cc id dst lane) =
      let r := atomicAt (recallOwned s (lineOf key) none) (some c) kid key n op.toNat ty.toNat d.toNat cc.toNat
      onWaveRec (refreshCopy r.1 c kid key) w fun wv =>
        if atomicWaits (coreOf r.1 c).path id then wv.setAtomicDst dst n ty.toNat lane r.2
        else { wv.setAtomicDst dst n ty.toNat lane r.2 with pending := (wv.setAtomicDst dst n ty.toNat lane r.2).pending.filter fun p => p.id != id } := rfl

theorem setAtomicDst_pending (x : Wave) (dst : RegName) (n ty lane old : Nat) : (x.setAtomicDst dst n ty lane old).pending = x.pending := by
  cases dst with
  | s d => exact Wave.setS_pending ..
  | v d =>
    unfold Wave.setAtomicDst
    dsimp only
    split <;> rfl
  | p d => rfl

theorem sliceAtomicPerform_returns (s : State) {c u k kid n id lane : Nat} {x : Wave} {op ty : BitVec 4} {d cc : DWord} {dst : RegName}
    {early rest : List PathEntry} (hs : s.snaps = []) (hp : (coreOf s c).path = early ++ .atomic u k kid n op ty d cc id dst lane :: rest)
    (he : ∀ e ∈ early, e.way ≠ wayOf k) (hk : UnderKey s kid k n) (hx : lookup s.waves u = some x) (ha : atomicWaits (early ++ rest) id = false) :
    Completes (.sliceAtomicPerform ⟨c, wayOf k⟩) s fun t =>
      let old := natOf (physBytes s k n)
      let r := atomOp op.toNat ty.toNat old d.toNat cc.toNat
      (r.2 = true → Written s t k (bytesOf n r.1)) ∧ (r.2 = false → SameMemory s t) ∧ (coreOf t c).path = early ++ rest ∧
      waveOf t u = { x.setAtomicDst dst n ty.toNat lane old with pending := x.pending.filter fun p => p.id != id } := by
  have ht : takeWay (coreOf s c).path (wayOf k) = some (.atomic u k kid n op ty d cc id dst lane, early ++ rest) := by
    rw [hp]
    exact takeWay_append he
  have hexec : exec (.sliceAtomicPerform ⟨c, wayOf k⟩) s = .next (performWay s c (wayOf k)) := by
    show Host.Outcome.next _ = _
    simp only [ht]
  refine ⟨_, hexec, ?_⟩
  simp only [performWay, ht, performEntry_atomic]
  generalize hs1 : setCore s c { coreOf s c with path := early ++ rest } = s1
  have h1 : SliceOnly s s1 := hs1 ▸ sliceOnly_setCore ..
  have h2 : SliceOnly s (recallOwned s1 (lineOf k) none) := h1.trans (sliceOnly_recallOwned ..)
  have hm2 : SameMemory s (recallOwned s1 (lineOf k) none) := fun a =>
    (physByte_congr (recallOwned_mem ..) (recallOwned_l2 ..) a).trans (by rw [← hs1]; rfl)
  obtain ⟨o, hc2⟩ := coreOf_recallOwned s1 (lineOf k) none c
  obtain ⟨hold, h3, ⟨o', hc3⟩, hwr, hsame⟩ := atomicAt_frame (recallOwned s1 (lineOf k) none) c op.toNat ty.toNat d.toNat cc.toNat (h2.underKey hk)
    (h2.snaps.trans hs)
  rw [physBytes_congr hm2] at hold hwr hsame
  generalize atomicAt (recallOwned s1 (lineOf k) none) (some c) kid k n op.toNat ty.toNat d.toNat cc.toNat = r at hold h3 hc3 hwr hsame
  have hpath : (coreOf r.1 c).path = early ++ rest := by
    rw [hc3, hc2, ← hs1, coreOf_setCore]
  obtain ⟨h4, hm4, hp4⟩ := refreshCopy_frame r.1 c kid k
  have hw4 : lookup (refreshCopy r.1 c kid k).waves u = some x := by rw [h4.waves, h3.waves, h2.waves, hx]
  simp only [onWaveRec, hw4, hpath, ha, hold, setAtomicDst_pending, Bool.false_eq_true, if_false]
  refine ⟨fun h => ?_, fun h => ?_, hp4.trans hpath, waveOf_setWave ..⟩
  · exact (Written.congrLeft hm2 (hwr h)).congr hm4
  · exact (hm2.trans (hsame h)).trans hm4

theorem predictorDecay_due (s : State) (h : s.decays < s.tsc.toNat / 64000) :
    exec .predictorDecay s = .next { s with decays := s.decays + 1, predictor := s.predictor.map fun e => (e.1, e.2.1 / 2, e.2.2) } :=
  congrArg Host.Outcome.next (if_pos (decide_eq_true h))

/-! ### The host takes its memory back (R119) -/

theorem lookup_erase {α : Type} (m : AMap α) (j k : Nat) : lookup (erase m j) k = if k = j then none else lookup m k := by
  induction m with
  | nil => simp [erase, lookup]
  | cons e t ih =>
    obtain ⟨i, a⟩ := e
    have hc : erase ((i, a) :: t) j = if i = j then erase t j else (i, a) :: erase t j := by
      by_cases hi : i = j <;> simp [erase, hi]
    rw [hc]
    by_cases hi : i = j
    · rw [if_pos hi, ih, lookup, hi]
      by_cases hk : k = j
      · rw [if_pos hk, if_pos hk]
      · rw [if_neg hk, if_neg hk, if_neg (Ne.symm hk)]
    · rw [if_neg hi, lookup, lookup, ih]
      by_cases hk : i = k
      · rw [if_pos hk, if_pos hk, if_neg (hk ▸ hi)]
      · rw [if_neg hk, if_neg hk]

theorem lookup_foldl_erase {α : Type} (l : List Nat) (m : AMap α) {k : Nat} (h : k ∈ l ∨ lookup m k = none) : lookup (l.foldl erase m) k = none := by
  induction l generalizing m with
  | nil => exact h.resolve_left (by simp)
  | cons j t ih =>
    refine ih _ ?_
    rw [lookup_erase]
    by_cases hk : k = j
    · exact .inr (if_pos hk)
    · rw [if_neg hk]
      exact h.imp_left fun h => (List.mem_cons.1 h).resolve_left hk

theorem mem_linesOf (k : Nat) {n : Nat} (h : 0 < n) : k / 128 ∈ linesOf k n := by
  rw [linesOf, if_neg (by omega), List.mem_map]
  exact ⟨0, by rw [List.mem_range]; simp only [lineOf]; omega, by simp [lineOf]⟩

/-- Evicting the lines of an extent changes no byte. -/
theorem evictExtent_same (s : State) (k n : Nat) (h : Canonical s) :
    SameMemory s (evictExtent s k n) ∧ Canonical (evictExtent s k n) ∧ (evictExtent s k n).snaps = s.snaps :=
  List.foldlRecOn (motive := fun t => SameMemory s t ∧ Canonical t ∧ t.snaps = s.snaps) _ _ ⟨.refl s, h, rfl⟩ fun t ⟨hm, hc, hs⟩ line _ =>
    ⟨hm.trans (evictLine_same t line hc), hc.evictLine, hs⟩

/-- Nothing of an extent is left in the caches or granted, and no byte has changed. -/
theorem takeBack_same (s : State) (k n : Nat) (h : Canonical s) (hn : 0 < n) :
    let t := revoke (evictExtent s k n) k n
    SameMemory s t ∧ Canonical t ∧ t.snaps = s.snaps ∧ lookup t.granted (k / 128) = none ∧ lookup t.remote (k / 128) = none := by
  obtain ⟨hm, hc, hs⟩ := evictExtent_same s k n h
  exact ⟨hm.trans fun _ => rfl, hc.revoke, hs, lookup_foldl_erase _ _ (.inl (mem_linesOf k hn)), lookup_foldl_erase _ _ (.inl (mem_linesOf k hn))⟩

theorem hostSnoop_writes (s : State) (a : Nat) (data : List Byte) (hs : s.snaps = []) (hm : Memory.wf s.mem = true) (hl : risingFrom none s.l2 = true) :
    Completes (.hostSnoop a data) s fun t => Written s t (hostKey a) data ∧ Memory.wf t.mem = true ∧
      lookup t.granted (hostKey a / 128) = none ∧ lookup t.remote (hostKey a / 128) = none := by
  have hn : 0 < max 1 data.length := by omega
  have hc1 : Canonical (agentRead s 0 (hostKey a) (max 1 data.length)).1 := Canonical.agentRead ⟨hm, hl⟩
  obtain ⟨ho1, hb1, -⟩ := agentRead_same s (underKey_host s 0 (max 1 data.length) (hostKey_ge a))
  obtain ⟨hb2, hc2, hs2, hg2, hr2⟩ := takeBack_same _ (hostKey a) _ hc1 hn
  refine ⟨_, rfl, ?_⟩
  dsimp only
  generalize revoke (evictExtent (agentRead s 0 (hostKey a) (max 1 data.length)).1 (hostKey a) (max 1 data.length)) (hostKey a) (max 1 data.length) = s2
    at hb2 hc2 hs2 hg2 hr2
  have hsnaps : s2.snaps = [] := hs2.trans (ho1.snaps.trans hs)
  by_cases hd : data.isEmpty = true
  · rw [if_pos hd, List.isEmpty_iff.1 hd]
    exact ⟨.nil (hb1.trans hb2), hc2.1, hg2, hr2⟩
  · rw [if_neg hd]
    obtain ⟨hb3, hc3, -, hg3, hr3⟩ := takeBack_same (agentWrite s2 0 (hostKey a) data) (hostKey a) _ hc2.agentWrite hn
    exact ⟨(Written.congrLeft (hb1.trans hb2) (hostWrite_written s2 (hostKey_ge a) hsnaps)).congr hb3, hc3.1, hg3, hr3⟩

/-! ### The host's accesses to the memory of the device (R119, R403, R423) -/

theorem hbmBytes_eq : Config.hbmBytes = 192 * 2 ^ 30 := rfl

theorem hdmKey_inj {a b : Nat} (h : hdmKey a = hdmKey b) : a = b := by
  simp only [hdmKey, localKey, hbmBytes_eq] at h
  omega

/-- Within one die's memory the keys follow one another. -/
theorem hdmKey_add {a n i : Nat} (h : a / (192 * 2 ^ 30) = (a + n - 1) / (192 * 2 ^ 30)) (hi : i < n) : hdmKey (a + i) = hdmKey a + i := by
  simp only [hdmKey, localKey, hbmBytes_eq]
  omega

/-- The bytes from `lo` to `hi` of `data`, which lies at `a` of the range, have been written, and no other byte. -/
def HdmWritten (s t : State) (a lo hi : Nat) (data : List Byte) : Prop :=
  (∀ i, lo ≤ i → i < hi → physByte t (hdmKey (a + i)) = data.getD i 0#8) ∧
  ∀ k, (∀ i, lo ≤ i → i < hi → k ≠ hdmKey (a + i)) → physByte t k = physByte s k

theorem HdmWritten.append {s t v : State} {a lo mid hi : Nat} {data : List Byte} (h : HdmWritten s t a lo mid data) (h' : HdmWritten t v a mid hi data)
    (h1 : lo ≤ mid) (h2 : mid ≤ hi) : HdmWritten s v a lo hi data := by
  obtain ⟨hw, ho⟩ := h
  obtain ⟨hw', ho'⟩ := h'
  refine ⟨fun i hl hh => ?_, fun k hk => ?_⟩
  · by_cases hm : mid ≤ i
    · exact hw' i hm hh
    · rw [ho' _ fun j hj _ he => by have := hdmKey_inj he; omega]
      exact hw i hl (by omega)
  · rw [ho' k fun i hi hh => hk i (by omega) hh, ho k fun i hi hh => hk i hi (by omega)]

theorem sliceBytes_length (l : List Byte) (off n : Nat) : (sliceBytes l off n).length = n := by simp [sliceBytes]

theorem sliceBytes_getD (l : List Byte) (off : Nat) {n i : Nat} (h : i < n) : (sliceBytes l off n).getD i 0#8 = l.getD (off + i) 0#8 := by
  simp [sliceBytes, List.getD, h]

/-- Lines stand under a key when each of their bytes does. -/
theorem underKey_of_bytes {s : State} {kid k n : Nat} (h : ∀ i, i < n → UnderKey s kid (k + i) 1) (hn : 0 < n) : UnderKey s kid k n := by
  intro line h1 h2
  by_cases hk : k ≤ line * 128
  · have := h (line * 128 - k) (by omega)
    rw [show k + (line * 128 - k) = line * 128 by omega] at this
    exact this line (by omega) (by omega)
  · exact h 0 hn line (by omega) (by omega)

/-- A part of a host write, on one die. -/
theorem hdmPart_written (s : State) {a lo n : Nat} {data : List Byte} (hs : s.snaps = [])
    (hdie : 0 < n → (a + lo) / (192 * 2 ^ 30) = (a + lo + n - 1) / (192 * 2 ^ 30)) (hk : ∀ i, lo ≤ i → i < lo + n → UnderKey s (key0 s) (hdmKey (a + i)) 1) :
    let t := agentWrite s (key0 s) (hdmKey (a + lo)) (sliceBytes data lo n)
    SliceOnly s t ∧ HdmWritten s t a lo (lo + n) data := by
  obtain rfl | hn := Nat.eq_zero_or_pos n
  · exact ⟨.refl s, fun i hl hh => by omega, fun _ _ => rfl⟩
  replace hdie := hdie hn
  have hkey : UnderKey s (key0 s) (hdmKey (a + lo)) (sliceBytes data lo n).length := by
    rw [sliceBytes_length]
    refine underKey_of_bytes (fun i hi => ?_) hn
    rw [← hdmKey_add hdie hi, Nat.add_assoc]
    exact hk (lo + i) (by omega) (by omega)
  have hw := agentWrite_written s hkey hs
  refine ⟨agentWrite_only s hkey hs, fun i hl hh => ?_, fun k ho => ?_⟩
  · have he : hdmKey (a + i) = hdmKey (a + lo) + (i - lo) := by
      rw [← hdmKey_add hdie (by omega)]
      congr 1
      omega
    rw [hw, he, sliceBytes_length, if_pos (by omega), Nat.add_sub_cancel_left, sliceBytes_getD _ _ (by omega)]
    congr 1
    omega
  · refine hw.other ?_
    rw [sliceBytes_length]
    by_contra hc
    refine ho (lo + (k - hdmKey (a + lo))) (by omega) (by omega) ?_
    rw [← Nat.add_assoc, hdmKey_add hdie (by omega)]
    omega

/-- Where the range crosses from one die's memory to the other's. -/
def hdmSplit (a n : Nat) : Nat := if a < 192 * 2 ^ 30 then min n (192 * 2 ^ 30 - a) else 0

theorem hdmSplit_spec {a n : Nat} (h : a + n ≤ 2 * 192 * 2 ^ 30) :
    hdmSplit a n ≤ n ∧ (0 < hdmSplit a n → a / (192 * 2 ^ 30) = (a + hdmSplit a n - 1) / (192 * 2 ^ 30)) ∧
      (hdmSplit a n < n → (a + hdmSplit a n) / (192 * 2 ^ 30) = (a + n - 1) / (192 * 2 ^ 30)) := by
  unfold hdmSplit
  split <;> omega

/-- Of an extent in the range, the parts on the dies that are there (R403). -/
theorem hdmParts_eq (s : State) {a n : Nat} (h : a + n ≤ 2 * 192 * 2 ^ 30) :
    hdmParts s a n = ([(a, hdmSplit a n), (a + hdmSplit a n, n - hdmSplit a n)]).filter fun p => decide (p.2 > 0) && !isLost s (p.1 / (192 * 2 ^ 30)) := by
  have hm := (hdmSplit_spec h).1
  have : min (n - hdmSplit a n) (2 * (192 * 2 ^ 30) - (a + hdmSplit a n)) = n - hdmSplit a n := by omega
  conv_rhs => rw [← this]
  rfl

/-- A fold over what a filter leaves is a fold over the list, where the elements left out do nothing. -/
theorem foldl_filter_idle {α β : Type} {f : β → α → β} {p : α → Bool} {l : List α} (h : ∀ t, ∀ x ∈ l, p x = false → f t x = t) (t : β) :
    (l.filter p).foldl f t = l.foldl f t := by
  induction l generalizing t with
  | nil => rfl
  | cons x r ih =>
    have ih := ih fun t y hy => h t y (List.mem_cons_of_mem _ hy)
    by_cases hx : p x = true
    · rw [List.filter_cons_of_pos hx, List.foldl_cons, List.foldl_cons, ih]
    · rw [List.filter_cons_of_neg hx, List.foldl_cons, ih, h t x List.mem_cons_self (by simpa using hx)]

theorem hostAccess_written (s : State) {a : Nat} {data : List Byte} (hs : s.snaps = []) (hr : a + data.length ≤ 2 * 192 * 2 ^ 30)
    (h0 : isLost s 0 = false) (h1 : isLost s 1 = false) (hk : ∀ i, i < data.length → UnderKey s (key0 s) (hdmKey (a + i)) 1) :
    HdmWritten s (hostAccess s true a data.length data) a 0 data.length data := by
  obtain ⟨hm, hdie, hdie'⟩ := hdmSplit_spec hr
  rw [hostAccess, hdmParts_eq s hr]
  have hlost : ∀ j, j < 2 * 192 * 2 ^ 30 → isLost s (j / (192 * 2 ^ 30)) = false := fun j hj => by
    obtain h | h : j / (192 * 2 ^ 30) = 0 ∨ j / (192 * 2 ^ 30) = 1 := by omega
    · rw [h, h0]
    · rw [h, h1]
  rw [foldl_filter_idle (l := [(a, hdmSplit a data.length), (a + hdmSplit a data.length, data.length - hdmSplit a data.length)])]
  · simp only [List.foldl_cons, List.foldl_nil, if_true, Nat.sub_self, Nat.add_sub_cancel_left]
    generalize hdmSplit a data.length = m at hm hdie hdie'
    obtain ⟨ho, hw⟩ := hdmPart_written s (a := a) (lo := 0) (n := m) (data := data) hs hdie fun i _ hi => hk i (by omega)
    rw [Nat.add_zero, Nat.zero_add] at *
    generalize agentWrite s (key0 s) (hdmKey a) (sliceBytes data 0 m) = t at ho hw
    obtain ⟨-, hw'⟩ := hdmPart_written t (a := a) (lo := m) (n := data.length - m) (data := data) (ho.snaps.trans hs)
      (fun h => by rw [hdie' (by omega)]; congr 1; omega) fun i _ hi => by rw [ho.key0]; exact ho.underKey (hk i (by omega))
    rw [Nat.add_sub_cancel' hm] at hw'
    exact hw.append hw' (Nat.zero_le m) hm
  · intro t x hx hp
    have h2 : x.2 = 0 := by
      by_contra h2
      have : x.1 < 2 * 192 * 2 ^ 30 := by
        simp only [List.mem_cons, List.not_mem_nil, or_false] at hx
        obtain rfl | rfl := hx <;> omega
      simp only [hlost _ this, Bool.not_false, Bool.and_true, decide_eq_false_iff_not] at hp
      omega
    rw [if_pos rfl, h2]
    rfl

theorem hostAccess_reads (s : State) {a n : Nat} (data : List Byte) (hn : 0 < n) (hdie : a / (192 * 2 ^ 30) = (a + n - 1) / (192 * 2 ^ 30))
    (hr : a + n ≤ 2 * 192 * 2 ^ 30) (hl : isLost s (a / (192 * 2 ^ 30)) = false) (hk : UnderKey s (key0 s) (hdmKey a) n) :
    SameMemory s (hostAccess s false a n data) ∧ (hostAccess s false a n data).packets = s.packets ++ [.hostData a (physBytes s (hdmKey a) n)] := by
  have hp : hdmParts s a n = [(a, n)] := by
    have hpos : (decide (n > 0) && !isLost s (a / (192 * 2 ^ 30))) = true := by
      rw [hl, decide_eq_true hn]
      rfl
    have hhead : ∀ l : List (Nat × Nat), ((a, n) :: l).filter (fun p => decide (p.2 > 0) && !isLost s (p.1 / (192 * 2 ^ 30))) =
        (a, n) :: l.filter fun p => decide (p.2 > 0) && !isLost s (p.1 / (192 * 2 ^ 30)) := fun l => List.filter_cons_of_pos hpos
    rw [hdmParts_eq s hr]
    by_cases ha : a < 192 * 2 ^ 30
    · rw [show hdmSplit a n = n by rw [hdmSplit, if_pos ha]; omega, hhead, Nat.sub_self]
      rfl
    · rw [show hdmSplit a n = 0 by rw [hdmSplit, if_neg ha], List.filter_cons_of_neg (by simp), Nat.sub_zero, Nat.add_zero, hhead]
      rfl
  obtain ⟨ho, hm, hb⟩ := agentRead_same s hk
  rw [hostAccess, hp]
  refine ⟨hm, ?_⟩
  show (agentRead s (key0 s) (hdmKey a) n).1.packets ++ [.hostData a (agentRead s (key0 s) (hdmKey a) n).2] = _
  rw [ho.packets, hb]

/-! ### Event records (R407, R417) -/

/-- With no event dropped, there is no drop to report. -/
theorem noteDropped_none (s : State) (h : s.dropped = 0) : noteDropped s = s := by rw [noteDropped, if_pos (by simp [h])]

/-- Two writes to the host's memory, one after the other. -/
theorem hostWrites (s : State) {k k' : Nat} (b c : List Byte) (hs : s.snaps = []) (hk : 2 ^ 53 ≤ k) (hk' : 2 ^ 53 ≤ k') :
    let t := agentWrite (agentWrite s 0 k b) 0 k' c
    SliceOnly s t ∧ ∃ m, Written s m k b ∧ Written m t k' c := by
  have hm := hostWrite_only s (kid := 0) (l := b) hk hs
  exact ⟨hm.trans (hostWrite_only _ hk' (hm.snaps.trans hs)), _, hostWrite_written s hk hs, hostWrite_written _ hk' (hm.snaps.trans hs)⟩

theorem eventRecordWrite_writes (s : State) {e : EventRec} (hs : s.snaps = []) (he : eventDue s = some e) (hd : s.dropped = 0) :
    Completes .eventRecordWrite s fun t => t.events = s.events.erase e ∧
      let b := ringBase s.bar.eqbase
      ∃ m, Written s m (b + 128 + 32 * (hostWord s b % 2 ^ ringLog s.bar.eqcfg)) (eventBytes e) ∧ Written m t b (bytesOf 4 ((hostWord s b + 1) % 2 ^ 32)) := by
  have hge := ringBase_ge s.bar.eqbase
  have hx : exec .eventRecordWrite s = .next (noteDropped (
      let t := agentWrite (agentWrite s 0 (ringBase s.bar.eqbase + 128 + 32 * (hostWord s (ringBase s.bar.eqbase) % 2 ^ ringLog s.bar.eqcfg)) (eventBytes e)) 0
        (ringBase s.bar.eqbase) (bytesOf 4 ((hostWord s (ringBase s.bar.eqbase) + 1) % 2 ^ 32))
      { t with events := t.events.erase e })) := by
    show Host.Outcome.next _ = _
    rw [he]
  refine ⟨_, hx, ?_⟩
  generalize hb : ringBase s.bar.eqbase = b at hge
  obtain ⟨ho, m, hw, hw'⟩ := hostWrites s (k := b + 128 + 32 * (hostWord s b % 2 ^ ringLog s.bar.eqcfg)) (eventBytes e)
    (bytesOf 4 ((hostWord s b + 1) % 2 ^ 32)) hs (by omega) hge
  generalize agentWrite (agentWrite s 0 _ (eventBytes e)) 0 b _ = t at ho hw'
  rw [noteDropped_none]
  · exact ⟨congrArg (List.erase · e) ho.events, m, hw, hw'.congr fun _ => rfl⟩
  · exact (ho.congr State.dropped fun _ _ _ _ _ => rfl).trans hd

/-- Settles O15: each clause by what its event leaves. -/
theorem memorySystemEvents : Obligations.MemorySystemEvents := by
  unfold Obligations.MemorySystemEvents
  refine ⟨fun s line hm hl => ⟨lineEviction_slice s line hm hl, fun c => lineEviction_core s line c⟩, fun s hs => ⟨?_, ?_, ?_, ?_, ?_, ?_, ?_, ?_, ?_, ?_, ?_, ?_, ?_, ?_⟩⟩
  · exact fun u x id regs writes rest hx hst hp hid => llResultWrite_ready s hx hst hp hid
  · exact fun u x id regs form lane k kid n rest hx hst hp hl hpath hrest he ho _ hk => llResultWrite_late s hx hst hp hl hpath hrest he ho hk
  · exact fun die core ctx va hd hc hcan hpriv hctx => translationWalk_caches s hd hc hcan hpriv hctx
  · exact fun idx f u w lanes va va' kind hf hw hx hq he hsv hwv hg hst => ⟨faultResponse_none s hs hf hwv,
      faultResponse_retry s hs hf hw hx hq he hsv hwv hg hst, faultResponse_kill s hs hf hw hx hq he hsv hwv hg hst⟩
  · exact fun head h => faultQueueHeadUpdate_posted s head hs h
  · exact fun v h => fqcfgWrite_posted s v h
  · exact fun v f hf hp hr hon h4 h20 => fqcfgWrite_posts s v hs hf hp hr hon h4 h20
  · exact fun c u x k kid n op ty d cc id dst lane early rest hp he _ hk hx ha => sliceAtomicPerform_returns s hs hp he hk hx ha
  · exact fun h => predictorDecay_due s h
  · exact fun a data hm hl => hostSnoop_writes s a data hs hm hl
  · intro a data hr h0 h1 hk
    obtain ⟨hw, ho⟩ := hostAccess_written s hs hr h0 h1 hk
    exact ⟨⟨_, rfl, fun i hi => hw i (Nat.zero_le i) hi, fun k hne => ho k fun i _ hi => hne i hi⟩,
      ⟨_, rfl, fun i hi => hw i (Nat.zero_le i) hi, fun k hne => ho k fun i _ hi => hne i hi⟩⟩
  · exact fun a n data hn hdie hr hl hk => ⟨_, rfl, hostAccess_reads s data hn hdie hr hl hk⟩
  · have hk := ringBase_ge s.bar.eqbase
    exact fun head => ⟨_, rfl, hostWrite_written s (by omega) hs, (hostWrite_only s (by omega) hs).waves⟩
  · exact fun e he hd => eventRecordWrite_writes s hs he hd

end Sys2Proof

/-! SUPPORT. Control registers and invalidations (R46, R47, R306, R360, R361): what accesses that perform leave of the rest of the state, the bindings of event
slots, and the statement about CTLR, CTLW and TLBINV. -/
namespace Sys2Proof
open Machine

/-! ### What accesses that perform leave of the state -/

/-- `t` is `s` but for memory, what the caches and the cores hold, the waves, the dies' queues, and what was sent to other devices. -/
def DrainOnly (s t : State) : Prop :=
  ∃ waves dies mem l2 remote granted predictor cores tags snaps packets, t = { s with
    waves := waves, dies := dies, mem := mem, l2 := l2, remote := remote, granted := granted, predictor := predictor, cores := cores, tags := tags,
    snaps := snaps, packets := packets }

namespace DrainOnly
variable {s t v : State}

protected theorem refl (s : State) : DrainOnly s s := ⟨_, _, _, _, _, _, _, _, _, _, _, rfl⟩

protected theorem trans (h : DrainOnly s t) (h' : DrainOnly t v) : DrainOnly s v := by
  obtain ⟨_, _, _, _, _, _, _, _, _, _, _, rfl⟩ := h
  obtain ⟨_, _, _, _, _, _, _, _, _, _, _, rfl⟩ := h'
  exact ⟨_, _, _, _, _, _, _, _, _, _, _, rfl⟩

protected theorem tlb (h : DrainOnly s t) : t.tlb = s.tlb := by obtain ⟨_, _, _, _, _, _, _, _, _, _, _, rfl⟩ := h; rfl

protected theorem foldl {α : Type} {f : State → α → State} (hf : ∀ t x, DrainOnly t (f t x)) (l : List α) (s : State) : DrainOnly s (l.foldl f s) :=
  List.foldlRecOn (motive := DrainOnly s) l f (.refl s) fun _ ih x _ => ih.trans (hf _ x)

/-- A change of the waves and the cores alone. -/
protected theorem wavesCores (h : ∃ w c, t = { s with waves := w, cores := c }) : DrainOnly s t := by
  obtain ⟨w, c, rfl⟩ := h
  exact ⟨_, _, _, _, _, _, _, _, _, _, _, rfl⟩

end DrainOnly

theorem MemoryOnly.drainOnly {s t : State} (h : MemoryOnly s t) : DrainOnly s t := by
  obtain ⟨_, _, _, _, _, _, _, _, _, rfl⟩ := h
  exact ⟨_, _, _, _, _, _, _, _, _, _, _, rfl⟩

theorem drainOnly_setCore (s : State) (c : Nat) (x : Core) : DrainOnly s (setCore s c x) := (sliceOnly_setCore ..).memoryOnly.drainOnly

theorem drainOnly_setWave (s : State) (u : Nat) (w : Wave) : DrainOnly s (setWave s u w) := .wavesCores ⟨_, _, rfl⟩

theorem drainOnly_onWaveRec (s : State) (u : Nat) (f : Wave → Wave) : DrainOnly s (onWaveRec s u f) := by
  unfold onWaveRec
  split
  · exact .refl s
  · exact drainOnly_setWave ..

theorem memoryOnly_performRead (s : State) (die : Nat) (src : Option Nat) (kid k n : Nat) : MemoryOnly s (performRead s die src kid k n).1 :=
  (memoryOnly_touch ..).trans (sliceOnly_reached ..).memoryOnly

theorem memoryOnly_atomicAt (s : State) (src : Option Nat) (kid k n op ty d c : Nat) : MemoryOnly s (atomicAt s src kid k n op ty d c).1 := by
  have hr : MemoryOnly s (performRead (seekLine (touch s kid k n) (homeOf k) (lineOf k) true n) (homeOf k) src kid k n).1 :=
    ((memoryOnly_touch ..).trans (sliceOnly_seekLine ..).memoryOnly).trans (memoryOnly_performRead ..)
  unfold atomicAt
  dsimp only [homeRead]
  split
  · exact hr.trans (memoryOnly_performWrite ..)
  · exact hr

theorem memoryOnly_fillLine (s : State) (c kid k : Nat) : MemoryOnly s (fillLine s c kid k) :=
  (memoryOnly_performRead ..).trans (sliceOnly_setCore ..).memoryOnly

theorem memoryOnly_readEarly (s : State) (c a kid k n : Nat) : MemoryOnly s (readEarly s c a kid k n).1 :=
  (memoryOnly_performRead ..).trans (sliceOnly_setCore ..).memoryOnly

/-- What an entry of a core's path changes when it performs. -/
theorem drainOnly_performEntry (s : State) (c : Nat) (e : PathEntry) : DrainOnly s (performEntry s c e) := by
  cases e with
  | load w key kid n id part =>
    dsimp only [performEntry]
    split
    · exact (memoryOnly_readEarly ..).drainOnly.trans (drainOnly_onWaveRec ..)
    · exact (memoryOnly_fillLine ..).drainOnly.trans (drainOnly_onWaveRec ..)
  | store w key kid b => exact (memoryOnly_performWrite ..).drainOnly
  | l1atomic w key kid b lost =>
    dsimp only [performEntry]
    split
    · exact drainOnly_setCore ..
    · exact (memoryOnly_performWrite ..).drainOnly
  | atomic w key kid n op ty d cc id dst lane =>
    rw [performEntry_atomic]
    exact ((sliceOnly_recallOwned ..).memoryOnly.trans ((memoryOnly_atomicAt ..).trans (refreshCopy_frame ..).1.memoryOnly)).drainOnly.trans
      (drainOnly_onWaveRec ..)

theorem drainOnly_performWay (s : State) (c way : Nat) : DrainOnly s (performWay s c way) := by
  unfold performWay
  dsimp only
  split
  · exact .refl s
  · exact (drainOnly_setCore ..).trans (drainOnly_performEntry ..)

theorem drainOnly_performHead (s : State) (c : Nat) : DrainOnly s (performHead s c) := by
  unfold performHead
  split
  · exact .refl s
  · exact drainOnly_performWay ..

theorem drainOnly_performMany (s : State) (c n : Nat) : DrainOnly s (performMany s c n) := by
  induction n generalizing s with
  | zero => exact .refl s
  | succ n ih => exact (drainOnly_performHead ..).trans (ih _)

theorem drainOnly_drainWay (s : State) (c way : Nat) : DrainOnly s (drainWay s c way) := by
  unfold drainWay
  generalize List.length _ = n
  induction n generalizing s with
  | zero => exact .refl s
  | succ n ih => exact (drainOnly_performWay ..).trans (ih _)

theorem drainOnly_settleEarly (s : State) (c line : Nat) : DrainOnly s (settleEarly s c line) := by
  unfold settleEarly
  split
  · exact .refl s
  · exact (drainOnly_drainWay ..).trans (drainOnly_setCore ..)

theorem drainOnly_drainPath (s : State) (c : Nat) : DrainOnly s (drainPath s c) :=
  (drainOnly_performMany ..).trans (.foldl (fun _ _ => drainOnly_settleEarly ..) _ _)

theorem drainOnly_drainFor (s : State) (c : Nat) (ids : List Nat) : DrainOnly s (drainFor s c ids) :=
  .foldl (fun _ _ => drainOnly_drainWay ..) _ _

theorem drainOnly_drainAll (s : State) : DrainOnly s (drainAll s) := .foldl (fun _ _ => drainOnly_drainPath ..) _ _

theorem drainOnly_post (s : State) (p : Nat → Wave → EvSlot → Bool) : DrainOnly s (post s p) := by
  obtain ⟨w, c, h⟩ := recheckAll_frame { settleChoices s s.tsc.toNat with waves := (settleChoices s s.tsc.toNat).waves.map fun e => (e.1, e.2.latch (p e.1 e.2)) }
  exact .wavesCores ⟨w, c, h⟩

theorem drainOnly_barPut (s : State) (o : BarObj) (off n v : Nat) : DrainOnly s (barPut s o off n v) := (memoryOnly_performWrite ..).drainOnly

theorem drainOnly_barCheck (s : State) (o : BarObj) : DrainOnly s (barCheck s o) := by
  unfold barCheck
  dsimp only
  split
  · exact (((drainOnly_barPut ..).trans (drainOnly_barPut ..)).trans (drainOnly_barPut ..)).trans (drainOnly_post ..)
  · exact .refl s

theorem drainOnly_dropLine (s : State) (c line : Nat) : DrainOnly s (dropLine s c line) := by
  unfold dropLine
  split
  · exact .refl s
  · exact drainOnly_setCore ..

theorem drainOnly_barApply (s : State) (e : BarObj × Nat × Nat × Option (Nat × Nat)) : DrainOnly s (barApply s e) := by
  obtain ⟨o, op, n, dst⟩ := e
  have hop : DrainOnly s (if op = 0 then barArrive s o n else barRegister s o) := by
    split
    · exact (drainOnly_barPut ..).trans (drainOnly_barCheck ..)
    · exact drainOnly_barPut ..
  unfold barApply
  dsimp only
  split
  · exact hop
  · split
    · exact hop
    · exact hop.trans ((drainOnly_setWave ..).trans (drainOnly_dropLine ..))

theorem drainOnly_barSteps (s : State) (die n : Nat) : DrainOnly s (barSteps s die n) := by
  have step : ∀ t, DrainOnly t (barStep t die) := fun t => by
    unfold barStep
    split
    · exact .refl t
    · exact DrainOnly.trans ⟨_, _, _, _, _, _, _, _, _, _, _, rfl⟩ (drainOnly_barApply ..)
  induction n generalizing s with
  | zero => exact .refl s
  | succ n ih => exact (step s).trans (ih _)

theorem drainOnly_performAll (s : State) : DrainOnly s (performAll s) :=
  (drainOnly_drainAll s).trans ((drainOnly_barSteps ..).trans (drainOnly_barSteps ..))

theorem memoryOnly_holdSnaps (s : State) (ctag : Nat) : MemoryOnly s (holdSnaps s ctag) :=
  .foldl (fun _ _ => MemoryOnly.trans ⟨_, _, _, _, _, _, _, _, _, rfl⟩ (.foldl (fun _ _ => memoryOnly_performWrite ..) _ _)) _ _

theorem drainOnly_completeResults (s : State) (u : Nat) (p : Pending → Bool) : DrainOnly s (completeResults s u p) := by
  have hd : ∀ t : State, DrainOnly t (barSteps (barSteps t 0 (dieOf t 0).barrierQ.length) 1 (dieOf t 1).barrierQ.length) := fun t =>
    (drainOnly_barSteps ..).trans (drainOnly_barSteps ..)
  unfold completeResults
  dsimp only
  split
  · exact .refl s
  · cases lookup s.waves u with
    | none =>
      dsimp only
      split
      · exact .refl s
      · exact hd s
    | some w =>
      dsimp only
      split
      · exact drainOnly_drainFor ..
      · exact (drainOnly_drainFor ..).trans (hd _)

theorem drainOnly_flushResults (s : State) (u : Nat) : DrainOnly s (flushResults s u) := by
  have hc := drainOnly_completeResults s u fun _ => true
  unfold flushResults
  dsimp only
  split
  · exact hc
  · split
    · exact hc
    · exact hc.trans (drainOnly_setWave ..)

/-! ### CTLR (R360, Table 8.8) -/

theorem put_put {α : Type} (m : AMap α) (k : Nat) (a b : α) : put (put m k a) k b = put m k b := by
  induction m with
  | nil => simp [put]
  | cons e t ih =>
    obtain ⟨j, c⟩ := e
    by_cases h : j = k
    · simp [put, h]
    · simp [put, h, ih]

@[simp] theorem setWave_setWave (s : State) (u : Nat) (w w' : Wave) : setWave (setWave s u w) u w' = setWave s u w' := by
  simp only [setWave, put_put]

/-- A byte of a number in memory. -/
theorem natOf_byte {l : List Byte} {j : Nat} (h : j < l.length) : natOf l / 256 ^ j % 256 = (l.getD j 0#8).toNat := by
  induction l generalizing j with
  | nil => simp at h
  | cons b t ih =>
    have hb := b.isLt
    cases j with
    | zero => rw [natOf, pow_zero, Nat.div_one]; simp; omega
    | succ j =>
      rw [natOf, Nat.pow_succ', ← Nat.div_div_eq_div_mul, show (b.toNat + 256 * natOf t) / 256 = natOf t by omega, ih (by simpa using h)]
      rfl

theorem natOf_lt (l : List Byte) : natOf l < 256 ^ l.length := by
  induction l with
  | nil => simp [natOf]
  | cons b t ih => have := b.isLt; rw [natOf, List.length_cons, Nat.pow_succ']; omega

/-- Byte `j` of a word made of eight bytes. -/
theorem extract_natOf {l : List Byte} (hl : l.length = 8) {j : Nat} (hj : j < 8) :
    (BitVec.ofNat 64 (natOf l)).extractLsb' (8 * j) 8 = l.getD j 0#8 := by
  apply BitVec.eq_of_toNat_eq
  have h64 : natOf l < 2 ^ 64 := by have := natOf_lt l; rwa [hl] at this
  rw [BitVec.extractLsb'_toNat, BitVec.toNat_ofNat, Nat.mod_eq_of_lt h64, Nat.shiftRight_eq_div_pow, Nat.pow_mul]
  exact natOf_byte (by omega)

theorem presentCores_eq (s : State) (d : Nat) : presentCores s d = (List.range 36).filter fun n => (hmapOf s d).getLsbD n := rfl

/-- Table 7.1: a byte of the logical core table. -/
theorem lctByte_eq (s : State) (b : Nat) (hb : b < 72) :
    lctByte s b = match ((List.range 36).filter fun n => (if b < 36 then s.bar.hmap0 else s.bar.hmap1).getLsbD n)[b % 36]? with
      | some n => BitVec.ofNat 8 (0x80 + n)
      | none => 0#8 := by
  have hd : hmapOf s (b / 36) = if b < 36 then s.bar.hmap0 else s.bar.hmap1 := by
    unfold hmapOf
    by_cases h : b < 36
    · rw [if_pos (by omega), if_pos h]
    · rw [if_neg (by omega), if_neg h]
  simp only [lctByte, presentCores_eq, hd]
  generalize (List.filter _ _)[b % 36]? = o
  cases o <;> simp [Nat.add_comm]

section
variable (s : State) (w : Wave)

theorem controlReg_table {k j : Nat} (hk : k < 9) (hj : j < 8) : (controlReg s w (0x18 + k)).extractLsb' (8 * j) 8 = lctByte s (8 * k + j) := by
  have h : controlReg s w (0x18 + k) = BitVec.ofNat 64 (natOf ((List.range 8).map fun j => lctByte s (8 * k + j))) := by
    unfold controlReg
    rw [if_neg (by omega), if_neg (by omega), if_pos (by omega), Nat.add_sub_cancel_left]
  rw [h, extract_natOf (by simp) hj]
  simp [List.getD, hj]

theorem controlReg_slot {n : Nat} (h : n < 8) :
    controlReg s w (0x40 + n) = BitVec.ofNat 64 ((w.slot n).kind.toNat + (if (w.slot n).bound then 16 else 0) + 256 * (w.slot n).src.toNat) := by
  unfold controlReg
  rw [if_neg (by omega), if_neg (by omega), if_neg (by omega), if_neg (by omega), if_pos (by omega), Nat.add_sub_cancel_left]

end

theorem ctlr_reads (nx : BitVec 2) (d : BitVec 6) (i : BitVec 16) (s : State) (w : Wave) (hw : lookup s.waves s.cur = some w) :
     let c := ctxOf s w.ctag
     ∃ v : DWord, exec (.ctlr nx d i) s = .next (setWave s s.cur ((w.setS d.toNat v).finish nx)) ∧
       (i = 0#16 → v = c.tbase) ∧ (i = 1#16 → v = c.ptbase) ∧ (i = 2#16 → v = c.privbase) ∧ (i = 3#16 → v = c.privcfg) ∧
       (i = 0x10#16 → v = s.bar.hmap0.setWidth 64) ∧ (i = 0x11#16 → v = s.bar.hmap1.setWidth 64) ∧
       (∀ k j, k < 9 → j < 8 → i.toNat = 0x18 + k → v.extractLsb' (8 * j) 8 =
         match ((List.range 36).filter fun n => (if 8 * k + j < 36 then s.bar.hmap0 else s.bar.hmap1).getLsbD n)[(8 * k + j) % 36]? with
         | some n => BitVec.ofNat 8 (0x80 + n)
         | none => 0#8) ∧
       (i = 0x28#16 → v = w.live.setWidth 64) ∧
       (∀ n, n < 8 → i.toNat = 0x40 + n →
         v = BitVec.ofNat 64 ((w.slot n).kind.toNat + (if (w.slot n).bound then 16 else 0) + 256 * (w.slot n).src.toNat)) ∧
       (i = 0x50#16 → v = w.trap.tpc) ∧ (i = 0x51#16 → v = w.trap.tcause) ∧ (i = 0x52#16 → v = w.trap.tinfo) ∧ (i = 0x53#16 → v = w.trap.tmask) := by
  refine ⟨controlReg s w i.toNat, regOp_eq hw nx _, ?_, ?_, ?_, ?_, ?_, ?_, fun k j hk hj hi => ?_, ?_, fun n hn hi => ?_, ?_, ?_, ?_, ?_⟩
  case refine_7 =>
    rw [hi, controlReg_table s w hk hj]
    exact lctByte_eq s _ (by omega)
  case refine_9 =>
    rw [hi]
    exact controlReg_slot s w hn
  all_goals
    rintro rfl
    rfl

/-! ### Bindings of event slots (R306, Table 11.6) -/

theorem setBit8_false_twice (x : BitVec 8) (k : Nat) : setBit8 (setBit8 x k false) k false = setBit8 x k false := by
  simp only [setBit8, Bool.false_eq_true, if_false, BitVec.and_assoc, BitVec.and_self]

theorem Wave.bind_bind (w : Wave) (k : Nat) (e e' : EvSlot) : (w.bind k e).bind k e' = w.bind k e' := by
  have hs : (w.slots.setIfInBounds k e).setIfInBounds k e' = w.slots.setIfInBounds k e' := by
    ext i hi
    simp only [Vector.getElem_setIfInBounds]
    split <;> rfl
  simp only [Wave.bind, Wave.setSlot, hs, setBit8_false_twice]

theorem Wave.slot_bind (w : Wave) {k : Nat} (hk : k < 8) (e : EvSlot) : (w.bind k e).slot k = e := by
  show (w.slots.setIfInBounds k e).toList.getD k { } = e
  rw [vector_getD_set, if_pos ⟨rfl, hk⟩]

/-- A slot bound, and posted at once where its source has happened already. -/
def bindPosted (w : Wave) (k : Nat) (e : EvSlot) (posted : Bool) : Wave := if posted then (w.bind k e).postSlot k else w.bind k e

theorem bindPosted_slot (w : Wave) {k : Nat} (hk : k < 8) (e : EvSlot) (posted : Bool) : (bindPosted w k e posted).slot k = e := by
  cases posted <;> exact Wave.slot_bind w hk e

theorem bindPosted_pev (w : Wave) {k : Nat} (hk : k < 8) (e : EvSlot) (posted : Bool) : (bindPosted w k e posted).pev.getLsbD k = posted := by
  have h1 : (1#8 <<< k).getLsbD k = true := by simp [hk]
  cases posted with
  | true =>
    show (_ ||| 1#8 <<< k).getLsbD k = true
    rw [BitVec.getLsbD_or, h1, Bool.or_true]
  | false =>
    show (_ &&& ~~~(1#8 <<< k)).getLsbD k = false
    rw [BitVec.getLsbD_and, BitVec.getLsbD_not, h1]
    simp

/-- Where a wave goes on depends on what the control thread reads alone (R216). -/
theorem Wave.finish_pc_congr {w w' : Wave} (nx : BitVec 2) (hpc : w'.pc = w.pc) (hc : w'.c = w.c) (hbt : w'.bt = w.bt) (hlt : w'.lt = w.lt)
    (hlc : w'.lc = w.lc) : (w'.finish nx).pc = (w.finish nx).pc := by
  simp only [Wave.finish, Wave.complete_pc, Wave.next, hpc, hc, hbt, hlt, hlc]
  split <;> rfl

/-- Binding a slot leaves where the wave goes on. -/
theorem bindPosted_pc (w : Wave) (k : Nat) (e : EvSlot) (posted : Bool) (nx : BitVec 2) :
    ((bindPosted w k e posted).finish nx).pc = (w.finish nx).pc := by
  cases posted <;> exact Wave.finish_pc_congr nx rfl rfl rfl rfl rfl

/-- What a slot holds that has been bound, as a wave sees it when the instruction is complete. -/
theorem bound_of {s t : State} {w : Wave} {u k kind src : Nat} {nx : BitVec 2} {e : EvSlot} {posted : Bool} (hk : k < 8) (hb : e.bound = true)
    (hkind : e.kind = BitVec.ofNat 4 kind) (hsrc : e.src = BitVec.ofNat 56 src) (h4 : kind < 2 ^ 4) (h56 : src < 2 ^ 56) (hm : SameMemory s t) :
    let t' := setWave t u ((bindPosted w k e posted).finish nx)
    ((waveOf t' u).slot k).bound = true ∧ ((waveOf t' u).slot k).kind.toNat = kind ∧ ((waveOf t' u).slot k).src.toNat = src ∧
      (waveOf t' u).pev.getLsbD k = posted ∧ (waveOf t' u).pc = (w.finish nx).pc ∧ SameMemory s t' := by
  have hs : ∀ x : Wave, (x.finish nx).slot k = x.slot k := fun x => by rw [Wave.slot, Wave.finish_slots]; rfl
  simp only [waveOf_setWave, hs, bindPosted_slot w hk, hb, hkind, hsrc, bindPosted_pc, Wave.finish_pev, bindPosted_pev w hk]
  exact ⟨trivial, (BitVec.toNat_ofNat ..).trans (Nat.mod_eq_of_lt h4), (BitVec.toNat_ofNat ..).trans (Nat.mod_eq_of_lt h56), trivial, trivial, hm⟩

/-- The slot that a word for EVSLOTn asks for, with generation and object. -/
def wordSlot (x : DWord) (gen : Word) (obj : Nat) : EvSlot :=
  { kind := BitVec.ofNat 4 (x.toNat % 16), bound := true, src := BitVec.ofNat 56 (x.toNat / 256), gen, obj }

/-- The slot as a word for EVSLOTn leaves it unbound. -/
def wordUnbound (x : DWord) : EvSlot := { kind := BitVec.ofNat 4 (x.toNat % 16), src := BitVec.ofNat 56 (x.toNat / 256) }

theorem word_kind (x : DWord) : bitsAt x.toNat 0 4 = x.toNat % 16 := by rw [bitsAt_eq, pow_zero, Nat.div_one]; rfl
theorem word_src (x : DWord) : bitsAt x.toNat 8 56 = x.toNat / 256 := by have := x.isLt; rw [bitsAt_eq]; omega

theorem slotAsks_eq (x : DWord) : slotAsks x = (x.getLsbD 4 && decide (x.toNat % 16 ≤ 5) && (!(x.toNat % 16 == 2 || x.toNat % 16 == 5) || x.toNat / 256 == 0)) := by
  simp only [slotAsks, word_kind, word_src]

theorem wordSrc_toNat (x : DWord) : (BitVec.ofNat 56 (x.toNat / 256)).toNat = x.toNat / 256 := by
  have := x.isLt
  rw [BitVec.toNat_ofNat]
  omega

/-- What a binding finds of the slot it clears first. -/
theorem rebind (s : State) (u : Nat) (w : Wave) (k : Nat) (e : EvSlot) (posted : Bool) :
    setWave (setWave s u (w.bind k { })) u (if posted then ((w.bind k { }).bind k e).postSlot k else (w.bind k { }).bind k e) =
      setWave s u (bindPosted w k e posted) := by
  rw [setWave_setWave, Wave.bind_bind]
  rfl

section
variable {s : State} {w : Wave} {u k : Nat} {x : DWord} (hw : lookup s.waves u = some w)
include hw

theorem waveOf_of_lookup : waveOf s u = w := by rw [waveOf, hw]; rfl

theorem writeSlot_unbound (p : Option Place) (h : slotAsks x = false ∨ (x.toNat % 16 = 1 ∧ p = none)) :
    writeSlot s u w k x p = setWave s u (w.bind k (wordUnbound x)) := by
  unfold writeSlot
  simp only [word_kind, word_src, waveOf_of_lookup hw]
  cases ha : slotAsks x with
  | false => rfl
  | true =>
    obtain ⟨h1, rfl⟩ := h.resolve_left (by simp [ha])
    rw [h1]
    simp [wordUnbound, h1]

/-- A plot is bound with what it holds now (R308). -/
theorem bindSlot_plot (src : BitVec 56) (o : BarObj) :
    bindSlot s u k 0 src o = (setWave s u (bindPosted w k { kind := 0, bound := true, src, gen := 0, obj := 0 }
      (match findPlot s w.group (src.toNat % 64) with | some (_, p) => p.state == 2#2 | none => false)), true) := by
  unfold bindSlot
  simp only [waveOf_of_lookup hw, waveOf_setWave]
  exact congrArg (·, true) (rebind s u w k _ _)

theorem bindSlot_mailbox (src : BitVec 56) (o : BarObj) :
    bindSlot s u k 2 src o = (setWave s u (bindPosted w k { kind := 2, bound := true, src, gen := 0, obj := 0 } false), true) := by
  unfold bindSlot
  simp only [waveOf_of_lookup hw, waveOf_setWave]
  exact congrArg (·, true) (rebind s u w k _ false)

/-- A timer is posted at once when its deadline is past. -/
theorem bindSlot_timer (src : BitVec 56) (o : BarObj) :
    bindSlot s u k 4 src o = (setWave s u (bindPosted w k
      { kind := 4, bound := true, src, gen := if decide (o.key ≤ s.tsc.toNat) then 1#32 else 0#32, obj := o.key } (decide (o.key ≤ s.tsc.toNat))), true) := by
  unfold bindSlot
  simp only [waveOf_of_lookup hw, waveOf_setWave]
  exact congrArg (·, true) (rebind s u w k _ _)

/-- A future, which other devices are asked for where it is theirs. -/
theorem bindSlot_future (src : BitVec 56) (o : BarObj) :
    ∃ m e, bindSlot s u k 3 src o = (setWave m u (bindPosted w k e (futureState s w.ctag (BitVec.ofNat 64 (src.toNat % 2 ^ 45)) != .pending)), true) ∧
      SameMemory s m ∧ e.bound = true ∧ e.kind = 3 ∧ e.src = src := by
  have hf : futureState (setWave s u (w.bind k { })) w.ctag (BitVec.ofNat 64 (src.toNat % 2 ^ 45)) =
      futureState s w.ctag (BitVec.ofNat 64 (src.toNat % 2 ^ 45)) := rfl
  unfold bindSlot
  simp only [waveOf_of_lookup hw, waveOf_setWave]
  generalize hp : (askRemotes (setWave s u (w.bind k { })) (w.bind k { }) [BitVec.ofNat 64 (src.toNat % 2 ^ 45)]).packets = packets
  have ha : askRemotes (setWave s u (w.bind k { })) (w.bind k { }) [BitVec.ofNat 64 (src.toNat % 2 ^ 45)] =
      setWave { s with packets := packets } u (w.bind k { }) := by rw [← hp]; rfl
  rw [ha]
  refine ⟨{ s with packets := packets }, _, congrArg (·, true) (rebind { s with packets := packets } u w k _ _), fun _ => rfl, ?_⟩
  split <;> exact ⟨rfl, rfl, rfl⟩

/-- The throttle notice, which the binding takes. -/
theorem bindSlot_notice (src : BitVec 56) (o : BarObj) :
    bindSlot s u k 5 src o = (setWave (setCtx s w.ctag { ctxOf s w.ctag with notice := false }) u (bindPosted w k
      { kind := 5, bound := true, src, gen := 0, obj := 0 } (ctxOf s w.ctag).notice), true) := by
  unfold bindSlot
  simp only [waveOf_of_lookup hw, waveOf_setWave]
  exact congrArg (·, true) (rebind (setCtx s w.ctag { ctxOf s w.ctag with notice := false }) u w k _ _)

/-- A barrier is bound while its home has room, with the generation that it has now. -/
theorem bindSlot_barrier (src : BitVec 56) (o : BarObj) :
    bindSlot s u k 1 src o = if slotRoom (setWave s u (w.bind k { })) o.key then
        (setWave s u (bindPosted w k { kind := 1, bound := true, src, gen := BitVec.ofNat 32 (barField s o 0 4), obj := o.key } false), true)
      else (setWave s u (w.bind k { }), false) := by
  unfold bindSlot
  simp only [waveOf_of_lookup hw, waveOf_setWave]
  exact if_congr Iff.rfl (congrArg (·, true) (rebind s u w k _ false)) rfl

end

/-! ### CTLW (R306, R360) -/

/-- Nothing of a core is on its way to a place: what another unit does there has nothing to wait for. -/
theorem drainWay_quiet (s : State) (c way : Nat) (h : ∀ e ∈ (coreOf s c).path, e.way ≠ way) : drainWay s c way = s := by
  have hf : ((coreOf s c).path.filter fun e => e.way == way) = [] := by
    rw [List.filter_eq_nil_iff]
    exact fun e he => by simpa using h e he
  rw [drainWay, hf]
  rfl

theorem reachLine_quiet (s : State) {c k : Nat} (h : QuietAt s c k) : reachLine s c k = s := by
  obtain ⟨hpath, hearly, hl1⟩ := h
  have he : settleEarly s c (lineOf k) = s := by simp only [settleEarly, lineOf, hearly]
  rw [reachLine, he, drainWay_quiet s c _ hpath]
  simp only [dropLine, lineOf, hl1]

theorem barOrder_quiet (s : State) {c k : Nat} (hq : (dieOf s (homeOf k)).barrierQ = []) (h : QuietAt s c k) : barOrder s c k = s := by
  rw [barOrder, reachLine_quiet s h, barFlush, hq]
  rfl

theorem controlWritable_slot {i : Nat} (hi : 0x40 ≤ i) (hi' : i < 0x48) : controlWritable i = true := by simp [controlWritable, hi, hi']

/-- A word that asks for no barrier needs no check. -/
theorem checkCtlw_slot (s : State) (w : Wave) {i : Nat} {x : DWord} (hi : 0x40 ≤ i) (hi' : i < 0x48) (h : slotAsks x = false ∨ x.toNat % 16 ≠ 1) :
    checkCtlw s w i x = .ok none := by
  unfold checkCtlw
  rw [controlWritable_slot hi hi', if_neg (by decide), if_neg]
  simp only [Bool.and_eq_true, decide_eq_true_eq, beq_iff_eq, word_kind]
  rintro ⟨⟨-, ha⟩, h1⟩
  obtain h | h := h
  · simp [h] at ha
  · exact h h1

theorem checkCtlw_barrier (s : State) (w : Wave) {i : Nat} {x : DWord} (hi : 0x40 ≤ i) (hi' : i < 0x48) (ha : slotAsks x = true) (h1 : x.toNat % 16 = 1) :
    (∀ tr, checkBarrier s w (slotObject x) true = .error (.trap tr) → checkCtlw s w i x = .ok none) ∧
    ∀ p, checkBarrier s w (slotObject x) true = .ok p → checkCtlw s w i x = .ok (some p) := by
  have hc : (decide (i < 0x48) && slotAsks x && bitsAt x.toNat 0 4 == 1) = true := by
    rw [word_kind, ha, h1, decide_eq_true hi']
    rfl
  constructor <;>
  · intro _ hb
    unfold checkCtlw
    rw [controlWritable_slot hi hi', if_neg (by decide), if_pos hc]
    simp only [hb]

section
variable {nx : BitVec 2} {d : BitVec 6} {i : BitVec 16} {s : State} {w : Wave} (hw : lookup s.waves s.cur = some w)
include hw

/-- R360: the control registers that a wave cannot write raise PROTECTION. -/
theorem ctlw_readOnly (hi : i.toNat < 0x40) : exec (.ctlw nx d i) s = .next (takeTrap s s.cur ⟨10, 0x21, 0, 0#32⟩ true false) := by
  have hn : controlWritable i.toNat = false := by
    simp only [controlWritable, Bool.or_eq_false_iff, Bool.and_eq_false_iff, decide_eq_false_iff_not]
    omega
  have hc : checkCtlw s w i.toNat (w.sreg d.toNat) = .error (protection 0x21 0) := by
    unfold checkCtlw
    rw [hn]
    rfl
  show execCtlw nx d i s = _
  unfold execCtlw
  rw [checked_error hw hc]
  rfl

/-- A check of CTLW that passes, and what the write then leaves. -/
theorem exec_ctlw {p : Option Place} {m : State} {y : Wave} (hc : checkCtlw s w i.toNat (w.sreg d.toNat) = .ok p)
    (hT : (if i.toNat < 0x48 then writeSlot s s.cur w (i.toNat - 0x40) (w.sreg d.toNat) p
      else setWave s s.cur { w with trap := writeTrapReg w.trap (i.toNat - 0x50) (w.sreg d.toNat) }) = setWave m s.cur y) :
    exec (.ctlw nx d i) s = .next (setWave m s.cur (y.finish nx)) := by
  show execCtlw nx d i s = _
  unfold execCtlw
  rw [checked_ok hw hc]
  dsimp only
  rw [hT, waveOf_setWave, setWave_setWave]

/-- R360, Table 14.1: a trap register. -/
theorem ctlw_trapReg (hi : 0x50 ≤ i.toNat) :
    exec (.ctlw nx d i) s = .next (setWave s s.cur (Wave.finish { w with trap := writeTrapReg w.trap (i.toNat - 0x50) (w.sreg d.toNat) } nx)) := by
  have hwr : controlWritable i.toNat = true := by simp [controlWritable, hi]
  refine exec_ctlw hw (p := none) ?_ (if_neg (by omega))
  unfold checkCtlw
  rw [hwr, if_neg (by decide), if_neg]
  simp only [Bool.and_eq_true, decide_eq_true_eq]
  omega

theorem ctlw_slot (hi' : i.toNat < 0x48) {p : Option Place} {m : State} {y : Wave} (hc : checkCtlw s w i.toNat (w.sreg d.toNat) = .ok p)
    (hT : writeSlot s s.cur w (i.toNat - 0x40) (w.sreg d.toNat) p = setWave m s.cur y) :
    exec (.ctlw nx d i) s = .next (setWave m s.cur (y.finish nx)) :=
  exec_ctlw hw hc ((if_pos hi').trans hT)

section
variable (hi : 0x40 ≤ i.toNat) (hi' : i.toNat < 0x48)
include hi hi'

theorem ctlw_unbound (h : slotAsks (w.sreg d.toNat) = false) :
    exec (.ctlw nx d i) s = .next (setWave s s.cur ((w.bind (i.toNat - 0x40) (wordUnbound (w.sreg d.toNat))).finish nx)) :=
  ctlw_slot hw hi' (checkCtlw_slot s w hi hi' (.inl h)) (writeSlot_unbound hw none (.inl h))

end
end

section
variable {s : State} {w : Wave} {u k : Nat} {x : DWord} (hw : lookup s.waves u = some w) (ha : slotAsks x = true)
include hw ha

theorem writeSlot_plot (p : Option Place) (h : x.toNat % 16 = 0) :
    writeSlot s u w k x p = setWave s u (bindPosted w k { kind := 0, bound := true, src := BitVec.ofNat 56 (x.toNat / 256), gen := 0, obj := 0 }
      (match findPlot s w.group (x.toNat / 256 % 64) with | some (_, p) => p.state == 2#2 | none => false)) := by
  have hb := bindSlot_plot (k := k) hw (BitVec.ofNat 56 (x.toNat / 256)) ⟨0, 0⟩
  rw [wordSrc_toNat] at hb
  unfold writeSlot
  simp only [word_kind, word_src, ha, h, Bool.not_true, Bool.false_eq_true, if_false]
  exact congrArg Prod.fst hb

theorem writeSlot_mailbox (p : Option Place) (h : x.toNat % 16 = 2) :
    writeSlot s u w k x p =
      setWave s u (bindPosted w k { kind := 2, bound := true, src := BitVec.ofNat 56 (x.toNat / 256), gen := 0, obj := 0 } false) := by
  unfold writeSlot
  simp only [word_kind, word_src, ha, h, Bool.not_true, Bool.false_eq_true, if_false]
  exact congrArg Prod.fst (bindSlot_mailbox hw _ _)

theorem writeSlot_future (p : Option Place) (h : x.toNat % 16 = 3) :
    ∃ m e, writeSlot s u w k x p = setWave m u (bindPosted w k e (futureState s w.ctag (BitVec.ofNat 64 (x.toNat / 256 % 2 ^ 45)) != .pending)) ∧
      SameMemory s m ∧ e.bound = true ∧ e.kind = 3 ∧ e.src = BitVec.ofNat 56 (x.toNat / 256) := by
  obtain ⟨m, e, hb, hrest⟩ := bindSlot_future (k := k) hw (BitVec.ofNat 56 (x.toNat / 256)) ⟨0, 0⟩
  rw [wordSrc_toNat] at hb
  refine ⟨m, e, ?_, hrest⟩
  unfold writeSlot
  simp only [word_kind, word_src, ha, h, Bool.not_true, Bool.false_eq_true, if_false]
  exact congrArg Prod.fst hb

theorem writeSlot_timer (p : Option Place) (h : x.toNat % 16 = 4) :
    let deadline := s.tsc.toNat / 2 ^ 56 * 2 ^ 56 + x.toNat / 256
    ∃ gen, writeSlot s u w k x p = setWave s u (bindPosted w k
      { kind := 4, bound := true, src := BitVec.ofNat 56 (x.toNat / 256), gen, obj := deadline } (decide (deadline ≤ s.tsc.toNat))) := by
  have hd : bitsAt s.tsc.toNat 56 8 = s.tsc.toNat / 2 ^ 56 := by
    have := s.tsc.isLt
    rw [bitsAt_eq]
    omega
  refine ⟨if decide (s.tsc.toNat / 2 ^ 56 * 2 ^ 56 + x.toNat / 256 ≤ s.tsc.toNat) then 1#32 else 0#32, ?_⟩
  unfold writeSlot
  simp only [word_kind, word_src, ha, h, hd, Bool.not_true, Bool.false_eq_true, if_false]
  exact congrArg Prod.fst (bindSlot_timer hw _ _)

theorem writeSlot_notice (p : Option Place) (h : x.toNat % 16 = 5) :
    writeSlot s u w k x p = setWave (setCtx s w.ctag { ctxOf s w.ctag with notice := false }) u (bindPosted w k
      { kind := 5, bound := true, src := BitVec.ofNat 56 (x.toNat / 256), gen := 0, obj := 0 } (ctxOf s w.ctag).notice) := by
  unfold writeSlot
  simp only [word_kind, word_src, ha, h, Bool.not_true, Bool.false_eq_true, if_false]
  exact congrArg Prod.fst (bindSlot_notice hw _ _)

/-- A barrier, with nothing of the wave's core on its way to it. -/
theorem writeSlot_barrier (p : Place) (h : x.toNat % 16 = 1) (hord : barOrder s (coreNo s w) p.key = s) :
    (slotRoom (setWave s u (w.bind k { })) p.key = true → writeSlot s u w k x (some p) = setWave s u (bindPosted w k
      { kind := 1, bound := true, src := BitVec.ofNat 56 (x.toNat / 256), gen := BitVec.ofNat 32 (barField s p.obj 0 4), obj := p.key } false)) ∧
    (slotRoom (setWave s u (w.bind k { })) p.key = false → writeSlot s u w k x (some p) = setWave s u (w.bind k (wordUnbound x))) := by
  have hb := bindSlot_barrier (k := k) hw (BitVec.ofNat 56 (x.toNat / 256)) p.obj
  rw [show p.obj.key = p.key from rfl] at hb
  constructor
  · intro hroom
    rw [if_pos hroom] at hb
    unfold writeSlot
    simp only [word_kind, word_src, ha, h, hord, hb, Bool.not_true, Bool.false_eq_true, if_false, if_true]
  · intro hroom
    rw [if_neg (by rw [hroom]; decide)] at hb
    unfold writeSlot
    simp only [word_kind, word_src, ha, h, hord, hb, Bool.not_true, Bool.false_eq_true, if_false, waveOf_setWave, setWave_setWave, Wave.bind_bind,
      wordUnbound]

end

/-- The slot bound, and the instruction complete. -/
theorem ctlw_bound {nx : BitVec 2} {d : BitVec 6} {i : BitVec 16} {s m : State} {w : Wave} {p : Option Place} {e : EvSlot} {posted : Bool}
    (hw : lookup s.waves s.cur = some w) (hi : 0x40 ≤ i.toNat) (hi' : i.toNat < 0x48)
    (hc : checkCtlw s w i.toNat (w.sreg d.toNat) = .ok p)
    (hT : writeSlot s s.cur w (i.toNat - 0x40) (w.sreg d.toNat) p = setWave m s.cur (bindPosted w (i.toNat - 0x40) e posted)) (hm : SameMemory s m)
    (hb : e.bound = true) (hkind : e.kind = BitVec.ofNat 4 ((w.sreg d.toNat).toNat % 16)) (hsrc : e.src = BitVec.ofNat 56 ((w.sreg d.toNat).toNat / 256)) :
    ∃ t, exec (.ctlw nx d i) s = .next t ∧
      (((waveOf t s.cur).slot (i.toNat - 0x40)).bound = true ∧ ((waveOf t s.cur).slot (i.toNat - 0x40)).kind.toNat = (w.sreg d.toNat).toNat % 16 ∧
        ((waveOf t s.cur).slot (i.toNat - 0x40)).src.toNat = (w.sreg d.toNat).toNat / 256 ∧ (waveOf t s.cur).pev.getLsbD (i.toNat - 0x40) = posted ∧
        (waveOf t s.cur).pc = (w.finish nx).pc ∧ SameMemory s t) ∧ t.contexts = m.contexts ∧ (waveOf t s.cur).slot (i.toNat - 0x40) = e := by
  have hlt := (w.sreg d.toNat).isLt
  refine ⟨_, ctlw_slot hw hi' hc hT, bound_of (by omega) hb hkind hsrc (Nat.mod_lt _ (by decide)) (by omega) hm, rfl, ?_⟩
  rw [waveOf_setWave, Wave.slot, Wave.finish_slots]
  exact bindPosted_slot w (by omega) e posted

/-- R306, Table 11.6: a word for EVSLOTn. -/
theorem ctlw_slots {nx : BitVec 2} {d : BitVec 6} {i : BitVec 16} {s : State} {w : Wave} (hw : lookup s.waves s.cur = some w) (hi : 0x40 ≤ i.toNat)
    (hi' : i.toNat < 0x48) :
    let x := w.sreg d.toNat
    let k := i.toNat - 0x40
    let kind := x.toNat % 16
    let src := x.toNat / 256
    let unbound := (.next (setWave s s.cur ((w.bind k (wordUnbound x)).finish nx)) : Out)
    let bound := fun (posted : Bool) (t : State) =>
      let w' := waveOf t s.cur
      (w'.slot k).bound = true ∧ (w'.slot k).kind.toNat = kind ∧ (w'.slot k).src.toNat = src ∧ w'.pev.getLsbD k = posted ∧
        w'.pc = (w.finish nx).pc ∧ SameMemory s t
    (x.getLsbD 4 = false → exec (.ctlw nx d i) s = unbound) ∧
    (5 < kind ∨ ((kind = 2 ∨ kind = 5) ∧ src ≠ 0) → exec (.ctlw nx d i) s = unbound) ∧
    (x.getLsbD 4 = true →
      (kind = 0 → Completes (.ctlw nx d i) s
        (bound (match findPlot s w.group (src % 64) with | some (_, p) => p.state == 2#2 | none => false))) ∧
      (kind = 2 → src = 0 → Completes (.ctlw nx d i) s (bound false)) ∧
      (kind = 3 → Completes (.ctlw nx d i) s (bound (futureState s w.ctag (BitVec.ofNat 64 (src % 2 ^ 45)) != .pending))) ∧
      (kind = 4 → let deadline := s.tsc.toNat / 2 ^ 56 * 2 ^ 56 + src
        Completes (.ctlw nx d i) s fun t => bound (decide (deadline ≤ s.tsc.toNat)) t ∧ ((waveOf t s.cur).slot k).obj = deadline) ∧
      (kind = 5 → src = 0 → Completes (.ctlw nx d i) s fun t => bound (ctxOf s w.ctag).notice t ∧ (ctxOf t w.ctag).notice = false) ∧
      (kind = 1 → (∀ tr, checkBarrier s w (slotObject x) true = .error (.trap tr) → exec (.ctlw nx d i) s = unbound) ∧
        ∀ p, checkBarrier s w (slotObject x) true = .ok p → (dieOf s (homeOf p.key)).barrierQ = [] → QuietAt s (coreNo s w) p.key →
          let free := setWave s s.cur (w.bind k { })
          (slotRoom free p.key = true → Completes (.ctlw nx d i) s fun t => bound false t ∧
            ((waveOf t s.cur).slot k).gen = BitVec.ofNat 32 (barField s p.obj 0 4)) ∧
          (slotRoom free p.key = false → exec (.ctlw nx d i) s = unbound))) := by
  intro x k kind src unbound bound
  have hk : k < 8 := by omega
  have hsrc : src < 2 ^ 56 := by have := x.isLt; omega
  have hkind : kind < 2 ^ 4 := Nat.mod_lt _ (by decide)
  have hunb : slotAsks x = false → exec (.ctlw nx d i) s = unbound := fun h => ctlw_unbound hw hi hi' h
  have hasks : x.getLsbD 4 = true → kind ≤ 5 → (kind = 2 ∨ kind = 5 → src = 0) → slotAsks x = true := by
    intro h4 h5 h0
    rw [slotAsks_eq, h4, decide_eq_true h5, Bool.true_and, Bool.true_and, Bool.or_eq_true, Bool.not_eq_true', Bool.or_eq_false_iff, beq_eq_false_iff_ne,
      beq_eq_false_iff_ne, beq_iff_eq]
    by_cases h : kind = 2 ∨ kind = 5
    · exact .inr (h0 h)
    · exact .inl (not_or.1 h)
  have hfree : ∀ c, kind = c → c ≠ 1 → checkCtlw s w i.toNat x = .ok none := fun c h h1 =>
    checkCtlw_slot s w hi hi' (.inr (by rw [show x.toNat % 16 = c from h]; exact h1))
  refine ⟨fun h => hunb (by rw [slotAsks_eq, h]; rfl), fun h => hunb ?_, fun h4 => ⟨fun h => ?_, fun h h0 => ?_, fun h => ?_, fun h => ?_, fun h h0 => ?_,
    fun h => ⟨fun tr hb => ?_, fun p hb hq hquiet => ⟨fun hroom => ?_, fun hroom => ?_⟩⟩⟩⟩
  · rw [slotAsks_eq]
    obtain h | ⟨h, h0⟩ := h
    · rw [decide_eq_false (show ¬x.toNat % 16 ≤ 5 by omega), Bool.and_false, Bool.false_and]
    · rw [beq_false_of_ne (show x.toNat / 256 ≠ 0 from h0), Bool.or_false]
      obtain h | h := h <;> simp [show x.toNat % 16 = _ from h]
  · have ha := hasks h4 (by omega) (by omega)
    obtain ⟨t, ht, hbound, -⟩ := ctlw_bound (nx := nx) hw hi hi' (hfree 0 h (by decide)) (writeSlot_plot hw ha _ h) (.refl s) rfl
      (by rw [show (w.sreg d.toNat).toNat % 16 = 0 from h]; rfl) rfl
    exact ⟨t, ht, hbound⟩
  · have ha := hasks h4 (by omega) (fun _ => h0)
    obtain ⟨t, ht, hbound, -⟩ := ctlw_bound (nx := nx) hw hi hi' (hfree 2 h (by decide)) (writeSlot_mailbox hw ha _ h) (.refl s) rfl
      (by rw [show (w.sreg d.toNat).toNat % 16 = 2 from h]; rfl) rfl
    exact ⟨t, ht, hbound⟩
  · have ha := hasks h4 (by omega) (by omega)
    obtain ⟨m, e, hT, hm, hb, hek, hes⟩ := writeSlot_future (k := k) hw ha none h
    obtain ⟨t, ht, hbound, -⟩ := ctlw_bound (nx := nx) hw hi hi' (hfree 3 h (by decide)) hT hm hb
      (by rw [show (w.sreg d.toNat).toNat % 16 = 3 from h]; exact hek) hes
    exact ⟨t, ht, hbound⟩
  · intro deadline
    have ha := hasks h4 (by omega) (by omega)
    obtain ⟨gen, hT⟩ := writeSlot_timer (k := k) hw ha none h
    obtain ⟨t, ht, hbound, -, hslot⟩ := ctlw_bound (nx := nx) hw hi hi' (hfree 4 h (by decide)) hT (.refl s) rfl
      (by rw [show (w.sreg d.toNat).toNat % 16 = 4 from h]; rfl) rfl
    exact ⟨t, ht, hbound, congrArg EvSlot.obj hslot⟩
  · have ha := hasks h4 (by omega) (fun _ => h0)
    obtain ⟨t, ht, hbound, hctx, -⟩ := ctlw_bound (nx := nx) hw hi hi' (hfree 5 h (by decide)) (writeSlot_notice (k := k) hw ha none h) (fun _ => rfl) rfl
      (by rw [show (w.sreg d.toNat).toNat % 16 = 5 from h]; rfl) rfl
    refine ⟨t, ht, hbound, ?_⟩
    rw [ctxOf, hctx, ← ctxOf, ctxOf_setCtx]
  · have ha := hasks h4 (by omega) (by omega)
    exact ctlw_slot hw hi' ((checkCtlw_barrier s w hi hi' ha h).1 tr hb) (writeSlot_unbound hw none (.inr ⟨h, rfl⟩))
  · have ha := hasks h4 (by omega) (by omega)
    obtain ⟨hT, -⟩ := writeSlot_barrier (k := k) hw ha p h (barOrder_quiet s hq hquiet)
    obtain ⟨t, ht, hbound, -, hslot⟩ := ctlw_bound (nx := nx) hw hi hi' ((checkCtlw_barrier s w hi hi' ha h).2 p hb) (hT hroom) (.refl s) rfl
      (by rw [show (w.sreg d.toNat).toNat % 16 = 1 from h]; rfl) rfl
    exact ⟨t, ht, hbound, congrArg EvSlot.gen hslot⟩
  · have ha := hasks h4 (by omega) (by omega)
    exact ctlw_slot hw hi' ((checkCtlw_barrier s w hi hi' ha h).2 p hb) ((writeSlot_barrier (k := k) hw ha p h (barOrder_quiet s hq hquiet)).2 hroom)

/-! ### TLBINV (R361, R46, R47) -/

theorem drainOnly_releaseFence (s : State) (u : Nat) (w : Wave) : DrainOnly s (finishTlbinv.releaseFence s u w) :=
  (drainOnly_flushResults s u).trans (drainOnly_drainPath ..)

theorem drainOnly_holdSnaps_performAll (s : State) (ctag : Nat) : DrainOnly s (holdSnaps (performAll s) ctag) :=
  (drainOnly_performAll s).trans (memoryOnly_holdSnaps ..).drainOnly

/-- A length of zero invalidates nothing. -/
theorem finishTlbinv_empty (s : State) (nx : BitVec 2) (u : Nat) (w : Wave) (base : Nat) : (finishTlbinv s nx u w (some (base, 0))).tlb = s.tlb := by
  unfold finishTlbinv
  exact (drainOnly_releaseFence s u w).tlb

theorem finishTlbinv_all (s : State) (nx : BitVec 2) (u : Nat) (w : Wave) :
    (finishTlbinv s nx u w none).tlb = s.tlb.filter fun e => e.ctag != w.ctag := by
  have h := ((drainOnly_releaseFence s u w).trans (drainOnly_holdSnaps_performAll _ w.ctag)).tlb
  unfold finishTlbinv
  simp only [setWave_tlb, invalidate, dropTlbAll, h]

theorem finishTlbinv_range (s : State) (nx : BitVec 2) (u : Nat) (w : Wave) {base n : Nat} (hn : n ≠ 0) :
    (finishTlbinv s nx u w (some (base, n))).tlb =
      s.tlb.filter fun e => decide (e.ctag ≠ w.ctag ∨ base + n ≤ e.base ∨ e.base + e.size ≤ base) := by
  obtain ⟨n, rfl⟩ := Nat.exists_eq_succ_of_ne_zero hn
  have h := ((drainOnly_releaseFence s u w).trans (drainOnly_holdSnaps_performAll _ w.ctag)).tlb
  unfold finishTlbinv
  simp only [setWave_tlb, invalidate, dropTlb, h]
  refine List.filter_congr fun e _ => ?_
  rw [Bool.eq_iff_iff]
  simp only [Bool.not_eq_true', Bool.and_eq_false_iff, beq_eq_false_iff_ne, decide_eq_false_iff_not, decide_eq_true_eq, not_lt, or_assoc]

/-! The range of TLBINV, in the order of its checks. -/

section
variable {base n : Nat}

theorem checkRange_base (h : base % 65536 ≠ 0) : checkRange base n = .error (misalign base) := if_pos (by simpa using h)

theorem checkRange_length (h1 : base % 65536 = 0) (h2 : n % 65536 ≠ 0) : checkRange base n = .error (misalign n) := by
  unfold checkRange
  rw [if_neg (by simp [h1]), if_pos (by simpa using h2)]

theorem checkRange_outside (h1 : base % 65536 = 0) (h2 : n % 65536 = 0) (h3 : n ≠ 0) (h4 : 2 ^ 55 < base + n) :
    checkRange base n = .error (protection 0x23 (argAddr base)) := by
  unfold checkRange
  rw [if_neg (by simp [h1]), if_neg (by simp [h2]), if_pos]
  simp only [Bool.and_eq_true, bne_iff_ne, decide_eq_true_eq]
  omega

theorem checkRange_ok (h1 : base % 65536 = 0) (h2 : n % 65536 = 0) (h3 : n = 0 ∨ base + n ≤ 2 ^ 55) : checkRange base n = .ok () := by
  unfold checkRange
  rw [if_neg (by simp [h1]), if_neg (by simp [h2]), if_neg]
  simp only [Bool.and_eq_true, bne_iff_ne, decide_eq_true_eq]
  omega

end

section
variable {nx : BitVec 2} {a b : BitVec 6} {s : State} {w : Wave} (hw : lookup s.waves s.cur = some w)
include hw

theorem tlbinv_stops {e : Stop} (h : checkTlbinv s w (w.sreg a.toNat).toNat (w.sreg b.toNat).toNat = .error e) :
    exec (.tlbinv nx a b) s = .next (stopWave s s.cur e false) := by
  show execTlbinv nx a b s = _
  unfold execTlbinv
  rw [checked_error hw h]

theorem tlbinv_completes (h : checkTlbinv s w (w.sreg a.toNat).toNat (w.sreg b.toNat).toNat = .ok ()) :
    exec (.tlbinv nx a b) s = .next (finishTlbinv s nx s.cur w (some ((w.sreg a.toNat).toNat, (w.sreg b.toNat).toNat))) := by
  show execTlbinv nx a b s = _
  unfold execTlbinv
  rw [checked_ok hw h]

end

theorem checkTlbinv_error {s : State} {w : Wave} {base n : Nat} {e : Stop} (h : checkRange base n = .error e) : checkTlbinv s w base n = .error e := by
  simp only [checkTlbinv, h]

theorem checkTlbinv_ok {s : State} {w : Wave} {base n : Nat} (h : checkRange base n = .ok ()) :
    checkTlbinv s w base n = if n != 0 && peersOut s w.ctag then .error .wait else .ok () := by
  simp only [checkTlbinv, h]

theorem tlbinv_invalidates {nx : BitVec 2} {a b : BitVec 6} {s : State} {w : Wave} (hw : lookup s.waves s.cur = some w) :
    let base := (w.sreg a.toNat).toNat
    let n := (w.sreg b.toNat).toNat
    (base % 65536 ≠ 0 → exec (.tlbinv nx a b) s = .next (takeTrap s s.cur ⟨11, 0, argAddr base, 0#32⟩ true false)) ∧
    (base % 65536 = 0 → n % 65536 ≠ 0 → exec (.tlbinv nx a b) s = .next (takeTrap s s.cur ⟨11, 0, argAddr n, 0#32⟩ true false)) ∧
    (base % 65536 = 0 → n % 65536 = 0 → n ≠ 0 → 2 ^ 55 < base + n →
      exec (.tlbinv nx a b) s = .next (takeTrap s s.cur ⟨10, 0x23, argAddr base, 0#32⟩ true false)) ∧
    (base % 65536 = 0 → n = 0 → Completes (.tlbinv nx a b) s fun t => t.tlb = s.tlb) ∧
    (base % 65536 = 0 → n % 65536 = 0 → n ≠ 0 → base + n ≤ 2 ^ 55 →
      (peersOut s w.ctag = false → Completes (.tlbinv nx a b) s fun t =>
        t.tlb = s.tlb.filter fun e => decide (e.ctag ≠ w.ctag ∨ base + n ≤ e.base ∨ e.base + e.size ≤ base)) ∧
      (peersOut s w.ctag = true → exec (.tlbinv nx a b) s = .next s)) := by
  intro base n
  refine ⟨fun h => ?_, fun h1 h2 => ?_, fun h1 h2 h3 h4 => ?_, fun h1 h2 => ?_, fun h1 h2 h3 h4 => ?_⟩
  · exact tlbinv_stops hw (checkTlbinv_error (checkRange_base h))
  · exact tlbinv_stops hw (checkTlbinv_error (checkRange_length h1 h2))
  · exact tlbinv_stops hw (checkTlbinv_error (checkRange_outside h1 h2 h3 h4))
  · have hc : checkTlbinv s w base n = .ok () := by
      rw [checkTlbinv_ok (checkRange_ok h1 (by omega) (.inl h2)), if_neg (by simp [h2])]
    refine ⟨_, tlbinv_completes hw hc, ?_⟩
    rw [show (w.sreg b.toNat).toNat = 0 from h2]
    exact finishTlbinv_empty ..
  · have hc := checkTlbinv_ok (s := s) (w := w) (checkRange_ok h1 h2 (.inr h4))
    rw [show (n != 0) = true from bne_iff_ne.2 h3, Bool.true_and] at hc
    refine ⟨fun hp => ⟨_, tlbinv_completes hw ?_, finishTlbinv_range s nx s.cur w h3⟩, fun hp => tlbinv_stops hw (e := .wait) ?_⟩
    · exact hc.trans (if_neg (by rw [hp]; decide))
    · exact hc.trans (if_pos hp)

theorem tlbinvAll_invalidates {nx : BitVec 2} {s : State} {w : Wave} (hw : lookup s.waves s.cur = some w) :
    (peersOut s w.ctag = false → Completes (.tlbinvAll nx) s fun t => t.tlb = s.tlb.filter fun e => e.ctag != w.ctag) ∧
    (peersOut s w.ctag = true → exec (.tlbinvAll nx) s = .next s) := by
  constructor <;> intro hp
  · refine ⟨_, ?_, finishTlbinv_all s nx s.cur w⟩
    show execTlbinvAll nx s = _
    unfold execTlbinvAll
    rw [checked_ok hw (a := ()) (if_neg (by rw [hp]; decide))]
  · show execTlbinvAll nx s = _
    unfold execTlbinvAll
    rw [checked_error hw (e := .wait) (if_pos hp)]
    rfl

/-- Settles O28: CTLR by `controlReg`, CTLW by the slot or the trap register that it writes, TLBINV by what its fence leaves. -/
theorem controlRegisters : Obligations.ControlRegisters := by
  unfold Obligations.ControlRegisters
  refine ⟨fun nx d i s w hw _ => ctlr_reads nx d i s w hw, fun nx d s w hw => ?_, fun nx a b s w hw => ?_⟩
  · have trapReg : ∀ i : BitVec 16, 0x50 ≤ i.toNat → exec (.ctlw nx d i) s = _ := fun i hi => ctlw_trapReg (nx := nx) (d := d) hw hi
    exact ⟨trapReg 0x50#16 (by decide), trapReg 0x51#16 (by decide), trapReg 0x52#16 (by decide), trapReg 0x53#16 (by decide),
      fun i hi => ctlw_readOnly hw hi, fun i hi hi' => ctlw_slots hw hi hi'⟩
  · obtain ⟨h1, h2, h3, h4, h5⟩ := tlbinv_invalidates (nx := nx) (a := a) (b := b) hw
    obtain ⟨h6, h7⟩ := tlbinvAll_invalidates (nx := nx) hw
    exact ⟨h1, h2, h3, h4, h5, h6, h7⟩

end Sys2Proof

/-! SUPPORT. CTX_DESTROY in a state whose copy names a plot of a group that is not there: after the context is gone its tail serves the idle queues
of the other contexts, and a kill there ends the copy, whose end of access writes the missing group with default fields. -/
namespace Sys2Proof
open Machine

/-- CTX_DESTROY of the context that holds a number answers from `destroyContext` (R164). -/
theorem exec_ctxDestroy {s : State} {a cpla : DWord} {k : Nat} (hr : s.bar.recovery = false) (ha : a.toNat ≤ 63) (hk : ctxTag s a = some k) :
    exec (.ctxDestroy a cpla) s = .next (completeCommand (destroyContext s k) cpla 0 0) := by
  have hc : ¬ a.toNat > 63 := by omega
  show execCtxDestroy a cpla s = _
  simp [execCtxDestroy, command, onContext, done, hr, hc, hk]

/-- A completion record leaves every group as it is (R407). -/
theorem completeCommand_groups (s : State) (cpla : DWord) (status result : Nat) :
    (completeCommand s cpla status result).groups = s.groups :=
  (memoryOnly_agentWrite s 0 (hostKey cpla.toNat) _).groups

/-- Contexts 0 and 1 with both dies lost: context 1 has a queue whose descriptor cannot be read, and a copy into plot 0 of group 9, which does not exist. -/
def strandedCopy : State where
  contexts := [(0, { ctx := some 0 }), (1, { ctx := some 1, nhq := 1, queues := [(false, 0, ⟨.idle, 0, 0, none, false⟩)] })]
  dies := [(0, { state := .lost }), (1, { state := .lost })]
  transfers := [(0, {
    op := .cpy, engine := 0, ctag := 1, wave := 0, group := 9, launch := 0, sub := 0, lanes := 0, base := 0, ref0 := 0, ref1 := 0, opnd := 0
    rowoff := [], cmd := [], bara := 0, plots := [(9, 0)], fmt := 0, rows := 0, rowBytes := 0, image := [], done := 0, parked := none
    pause := false, region := 0, peer := [] })]

/-- Destroying context 0 serves context 1, whose queue's descriptor is on a lost die (R403): context 1 is killed, and its copy's end of access makes
group 9 with the default context tag 0. -/
theorem destroyContext_strandedCopy : (destroyContext strandedCopy 0).groups = [(9, {})] := by decide +kernel

/-- Refutes O52: after CTX_DESTROY of context 0 a group with its tag is there, where a copy of another context names a group that does not exist. -/
theorem not_managementCommands : ¬ Obligations.ManagementCommands := by
  unfold Obligations.ManagementCommands
  intro h
  obtain ⟨-, -, hcommands, -⟩ := h strandedCopy 0 0 0 0 0 rfl
  obtain ⟨-, -, hctx, -⟩ := hcommands rfl
  have hk : ctxTag strandedCopy 0 = some 0 := by decide
  obtain ⟨⟨t, ht, -, hgroups, -⟩, -⟩ := hctx 0 (by decide) hk
  rw [exec_ctxDestroy rfl (by decide) hk] at ht
  obtain rfl : _ = t := Host.Outcome.next.inj ht
  rw [completeCommand_groups, destroyContext_strandedCopy] at hgroups
  exact hgroups (9, {}) (List.mem_singleton_self _) rfl

end Sys2Proof

/-! SUPPORT. Plots (R59-R80, R318-R326): what looking again at waves, deliveries and the ends of accesses leave, and the statements about allocation, contents and copies. -/
namespace Sys2Proof
open Machine

/-! ### What postings leave of the device -/

/-- `t` is `s` but for its waves and its cores. -/
def WavesCores (s t : State) : Prop := ∃ w c, t = { s with waves := w, cores := c }

namespace WavesCores
variable {s t v : State}

protected theorem refl (s : State) : WavesCores s s := ⟨_, _, rfl⟩

protected theorem trans (h : WavesCores s t) (h' : WavesCores t v) : WavesCores s v := by
  obtain ⟨_, _, rfl⟩ := h
  obtain ⟨_, _, rfl⟩ := h'
  exact ⟨_, _, rfl⟩

protected theorem groups (h : WavesCores s t) : t.groups = s.groups := by obtain ⟨_, _, rfl⟩ := h; rfl
protected theorem transfers (h : WavesCores s t) : t.transfers = s.transfers := by obtain ⟨_, _, rfl⟩ := h; rfl
protected theorem yokes (h : WavesCores s t) : t.yokes = s.yokes := by obtain ⟨_, _, rfl⟩ := h; rfl
protected theorem same (h : WavesCores s t) : SameMemory s t := by obtain ⟨_, _, rfl⟩ := h; exact fun _ => rfl
protected theorem groupOf (h : WavesCores s t) (g : Nat) : groupOf t g = groupOf s g := by simp only [Machine.groupOf, h.groups]

end WavesCores

theorem wavesCores_recheckAll (s : State) : WavesCores s (recheckAll s) := recheckAll_frame s

theorem wavesCores_post (s : State) (p : Nat → Wave → EvSlot → Bool) : WavesCores s (post s p) :=
  (show WavesCores s (settleChoices s s.tsc.toNat) from ⟨_, _, rfl⟩).trans
    (WavesCores.trans ⟨_, _, rfl⟩ (wavesCores_recheckAll _))

theorem wavesCores_postPlotFull (s : State) (g h : Nat) : WavesCores s (postPlotFull s g h) := wavesCores_post ..

/-! ### Groups and their plots -/

theorem groupOf_of_lookup {s : State} {g : Nat} {gr : Group} (h : lookup s.groups g = some gr) : groupOf s g = gr := by rw [groupOf, h]; rfl

@[simp] theorem groupOf_setPlot (s : State) (g h : Nat) (p : Plot) :
    groupOf (setPlot s g h p) g = { groupOf s g with plots := put (groupOf s g).plots h p } := groupOf_setGroup s g _

theorem sameMemory_setPlot (s : State) (g h : Nat) (p : Plot) : SameMemory s (setPlot s g h p) := fun _ => rfl

theorem plot_setPlot (s : State) (g h : Nat) (p : Plot) : lookup (groupOf (setPlot s g h p) g).plots h = some p := by simp

/-! ### Allocation (R61, R320) -/

/-- A plot's granules and a run of `n` from `b` do not meet. -/
theorem runFree_iff (gr : Group) (b n : Nat) : runFree gr b n = true ↔ ∀ e ∈ gr.plots, b + n ≤ e.2.base ∨ e.2.base + e.2.ngran ≤ b := by
  simp [runFree]

/-- R61: first fit takes the lowest run of the region that no plot holds. -/
theorem firstFit_lowest {gr : Group} {n b : Nat} (h : firstFit gr n = some b) :
    b + n ≤ gr.pngran ∧ (∀ e ∈ gr.plots, b + n ≤ e.2.base ∨ e.2.base + e.2.ngran ≤ b) ∧
      ∀ c, c < b → ∃ e ∈ gr.plots, ¬(c + n ≤ e.2.base ∨ e.2.base + e.2.ngran ≤ c) := by
  obtain ⟨hb, -, hlow⟩ := List.find?_range_eq_some.1 h
  simp only [Bool.and_eq_true, decide_eq_true_eq, runFree_iff] at hb
  refine ⟨hb.1, hb.2, fun c hc => ?_⟩
  have hn := hlow c hc
  simp only [Bool.not_eq_true', Bool.and_eq_false_iff, decide_eq_false_iff_not] at hn
  have hf : ¬runFree gr c n = true := by
    obtain h | h := hn
    · omega
    · simp [h]
  rw [runFree_iff] at hf
  push Not at hf ⊢
  exact hf

theorem bitsAt_low (x : DWord) : bitsAt x.toNat 0 32 = x.toNat % 2 ^ 32 := by rw [bitsAt_eq, pow_zero, Nat.div_one]
theorem bitsAt_high (x : DWord) : bitsAt x.toNat 32 32 = x.toNat / 2 ^ 32 := by have := x.isLt; rw [bitsAt_eq]; omega

section
variable {nx : BitVec 2} {v : BitVec 1} {a b : BitVec 6} {f : BitVec 4} {s : State} {w : Wave} (hw : lookup s.waves s.cur = some w)
include hw

section
variable {rows cols : Nat} (hr : (w.sreg b.toNat).toNat % 2 ^ 32 = rows) (hc : (w.sreg b.toNat).toNat / 2 ^ 32 = cols)
include hr hc

/-- PALLOC whose checks pass: C says whether there is room, and the plot is made where there is (R320). -/
theorem exec_palloc_ok {run : Option Nat} (h : checkPalloc s w (w.sreg a.toNat).toNat (v == 1#1) rows cols f.toNat = .ok run) :
    let t := setWave s s.cur (Wave.finish { w with c := run.isSome } nx)
    exec (.palloc nx v a b f) s = .next (match run with
      | none => t
      | some base => setPlot t w.group (w.sreg a.toNat).toNat
          (newPlot (v == 1#1) f.toNat rows cols base ((plotBytes f.toNat rows cols + 8191) / 8192))) := by
  rw [← bitsAt_low] at hr
  rw [← bitsAt_high] at hc
  subst hr hc
  show execPalloc nx v a b f s = _
  unfold execPalloc
  rw [checked_ok hw h]
  cases run <;> rfl

theorem exec_palloc_error {e : Stop} (h : checkPalloc s w (w.sreg a.toNat).toNat (v == 1#1) rows cols f.toNat = .error e) :
    exec (.palloc nx v a b f) s = .next (stopWave s s.cur e false) := by
  rw [← bitsAt_low] at hr
  rw [← bitsAt_high] at hc
  subst hr hc
  show execPalloc nx v a b f s = _
  unfold execPalloc
  rw [checked_error hw h]

/-- R61, R320, R321: the plot that PALLOC makes is IDLE and empty, and no other handle of the group changes. -/
theorem palloc_makes {base : Nat} (h : checkPalloc s w (w.sreg a.toNat).toNat (v == 1#1) rows cols f.toNat = .ok (some base)) :
    Completes (.palloc nx v a b f) s fun t =>
      waveOf t s.cur = Wave.finish { w with c := true } nx ∧ SameMemory s t ∧
      (∀ k, k ≠ (w.sreg a.toNat).toNat → lookup (groupOf t w.group).plots k = lookup (groupOf s w.group).plots k) ∧
      ∃ p, lookup (groupOf t w.group).plots (w.sreg a.toNat).toNat = some p ∧ p.state = 0#2 ∧ p.level = (v == 1#1) ∧ p.fmt = f ∧ p.rows = rows ∧
        p.cols = cols ∧ p.base = base ∧ p.ngran = (plotBytes f.toNat rows cols + 8191) / 8192 ∧ p.quota = 0 ∧ p.data = [] ∧ p.access = [] := by
  refine ⟨_, exec_palloc_ok hw hr hc h, waveOf_setWave s s.cur _, fun _ => rfl, fun k hk => ?_, _, plot_setPlot .., rfl, rfl, ?_, rfl, rfl, rfl, rfl,
    rfl, rfl, rfl⟩
  · rw [groupOf_setPlot]
    exact lookup_put_ne _ _ hk
  · simp [newPlot]

end

end

/-! ### What the end of groups leaves (R167, R237) -/

theorem lookup_mem {α : Type} {m : AMap α} {k : Nat} {a : α} (h : lookup m k = some a) : (k, a) ∈ m := by
  induction m with
  | nil => cases h
  | cons e t ih =>
    obtain ⟨j, b⟩ := e
    rw [lookup] at h
    split at h
    · subst_vars
      cases h
      exact List.mem_cons_self
    · exact List.mem_cons_of_mem _ (ih h)

/-- A group's record is one of those that are listed, or that of a group that is not there. -/
theorem groupOf_mem (s : State) (g : Nat) : (g, groupOf s g) ∈ s.groups ∨ groupOf s g = { } := by
  rw [groupOf]
  cases h : lookup s.groups g with
  | none => exact .inr rfl
  | some gr => exact .inl (lookup_mem h)

theorem groupOf_setGroup_ne (s : State) {g k : Nat} (x : Group) (h : k ≠ g) : groupOf (setGroup s g x) k = groupOf s k := by
  simp [groupOf, setGroup, lookup_put_ne _ _ h]

protected theorem DrainOnly.groups {s t : State} (h : DrainOnly s t) : t.groups = s.groups := by
  obtain ⟨_, _, _, _, _, _, _, _, _, _, _, rfl⟩ := h
  rfl

theorem checkLaunch_groups (s : State) (k : Nat) : (checkLaunch s k).groups = s.groups := by
  have hf : ∀ (t : State) c d, (freeEntry t c d).groups = t.groups := fun t c d => by
    cases d with
    | none => rfl
    | some i => exact (memoryOnly_ctxRecord ..).groups
  have hw : ∀ (t : State) c cpla st id n, (writeCompletion t c cpla st id n).groups = t.groups := fun t c cpla st id n => by
    unfold writeCompletion
    split
    · rfl
    · exact (memoryOnly_ctxRecord ..).groups.trans (drainOnly_drainAll t).groups
  unfold checkLaunch
  split
  · rfl
  · split
    · refine (hf _ _ _).trans ?_
      split
      · rfl
      · exact hw ..
    · rfl

/-- Every plot that `t` has in a group, `s` has there. -/
def PlotsWithin (s t : State) : Prop := ∀ g, ∀ q ∈ (groupOf t g).plots, q ∈ (groupOf s g).plots

theorem PlotsWithin.trans {s t v : State} (h : PlotsWithin s t) (h' : PlotsWithin t v) : PlotsWithin s v := fun g q hq => h g q (h' g q hq)

theorem PlotsWithin.of_groups {s t : State} (h : t.groups = s.groups) : PlotsWithin s t := fun g q hq => by rwa [groupOf, h] at hq

theorem plotsWithin_removeGroup (s : State) (g : Nat) : PlotsWithin s (removeGroup s g) := by
  have hg : (removeGroup s g).groups = erase s.groups g := by
    unfold removeGroup
    rw [checkLaunch_groups]
    dsimp only
    split <;> rfl
  intro k q hq
  rw [groupOf, hg, lookup_erase] at hq
  split at hq
  · cases hq
  · exact hq

theorem plotsWithin_checkEnding (s : State) (g : Nat) : PlotsWithin s (checkEnding s g) := by
  have same : PlotsWithin s s := .of_groups rfl
  unfold checkEnding
  dsimp only
  split
  · split
    · split
      · exact same
      · intro k q hq
        by_cases hk : k = g
        · subst hk
          rw [groupOf_setGroup] at hq
          exact (List.mem_filter.1 hq).1
        · rwa [groupOf_setGroup_ne _ _ hk] at hq
    · exact plotsWithin_removeGroup s g
  · exact same

/-- What every check of an ENDING group keeps, the passes over all of them keep. -/
theorem checkEndings_keeps {P : State → Prop} (step : ∀ t g, P t → P (checkEnding t g)) {s : State} (hs : P s) : P (checkEndings s) := by
  have pass : ∀ t g, P t → P (match lookup t.groups g with
      | some _ => checkEnding t g
      | none => t) := fun t g ht => by
    cases lookup t.groups g with
    | none => exact ht
    | some _ => exact step t g ht
  unfold checkEndings
  refine List.foldlRecOn (motive := P) _ _ (List.foldlRecOn (motive := P) _ _ hs ?_) ?_ <;> exact fun t ht g _ => pass t g ht

/-- A pass over ENDING groups only takes plots away. -/
theorem plotsWithin_checkEndings (s : State) : PlotsWithin s (checkEndings s) :=
  checkEndings_keeps (P := PlotsWithin s) (fun t g ht => ht.trans (plotsWithin_checkEnding t g)) (.of_groups rfl)

/-- Where no group is ENDING nothing changes. -/
theorem checkEndings_none {s : State} (h : ∀ e ∈ s.groups, e.2.state ≠ .ending) : checkEndings s = s := by
  refine checkEndings_keeps (P := fun t => t = s) (fun t g ht => ?_) rfl
  have hg : (groupOf s g).state ≠ .ending := by
    obtain hm | he := groupOf_mem s g
    · exact h _ hm
    · rw [he]
      decide
  subst ht
  simp [checkEnding, hg]

/-! ### PFREE (R62, R321) -/

theorem findPlot_own {s : State} {g h : Nat} {p : Plot} (hf : findPlot s g h = some (g, p)) : lookup (groupOf s g).plots h = some p := by
  unfold findPlot at hf
  dsimp only at hf
  split at hf
  · next q hq =>
    cases hf
    exact hq
  · obtain ⟨e, he, hm⟩ := Option.bind_eq_some_iff.1 hf
    obtain ⟨q, -, hq⟩ := Option.map_eq_some_iff.1 hm
    have := List.find?_some he
    cases hq
    simp at this

theorem plotFor_own {s : State} {g h : Nat} {p : Plot} (hf : plotFor s g h = .ok (g, p)) : lookup (groupOf s g).plots h = some p := by
  unfold plotFor at hf
  split at hf
  · cases hf
  · split at hf
    · cases hf
    · next e he =>
      cases hf
      exact findPlot_own he

theorem checkPfree_own {s : State} {w : Wave} {h : Nat} {p : Plot} (hc : checkPfree s w h = .ok (w.group, p)) :
    lookup (groupOf s w.group).plots h = some p := by
  unfold checkPfree plotCheck at hc
  cases hf : plotFor s w.group h with
  | error t => simp [hf] at hc
  | ok e =>
    obtain ⟨g, q⟩ := e
    simp only [hf] at hc
    split at hc
    · next a ha =>
      split at ha
      · cases ha
      · cases ha
        cases hc
        exact plotFor_own hf
    · cases hc

/-- The record of a group whose plot `h` is freed (R62). -/
theorem freePlot_groups {s : State} {g h : Nat} {p : Plot} (hp : lookup (groupOf s g).plots h = some p) :
    ∃ z, (freePlot s g h).groups = put s.groups g { groupOf s g with plots := erase (groupOf s g).plots h, zombies := z } ∧ SameMemory s (freePlot s g h) := by
  unfold freePlot
  simp only [hp]
  exact ⟨_, (wavesCores_recheckAll _).groups.trans rfl, (show SameMemory s _ from fun _ => rfl).trans (wavesCores_recheckAll _).same⟩

theorem exec_pfree_ok {nx : BitVec 2} {a : BitVec 6} {s : State} {w : Wave} {e : Nat × Plot} (hw : lookup s.waves s.cur = some w)
    (hc : checkPfree s w (w.sreg a.toNat).toNat = .ok e) :
    exec (.pfree nx a) s = .next (checkEndings (freePlot (setWave s s.cur (w.finish nx)) e.1 (w.sreg a.toNat).toNat)) := by
  show execPfree nx a s = _
  unfold execPfree
  rw [checked_ok hw hc]
  rfl

theorem exec_pfree_error {nx : BitVec 2} {a : BitVec 6} {s : State} {w : Wave} {e : Stop} (hw : lookup s.waves s.cur = some w)
    (hc : checkPfree s w (w.sreg a.toNat).toNat = .error e) : exec (.pfree nx a) s = .next (stopWave s s.cur e false) := by
  show execPfree nx a s = _
  unfold execPfree
  rw [checked_error hw hc]

/-- R62, R321: PFREE takes the plot away, and where no group is ending nothing else of the group's plots. -/
theorem pfree_frees {nx : BitVec 2} {a : BitVec 6} {s : State} {w : Wave} {p : Plot} (hw : lookup s.waves s.cur = some w)
    (hc : checkPfree s w (w.sreg a.toNat).toNat = .ok (w.group, p)) :
    Completes (.pfree nx a) s fun t =>
      (∀ q ∈ (groupOf t w.group).plots, q.1 ≠ (w.sreg a.toNat).toNat) ∧
      ((∀ e ∈ s.groups, e.2.state ≠ .ending) → SameMemory s t ∧
        ∀ k, k ≠ (w.sreg a.toNat).toNat → lookup (groupOf t w.group).plots k = lookup (groupOf s w.group).plots k) := by
  refine ⟨_, exec_pfree_ok hw hc, ?_⟩
  have hp := checkPfree_own hc
  dsimp only
  generalize (w.sreg a.toNat).toNat = h at *
  obtain ⟨z, hg, hm⟩ := freePlot_groups (s := setWave s s.cur (w.finish nx)) hp
  generalize freePlot (setWave s s.cur (w.finish nx)) w.group h = t at *
  have hplots : (groupOf t w.group).plots = erase (groupOf s w.group).plots h := by
    rw [groupOf, hg, lookup_put_self]
    rfl
  refine ⟨fun q hq => ?_, fun hend => ?_⟩
  · have := plotsWithin_checkEndings t _ q hq
    rw [hplots] at this
    simpa [erase] using (List.mem_filter.1 this).2
  · rw [checkEndings_none]
    · exact ⟨hm, fun k hk => by rw [hplots, lookup_erase, if_neg hk]⟩
    · intro e he
      rw [hg] at he
      obtain rfl | he := mem_put he
      · show (groupOf s w.group).state ≠ .ending
        obtain hm | hn := groupOf_mem s w.group
        · exact hend _ hm
        · rw [hn]
          decide
      · exact hend e he

/-- Settles O37: first fit by its search, PALLOC and PFREE by what their checks have found. -/
theorem plotAllocation : Obligations.PlotAllocation := by
  unfold Obligations.PlotAllocation
  refine ⟨fun gr n b => firstFit_lowest, fun nx v a b f s w hw => ⟨fun hc => ?_, fun base hc => ?_, fun e hc => ?_, fun p hc => ?_, fun e hc => ?_⟩⟩
  · exact exec_palloc_ok hw rfl rfl hc
  · exact palloc_makes hw rfl rfl hc
  · exact exec_palloc_error hw rfl rfl hc
  · exact pfree_frees hw hc
  · exact exec_pfree_error hw hc

end Sys2Proof

/-! SUPPORT. Contents of plots (R65-R73, R318-R323): what PST puts and PLD reads, and deliveries into a FILLING plot. -/
namespace Sys2Proof
open Machine

/-! ### Bytes of a plot (R65, R66, R319) -/

theorem cellGet_foldl_cellPut (b : List Byte) (k i : Nat) (m : List Host.Cell) (a : Nat) :
    cellGet ((b.zip (List.range' i b.length)).foldl (fun d e => cellPut d (k + e.2) e.1) m) a =
      if k + i ≤ a ∧ a < k + i + b.length then some (b.getD (a - (k + i)) 0#8) else cellGet m a := by
  induction b generalizing i m with
  | nil => rw [if_neg (by simp)]; rfl
  | cons x t ih =>
    rw [List.length_cons, List.range'_succ, List.zip_cons_cons, List.foldl_cons, ih, cellGet_cellPut]
    by_cases h : k + (i + 1) ≤ a ∧ a < k + (i + 1) + t.length
    · rw [if_pos h, if_pos (by omega), show a - (k + i) = a - (k + (i + 1)) + 1 by omega, List.getD_cons_succ]
    · rw [if_neg h]
      by_cases ha : a = k + i
      · rw [if_pos ha, if_pos (by omega), show a - (k + i) = 0 by omega, List.getD_cons_zero]
      · rw [if_neg ha, if_neg (by omega)]

/-- Bytes put at a place read as put, and every other byte of the plot as before. -/
theorem plotByte_plotPut (p : Plot) (k a : Nat) (b : List Byte) :
    plotByte (plotPut p k b) a = if k ≤ a ∧ a < k + b.length then b.getD (a - k) 0#8 else plotByte p a := by
  have h := cellGet_foldl_cellPut b k 0 p.data a
  rw [← List.range_eq_range', Nat.add_zero] at h
  have read : ∀ q : Plot, plotByte q a =
      (cellGet q.data a).getD (if isTilth q.fmt.toNat && a % 64 == 0 then BitVec.ofNat 8 (tilthCode q.fmt.toNat) else 0#8) := fun q => by
    unfold plotByte
    cases cellGet q.data a <;> rfl
  rw [read, read, show (plotPut p k b).data = (b.zip (List.range b.length)).foldl (fun d e => cellPut d (k + e.2) e.1) p.data from rfl, h]
  split <;> rfl

/-! ### PLD and PST (R323) -/

theorem windowRegs_eq (p : Plot) (d : BitVec 6) :
    windowRegs p d = if p.fmt = 6#4 ∨ p.fmt = 7#4 then [RegName.v d.toNat, .v (d.toNat + 1)] else [.v d.toNat] := by
  have h : isWide p.fmt.toNat = true ↔ p.fmt = 6#4 ∨ p.fmt = 7#4 := by
    simp only [isWide, Bool.or_eq_true, beq_iff_eq, BitVec.toNat_eq]
    rfl
  simp only [windowRegs, h, vQ, vN]

theorem openWindow_eq (w : Wave) (la : BitVec 4) (regs : List RegName) :
    w.openWindow la regs = { w with windows := if la = 0#4 then w.windows else w.windows ++ [⟨la.toNat, regs, w.pc⟩] } := by
  unfold Wave.openWindow
  split <;> rfl

section
variable {nx : BitVec 2} {d a : BitVec 6} {la : BitVec 4} {s : State} {w : Wave} (hw : lookup s.waves s.cur = some w)
include hw

theorem exec_pld_ok {g : Nat} {p : Plot}
    (hc : checkWindow s w d.toNat (plotRef (w.sreg a.toNat) (w.sreg (a.toNat + 1))) checkRead = .ok (g, p)) :
    let r := plotRef (w.sreg a.toNat) (w.sreg (a.toNat + 1))
    exec (.pld nx d a la) s = .next (acceptRead (setWave { s with uid := s.uid + 1 } s.cur
      (((w.openWindow la (windowRegs p d)).addResult s.uid (windowRegs p d) (pldWrites w p r d.toNat)).finish nx)) g r.handle false .pld) := by
  show execPld nx d a la s = _
  unfold execPld
  rw [checked_ok hw hc]
  rfl

theorem exec_pld_error {e : Stop}
    (hc : checkWindow s w d.toNat (plotRef (w.sreg a.toNat) (w.sreg (a.toNat + 1))) checkRead = .error e) :
    exec (.pld nx d a la) s = .next (stopWave s s.cur e false) := by
  show execPld nx d a la s = _
  unfold execPld
  rw [checked_error hw hc]

/-- R72, R323: what PST puts is in the plot at once; a FILLING plot is credited with it, and it is delivered. -/
theorem exec_pst_ok {g : Nat} {p : Plot} (hc : checkPst s w d.toNat (plotRef (w.sreg a.toNat) (w.sreg (a.toNat + 1))) = .ok (g, p)) :
    let r := plotRef (w.sreg a.toNat) (w.sreg (a.toNat + 1))
    let n := (pstBytes w p r d.toNat).2
    let q := (pstBytes w p r d.toNat).1.foldl (fun q c => plotPut q c.1 c.2) p
    let t := setWave s s.cur ((w.openWindow la (windowRegs p d)).finish nx)
    exec (.pst nx d a la) s = .next (
      if q.state = 1#2 ∧ 0 < n then deliver (setPlot t g r.handle { q with issued := q.issued + n }) g r.handle n else setPlot t g r.handle q) := by
  show execPst nx d a la s = _
  unfold execPst
  rw [checked_ok hw hc]
  simp only [gt_iff_lt, Bool.and_eq_true, decide_eq_true_eq]
  rfl

theorem exec_pst_error {e : Stop} (hc : checkPst s w d.toNat (plotRef (w.sreg a.toNat) (w.sreg (a.toNat + 1))) = .error e) :
    exec (.pst nx d a la) s = .next (stopWave s s.cur e false) := by
  show execPst nx d a la s = _
  unfold execPst
  rw [checked_error hw hc]

end

/-! ### Deliveries (R72, R73) -/

/-- A delivery into a FILLING plot: ARRIVED grows, and the plot is FULL once it has reached the quota. -/
def delivered (p : Plot) (n : Nat) : Plot := { p with arrived := p.arrived + n, state := if p.arrived + n = p.quota then 2#2 else 1#2 }

theorem plot_deliver {s : State} {g h n : Nat} {p : Plot} (hp : lookup (groupOf s g).plots h = some p) (hs : p.state = 1#2) :
    lookup (groupOf (deliver s g h n) g).plots h = some (delivered p n) := by
  unfold deliver delivered
  simp only [hp, hs, ne_eq, not_true, if_false]
  split
  · rw [(wavesCores_postPlotFull ..).groupOf, plot_setPlot]
  · rw [plot_setPlot, ← hs]

/-- Settles O39: PLD and PST by what their checks have found, the plot's bytes by those put, a delivery by what it leaves of the plot. -/
theorem plotContents : Obligations.PlotContents := by
  unfold Obligations.PlotContents
  refine ⟨fun nx d a la s w hw => ⟨fun g p hc => ?_, fun e hc => exec_pld_error hw hc, fun g p hc => ?_, fun e hc => exec_pst_error hw hc⟩,
    fun p k a b => ⟨plotByte_plotPut p k a b, rfl, rfl, rfl⟩, fun s g h n p hp hs => ⟨_, plot_deliver hp hs, rfl, rfl, rfl, rfl⟩⟩
  · dsimp only
    rw [exec_pld_ok hw hc, openWindow_eq, ← windowRegs_eq]
    rfl
  · dsimp only
    rw [exec_pst_ok hw hc, openWindow_eq, ← windowRegs_eq]

end Sys2Proof

/-! SUPPORT. Copies at issue (R324-R330): what acceptance leaves, for copies into plots and out of them. -/
namespace Sys2Proof
open Machine

/-! ### What a quiet core has to perform -/

theorem drainPath_quiet {s : State} {c : Nat} (h : CoreQuiet s c) : drainPath s c = s := by
  obtain ⟨hpath, hearly⟩ := h
  simp only [drainPath, settleSeen, hpath, List.length_nil, performMany, hearly, List.map_nil, List.foldl_nil]

/-- `t` is `s` but for the cores and the dies' queues. -/
def CoresDies (s t : State) : Prop := ∃ c d, t = { s with cores := c, dies := d }

/-- R302: a transfer registers at a barrier's unit; of its core the copy of the object's line goes. -/
theorem coresDies_registerBar {s : State} {c : Nat} (h : CoreQuiet s c) (bar : Option Place) : CoresDies s (registerBar s c bar) := by
  obtain ⟨hpath, hearly⟩ := h
  cases bar with
  | none => exact ⟨_, _, rfl⟩
  | some p =>
    have hr : reachLine s c p.key = dropLine s c (lineOf p.key) := by
      simp only [reachLine, settleEarly, hearly, lookup]
      rw [drainWay_quiet s c _ (by simp [hpath])]
    simp only [registerBar, hr, dropLine]
    split <;> exact ⟨_, _, rfl⟩

/-! ### Copies into plots (R324, R326) -/

theorem finishPlan_ok {s : State} {w : Wave} {c : CopyArgs} {t : Nat → Transfer} {l : List (Nat × Plot)} {n : Nat} {aligned : Bool} {p : CopyPlan}
    (h : finishPlan s w c t l n aligned = .ok p) : (∃ e, p.xfer = t e) ∧ p.targets = l := by
  unfold finishPlan at h
  split at h
  · cases h
  · split at h
    · cases h
    · split at h
      · cases h
      · cases h
        exact ⟨⟨_, rfl⟩, rfl⟩

/-- The transfer of an accepted copy holds the instruction's operands as they stand. -/
theorem checkCopy_xfer {s : State} {u : Nat} {w : Wave} {c : CopyArgs} {p : CopyPlan} (h : checkCopy s u w c = .ok p) :
    ∃ e plots fmt rows, p.xfer = { copyOf s u w c e plots fmt [] with rows } := by
  unfold checkCopy at h
  split at h
  · cases h
  · dsimp only at h
    split at h
    · cases h
    · split at h <;> obtain ⟨⟨e, he⟩, -⟩ := finishPlan_ok h
      · exact ⟨e, [], 0, 0, he⟩
      · exact ⟨e, _, _, _, he⟩

theorem groupCore_setPlot (s : State) (g h : Nat) (p : Plot) (k : Nat) : (groupOf (setPlot s g h p) k).core = (groupOf s k).core := by
  by_cases hk : k = g
  · rw [hk, groupOf_setPlot]
  · exact congrArg Group.core (groupOf_setGroup_ne s _ hk)

/-- Credit changes the groups' plots alone: every group stays on its core. -/
theorem creditPlots_frame (h n : Nat) (l : List (Nat × Plot)) (s : State) :
    ∃ g, l.foldl (fun s q => creditPlot s q.1 h n) s = { s with groups := g } ∧ ∀ k, (groupOf { s with groups := g } k).core = (groupOf s k).core :=
  List.foldlRecOn (motive := fun t => ∃ g, t = { s with groups := g } ∧ ∀ k, (groupOf { s with groups := g } k).core = (groupOf s k).core) l _
    ⟨_, rfl, fun _ => rfl⟩ fun t ⟨g, ht, hk⟩ q _ => by
    subst ht
    unfold creditPlot
    split
    · exact ⟨_, rfl, hk⟩
    · exact ⟨_, rfl, fun k => (groupCore_setPlot ..).trans (hk k)⟩

theorem plot_creditPlot {s : State} {g h n : Nat} {q : Plot} (hq : lookup (groupOf s g).plots h = some q) :
    lookup (groupOf (creditPlot s g h n) g).plots h = some { q with issued := q.issued + n } := by
  simp only [creditPlot, hq, plot_setPlot]

theorem copyInto_ok {s : State} {nx : BitVec 2} {c : CopyArgs} {w : Wave} {p : CopyPlan} (hw : lookup s.waves s.cur = some w)
    (hq : CoreQuiet s (coreNo s w)) (hc : checkCopy s s.cur w c = .ok p) (hm : totalBytes p.xfer ≠ 0) :
    let h := (refOf w c.d).handle
    ∃ t, copyInto s nx c = .next t ∧ SameMemory s t ∧
      waveOf t s.cur = (Wave.next { w with ctr := { w.ctr with copyb := w.ctr.copyb + BitVec.ofNat 64 (p.n * p.targets.length) } } nx).complete 1#8
        (h % 64) ∧
      lookup t.transfers s.uid = some p.xfer ∧
      ∀ g q, p.targets = [(g, q)] → lookup (groupOf s g).plots h = some q →
        lookup (groupOf t g).plots h = some { q with issued := q.issued + p.n } := by
  intro h
  have hmb : (totalBytes p.xfer != 0) = true := by simpa using hm
  let w' : Wave := Wave.finishAs (countCredit w (p.n * p.targets.length)) nx 1#8 (h % 64)
  let s1 := setWave s s.cur w'
  obtain ⟨gs, hgs, hcore⟩ := creditPlots_frame h p.n p.targets s1
  have hq1 : CoreQuiet { s1 with groups := gs } (coreNo s w) := hq
  obtain ⟨cs, ds, hr⟩ := coresDies_registerBar hq1 p.bar
  have ht : copyInto s nx c = .next { s1 with groups := gs, cores := cs, dies := ds, uid := s.uid + 1, transfers := put s.transfers s.uid p.xfer } := by
    unfold copyInto
    rw [checked_ok hw hc, acceptCopy, drainPath_quiet hq, waveOf_of_lookup hw]
    simp only [hmb, if_true]
    have hcredit : (p.targets.foldl (fun s q => creditPlot s q.1 (refOf w c.d).handle p.n)
        (setWave s s.cur ((countCredit w (p.n * p.targets.length)).finishAs nx 1#8 ((refOf w c.d).handle % 64)))) = { s1 with groups := gs } := hgs
    rw [hcredit, show coreNo { s1 with groups := gs } (countCredit w (p.n * p.targets.length)) = coreNo s w from hcore _, hr]
    rfl
  refine ⟨_, ht, fun _ => rfl, ?_, lookup_put_self .., fun g q hl hp => ?_⟩
  · exact waveOf_setWave s s.cur w'
  · rw [hl] at hgs
    have hcr := plot_creditPlot (s := s1) (n := p.n) hp
    rw [show creditPlot s1 g h p.n = { s1 with groups := gs } from hgs] at hcr
    exact hcr

theorem copyInto_error {s : State} {nx : BitVec 2} {c : CopyArgs} {w : Wave} {e : Stop} (hw : lookup s.waves s.cur = some w)
    (hc : checkCopy s s.cur w c = .error e) : copyInto s nx c = .next (stopWave s s.cur e false) := by
  unfold copyInto
  rw [checked_error hw hc]

/-- R324: what the transfer of a copy takes of its wave. -/
theorem copyOf_takes (s : State) (u : Nat) (w : Wave) (c : CopyArgs) (e : Nat) (plots : List (Nat × Nat)) (fmt rows : Nat) :
    let x : Transfer := { copyOf s u w c e plots fmt [] with rows }
    x.bara = (if c.bar then w.cbar else 0#64) ∧ (c.op ≠ .cpy → x.opnd = w.sreg c.b.toNat) ∧
      (c.op = .cpy → x.lanes = w.active ∧ ∀ i, i < 32 → w.active.getLsbD i = true → x.rowoff[i]? = some (w.lane c.b.toNat i)) := by
  refine ⟨rfl, fun h => ?_, fun h => ⟨?_, fun i hi ha => ?_⟩⟩
  · simp [copyOf, h]
  · simp [copyOf, h]
  · simp [copyOf, h, hi, ha]

/-- R324-R326: a copy into plots at issue. -/
theorem copyInto_issues {s : State} {w : Wave} (hw : lookup s.waves s.cur = some w) (hq : CoreQuiet s (coreNo s w)) (nx : BitVec 2) (d a b : BitVec 6)
    (c : BitVec 1) (op : XferOp) :
    let r := plotRef (w.sreg d.toNat) (w.sreg (d.toNat + 1))
    let args : CopyArgs := ⟨op, c ++ 0#3, d, a, b, c == 1#1⟩
    (∀ p, checkCopy s s.cur w args = .ok p → totalBytes p.xfer ≠ 0 → ∃ t, copyInto s nx args = .next t ∧ SameMemory s t ∧
      waveOf t s.cur = (Wave.next { w with ctr := { w.ctr with copyb := w.ctr.copyb + BitVec.ofNat 64 (p.n * p.targets.length) } } nx).complete 1#8
        (r.handle % 64) ∧
      (∃ x, lookup t.transfers s.uid = some x ∧ x.op = op ∧ x.wave = s.cur ∧ x.ctag = w.ctag ∧ x.base = w.sreg a.toNat ∧ x.ref0 = w.sreg d.toNat ∧
        x.ref1 = w.sreg (d.toNat + 1) ∧ x.bara = (if c = 1#1 then w.cbar else 0#64) ∧ x.done = 0 ∧
        (op ≠ .cpy → x.opnd = w.sreg b.toNat) ∧
        (op = .cpy → x.lanes = w.active ∧ ∀ i, i < 32 → w.active.getLsbD i = true → x.rowoff[i]? = some (w.lane b.toNat i))) ∧
      ∀ g q, p.targets = [(g, q)] → lookup (groupOf s g).plots r.handle = some q →
        lookup (groupOf t g).plots r.handle = some { q with issued := q.issued + p.n }) ∧
    ∀ e, checkCopy s s.cur w args = .error e → copyInto s nx args = .next (stopWave s s.cur e false) := by
  refine ⟨fun p hc hm => ?_, fun e hc => copyInto_error hw hc⟩
  obtain ⟨t, ht, hsame, hwave, hx, hcredit⟩ := copyInto_ok (nx := nx) hw hq hc hm
  obtain ⟨e, plots, fmt, rows, hxf⟩ := checkCopy_xfer hc
  obtain ⟨hbara, hopnd, hlanes⟩ := copyOf_takes s s.cur w ⟨op, c ++ 0#3, d, a, b, c == 1#1⟩ e plots fmt rows
  refine ⟨t, ht, hsame, hwave, ⟨p.xfer, hx, ?_⟩, hcredit⟩
  rw [hxf]
  refine ⟨rfl, rfl, rfl, rfl, rfl, rfl, ?_, rfl, hopnd, hlanes⟩
  rw [hbara]
  simp only [beq_iff_eq]

/-- The SUB field of a copy into plots. -/
theorem copySub_into (c : BitVec 1) : copySub c 0#1 = c ++ 0#3 := by
  revert c
  decide

/-- Settles O40: each of the four copies by what a copy into plots does at issue. -/
theorem copiesIntoPlots : Obligations.CopiesIntoPlots := by
  unfold Obligations.CopiesIntoPlots
  intro nx d a b c s w hw hq r into
  have issue := copyInto_issues hw hq nx d a b c
  have hcpy : exec (.cpy nx d a b c) s = copyInto s nx ⟨.cpy, c ++ 0#3, d, a, b, c == 1#1⟩ := by rw [← copySub_into]; rfl
  have hcpyt : exec (.cpyt nx d a b c) s = copyInto s nx ⟨.cpyt, c ++ 0#3, d, a, b, c == 1#1⟩ := by rw [← copySub_into]; rfl
  have hcpyim : exec (.cpyim nx d a b c) s = copyInto s nx ⟨.cpyim, c ++ 0#3, d, a, b, c == 1#1⟩ := by rw [← copySub_into]; rfl
  have hcpym : exec (.cpym nx d a b c) s = copyInto s nx ⟨.cpym, c ++ 0#3, d, a, b, c == 1#1⟩ := by rw [← copySub_into]; rfl
  rw [hcpy, hcpyt, hcpyim, hcpym]
  exact ⟨issue .cpy, issue .cpyt, issue .cpyim, issue .cpym⟩

/-! ### Copies out of plots (R325, R70) -/

theorem checkCopyOut_ok {s : State} {u : Nat} {w : Wave} {c : CopyArgs} {p : CopyPlan} (h : checkCopyOut s u w c = .ok p) :
    ∃ e g q, p.targets = [(g, q)] ∧
      p.xfer = copyOf s u w c e [(g, (refOf w c.d).handle)] q.fmt.toNat (windowImage q (refOf w c.d)) := by
  unfold checkCopyOut at h
  dsimp only at h
  split at h
  · cases h
  · next g q _ =>
    obtain ⟨⟨e, he⟩, hl⟩ := finishPlan_ok h
    exact ⟨e, g, q, hl, he⟩

/-- R70: an accepted read is in flight, and a FULL plot that it releases drains. -/
theorem acceptRead_plot {s : State} {g h : Nat} {rel : Bool} {a : Access} {q : Plot} (hq : lookup (groupOf s g).plots h = some q) :
    acceptRead s g h rel a = setPlot s g h { q with state := if rel && q.state = 2#2 then 3#2 else q.state, access := q.access ++ [a] } := by
  simp only [acceptRead, hq]

section
variable {nx : BitVec 2} {d a b : BitVec 6} {c rel : BitVec 1} {s : State} {w : Wave} (hw : lookup s.waves s.cur = some w)
include hw

theorem cpyout_issues {p : CopyPlan} {g : Nat} {q : Plot} (hq : CoreQuiet s (coreNo s w))
    (hc : checkCopyOut s s.cur w ⟨.cpyout, c ++ 0#2 ++ rel, d, a, b, c == 1#1⟩ = .ok p) (ht : p.targets = [(g, q)])
    (hp : lookup (groupOf s g).plots (plotRef (w.sreg d.toNat) (w.sreg (d.toNat + 1))).handle = some q) (hm : totalBytes p.xfer ≠ 0) :
    let r := plotRef (w.sreg d.toNat) (w.sreg (d.toNat + 1))
    Completes (.cpyout nx d a b c rel) s fun t => SameMemory s t ∧ waveOf t s.cur = (w.next nx).complete 1#8 (r.handle % 64) ∧
      (∃ x, lookup t.transfers s.uid = some x ∧ x.op = .cpyout ∧ x.base = w.sreg a.toNat ∧ x.opnd = w.sreg b.toNat ∧ x.done = 0 ∧
        x.image = windowBytes q r.row0 r.col0 r.nrows r.ncols ∧ x.bara = (if c = 1#1 then w.cbar else 0#64)) ∧
      lookup (groupOf t g).plots r.handle =
        some { q with state := if rel = 1#1 ∧ q.state = 2#2 then 3#2 else q.state, access := q.access ++ [.xfer s.uid] } := by
  intro r
  obtain ⟨e, g', q', ht', hx⟩ := checkCopyOut_ok hc
  obtain ⟨rfl, rfl⟩ : g = g' ∧ q = q' := by simpa using ht.symm.trans ht'
  have hmb : (totalBytes p.xfer != 0) = true := by simpa using hm
  let s1 := setWave s s.cur ((w.next nx).complete 1#8 (r.handle % 64))
  let k : Plot := { q with state := if rel = 1#1 ∧ q.state = 2#2 then 3#2 else q.state, access := q.access ++ [.xfer s.uid] }
  have hread : acceptRead s1 g r.handle (rel == 1#1) (.xfer s.uid) = setPlot s1 g r.handle k := by
    rw [acceptRead_plot (s := s1) hp]
    simp only [Bool.and_eq_true, beq_iff_eq, decide_eq_true_eq, k, r]
  have hq1 : CoreQuiet (setPlot s1 g r.handle k) (coreNo s w) := hq
  obtain ⟨cs, ds, hr⟩ := coresDies_registerBar hq1 p.bar
  have hexec : exec (.cpyout nx d a b c rel) s =
      .next { setPlot s1 g r.handle k with cores := cs, dies := ds, uid := s.uid + 1, transfers := put s.transfers s.uid p.xfer } := by
    show execCpyout nx d a b c rel s = _
    unfold execCpyout
    dsimp only
    rw [checked_ok hw hc]
    simp only [ht, List.foldl_cons, List.foldl_nil, drainPath_quiet hq, waveOf_of_lookup hw, hmb]
    show Host.Outcome.next (startTransfer (registerBar (acceptRead s1 g r.handle (rel == 1#1) (.xfer s.uid))
      (coreNo (acceptRead s1 g r.handle (rel == 1#1) (.xfer s.uid)) w) p.bar) p.xfer true) = _
    rw [hread, show coreNo (setPlot s1 g r.handle k) w = coreNo s w from groupCore_setPlot .., hr]
    rfl
  refine ⟨_, hexec, fun _ => rfl, waveOf_setWave s s.cur _, ⟨p.xfer, lookup_put_self .., ?_⟩, plot_setPlot s1 g r.handle k⟩
  rw [hx]
  refine ⟨rfl, rfl, rfl, rfl, rfl, ?_⟩
  show (if (c == 1#1) = true then w.cbar else 0#64) = _
  simp only [beq_iff_eq]

theorem cpyout_refused {e : Stop} (hc : checkCopyOut s s.cur w ⟨.cpyout, c ++ 0#2 ++ rel, d, a, b, c == 1#1⟩ = .error e) :
    exec (.cpyout nx d a b c rel) s = .next (stopWave s s.cur e false) := by
  show execCpyout nx d a b c rel s = _
  unfold execCpyout
  dsimp only
  rw [checked_error hw hc]

/-- R330: CPYBAR answers and clears COPYERR, and names the object that counts later copies. -/
theorem cpybar_answers (h : w.sreg a.toNat = 0#64 ∨ ∃ p, checkBarrier s w (w.sreg a.toNat).toNat true = .ok p) :
    exec (.cpybar nx d a) s = .next (setWave s s.cur (Wave.finish { w.setS d.toNat (w.copyErr.setWidth 64) with
      copyErr := 0#8, cbar := w.sreg a.toNat } nx)) := by
  have hc : checkCpybar s w (w.sreg a.toNat) = .ok () := by
    unfold checkCpybar
    obtain h | ⟨p, hp⟩ := h
    · rw [if_pos h]
    · simp only [hp, ite_self]
  show execCpybar nx d a s = _
  unfold execCpybar
  rw [checked_ok hw hc]

end

/-- Settles O41: CPYOUT and CPYBAR by what their checks have found. -/
theorem copiesOutOfPlots : Obligations.CopiesOutOfPlots := by
  unfold Obligations.CopiesOutOfPlots
  intro nx d a b c rel s w hw hq r check
  exact ⟨fun p g q hc ht hp hm => cpyout_issues hw hq hc ht hp hm, fun e hc => cpyout_refused hw hc, cpybar_answers hw⟩

end Sys2Proof

/-! SUPPORT. Pieces of transfers (R128, R146, R325, R447) and the ends of plot accesses (R70, R81): the blocks and bytes of a piece, what writing and
reading it leaves, and the statement about them. -/
namespace Sys2Proof
open Machine

/-! ### How far a piece reaches (R128, R447) -/

theorem le_length_takeWhile_range {p : Nat → Bool} {m n : Nat} (hm : m ≤ n) (hp : ∀ i, i < m → p i = true) :
    m ≤ ((List.range n).takeWhile p).length := by
  obtain ⟨k, rfl⟩ := Nat.exists_eq_add_of_le hm
  rw [List.range_add, List.takeWhile_append_of_pos (by simpa using hp), List.length_append, List.length_range]
  exact Nat.le_add_right _ _

theorem length_takeWhile_range_le {p : Nat → Bool} {m n : Nat} (hp : p m = false) : ((List.range n).takeWhile p).length ≤ m := by
  by_contra hlt
  have hall := List.all_takeWhile (p := p) (l := List.range n)
  have hpre := (List.takeWhile_prefix p (l := List.range n)).getElem (i := m) (by omega)
  rw [List.getElem_range] at hpre
  have := List.all_eq_true.1 hall _ (List.getElem_mem (by omega : m < _))
  rw [hpre, hp] at this
  cases this

section
variable {t : Transfer} (ho : t.op = .cpyout)
include ho

theorem outShape_cpyout : outShape t = (t.rows, t.rowBytes) := by simp [outShape, ho]
theorem outBase_cpyout : outBase t = (t.base, sext32 t.opnd.toNat) := by simp [outBase, ho]
theorem totalBytes_cpyout : totalBytes t = t.rows * t.rowBytes := by simp [totalBytes, movedRows, ho]

/-- Table 12.3: where a byte of CPYOUT goes. -/
theorem outAddr_cpyout (i : Nat) : outAddr t i =
    t.base + BitVec.ofNat 64 (i / t.rowBytes) * (BitVec.ofNat 32 t.opnd.toNat).signExtend 64 + BitVec.ofNat 64 (i % t.rowBytes) := by
  rw [outAddr, outShape_cpyout ho, outBase_cpyout ho]
  rfl

/-- Bytes of one row follow one another. -/
theorem outAddr_row {i j : Nat} (h : i % t.rowBytes + j < t.rowBytes) : outAddr t (i + j) = outAddr t i + BitVec.ofNat 64 j := by
  have hd : (i + j) / t.rowBytes = i / t.rowBytes := by
    conv_lhs => rw [← Nat.div_add_mod i t.rowBytes, Nat.add_assoc, Nat.mul_add_div (Nat.zero_lt_of_lt h), Nat.div_eq_of_lt h, Nat.add_zero]
  have hm : (i + j) % t.rowBytes = i % t.rowBytes + j := by
    conv_lhs => rw [← Nat.div_add_mod i t.rowBytes, Nat.add_assoc, Nat.mul_add_mod, Nat.mod_eq_of_lt h]
  rw [outAddr_cpyout ho, outAddr_cpyout ho, hd, hm, BitVec.ofNat_add, BitVec.add_assoc, BitVec.add_assoc, BitVec.add_assoc]

/-- Bytes of one row in one block: their addresses as numbers. -/
theorem outAddr_block {j : Nat} (h : t.done % t.rowBytes + j < t.rowBytes) (hb : (outAddr t t.done).toNat % 64 + j < 64) :
    (outAddr t (t.done + j)).toNat = (outAddr t t.done).toNat + j := by
  have := (outAddr t t.done).isLt
  rw [outAddr_row ho h, BitVec.toNat_add, BitVec.toNat_ofNat]
  omega

/-- R128, R447: a piece of CPYOUT holds what its row puts into the block, and ends with it where the row goes on. -/
theorem pieceLen_cpyout {s : State} (h0 : 0 < t.rowBytes) (hd : t.done < totalBytes t) (hs : steady t = true)
    (hp : ∀ p, engineAt s t (outAddr t t.done) true = .ok p → leafSC p.leaf = false) :
    let m := min (t.rowBytes - t.done % t.rowBytes) (64 - (outAddr t t.done).toNat % 64)
    m ≤ pieceLen s t ∧ (t.done % t.rowBytes + m < t.rowBytes → pieceLen s t = m) := by
  intro m
  let stays := fun (i : Nat) => (outAddr t (t.done + i)).toNat / 64 == (outAddr t t.done).toNat / 64
  have hn : pieceLen s t = ((List.range (min 64 (totalBytes t - t.done))).takeWhile stays).length := by
    unfold pieceLen
    dsimp only
    rw [if_pos]
    simp only [hs, Bool.true_and, Bool.not_eq_true', Bool.and_eq_false_iff]
    right
    split
    · next p he => exact hp p he
    · rfl
  have hrow := Nat.mod_lt t.done h0
  have hrest : t.rowBytes - t.done % t.rowBytes ≤ totalBytes t - t.done := by
    rw [totalBytes_cpyout ho] at hd ⊢
    have hdm := Nat.div_add_mod t.done t.rowBytes
    have hlt : t.done / t.rowBytes + 1 ≤ t.rows := Nat.div_lt_of_lt_mul (by rwa [Nat.mul_comm])
    have := Nat.mul_le_mul_right t.rowBytes hlt
    rw [Nat.add_mul, Nat.one_mul, Nat.mul_comm] at this
    omega
  have hstays : ∀ i, i < m → stays i = true := fun i hi => by
    simp only [stays, beq_iff_eq]
    rw [outAddr_block ho (by omega) (by omega)]
    omega
  have hle : m ≤ pieceLen s t := by
    rw [hn]
    exact le_length_takeWhile_range (by omega) hstays
  refine ⟨hle, fun hmore => Nat.le_antisymm ?_ hle⟩
  have hleaves : stays m = false := by
    have := (outAddr t t.done).isLt
    simp only [stays, beq_eq_false_iff_ne]
    rw [outAddr_row ho hmore, BitVec.toNat_add, BitVec.toNat_ofNat]
    omega
  rw [hn]
  exact length_takeWhile_range_le hleaves

end

/-! ### The block of a piece (R128, R146) -/

theorem find?_eq_some_of_unique {α : Type} {l : List α} {p : α → Bool} {e : α} (he : e ∈ l) (hp : p e = true) (hu : ∀ x ∈ l, p x = true → x = e) :
    l.find? p = some e := by
  cases h : l.find? p with
  | none => exact absurd hp (List.find?_eq_none.1 h e he)
  | some x => rw [hu x (List.mem_of_find?_eq_some h) (List.find?_some h)]

/-- Bytes with addresses that follow one another, as a transfer puts them. -/
def rowCells (a : Nat) (b : List Byte) : OutCells := (((List.range b.length).zip b).map fun e => (a + e.1, e.2)).reverse

theorem mem_rowCells {a : Nat} {b : List Byte} {e : Nat × Byte} : e ∈ rowCells a b ↔ ∃ i, ∃ h : i < b.length, e = (a + i, b[i]) := by
  rw [rowCells, List.mem_reverse, List.mem_map]
  constructor
  · rintro ⟨x, hx, rfl⟩
    obtain ⟨i, hi, rfl⟩ := List.mem_iff_getElem.1 hx
    have hi : i < b.length := by simpa using hi
    exact ⟨i, hi, by rw [List.getElem_zip, List.getElem_range]⟩
  · rintro ⟨i, hi, rfl⟩
    exact ⟨(i, b[i]), List.mem_iff_getElem.2 ⟨i, by simpa using hi, by rw [List.getElem_zip, List.getElem_range]⟩, rfl⟩

theorem find?_rowCells {a k : Nat} {b : List Byte} :
    ((rowCells a b).find? fun e => e.1 == k).map (·.2) = if h : a ≤ k ∧ k < a + b.length then some (b[k - a]'(by omega)) else none := by
  split
  · next h =>
    rw [find?_eq_some_of_unique (e := (k, b[k - a]'(by omega)))]
    · rfl
    · exact mem_rowCells.2 ⟨k - a, by omega, by rw [Nat.add_sub_cancel' h.1]⟩
    · exact beq_self_eq_true k
    · intro x hx hk
      obtain ⟨i, hi, rfl⟩ := mem_rowCells.1 hx
      obtain rfl : a + i = k := by simpa using hk
      simp
  · next h =>
    rw [Option.map_eq_none_iff, List.find?_eq_none]
    intro x hx hk
    obtain ⟨i, hi, rfl⟩ := mem_rowCells.1 hx
    have : a + i = k := by simpa using hk
    omega

section
variable {a : Nat} {b : List Byte} (h0 : b ≠ []) (hb : a % 64 + b.length ≤ 64)
include h0 hb

theorem outBlocks_rowCells : outBlocks (rowCells a b) = [a / 64] := by
  have hpos := List.length_pos_iff.2 h0
  have hl : (rowCells a b).map (fun e => e.1 / 64) = List.replicate b.length (a / 64) := by
    rw [List.eq_replicate_iff]
    refine ⟨by simp [rowCells], fun x hx => ?_⟩
    obtain ⟨e, he, rfl⟩ := List.mem_map.1 hx
    obtain ⟨i, hi, rfl⟩ := mem_rowCells.1 he
    dsimp only
    omega
  rw [outBlocks, hl, List.replicate_dedup (by omega)]
  rfl

/-- The mask of a block that holds all of a row's bytes: these bytes and no gap. -/
theorem outMask_rowCells : outMask (rowCells a b) (a / 64) = (a % 64, b.map some) := by
  have hall : ((List.range 64).map fun i => ((rowCells a b).find? fun e => e.1 == 64 * (a / 64) + i).map (·.2)) =
      List.replicate (a % 64) none ++ (b.map some ++ List.replicate (64 - a % 64 - b.length) none) := by
    apply List.ext_getElem
    · simp only [List.length_map, List.length_range, List.length_append, List.length_replicate]
      omega
    · intro i hi _
      rw [List.length_map, List.length_range] at hi
      rw [List.getElem_map, List.getElem_range, find?_rowCells]
      by_cases h1 : i < a % 64
      · rw [dif_neg (by omega), List.getElem_append_left (by simpa using h1), List.getElem_replicate]
      · rw [List.getElem_append_right (by simpa using h1)]
        simp only [List.length_replicate]
        by_cases h2 : i - a % 64 < b.length
        · rw [dif_pos (by omega), List.getElem_append_left (by simpa using h2), List.getElem_map]
          congr 2
          omega
        · rw [dif_neg (by omega), List.getElem_append_right (by simpa using h2), List.getElem_replicate]
  have hidx : (List.replicate (a % 64) none ++ (b.map some ++ List.replicate (64 - a % 64 - b.length) none)).findIdx (Option.isSome (α := Byte)) = a % 64 := by
    obtain ⟨x, t, rfl⟩ := List.exists_cons_of_ne_nil h0
    rw [List.findIdx_append, if_neg]
    · simp [List.findIdx_cons]
    · rw [List.findIdx_eq_length_of_false (by simp), List.length_replicate]
      exact Nat.lt_irrefl _
  have hdrop : ((b.map some ++ List.replicate (64 - a % 64 - b.length) none).reverse.dropWhile Option.isNone).reverse = b.map some := by
    obtain ⟨t, x, rfl⟩ := (List.eq_nil_or_concat' b).resolve_left h0
    rw [List.reverse_append, List.reverse_replicate, List.dropWhile_append_of_pos (by simp)]
    simp
  simp only [outMask, hall, hidx, List.drop_left' (List.length_replicate ..), hdrop]

end

/-- Bytes without a gap are one run. -/
theorem maskRuns_some (i : Nat) {b : List Byte} (h0 : b ≠ []) : maskRuns i (b.map some) = [(i, b)] := by
  induction b generalizing i with
  | nil => exact absurd rfl h0
  | cons x t ih =>
    cases t with
    | nil => rfl
    | cons y r =>
      rw [List.map_cons, maskRuns, ih (i + 1) (by simp)]
      simp

/-! ### Writing and reading a block (R114, R128) -/

theorem viaDie_same (s : State) (die k n : Nat) (wr : Bool) : SliceOnly s (viaDie s die k n wr) ∧ SameMemory s (viaDie s die k n wr) :=
  List.foldlRecOn (motive := fun t => SliceOnly s t ∧ SameMemory s t) _ _ ⟨.refl s, .refl s⟩ fun _ ⟨ho, hm⟩ _ _ =>
    ⟨ho.trans (sliceOnly_seekLine ..), hm.trans (physByte_congr (seekLine_mem ..) (seekLine_l2 ..))⟩

protected theorem SliceOnly.transfers {s t : State} (h : SliceOnly s t) : t.transfers = s.transfers := h.congr State.transfers fun _ _ _ _ _ => rfl

section
variable {s : State} {x : Nat} {t : Transfer} {p : Place} (hx : lookup s.transfers x = some t) (hpeer : t.peer = []) (hloc : p.loc ≠ 2)

include hpeer in
theorem sentFor_none (kind va : Nat) : sentFor t kind va = none := by simp [sentFor, hpeer]

include hx in
theorem xferOf_self (t' : Transfer) : xferOf s x t' = t := by simp [xferOf, hx]

include hx hpeer hloc

/-- R128: bytes that follow one another in one block, on a page of this device, are one access. -/
theorem writeCells_rowCells {va : DWord} {b : List Byte} (h0 : b ≠ []) (hb : va.toNat % 64 + b.length ≤ 64) (he : engineAt s t va true = .ok p)
    (hk : UnderKey s p.kid p.key b.length) (hs : s.snaps = []) :
    ∃ u, writeCells s x t (rowCells va.toNat b) = (u, .ok ()) ∧ SliceOnly s u ∧ Written s u p.key b := by
  have hva : BitVec.ofNat 64 (64 * (va.toNat / 64) + va.toNat % 64) = va := by rw [Nat.div_add_mod, BitVec.ofNat_toNat, BitVec.setWidth_eq]
  have hfar : blockFar s t va = .ok false := by
    simp only [blockFar, sentFor_none hpeer, he, Except.map]
    simp [hloc]
  let u := viaDie (agentWrite s p.kid (p.key + 0) b) (engineDie t) p.key (b.map some).length true
  have hwrite : writeBlock s x t va (b.map some) = (u, .ok ()) := by
    simp only [writeBlock, sentFor_none hpeer, he, if_neg hloc, maskRuns_some 0 h0]
    rfl
  obtain ⟨hov, hmv⟩ := viaDie_same (agentWrite s p.kid (p.key + 0) b) (engineDie t) p.key (b.map some).length true
  have hto : ∀ far, writeBlocks s x t (rowCells va.toNat b) far [va.toNat / 64] = (if far then s else u, .ok ()) := fun far => by
    simp only [writeBlocks, outMask_rowCells h0 hb, hva, xferOf_self hx, hfar, hwrite]
    cases far <;> rfl
  refine ⟨u, ?_, (agentWrite_only s hk hs).trans hov, (agentWrite_written s hk hs).congr hmv⟩
  simp only [writeCells, outBlocks_rowCells h0 hb, List.findSome?_cons, List.findSome?_nil, outMask_rowCells h0 hb, hva, hfar, hto, if_true]
  rfl

/-- R128: a block of the source, read now, reads as memory holds it, or as it was read before. -/
theorem readOnce_block {va : DWord} {blk : List Byte}
    (h : lookup t.blocks (va &&& ~~~63#64).toNat = some blk ∨ (lookup t.blocks (va &&& ~~~63#64).toNat = none ∧
      engineAt s t (va &&& ~~~63#64) false = .ok p ∧ UnderKey s p.kid p.key 64 ∧ blk = physBytes s p.key 64)) :
    ∃ u bs, readOnce s x t va = (u, .ok blk) ∧ SameMemory s u ∧ u.waves = s.waves ∧ u.groups = s.groups ∧
      lookup u.transfers x = some { t with blocks := bs } := by
  obtain h | ⟨h, he, hk, rfl⟩ := h
  · exact ⟨s, t.blocks, by simp only [readOnce, h], .refl s, rfl, rfl, hx⟩
  · obtain ⟨hor, hmr, hbr⟩ := agentRead_same s hk
    obtain ⟨hov, hmv⟩ := viaDie_same (agentRead s p.kid p.key 64).1 (engineDie t) p.key 64 false
    have ha : (va &&& ~~~63#64) &&& ~~~63#64 = va &&& ~~~63#64 := by rw [BitVec.and_assoc, BitVec.and_self]
    generalize hu : viaDie (agentRead s p.kid p.key 64).1 (engineDie t) p.key 64 false = u at *
    have hread : readBlock s x t (va &&& ~~~63#64) = (u, .ok (physBytes s p.key 64)) := by
      simp only [readBlock, ha, sentFor_none hpeer, he, if_neg hloc, hbr, ← hu]
    have hxu : lookup u.transfers x = some t := by rw [(hor.trans hov).transfers, hx]
    refine ⟨{ u with transfers := put u.transfers x { t with blocks := put t.blocks (va &&& ~~~63#64).toNat (physBytes s p.key 64), peer := [] } },
      put t.blocks (va &&& ~~~63#64).toNat (physBytes s p.key 64), ?_, hmr.trans hmv, (hor.trans hov).waves, (hor.trans hov).groups, (lookup_put_self ..).trans ?_⟩
    · simp only [readOnce, h, hread, xferOf_self hxu]
    · rw [hpeer]

end

/-- A piece that is not the last one moves the transfer on by its bytes (R146). -/
theorem advance_notLast {s : State} {x n : Nat} {t : Transfer} (hx : lookup s.transfers x = some t) (hn : t.done + n < totalBytes t) :
    advance s x n = { s with transfers := put s.transfers x { t with done := t.done + n, peer := [] } } := by
  have : ¬(t.done + n ≥ totalBytes { t with done := t.done + n, peer := [] }) := Nat.not_le.2 hn
  simp only [advance, hx, if_neg this]

/-! ### One piece of a transfer (R51, R146, R151, R447) -/

theorem transferBlock_held {s : State} {x : Nat} {t : Transfer} (hx : lookup s.transfers x = some t)
    (h : t.parked ≠ none ∨ t.pause = true ∨ afterPublish s x t = true) : transferBlock s x = s := by
  have : (t.parked.isSome || t.pause || afterPublish s x t || unfixed s x) = true := by
    rcases h with h | h | h <;> simp [h, Option.isSome_iff_ne_none]
  simp only [transferBlock, hx, if_pos this]

section
variable {s : State} {x : Nat} {t : Transfer} {p : Place} (hx : lookup s.transfers x = some t) (hpark : t.parked = none) (hpause : t.pause = false)
  (hpub : afterPublish s x t = false) (hs : s.snaps = [])
include hx hpark hpause hpub hs

theorem transferBlock_cpyout (ho : t.op = .cpyout) : transferBlock s x = copyOut s x t := by
  simp [transferBlock, hx, hpark, hpause, hpub, unfixed, hs, ho]

theorem transferBlock_cpy (ho : t.op = .cpy) : transferBlock s x = copyIn s x t := by
  simp [transferBlock, hx, hpark, hpause, hpub, unfixed, hs, ho]

variable (hpeer : t.peer = []) (hloc : p.loc ≠ 2)
include hpeer hloc

/-- R325, R447: a piece of CPYOUT that lies in one row and one block is written in memory. -/
theorem cpyout_moves (ho : t.op = .cpyout) (h0 : 0 < pieceLen s t) (hrow : t.done % t.rowBytes + pieceLen s t ≤ t.rowBytes)
    (hblock : (outAddr t t.done).toNat % 64 + pieceLen s t ≤ 64) (he : engineAt s t (outAddr t t.done) true = .ok p)
    (hk : UnderKey s p.kid p.key (pieceLen s t)) (hrest : t.done + pieceLen s t < totalBytes t) :
    Completes (.transferBlock x) s fun u => Written s u p.key (sliceBytes t.image t.done (pieceLen s t)) ∧
      (lookup u.transfers x).map (·.done) = some (t.done + pieceLen s t) ∧ u.waves = s.waves := by
  generalize hn : pieceLen s t = n at *
  have hlen : (sliceBytes t.image t.done n).length = n := sliceBytes_length ..
  have hcells : placeCells t (sliceBytes t.image t.done n) = rowCells (outAddr t t.done).toNat (sliceBytes t.image t.done n) := by
    unfold placeCells rowCells
    congr 1
    refine List.map_congr_left fun e he => ?_
    have hi : e.1 < n := by
      have := List.mem_range.1 (List.of_mem_zip he).1
      rwa [hlen] at this
    rw [outAddr_block ho (by omega) (by omega)]
  obtain ⟨u, hw, hu, hwr⟩ := writeCells_rowCells hx hpeer hloc (List.ne_nil_of_length_pos (hlen.symm ▸ h0)) (hlen.symm ▸ hblock) he (hlen.symm ▸ hk) hs
  have hxu : lookup u.transfers x = some t := by rw [hu.transfers, hx]
  refine ⟨advance u x n, ?_, ?_⟩
  · show Host.Outcome.next (transferBlock s x) = _
    rw [transferBlock_cpyout hx hpark hpause hpub hs ho]
    simp only [copyOut, hn, putPiece, hcells, hw]
  · rw [advance_notLast hxu hrest]
    exact ⟨hwr, by simp only [lookup_put_self, Option.map_some], hu.waves⟩

end

theorem putElems_fields (q : Plot) (r : PlotRef) (l : List (Nat × Nat × List Byte)) :
    (putElems q r l).state = q.state ∧ (putElems q r l).arrived = q.arrived ∧ (putElems q r l).quota = q.quota :=
  List.foldlRecOn (motive := fun p : Plot => p.state = q.state ∧ p.arrived = q.arrived ∧ p.quota = q.quota) _ _ ⟨rfl, rfl, rfl⟩
    fun _ h _ _ => h

/-- A plot with the bytes of a piece in it, which count towards its quota (R72). -/
def withPiece (q : Plot) (t : Transfer) (l : List (Nat × Nat × List Byte)) (n : Nat) : Plot :=
  { putElems q (plotRef t.ref0 t.ref1) l with arrived := q.arrived + n }

theorem withPiece_state (q : Plot) (t : Transfer) (l : List (Nat × Nat × List Byte)) (n : Nat) : (withPiece q t l n).state = q.state :=
  (putElems_fields q (plotRef t.ref0 t.ref1) l).1

section
variable {s : State} {g h n : Nat} {q : Plot} (hq : lookup (groupOf s g).plots h = some q) (hst : q.state = 1#2)
include hq hst

/-- R72: a piece that does not reach the quota of a FILLING plot. -/
theorem deliverTo_filling {x : Nat} {t : Transfer} {l : List (Nat × Nat × List Byte)} (hf : isTilth q.fmt.toNat = false) (hn : q.arrived + n < q.quota) :
    deliverTo s x t l n (g, h) = setPlot (setPlot s g h (putElems q (plotRef t.ref0 t.ref1) l)) g h (withPiece q t l n) := by
  obtain ⟨hps, hpa, hpq⟩ := putElems_fields q (plotRef t.ref0 t.ref1) l
  have hne : ¬(q.arrived + n = q.quota) := Nat.ne_of_lt hn
  simp only [deliverTo, hq, hst, hf, Bool.false_and, Bool.false_eq_true, if_true, if_false, deliver, plot_setPlot, hps, ne_eq, not_true, hpa, hpq, hne, withPiece]

theorem allFailed_filling {x : Nat} {t : Transfer} (ht : t.plots = [(g, h)]) : allFailed s x t = false := by
  simp [allFailed, ht, hq, hst]

theorem targetWaits_filling (x : Nat) : targetWaits s x (g, h) = false := by simp [targetWaits, hq, hst]

end

section
variable {s : State} {x : Nat} {t : Transfer} {p : Place} (hx : lookup s.transfers x = some t) (hpark : t.parked = none) (hpause : t.pause = false)
  (hpub : afterPublish s x t = false) (hs : s.snaps = []) (hpeer : t.peer = []) (hloc : p.loc ≠ 2)
include hx hpark hpause hpub hs hpeer hloc

/-- R72, R128, R325: a piece of CPY into one FILLING plot. -/
theorem cpy_moves (ho : t.op = .cpy) {g h : Nat} {q : Plot} {blk : List Byte} (ht : t.plots = [(g, h)])
    (hb : lookup t.blocks ((copyPiece t).va &&& ~~~63#64).toNat = some blk ∨ (lookup t.blocks ((copyPiece t).va &&& ~~~63#64).toNat = none ∧
      engineAt s t ((copyPiece t).va &&& ~~~63#64) false = .ok p ∧ UnderKey s p.kid p.key 64 ∧ blk = physBytes s p.key 64))
    (hq : lookup (groupOf s g).plots h = some q) (hst : q.state = 1#2) (hf : isTilth q.fmt.toNat = false) {n : Nat}
    (hn : n = (copyPiece t).elems.length * unitBytes t.fmt.toNat) (hquota : q.arrived + n < q.quota) (hrest : t.done + n < totalBytes t) :
    Completes (.transferBlock x) s fun u => SameMemory s u ∧ u.waves = s.waves ∧ (lookup u.transfers x).map (·.done) = some (t.done + n) ∧
      lookup (groupOf u g).plots h = some (withPiece q t (pieceElems t (copyPiece t) blk) n) := by
  obtain ⟨v, bs, hr, hm, hw, hg, hv⟩ := readOnce_block hx hpeer hloc hb
  let t' : Transfer := { t with blocks := bs }
  let elems := pieceElems t (copyPiece t) blk
  have hlen : n = elems.length * unitBytes t'.fmt.toNat := by rw [hn, show elems.length = _ from List.length_map ..]
  have hqv : lookup (groupOf v g).plots h = some q := by rwa [groupOf, hg]
  let d := setPlot (setPlot v g h (putElems q (plotRef t.ref0 t.ref1) elems)) g h (withPiece q t elems n)
  have hqd : lookup (groupOf d g).plots h = some (withPiece q t elems n) := plot_setPlot ..
  have hdel : deliverTo v x t' elems n (g, h) = d := deliverTo_filling hqv hst hf hquota
  have hin : copyIn s x t = advance d x n := by
    have ht' : t'.plots = [(g, h)] := ht
    have hwait : t'.plots.filter (targetWaits v x) = [] := by simp [ht', targetWaits_filling hqv hst]
    have hdone : allFailed d x t' = false := allFailed_filling hqd ((withPiece_state ..).trans hst) ht'
    have hxv : xferOf v x t = t' := xferOf_self hv t
    simp only [copyIn, hr, hxv]
    rw [show pieceElems t' (copyPiece t) blk = elems from rfl, ← hlen, hwait]
    simp only [List.isEmpty_nil, if_true, ht', List.foldl_cons, List.foldl_nil, hdel, hdone, Bool.false_and, Bool.false_eq_true, if_false]
  refine ⟨advance d x n, ?_, ?_⟩
  · show Host.Outcome.next (transferBlock s x) = _
    rw [transferBlock_cpy hx hpark hpause hpub hs ho, hin]
  · have hd : lookup d.transfers x = some t' := hv
    rw [advance_notLast hd hrest]
    exact ⟨hm.trans (physByte_congr rfl rfl), hw, by simp only [lookup_put_self, Option.map_some]; rfl, hqd⟩

end

/-! ### Ends of the accesses of plots (R70, R81) -/

theorem endables_frozen {s : State} {g h : Nat} (hf : (groupOf s g).frozen = true) : endables s g h = [] := by simp [endables, hf]

theorem sameMemory_drainEnd (s : State) (g h : Nat) : SameMemory s (drainEnd s g h) := by
  unfold drainEnd
  split
  · exact .refl s
  split
  · split
    · exact physByte_congr rfl rfl
    split
    · exact (sameMemory_setPlot s g h _).trans (wavesCores_postPlotFull _ g h).same
    split
    · exact (sameMemory_setPlot s g h _).trans (wavesCores_postPlotFull _ g h).same
    · exact (sameMemory_setPlot s g h _).trans (wavesCores_recheckAll _).same
  · exact .refl s

section
variable {s : State} {g h : Nat} {gr : Group} {p : Plot} (hg : lookup s.groups g = some gr) (hp : lookup gr.plots h = some p)
include hg

theorem exec_plotAccessEnd_frozen (hf : gr.frozen = true) : exec (.plotAccessEnd g h) s = .next s := by
  show Host.Outcome.next _ = _
  simp only [hg, endables_frozen (s := s) (h := h) (by rwa [groupOf_of_lookup hg])]

include hp

theorem exec_plotAccessEnd_pld {rest : List Access} (ha : p.access = .pld :: rest) (hz : gr.zombies = []) (hf : gr.frozen = false) :
    exec (.plotAccessEnd g h) s = .next (drainEnd (setPlot (setGroup s g gr) g h { p with access := rest }) g h) := by
  have hgo := groupOf_of_lookup hg
  have hl : lookup (groupOf (setGroup s g gr) g).plots h = some p := by rwa [groupOf_setGroup]
  have hgr : ({ gr with zombies := [] } : Group) = gr := by rw [← hz]
  have hend : endables s g h = .pld :: rest.filter (endable s) := by
    simp only [endables, hgo, hf, hp, ha, hz, Bool.false_eq_true, if_false, List.flatMap_nil, List.append_nil]
    exact List.filter_cons_of_pos rfl
  show Host.Outcome.next _ = _
  simp only [hg, hend, endAccess, hgo, hz, List.map_nil, List.filter_nil, hgr, hl, ha, List.erase_cons_head]

/-- R70: the end of a read, which ends a drain when it is the last. -/
theorem plotAccessEnd_pld {rest : List Access} (ha : p.access = .pld :: rest) (hz : gr.zombies = []) (hf : gr.frozen = false) :
    Completes (.plotAccessEnd g h) s fun t => SameMemory s t ∧
      (p.state ≠ 3#2 → lookup (groupOf t g).plots h = some { p with access := rest }) ∧
      (p.state = 3#2 → rest = [] → p.armpend = false → lookup (groupOf t g).plots h = some { p with access := [], state := 0#2 }) := by
  refine ⟨_, exec_plotAccessEnd_pld hg hp ha hz hf, SameMemory.trans (physByte_congr rfl rfl) (sameMemory_drainEnd _ g h), fun hs => ?_, fun hs hr hpend => ?_⟩
  · simp [drainEnd, hs]
  · subst hr
    simp [drainEnd, hs, drainHeld, hpend]

end

/-! ### CFLUSH (R296) -/

theorem flushLine_keeps {s : State} (h : Canonical s) (c line k : Nat) :
    Canonical (flushLine s c line k) ∧ SameMemory s (flushLine s c line k) ∧ (flushLine s c line k).waves = s.waves := by
  have hl : Canonical (evictLine s line) := ⟨wf_evictLine s line h.1, risingFrom_filter _ h.2⟩
  unfold flushLine
  dsimp only
  split
  · exact ⟨h, .refl s, rfl⟩
  · exact ⟨h, .refl s, rfl⟩
  · exact ⟨hl, evictLine_same s line h, rfl⟩
  · exact ⟨hl, evictLine_same s line h, rfl⟩

/-- R296: the lines of a CFLUSH change no byte. -/
theorem flushLines_keep {s : State} (h : Canonical s) (w : Wave) (k : Nat) (l : List Nat) :
    let t := l.foldl (fun t line => flushLine t (coreNo t w) line k) s
    SameMemory s t ∧ t.waves = s.waves :=
  (List.foldlRecOn (motive := fun t : State => Canonical t ∧ SameMemory s t ∧ t.waves = s.waves) l _ ⟨h, .refl s, rfl⟩
    fun t ⟨hc, hm, hw⟩ line _ =>
      let ⟨hc', hm', hw'⟩ := flushLine_keeps hc (coreNo t w) line k
      ⟨hc', hm.trans hm', hw'.trans hw⟩).2

theorem cflush_ends {s : State} {u : Nat} {w : Wave} {nx : BitVec 2} {va : DWord} {n k : Nat} (hw : lookup s.waves u = some w)
    (hst : w.stall = some (.cflush nx va n k)) (hq : CoreQuiet s (coreNo s w)) (hc : Canonical s) :
    Completes (.cflushComplete u) s fun t => waveOf t u = Wave.finish { w with stall := none } nx ∧ SameMemory s t := by
  let lines := ((chunksOf va.toNat n).filter fun e => !isPrivate e.1 && canonical e.1).flatMap fun e => flushLines s w e.1 e.2
  obtain ⟨hm, hwaves⟩ := flushLines_keep hc w k lines
  refine ⟨setWave (lines.foldl (fun t l => flushLine t (coreNo t w) l k) s) u (Wave.finish { w with stall := none } nx), ?_, by simp, hm.trans (physByte_congr rfl rfl)⟩
  have hwave : waveOf (lines.foldl (fun t l => flushLine t (coreNo t w) l k) s) u = w := by
    rw [waveOf, hwaves, hw]
    rfl
  show Host.Outcome.next _ = _
  simp only [hw, hst, drainPath_quiet hq]
  rw [hwave]

/-- Settles O43: pieces of transfers by what reading, writing and delivering a block leaves, ends of accesses by `drainEnd`, CFLUSH line by line. -/
theorem transfersAdvance : Obligations.TransfersAdvance := by
  unfold Obligations.TransfersAdvance
  refine ⟨fun s x t hx => ⟨fun h => congrArg Host.Outcome.next (transferBlock_held hx h), fun ho h0 hd => ?_,
      fun p hpark hpause hpeer hpub hs hloc => ⟨?_, ?_⟩⟩,
    fun s g h gr p rest hg hp => ⟨exec_plotAccessEnd_frozen hg, fun ha hz hf => plotAccessEnd_pld hg hp ha hz hf⟩,
    fun s u w nx kind va n hw hst hq hm hl => cflush_ends hw hst hq ⟨hm, hl⟩⟩
  · rw [← outAddr_cpyout ho]
    exact pieceLen_cpyout ho h0 hd
  · intro va n ho h0 hrow hblock _ he hk hrest
    have hva : va = outAddr t t.done := (outAddr_cpyout ho _).symm
    rw [hva] at he hblock
    exact cpyout_moves hx hpark hpause hpub hs hpeer hloc ho h0 hrow hblock he hk hrest
  · intro piece n a g h q blk ho ht hb hq hst hf hquota hrest
    obtain ⟨u, hu, hm, hw, hd, hplot⟩ := cpy_moves hx hpark hpause hpub hs hpeer hloc ho ht hb hq hst hf rfl hquota hrest
    exact ⟨u, hu, hm, hw, hd, _, hplot, (withPiece_state ..).trans hst, rfl, rfl⟩

end Sys2Proof

/-! SUPPORT. The array (R84-R87, R335-R344): what looking again at waves leaves of those that are ready, the pass over the garner operations that wait, and
the statement about the array instructions. -/
namespace Sys2Proof
open Machine

/-! ### Waves that are ready, and stalls -/

theorem lookup_map_key {α : Type} (f : Nat × α → α) (m : AMap α) (k : Nat) :
    lookup (m.map fun e => (e.1, f e)) k = (lookup m k).map fun x => f (k, x) := by
  induction m with
  | nil => rfl
  | cons e t ih =>
    obtain ⟨j, a⟩ := e
    by_cases hj : j = k
    · subst hj
      simp [lookup]
    · simpa only [List.map_cons, lookup, if_neg hj] using ih

/-- Every wave of `m` that is ready stands in `m'`, ready, with its PC and its scalar registers, and `m'` holds no stall that `m` does not. -/
structure KeepsReady (m m' : AMap Wave) : Prop where
  ready : ∀ u x, lookup m u = some x → x.status = .ready → ∃ x', lookup m' u = some x' ∧ x'.status = .ready ∧ x'.pc = x.pc ∧ x'.s = x.s
  stalls : ∀ e ∈ m', ∃ d ∈ m, e.2.stall = d.2.stall

namespace KeepsReady

protected theorem refl (m : AMap Wave) : KeepsReady m m := ⟨fun _ x hx hr => ⟨x, hx, hr, rfl, rfl⟩, fun e he => ⟨e, he, rfl⟩⟩

protected theorem trans {m m' m'' : AMap Wave} (h : KeepsReady m m') (h' : KeepsReady m' m'') : KeepsReady m m'' where
  ready u x hx hr := by
    obtain ⟨x', hx', hr', hpc', hs'⟩ := h.ready u x hx hr
    obtain ⟨x'', hx'', hr'', hpc'', hs''⟩ := h'.ready u x' hx' hr'
    exact ⟨x'', hx'', hr'', hpc''.trans hpc', hs''.trans hs'⟩
  stalls e he := by
    obtain ⟨d, hd, hed⟩ := h'.stalls e he
    obtain ⟨c, hc, hdc⟩ := h.stalls d hd
    exact ⟨c, hc, hed.trans hdc⟩

/-- One wave replaced, which was not ready or keeps its PC and registers. -/
protected theorem put {m : AMap Wave} {u : Nat} {w x : Wave} (hw : lookup m u = some w) (hst : x.stall = w.stall)
    (h : w.status = .ready → x.status = .ready ∧ x.pc = w.pc ∧ x.s = w.s) : KeepsReady m (put m u x) where
  ready k y hy hr := by
    by_cases hk : k = u
    · subst hk
      obtain rfl : w = y := Option.some.inj (hw.symm.trans hy)
      exact ⟨x, lookup_put_self .., h hr⟩
    · exact ⟨y, by rwa [lookup_put_ne _ _ hk], hr, rfl, rfl⟩
  stalls e he := by
    obtain rfl | he := mem_put he
    · exact ⟨_, lookup_mem hw, hst⟩
    · exact ⟨e, he, rfl⟩

/-- Every wave mapped, with its place. -/
protected theorem map {m : AMap Wave} {f : Nat × Wave → Wave} (hst : ∀ e, (f e).stall = e.2.stall)
    (h : ∀ e, e.2.status = .ready → (f e).status = .ready ∧ (f e).pc = e.2.pc ∧ (f e).s = e.2.s) : KeepsReady m (m.map fun e => (e.1, f e)) where
  ready u x hx hr := ⟨_, (lookup_map_key f m u).trans (by rw [hx]; rfl), h (u, x) hr⟩
  stalls e he := by
    obtain ⟨d, hd, rfl⟩ := List.mem_map.1 he
    exact ⟨d, hd, hst d⟩

end KeepsReady

theorem reportFutures_stall (s : State) (w : Wave) (d a b : Nat) : (reportFutures s w d a b).stall = w.stall := rfl

theorem keepsReady_recheckAt (s : State) (u now : Nat) : KeepsReady s.waves (recheckAt s u now).waves := by
  unfold recheckAt
  split
  · exact .refl _
  next w hw =>
  obtain ⟨hw, -⟩ := Option.filter_eq_some_iff.1 hw
  have parked {x : Wave} {p : Park} (hp : w.status = .parked p) (hst : x.stall = w.stall) : KeepsReady s.waves (put s.waves u x) :=
    .put hw hst fun hr => by rw [hp] at hr; cases hr
  split
  case h_1 hp => split; exacts [.refl _, parked hp rfl]
  case h_2 hp => split; exacts [parked hp (by simp), .refl _]
  case h_3 hp => split; exacts [parked hp (by simp), .refl _]
  case h_4 hp =>
    dsimp only
    split
    · split
      · exact parked hp (by simp [reportFutures_stall])
      · exact parked hp (by simp [reportFutures_stall])
    · exact .refl _
  case h_5 ev hp =>
    dsimp only
    split
    · refine parked hp ?_
      split <;> simp
    · exact .refl _
  case h_6 => exact .refl _

theorem keepsReady_recheckAll (s : State) : KeepsReady s.waves (recheckAll s).waves :=
  List.foldlRecOn (motive := fun t : State => KeepsReady s.waves t.waves) _ _ (.refl _) fun t h e _ => h.trans (keepsReady_recheckAt t e.1 _)

theorem settleChoice_stall (s : State) (now : Nat) (w : Wave) : (settleChoice s now w).stall = w.stall := by
  unfold settleChoice
  split
  · split
    · split
      · rfl
      · simp [Wave.takeSlot, Wave.complete]
    · rfl
  · rfl

theorem keepsReady_settleChoices (s : State) (now : Nat) : KeepsReady s.waves (settleChoices s now).waves :=
  .map (f := fun e => settleChoice s now e.2) (fun _ => settleChoice_stall ..) fun e hr => by
    simp only [settleChoice, hr]
    exact ⟨trivial, trivial, trivial⟩

theorem keepsReady_post (s : State) (p : Nat → Wave → EvSlot → Bool) : KeepsReady s.waves (post s p).waves :=
  ((keepsReady_settleChoices s _).trans (.map (f := fun e => e.2.latch (p e.1 e.2)) (fun _ => rfl) fun _ hr => ⟨hr, rfl, rfl⟩)).trans
    (keepsReady_recheckAll { settleChoices s s.tsc.toNat with waves := _ })

/-! ### Ends of plot accesses (R70) -/

/-- A step that leaves memory, yokes and ready waves. -/
structure PlotsOnly (s t : State) : Prop where
  same : SameMemory s t
  yokes : t.yokes = s.yokes
  waves : KeepsReady s.waves t.waves

namespace PlotsOnly

protected theorem refl (s : State) : PlotsOnly s s := ⟨.refl s, rfl, .refl _⟩

protected theorem trans {s t v : State} (h : PlotsOnly s t) (h' : PlotsOnly t v) : PlotsOnly s v :=
  ⟨h.same.trans h'.same, h'.yokes.trans h.yokes, h.waves.trans h'.waves⟩

protected theorem setGroup {s : State} {g : Nat} {x : Group} : PlotsOnly s (setGroup s g x) := ⟨physByte_congr rfl rfl, rfl, .refl _⟩

protected theorem setPlot {s : State} {g h : Nat} {p : Plot} : PlotsOnly s (setPlot s g h p) := .setGroup

protected theorem recheckAll (s : State) : PlotsOnly s (recheckAll s) :=
  ⟨(wavesCores_recheckAll s).same, (wavesCores_recheckAll s).yokes, keepsReady_recheckAll s⟩

protected theorem postPlotFull (s : State) (g h : Nat) : PlotsOnly s (postPlotFull s g h) :=
  ⟨(wavesCores_postPlotFull s g h).same, (wavesCores_postPlotFull s g h).yokes, keepsReady_post ..⟩

protected theorem foldl {α : Type} {f : State → α → State} (hf : ∀ t a, PlotsOnly t (f t a)) (l : List α) (s : State) : PlotsOnly s (l.foldl f s) :=
  List.foldlRecOn (motive := fun t => PlotsOnly s t) l f (.refl s) fun t h a _ => h.trans (hf t a)

end PlotsOnly

theorem plotsOnly_drainEnd (s : State) (g h : Nat) : PlotsOnly s (drainEnd s g h) := by
  unfold drainEnd
  split
  · exact .refl s
  split
  · split
    · exact .setPlot
    split
    · exact PlotsOnly.setPlot.trans (.postPlotFull _ g h)
    split
    · exact PlotsOnly.setPlot.trans (.postPlotFull _ g h)
    · exact PlotsOnly.setPlot.trans (.recheckAll _)
  · exact .refl s

theorem plotsOnly_endAccess (s : State) (g h : Nat) (a : Access) : PlotsOnly s (endAccess s g h a) := by
  unfold endAccess
  dsimp only
  split
  · exact .setGroup
  · exact (PlotsOnly.setGroup.trans .setPlot).trans (plotsOnly_drainEnd _ g h)

theorem plotsOnly_endRun (s : State) (y : Nat) (r : Run) : PlotsOnly s (endRun s y r) := .foldl (fun _ _ => plotsOnly_endAccess ..) _ _

theorem plotsOnly_acceptRead (s : State) (g h : Nat) (rel : Bool) (a : Access) : PlotsOnly s (acceptRead s g h rel a) := by
  unfold acceptRead
  split
  · exact .refl s
  · exact .setPlot

theorem acceptRead_waves (s : State) (g h : Nat) (rel : Bool) (a : Access) : (acceptRead s g h rel a).waves = s.waves := by
  unfold acceptRead
  split <;> rfl

/-! ### What is still to act on a row (R87) -/

theorem any_put {α : Type} {m : AMap α} {k : Nat} {a b : α} {p : Nat × α → Bool} (h : lookup m k = some a) (hp : p (k, b) = p (k, a)) :
    (put m k b).any p = m.any p := by
  induction m with
  | nil => cases h
  | cons e t ih =>
    obtain ⟨j, c⟩ := e
    by_cases hj : j = k
    · subst hj
      obtain rfl : c = a := by simpa [lookup] using h
      simp [put, hp]
    · rw [lookup, if_neg hj] at h
      simp only [put, if_neg hj, List.any_cons, ih h]

theorem imageOwes_congr {s t : State} {k k' : Yoke} (hw : t.waves = s.waves) (hm : k'.members = k.members) (i : Nat) : imageOwes t k' i = imageOwes s k i := by
  simp only [imageOwes, hw, hm]

theorem imageOwes_put {s t : State} {k : Yoke} {u : Nat} {w x : Wave} (hw : lookup s.waves u = some w) (ht : t.waves = put s.waves u x)
    (hg : x.group = w.group) (hst : x.stall = w.stall) (i : Nat) : imageOwes t k i = imageOwes s k i := by
  rw [imageOwes, ht]
  exact any_put hw (by simp only [Wave.garnerImage, hg, hst])

/-! ### The pass over the garner operations that wait (R87) -/

theorem takeRow_waves (s : State) (x i : Nat) (g : List Word) : (takeRow s x i g).waves = s.waves := by unfold takeRow; split <;> rfl
theorem takeRow_yokes (s : State) (x i : Nat) (g : List Word) : (takeRow s x i g).yokes = s.yokes := by unfold takeRow; split <;> rfl
theorem takeRow_same (s : State) (x i : Nat) (g : List Word) : SameMemory s (takeRow s x i g) := by
  unfold takeRow
  split
  · exact .refl s
  · exact physByte_congr rfl rfl

theorem onWaveRec_yokes (s : State) (u : Nat) (f : Wave → Wave) : (onWaveRec s u f).yokes = s.yokes := by unfold onWaveRec; split <;> rfl

theorem plotsOnly_garnerEffect (s : State) (o : GarnerOp) (g : List Word) : PlotsOnly s (garnerEffect s o g).1 := by
  cases o with
  | zero r => exact .refl s
  | acc r col lanes x => exact .refl s
  | out r x i => exact ⟨takeRow_same s x i g, takeRow_yokes .., by rw [garnerEffect, takeRow_waves]; exact .refl _⟩
  | read r col u id d mask =>
    show PlotsOnly s (onWaveRec s u _)
    unfold onWaveRec
    split
    · exact .refl s
    · next w hw => exact ⟨physByte_congr rfl rfl, rfl, .put hw rfl fun hr => ⟨hr, rfl, rfl⟩⟩

/-- A garner operation takes effect, and waits no more. -/
def garnerAct (s : State) (y : Nat) (k : Yoke) (e : Nat × GarnerOp) : State :=
  let r := garnerEffect s e.2 (garnerRow k e.2.row)
  setYoke r.1 y { k with garner := setRow k.garner e.2.row r.2, ops := k.ops.filter fun x => x != e }

section
variable {s : State} {y : Nat} {k : Yoke} (hk : lookup s.yokes y = some k)

theorem yoke_setYoke (s : State) (y : Nat) (k : Yoke) : lookup (setYoke s y k).yokes y = some k := lookup_put_self ..

include hk

theorem garnerPass_cons_held {i : Nat} {o : GarnerOp} {held : List Nat} (h : (held.contains o.row || runOwes k i o.row || imageOwes s k i) = true)
    (rest : List (Nat × GarnerOp)) : garnerPass s y ((i, o) :: rest) held = garnerPass s y rest (o.row :: held) := by
  simp only [garnerPass, hk, if_pos h]

theorem garnerPass_cons_free {i : Nat} {o : GarnerOp} {held : List Nat} (h : (held.contains o.row || runOwes k i o.row || imageOwes s k i) = false)
    (rest : List (Nat × GarnerOp)) : garnerPass s y ((i, o) :: rest) held = garnerPass (garnerAct s y k (i, o)) y rest held := by
  simp only [garnerPass, hk, h, Bool.false_eq_true, if_false, garnerAct]

/-- Operations that something before them owes stay, and hold their rows. -/
theorem garnerPass_blocked {l : List (Nat × GarnerOp)} (hl : ∀ e ∈ l, runOwes k e.1 e.2.row = true ∨ imageOwes s k e.1 = true)
    (rest : List (Nat × GarnerOp)) (held : List Nat) : garnerPass s y (l ++ rest) held = garnerPass s y rest ((l.map (·.2.row)).reverse ++ held) := by
  induction l generalizing held with
  | nil => rfl
  | cons e t ih =>
    have he : (held.contains e.2.row || runOwes k e.1 e.2.row || imageOwes s k e.1) = true := by
      rcases hl e List.mem_cons_self with h | h <;> simp [h]
    rw [List.cons_append, garnerPass_cons_held hk he, ih fun x hx => hl x (List.mem_cons_of_mem _ hx)]
    simp

end

/-- What the pass leaves: memory, ready waves, and of the yoke all but the garner and the operations. -/
theorem garnerPass_frame (y : Nat) (work : List (Nat × GarnerOp)) {s : State} {k : Yoke} (held : List Nat) (hk : lookup s.yokes y = some k) :
    let t := garnerPass s y work held
    SameMemory s t ∧ KeepsReady s.waves t.waves ∧ ∃ g o, lookup t.yokes y = some { k with garner := g, ops := o } := by
  induction work generalizing s k held with
  | nil => exact ⟨.refl s, .refl _, _, _, hk⟩
  | cons e rest ih =>
    obtain ⟨i, o⟩ := e
    cases h : (held.contains o.row || runOwes k i o.row || imageOwes s k i) with
    | true =>
      rw [garnerPass_cons_held hk h]
      exact ih _ hk
    | false =>
      have he := plotsOnly_garnerEffect s o (garnerRow k o.row)
      rw [garnerPass_cons_free hk h]
      obtain ⟨hm, hw, g, p, hy⟩ := ih (s := garnerAct s y k (i, o)) held (yoke_setYoke ..)
      exact ⟨he.same.trans hm, he.waves.trans hw, g, p, hy⟩

theorem garnerSettle_frame (y : Nat) {s : State} {k : Yoke} (hk : lookup s.yokes y = some k) :
    let t := garnerSettle s y
    SameMemory s t ∧ KeepsReady s.waves t.waves ∧ ∃ g o, lookup t.yokes y = some { k with garner := g, ops := o } := by
  simp only [garnerSettle, hk]
  exact garnerPass_frame y k.ops [] hk

theorem garnerSettle_idle {y : Nat} {s : State} {k : Yoke} (hk : lookup s.yokes y = some k) (h : k.ops = []) : garnerSettle s y = s := by
  simp only [garnerSettle, hk, h, garnerPass]

/-! ### An instruction's own operations, which come last (R87) -/

/-- A row that something before place `i` of the order owes, or an operation that holds it. -/
def rowOwed (s : State) (k : Yoke) (i : Nat) (held : List Nat) (row : Nat) : Bool := held.contains row || runOwes k i row || imageOwes s k i

section
variable {y id r0 : Nat} {op : Nat → GarnerOp} (hrow : ∀ i, (op i).row = r0 + i) (hop : ∀ s i g, (garnerEffect s (op i) g).1.waves = s.waves)

/-- The operations of an instruction on some rows, one after another. -/
def garnerActs (y id : Nat) (op : Nat → GarnerOp) (s : State) (k : Yoke) (l : List Nat) : State :=
  match l with
  | [] => s
  | i :: t =>
    garnerActs y id op (garnerAct s y k (id, op i))
      { k with garner := setRow k.garner (op i).row (garnerEffect s (op i) (garnerRow k (op i).row)).2, ops := k.ops.filter fun x => x != (id, op i) } t

include hrow hop

/-- Of operations on different rows those take effect whose rows nothing owes. -/
theorem garnerPass_own {l : List Nat} (hn : l.Nodup) {s : State} {k : Yoke} (held : List Nat) (hk : lookup s.yokes y = some k) :
    garnerPass s y (l.map fun i => (id, op i)) held = garnerActs y id op s k (l.filter fun i => !rowOwed s k id held (r0 + i)) := by
  induction l generalizing s k held with
  | nil => rfl
  | cons i t ih =>
    obtain ⟨hi, ht⟩ := List.nodup_cons.1 hn
    cases h : rowOwed s k id held (r0 + i) with
    | true =>
      rw [List.map_cons, garnerPass_cons_held hk (by rwa [hrow]), ih ht _ hk, List.filter_cons_of_neg (by simp [h])]
      congr 1
      refine List.filter_congr fun j hj => ?_
      have hne : j ≠ i := fun e => hi (e ▸ hj)
      simp [rowOwed, hrow, hne]
    | false =>
      rw [List.map_cons, garnerPass_cons_free hk (by rwa [hrow]), ih ht (s := garnerAct s y k (id, op i)) held (yoke_setYoke ..), List.filter_cons_of_pos (by simp [h]), garnerActs]
      congr 1
      refine List.filter_congr fun j _ => ?_
      exact congrArg (fun b => !(held.contains (r0 + j) || runOwes k id (r0 + j) || b)) (imageOwes_congr (hop s i _) rfl id)

omit hrow

/-- What these leave: memory, waves, and the operations of others. -/
theorem garnerActs_frame (l : List Nat) {s : State} {k : Yoke} (hk : lookup s.yokes y = some k) :
    let t := garnerActs y id op s k l
    SameMemory s t ∧ t.waves = s.waves ∧ ∃ k', lookup t.yokes y = some k' ∧ ∀ e ∈ k.ops, (∀ i ∈ l, e ≠ (id, op i)) → e ∈ k'.ops := by
  induction l generalizing s k with
  | nil => exact ⟨.refl s, rfl, k, hk, fun e he _ => he⟩
  | cons i t ih =>
    obtain ⟨hm, hw, k', hk', ho⟩ := ih (s := garnerAct s y k (id, op i)) (yoke_setYoke ..)
    refine ⟨(plotsOnly_garnerEffect ..).same.trans hm, hw.trans (hop s i _), k', hk', fun e he hne => ho e ?_ fun j hj => hne j (List.mem_cons_of_mem _ hj)⟩
    simpa using ⟨he, hne i List.mem_cons_self⟩

end

theorem garnerRow_congr {k k' : Yoke} {r : Nat} (hs : k'.shape = k.shape) (hg : lookup k'.garner r = lookup k.garner r) : garnerRow k' r = garnerRow k r := by
  simp only [garnerRow, hs, hg]

/-- A row of zeros: one that is not valid reads so (R86). -/
theorem garnerRow_none {k : Yoke} {r : Nat} (h : lookup k.garner r = none) : garnerRow k r = List.replicate (256 * shapeCols k.shape.toNat) 0#32 := by
  rw [garnerRow, h]
  rfl

/-- Rows of MZERO. -/
theorem garnerActs_zero (y id r0 : Nat) (l : List Nat) {s : State} {k : Yoke} (hk : lookup s.yokes y = some k) :
    ∃ k', lookup (garnerActs y id (fun i => .zero (r0 + i)) s k l).yokes y = some k' ∧ k'.shape = k.shape ∧
      ∀ r, lookup k'.garner r = if ∃ i ∈ l, r = r0 + i then none else lookup k.garner r := by
  induction l generalizing s k with
  | nil => exact ⟨k, hk, rfl, fun r => by simp⟩
  | cons i t ih =>
    obtain ⟨k', hk', hs, hg⟩ := ih (s := garnerAct s y k (id, .zero (r0 + i))) (yoke_setYoke ..)
    refine ⟨k', hk', hs, fun r => ?_⟩
    rw [hg r, garnerEffect, setRow, lookup_erase]
    by_cases h1 : r = r0 + i
    · simp [h1, GarnerOp.row]
    · by_cases h2 : ∃ j ∈ t, r = r0 + j <;> simp [h1, h2, GarnerOp.row]

/-- Rows of MCADR, which its output path takes. -/
theorem garnerActs_out (y id x r0 : Nat) (l : List Nat) {s : State} {k : Yoke} {z : Transfer} (hz : lookup s.transfers x = some z) :
    ∃ b, lookup (garnerActs y id (fun i => .out (r0 + i) x i) s k l).transfers x = some { z with image := b, taken := z.taken ++ l } := by
  induction l generalizing s k z with
  | nil => exact ⟨z.image, by rw [List.append_nil]; exact hz⟩
  | cons i t ih =>
    have hx : ∃ b, lookup (garnerAct s y k (id, .out (r0 + i) x i)).transfers x = some { z with image := b, taken := z.taken ++ [i] } := by
      simp only [garnerAct, garnerEffect, takeRow, hz]
      exact ⟨_, lookup_put_self ..⟩
    obtain ⟨b, hb⟩ := hx
    obtain ⟨b', hb'⟩ := ih hb
    exact ⟨b', by rw [garnerActs, hb', List.append_assoc]; rfl⟩

/-- The yoke with operations that have joined. -/
def withOps (k : Yoke) (id : Nat) (l : List GarnerOp) : Yoke := { k with ops := k.ops ++ l.map fun o => (id, o) }

/-- The rows of the operations that wait. -/
def opRows (k : Yoke) : List Nat := (k.ops.map (·.2.row)).reverse ++ []

/-- An instruction's operations join those that the yoke holds, none of which can act. -/
theorem garnerQueue_blocked {s : State} {y id : Nat} {k : Yoke} (hb : ∀ e ∈ k.ops, runOwes k e.1 e.2.row = true ∨ imageOwes s k e.1 = true) (l : List GarnerOp) :
    garnerQueue s y k id l = garnerPass (setYoke s y (withOps k id l)) y (l.map fun o => (id, o)) (opRows k) := by
  have hy := yoke_setYoke s y (withOps k id l)
  show garnerSettle (setYoke s y (withOps k id l)) y = _
  simp only [garnerSettle, hy]
  exact garnerPass_blocked hy hb _ _

/-! ### Array instructions (R337, R340-R344) -/

section
variable {s : State} {w : Wave} (hw : lookup s.waves s.cur = some w)

theorem arrayThen_none {α : Type} (h : yokeOf s w.group = none) (f : Nat → Yoke → Check α) : arrayThen s w f = .error (yokeLost 1) := by
  simp only [arrayThen, arrayCheck, h]

/-- What an array instruction's checks have found is the yoke that holds the group's lease. -/
theorem arrayThen_ok {α : Type} {f : Nat → Yoke → Check α} {a : α} (h : arrayThen s w f = .ok a) : ∃ y k, arrayCheck s w = .ok (y, k) ∧ f y k = .ok a := by
  unfold arrayThen at h
  split at h
  · cases h
  · next y k he => exact ⟨y, k, he, h⟩

include hw

theorem checked_noYoke {α : Type} {c : Nat → Wave → Check α} (hc : c s.cur w = .error (yokeLost 1)) (f : Nat → Wave → α → State) :
    checked s c f = .next (takeTrap s s.cur ⟨12, 1, 0, 0#32⟩ true false) := checked_error hw hc f

/-- R337: an array instruction without a yoke. -/
theorem arrayInstr_noYoke (h : yokeOf s w.group = none) (nx : BitVec 2) (d a b : BitVec 6) (q t2 : BitVec 2) (c r : BitVec 1) :
    ∀ i ∈ [Instr.mbands nx a, .mloadb nx d q r, .mrun nx d a r, .mzero nx a, .mreadg nx d a, .maccg nx d a, .mcadr nx d a b c t2, .mhalt nx d,
      .mdrain nx, .msave nx a, .mrest nx a], exec i s = .next (takeTrap s s.cur ⟨12, 1, 0, 0#32⟩ true false) := by
  have hc : arrayCheck s w = .error (yokeLost 1) := by simp only [arrayCheck, h]
  intro i hi
  simp only [List.mem_cons, List.not_mem_nil, or_false] at hi
  rcases hi with rfl | rfl | rfl | rfl | rfl | rfl | rfl | rfl | rfl | rfl | rfl
  · show execMbands nx a s = _
    exact checked_noYoke hw (arrayThen_none h _) _
  · show execMloadb nx d q r s = _
    exact checked_noYoke hw (arrayThen_none h _) _
  · show execMrun nx d a r s = _
    exact checked_noYoke hw (arrayThen_none h _) _
  · show execMzero nx a s = _
    exact checked_noYoke hw (arrayThen_none h _) _
  · show execMreadg nx d a s = _
    exact checked_noYoke hw (arrayThen_none h _) _
  · show execMaccg nx d a s = _
    exact checked_noYoke hw (arrayThen_none h _) _
  · show execMcadr nx d a b c t2 s = _
    exact checked_noYoke hw (arrayThen_none h _) _
  · show execMhalt nx d s = _
    exact checked_noYoke hw hc _
  · show execMdrain nx s = _
    exact checked_noYoke hw hc _
  · show execMsave nx a s = _
    exact checked_noYoke hw (arrayThen_none h _) _
  · show execMrest nx a s = _
    exact checked_noYoke hw (arrayThen_none h _) _

end

/-! ### Rows that are owed, and an instruction's own operations -/

/-- R87: what was issued before now is still to act on a row. -/
def Owed (s : State) (k : Yoke) (i : Nat) : Prop := imageOwes s k s.uid = true ∨ runOwes k s.uid i = true ∨ ∃ e ∈ k.ops, e.2.row = i

/-- None of the operations that wait can act. -/
def Blocked (s : State) (k : Yoke) : Prop := ∀ e ∈ k.ops, runOwes k e.1 e.2.row = true ∨ imageOwes s k e.1 = true

section
variable {s t : State} {y : Nat} {k : Yoke} (himg : ∀ i, imageOwes t k i = imageOwes s k i)
include himg

theorem rowOwed_iff (i : Nat) : rowOwed t (withOps k s.uid l) s.uid (opRows k) i = true ↔ Owed s k i := by
  have : imageOwes t (withOps k s.uid l) s.uid = imageOwes s k s.uid := himg s.uid
  simp only [rowOwed, Owed, this, show runOwes (withOps k s.uid l) s.uid i = runOwes k s.uid i from rfl, Bool.or_eq_true, List.contains_iff_mem, opRows,
    List.append_nil, List.mem_reverse, List.mem_map]
  exact or_comm.trans (or_congr_right or_comm)

theorem blocked_congr (hb : Blocked s k) : Blocked t k := fun e he => by rw [himg]; exact hb e he

variable (hb : Blocked s k)
include hb

/-- An operation on a row that is owed only joins. -/
theorem garnerQueue_owed {o : GarnerOp} (ho : Owed s k o.row) : garnerQueue t y k s.uid [o] = setYoke t y (withOps k s.uid [o]) := by
  have h : rowOwed (setYoke t y (withOps k s.uid [o])) (withOps k s.uid [o]) s.uid (opRows k) o.row = true :=
    (rowOwed_iff (t := setYoke t y (withOps k s.uid [o])) himg o.row).2 ho
  rw [garnerQueue_blocked (blocked_congr himg hb)]
  exact garnerPass_cons_held (yoke_setYoke t y (withOps k s.uid [o])) h []

/-- Of an instruction's operations on rows that follow one another those act whose rows nothing owes; the others join. -/
theorem garnerQueue_own {op : Nat → GarnerOp} {r0 : Nat} (hrow : ∀ i, (op i).row = r0 + i)
    (hop : ∀ s i g, (garnerEffect s (op i) g).1.waves = s.waves) (n : Nat) :
    ∃ l : List Nat, (∀ i, i ∈ l ↔ i < n ∧ ¬Owed s k (r0 + i)) ∧
      garnerQueue t y k s.uid ((List.range n).map op) =
        garnerActs y s.uid op (setYoke t y (withOps k s.uid ((List.range n).map op))) (withOps k s.uid ((List.range n).map op)) l := by
  let K := withOps k s.uid ((List.range n).map op)
  refine ⟨(List.range n).filter fun i => !rowOwed (setYoke t y K) K s.uid (opRows k) (r0 + i), fun i => ?_, ?_⟩
  · have := rowOwed_iff (t := setYoke t y K) (l := (List.range n).map op) himg (r0 + i)
    rw [List.mem_filter, List.mem_range, ← this]
    simp [K]
  · have hm : ((List.range n).map op).map (fun o => (s.uid, o)) = (List.range n).map fun i => (s.uid, op i) := List.map_map ..
    rw [garnerQueue_blocked (blocked_congr himg hb), hm]
    exact garnerPass_own hrow hop List.nodup_range (opRows k) (yoke_setYoke t y K)

end

/-- A row that `rowPending` does not find is owed by nothing. -/
theorem not_owed_of_rowPending {s : State} {k : Yoke} {lo n i : Nat} (h : rowPending s k lo n = false) (h1 : lo ≤ i) (h2 : i < lo + n) : ¬Owed s k i := by
  simp only [rowPending, Bool.or_eq_false_iff, List.any_eq_false, Bool.and_eq_true, decide_eq_true_eq] at h
  obtain ⟨⟨himg, hrun⟩, hop⟩ := h
  rintro (hi | hr | ⟨e, he, rfl⟩)
  · rw [himg] at hi
    cases hi
  · simp only [runOwes, List.any_eq_true, Bool.and_eq_true, decide_eq_true_eq] at hr
    obtain ⟨r, hr, ⟨-, h3⟩, h4⟩ := hr
    exact hrun r hr ⟨by omega, by omega⟩
  · exact hop e he ⟨h1, h2⟩

theorem rowPending_of_owed {s : State} {k : Yoke} {i : Nat} (h : Owed s k i) : rowPending s k i 1 = true := by
  by_contra hf
  exact not_owed_of_rowPending (Bool.not_eq_true _ ▸ hf) (Nat.le_refl i) (Nat.lt_succ_self i) h

theorem lookup_filter_key {α : Type} (q : Nat → Bool) (m : AMap α) (k : Nat) :
    lookup (m.filter fun e => q e.1) k = if q k = true then lookup m k else none := by
  induction m with
  | nil => simp [lookup]
  | cons e t ih =>
    obtain ⟨j, a⟩ := e
    by_cases hj : j = k
    · subst hj
      by_cases hq : q j = true <;> simp [lookup, hq, ih]
    · by_cases hq : q j = true <;> simp [lookup, hq, ih, hj]

/-! ### The garner instructions (R86, R87, R342) -/

section
variable {s : State} {w : Wave} (hw : lookup s.waves s.cur = some w) {y : Nat} {k : Yoke}
include hw

/-- The current wave replaced by one of its group with its stall: no other stall is seen. -/
theorem imageOwes_cur {t : State} {x : Wave} (ht : t.waves = put s.waves s.cur x) (hg : x.group = w.group) (hst : x.stall = w.stall) (i : Nat) :
    imageOwes t k i = imageOwes s k i := imageOwes_put hw ht hg hst i

theorem rowPending_cur (nx : BitVec 2) (lo n : Nat) : rowPending (setWave s s.cur (w.finish nx)) k lo n = rowPending s k lo n := by
  have himg : imageOwes (setWave s s.cur (w.finish nx)) k s.uid = imageOwes s k s.uid := imageOwes_cur hw rfl (by simp) (by simp) _
  simp only [rowPending, setWave_uid, himg]

omit hw in
theorem waveOf_put {t : State} {m : AMap Wave} {u : Nat} {x : Wave} (h : t.waves = put m u x) : waveOf t u = x := by
  rw [waveOf, h, lookup_put_self]
  rfl

variable (nx : BitVec 2) (d a : BitVec 6) {row n : Nat} (hrow : bitsAt (w.sreg a.toNat).toNat 0 10 = row) (hn : bitsAt (w.sreg a.toNat).toNat 16 16 = n)

section
variable (hc : checkRows s w row n = .ok (y, k))
include hrow hn hc

theorem mzero_free (hp : rowPending s k row n = false) : Completes (.mzero nx a) s fun t => waveOf t s.cur = w.finish nx ∧ SameMemory s t ∧
    ∃ k', lookup t.yokes y = some k' ∧
      ∀ i, garnerRow k' i = if row ≤ i ∧ i < row + n then List.replicate (256 * shapeCols k.shape.toNat) 0#32 else garnerRow k i := by
  let keep := fun (r : Nat) => !(decide (row ≤ r) && decide (r < row + n))
  let k' : Yoke := { k with garner := k.garner.filter fun r => keep r.1 }
  refine ⟨setYoke (setWave s s.cur (w.finish nx)) y k', ?_, waveOf_put rfl, physByte_congr rfl rfl, k', yoke_setYoke .., fun i => ?_⟩
  · subst hrow hn
    show execMzero nx a s = _
    unfold execMzero
    rw [checked_ok hw hc]
    dsimp only
    rw [rowPending_cur hw, hp]
    rfl
  · have hl : lookup k'.garner i = if row ≤ i ∧ i < row + n then none else lookup k.garner i := by
      rw [show lookup k'.garner i = _ from lookup_filter_key keep ..]
      by_cases h : row ≤ i ∧ i < row + n <;> simp [keep, h]
    by_cases h : row ≤ i ∧ i < row + n
    · rw [if_pos h, garnerRow_none (by rw [hl, if_pos h])]
    · rw [if_neg h]
      exact garnerRow_congr rfl (by rw [hl, if_neg h])

theorem mzero_queued (hp : rowPending s k row n = true) (hb : Blocked s k) : Completes (.mzero nx a) s fun t =>
    waveOf t s.cur = w.finish nx ∧ SameMemory s t ∧ ∃ k', lookup t.yokes y = some k' ∧
      (∀ i, row ≤ i → i < row + n → Owed s k i → garnerRow k' i = garnerRow k i ∧ (s.uid, .zero i) ∈ k'.ops) ∧
      (∀ i, row ≤ i → i < row + n → ¬Owed s k i → garnerRow k' i = List.replicate (256 * shapeCols k.shape.toNat) 0#32) ∧
      ∀ i, i < row ∨ row + n ≤ i → garnerRow k' i = garnerRow k i := by
  let t : State := { setWave s s.cur (w.finish nx) with uid := s.uid + 1 }
  let op := fun (i : Nat) => GarnerOp.zero (row + i)
  have himg : ∀ i, imageOwes t k i = imageOwes s k i := imageOwes_cur hw rfl (by simp) (by simp)
  obtain ⟨l, hl, hq⟩ := garnerQueue_own (y := y) himg hb (op := op) (r0 := row) (fun _ => rfl) (fun _ _ _ => rfl) n
  let K := withOps k s.uid ((List.range n).map op)
  obtain ⟨hm, hwv, k1, hk1, hops⟩ := garnerActs_frame (id := s.uid) (op := op) (fun _ _ _ => rfl) l (yoke_setYoke t y K)
  obtain ⟨k2, hk2, hshape, hg⟩ := garnerActs_zero y s.uid row l (yoke_setYoke t y K)
  obtain rfl : k1 = k2 := Option.some.inj (hk1.symm.trans hk2)
  have hin : ∀ i, (∃ j ∈ l, i = row + j) ↔ row ≤ i ∧ i < row + n ∧ ¬Owed s k i := fun i => by
    constructor
    · rintro ⟨j, hj, rfl⟩
      exact ⟨by omega, by have := (hl j).1 hj; omega, ((hl j).1 hj).2⟩
    · rintro ⟨h1, h2, h3⟩
      exact ⟨i - row, (hl _).2 ⟨by omega, by rwa [Nat.add_sub_cancel' h1]⟩, by omega⟩
  have hkeep : ∀ i, ¬(∃ j ∈ l, i = row + j) → garnerRow k1 i = garnerRow k i := fun i h => garnerRow_congr hshape (by rw [hg, if_neg h]; rfl)
  refine ⟨garnerActs y s.uid op (setYoke t y K) K l, ?_, ?_, SameMemory.trans (physByte_congr rfl rfl) hm, k1, hk1, fun i h1 h2 ho => ⟨hkeep i ?_, hops _ ?_ ?_⟩,
    fun i h1 h2 ho => ?_, fun i h => hkeep i ?_⟩
  · subst hrow hn
    show execMzero nx a s = _
    unfold execMzero
    rw [checked_ok hw hc]
    dsimp only
    rw [rowPending_cur hw, hp]
    exact congrArg _ hq
  · exact waveOf_put hwv
  · exact fun hi => ((hin i).1 hi).2.2 ho
  · refine List.mem_append_right _ (List.mem_map.2 ⟨.zero i, List.mem_map.2 ⟨i - row, List.mem_range.2 (by omega), ?_⟩, rfl⟩)
    show GarnerOp.zero (row + (i - row)) = _
    rw [Nat.add_sub_cancel' h1]
  · intro j hj he
    have : i = row + j := by injection he with _ h; injection h
    exact ((hin i).1 ⟨j, hj, this⟩).2.2 ho
  · rw [garnerRow_none (by rw [hg, if_pos ((hin i).2 ⟨h1, h2, ho⟩)]), hshape]
    rfl
  · exact fun hi => by have := (hin i).1 hi; omega

end

section
variable (hc : checkRows s w row 1 = .ok (y, k))
include hrow hn hc

theorem mreadg_owed (ho : Owed s k row) (hb : Blocked s k) : Completes (.mreadg nx d a) s fun t => SameMemory s t ∧
    waveOf t s.cur = Wave.finish { w with pending := w.pending ++ [⟨s.uid, [.v d.toNat], [], false⟩] } nx ∧
    ∃ k', lookup t.yokes y = some k' ∧ k'.garner = k.garner ∧ (s.uid, .read row n s.cur s.uid d.toNat w.active) ∈ k'.ops := by
  let x := Wave.finish { w with pending := w.pending ++ [⟨s.uid, [.v d.toNat], [], false⟩] } nx
  let t := setWave { s with uid := s.uid + 1 } s.cur x
  let op := GarnerOp.read row n s.cur s.uid d.toNat w.active
  have himg : ∀ i, imageOwes t k i = imageOwes s k i := imageOwes_cur hw rfl (by simp [x]) (by simp [x])
  refine ⟨setYoke t y (withOps k s.uid [op]), ?_, physByte_congr rfl rfl, waveOf_put rfl, _, yoke_setYoke .., rfl,
    List.mem_append_right _ List.mem_cons_self⟩
  subst hrow hn
  show execMreadg nx d a s = _
  unfold execMreadg
  rw [checked_ok hw hc]
  dsimp only
  rw [rowPending_of_owed ho]
  exact congrArg _ (garnerQueue_owed himg hb (o := op) ho)

theorem maccg_owed (ho : Owed s k row) (hb : Blocked s k) : Completes (.maccg nx d a) s fun t => SameMemory s t ∧
    waveOf t s.cur = w.finish nx ∧
    ∃ k', lookup t.yokes y = some k' ∧ k'.garner = k.garner ∧ (s.uid, .acc row n w.active (w.vreg d.toNat)) ∈ k'.ops := by
  let t : State := { setWave s s.cur (w.finish nx) with uid := s.uid + 1 }
  let op := GarnerOp.acc row n w.active (w.vreg d.toNat)
  have himg : ∀ i, imageOwes t k i = imageOwes s k i := imageOwes_cur hw rfl (by simp) (by simp)
  refine ⟨setYoke t y (withOps k s.uid [op]), ?_, physByte_congr rfl rfl, waveOf_put rfl, _, yoke_setYoke .., rfl,
    List.mem_append_right _ List.mem_cons_self⟩
  subst hrow hn
  show execMaccg nx d a s = _
  unfold execMaccg
  rw [checked_ok hw hc]
  dsimp only
  rw [rowPending_cur hw, rowPending_of_owed ho]
  exact congrArg _ (garnerQueue_owed himg hb (o := op) ho)

theorem mreadg_free (hp : rowPending s k row 1 = false) :
    exec (.mreadg nx d a) s = .next (setWave { s with uid := s.uid + 1 } s.cur (Wave.finish { w with
      pending := w.pending ++ [⟨s.uid, [.v d.toNat], [.v d.toNat w.active (tab 32 fun i => (garnerRow k row).getD (n + i) 0#32)], true⟩] } nx)) := by
  subst hrow hn
  show execMreadg nx d a s = _
  unfold execMreadg
  rw [checked_ok hw hc]
  dsimp only
  rw [hp]
  rfl

theorem maccg_free (hp : rowPending s k row 1 = false) : Completes (.maccg nx d a) s fun t => waveOf t s.cur = w.finish nx ∧ SameMemory s t ∧
    ∃ k', lookup t.yokes y = some k' ∧ (∀ i, i ≠ row → garnerRow k' i = garnerRow k i) ∧
      garnerRow k' row = accRow (garnerRow k row) n w.active (w.vreg d.toNat) := by
  let g := accRow (garnerRow k row) n w.active (w.vreg d.toNat)
  refine ⟨setYoke (setWave s s.cur (w.finish nx)) y { k with garner := put k.garner row g }, ?_, waveOf_put rfl, physByte_congr rfl rfl, _, yoke_setYoke ..,
    fun i hi => garnerRow_congr rfl (lookup_put_ne _ _ hi), by simp [garnerRow, g]⟩
  subst hrow hn
  show execMaccg nx d a s = _
  unfold execMaccg
  rw [checked_ok hw hc]
  dsimp only
  rw [rowPending_cur hw, hp]
  rfl

end
end

theorem accRow_getElem? (g : List Word) (n : Nat) (m : Word) (w : Wave) (d : Nat) {i : Nat} (h : i < g.length) :
    (accRow g n m (w.vreg d))[i]? = some (if n ≤ i ∧ i < n + 32 ∧ m.getLsbD (i - n) = true then
      BitVec.ofNat 32 (rne32 (addV 0 (val32 (g.getD i 0#32).toNat) (val32 (w.lane d (i - n)).toNat))) else g.getD i 0#32) := by
  rw [accRow, List.getElem?_map, List.getElem?_eq_getElem (by simpa using h), List.getElem_zip, List.getElem_range, Option.map_some]
  have hg : g.getD i 0#32 = g[i] := by simp [List.getD, h]
  have hlt : n ≤ i → (i - n < 32 ↔ i < n + 32) := fun h => by omega
  simp only [hg, Wave.lane, Bool.and_eq_true, decide_eq_true_eq, and_assoc]
  by_cases hni : n ≤ i
  · simp [hni, hlt hni]
  · simp [hni]

/-! ### MCADR (R343) -/

section
variable {s : State} {w : Wave} (hw : lookup s.waves s.cur = some w) {y : Nat} {k : Yoke}
  (nx : BitVec 2) (d a b : BitVec 6) (c : BitVec 1) (ty : BitVec 2)

/-- The transfer that MCADR starts, with what it has taken at issue. -/
def mcadrXfer (s : State) (w : Wave) (y : Nat) (k : Yoke) (d a b : BitVec 6) (c : BitVec 1) (ty : BitVec 2) (g0 n : Nat) (late : Bool) : Transfer :=
  let rowBytes := 256 * shapeCols k.shape.toNat * (if ty = 0#2 then 4 else 2)
  { op := .mcadr y g0 n ty, engine := 16 + dieNo (coreNo s w), ctag := w.ctag, wave := s.cur, group := w.group,
    launch := (groupOf s w.group).launch, sub := c ++ 0#1 ++ ty, lanes := 0#32, base := w.sreg a.toNat, ref0 := w.sreg d.toNat, ref1 := 0#64,
    opnd := w.sreg b.toNat, rowoff := [], cmd := [], bara := if c = 1#1 then w.cbar else 0#64, plots := [],
    fmt := 0#4, rows := n, rowBytes,
    image := if late then zeroBytes (n * rowBytes) else (List.range n).flatMap fun i => (garnerRow k (g0 + i)).flatMap (outElem ty.toNat),
    done := 0, parked := none, pause := false, region := waveRegion s w, peer := [], taken := if late then [] else List.range n }

/-- The state once MCADR's transfer has started. -/
def mcadrStarted (s : State) (w : Wave) (nx : BitVec 2) (g0 n : Nat) (bar : Option Place) (z : Transfer) : State :=
  startTransfer (registerBar (setWave s s.cur (w.finishAs nx 5#8 (g0 + n * 2 ^ 10))) (coreNo s w) bar) z true

theorem mcadrStarted_frame {g0 n : Nat} {bar : Option Place} {z : Transfer} (hq : bar = none ∨ CoreQuiet s (coreNo s w)) :
    let t := mcadrStarted s w nx g0 n bar z
    t.waves = put s.waves s.cur (w.finishAs nx 5#8 (g0 + n * 2 ^ 10)) ∧ SameMemory s t ∧ t.yokes = s.yokes ∧ lookup t.transfers s.uid = some z := by
  have hcd : CoresDies (setWave s s.cur (w.finishAs nx 5#8 (g0 + n * 2 ^ 10)))
      (registerBar (setWave s s.cur (w.finishAs nx 5#8 (g0 + n * 2 ^ 10))) (coreNo s w) bar) := by
    rcases hq with rfl | hq
    · exact ⟨_, _, rfl⟩
    · exact coresDies_registerBar (s := setWave s s.cur (w.finishAs nx 5#8 (g0 + n * 2 ^ 10))) hq bar
  obtain ⟨cs, ds, h⟩ := hcd
  simp only [mcadrStarted, h, startTransfer, if_true]
  exact ⟨rfl, physByte_congr rfl rfl, rfl, lookup_put_self ..⟩

include hw

theorem exec_mcadr {g0 n : Nat} (hg : bitsAt (w.sreg d.toNat).toNat 0 10 = g0) (hn : bitsAt (w.sreg d.toNat).toNat 16 16 = n) (h0 : 0 < n) {bar : Option Place}
    (hc : checkMcadr s w (w.sreg a.toNat).toNat (w.sreg b.toNat).toNat g0 n (c == 1#1) = .ok (y, k, bar)) :
    let late := rowPending s k g0 n
    let t := mcadrStarted s w nx g0 n bar (mcadrXfer s w y k d a b c ty g0 n late)
    exec (.mcadr nx d a b c ty) s = .next (if late then garnerQueue t y k s.uid ((List.range n).map fun i => .out (g0 + i) s.uid i) else t) := by
  subst hg hn
  have hne : (bitsAt (w.sreg d.toNat).toNat 16 16 != 0) = true := by simpa using Nat.pos_iff_ne_zero.1 h0
  show execMcadr nx d a b c ty s = _
  unfold execMcadr
  rw [checked_ok hw hc]
  dsimp only
  rw [hne]
  rfl

theorem mcadr_starts {g0 n : Nat} (hg : bitsAt (w.sreg d.toNat).toNat 0 10 = g0) (hn : bitsAt (w.sreg d.toNat).toNat 16 16 = n) (h0 : 0 < n) {bar : Option Place}
    (hc : checkMcadr s w (w.sreg a.toNat).toNat (w.sreg b.toNat).toNat g0 n (c == 1#1) = .ok (y, k, bar)) (hb : Blocked s k)
    (hq : bar = none ∨ CoreQuiet s (coreNo s w)) :
    Completes (.mcadr nx d a b c ty) s fun t => waveOf t s.cur = (w.next nx).complete 5#8 (g0 + n * 2 ^ 10) ∧ SameMemory s t ∧
      ∃ z, lookup t.transfers s.uid = some z ∧ z.op = .mcadr y g0 n ty ∧ z.base = w.sreg a.toNat ∧ z.opnd = w.sreg b.toNat ∧ z.done = 0 ∧
        (∀ i, i < n → (i ∈ z.taken ↔ ¬Owed s k (g0 + i))) ∧
        (∀ i, i < n → Owed s k (g0 + i) → ∃ k', lookup t.yokes y = some k' ∧ (s.uid, .out (g0 + i) s.uid i) ∈ k'.ops) ∧
        (rowPending s k g0 n = false → z.image = (List.range n).flatMap fun i => (garnerRow k (g0 + i)).flatMap (outElem ty.toNat)) := by
  have he := exec_mcadr hw nx d a b c ty hg hn h0 hc
  let z := mcadrXfer s w y k d a b c ty g0 n (rowPending s k g0 n)
  obtain ⟨hwv, hm, hy, hz⟩ := mcadrStarted_frame nx (s := s) (w := w) (g0 := g0) (n := n) (z := z) hq
  cases hp : rowPending s k g0 n with
  | false =>
    have hfree : ∀ i, i < n → ¬Owed s k (g0 + i) := fun i hi => not_owed_of_rowPending hp (Nat.le_add_right ..) (Nat.add_lt_add_left hi _)
    refine ⟨_, he.trans (by rw [hp]), ?_⟩
    simp only [z, hp] at hwv hm hz
    exact ⟨waveOf_put hwv, hm, _, hz, rfl, rfl, rfl, rfl, fun i hi => ⟨fun _ => hfree i hi, fun _ => List.mem_range.2 hi⟩,
      fun i hi ho => absurd ho (hfree i hi), fun _ => rfl⟩
  | true =>
    let op := fun (i : Nat) => GarnerOp.out (g0 + i) s.uid i
    let t := mcadrStarted s w nx g0 n bar z
    let K := withOps k s.uid ((List.range n).map op)
    have hop : ∀ s i g, (garnerEffect s (op i) g).1.waves = s.waves := fun s i g => takeRow_waves ..
    have himg : ∀ i, imageOwes t k i = imageOwes s k i := imageOwes_cur hw hwv (by simp [Wave.finishAs]) (by simp [Wave.finishAs])
    obtain ⟨l, hl, hgq⟩ := garnerQueue_own (y := y) himg hb (op := op) (r0 := g0) (fun _ => rfl) hop n
    obtain ⟨hma, hwa, k', hk', hops⟩ := garnerActs_frame (id := s.uid) (op := op) hop l (yoke_setYoke t y K)
    obtain ⟨im, him⟩ := garnerActs_out y s.uid s.uid g0 l (s := setYoke t y K) (k := K) hz
    refine ⟨garnerActs y s.uid op (setYoke t y K) K l, he.trans (congrArg _ ?_), waveOf_put (hwa.trans hwv), hm.trans (SameMemory.trans (physByte_congr rfl rfl) hma),
      _, him, rfl, rfl, rfl, rfl, fun i hi => ?_, fun i hi ho => ⟨k', hk', hops _ ?_ fun j hj hne => ?_⟩, fun h => by cases h⟩
    · rw [if_pos hp]
      exact hgq
    · have hz0 : z.taken = [] := by simp only [z, hp]; rfl
      simp only [hz0, List.nil_append, hl, hi, true_and]
    · exact List.mem_append_right _ (List.mem_map.2 ⟨op i, List.mem_map.2 ⟨i, List.mem_range.2 hi, rfl⟩, rfl⟩)
    · obtain rfl : i = j := by injection hne with _ h; injection h
      exact ((hl i).1 hj).2 ho

end

/-! ### Runs and what settles after them (R341, R344) -/

/-- Whether no wave is stalled in MDRAIN. -/
def NoDrain (m : AMap Wave) : Prop := ∀ e ∈ m, ∀ n, e.2.stall ≠ some (.mdrain n)

theorem KeepsReady.noDrain {m m' : AMap Wave} (h : KeepsReady m m') (hm : NoDrain m) : NoDrain m' := fun e he n => by
  obtain ⟨d, hd, hst⟩ := h.stalls e he
  rw [hst]
  exact hm d hd n

/-- The yoke with what it reports of its last finished run (R338). -/
def recordedYoke (k : Yoke) : Yoke :=
  match (k.runs.filter fun r => r.done == r.mr).getLast? with
  | some r => if r.id > k.last then { k with inj := r.inj, done := r.done, last := r.id } else k
  | none => k

theorem recordedYoke_fields (k : Yoke) : (recordedYoke k).runs = k.runs ∧ (recordedYoke k).state = k.state := by
  unfold recordedYoke
  split
  · split <;> exact ⟨rfl, rfl⟩
  · exact ⟨rfl, rfl⟩

/-- The yoke with its finished runs gone, IDLE when it was RUNNING and none is left (Table 12.6). -/
def settledYoke (k : Yoke) : Yoke :=
  let k1 := { recordedYoke k with runs := (recordedYoke k).runs.filter fun r => r.done != r.mr }
  if k1.runs.isEmpty && k1.state = .running then { k1 with state := .idle } else k1

theorem settledYoke_runs (k : Yoke) : (settledYoke k).runs = k.runs.filter fun r => r.done != r.mr := by
  unfold settledYoke
  dsimp only
  rw [(recordedYoke_fields k).1]
  split <;> rfl

theorem settledYoke_state {k : Yoke} (h : k.state ≠ .running) : (settledYoke k).state = k.state := by
  unfold settledYoke
  dsimp only
  rw [(recordedYoke_fields k).2, decide_eq_false h, Bool.and_false, if_neg Bool.false_ne_true]

/-- No run has finished. -/
theorem settledYoke_unfinished {k : Yoke} (h : ∀ r ∈ k.runs, r.done ≠ r.mr) :
    (k.runs.filter fun r => r.done == r.mr) = [] ∧ settledYoke k = if k.runs.isEmpty && k.state = .running then { k with state := .idle } else k := by
  have hf : (k.runs.filter fun r => r.done == r.mr) = [] := List.filter_eq_nil_iff.2 fun r hr => by simpa using h r hr
  have hr : recordedYoke k = k := by rw [recordedYoke, hf]; rfl
  have hk : (k.runs.filter fun r => r.done != r.mr) = k.runs := List.filter_eq_self.2 fun r hr => by simpa using h r hr
  refine ⟨hf, ?_⟩
  unfold settledYoke
  simp only [hr, hk]

/-- Whether a wave waits for the drain of a yoke of some groups (R344). -/
def drainWaits (gs : List Nat) (w : Wave) : Bool := gs.contains w.group && (match w.stall with
  | some (.mdrain _) => true
  | _ => false)

/-- A wave once its yoke has drained. -/
def drained (gs : List Nat) (w : Wave) : Wave :=
  if gs.contains w.group then match w.stall with
    | some (.mdrain nx) => Wave.finish { w with stall := none } nx
    | _ => w
  else w

/-- The yoke once it has drained. -/
def drainedYoke (k : Yoke) : Yoke := if k.state = .halted then { k with state := .idle } else k

theorem yokeSettle_eq {s : State} {y : Nat} {k : Yoke} (hk : lookup s.yokes y = some k) :
    let t := (k.runs.filter fun r => r.done == r.mr).foldl (fun t r => endRun t y r) s
    let gs := (settledYoke k).members.map (·.group)
    yokeSettle s y =
      if (inFlight (settledYoke k) == 0 && ((settledYoke k).state != .running)) && t.waves.any (fun e => drainWaits gs e.2) then
        let v := garnerSettle (setYoke t y (drainedYoke (settledYoke k))) y
        { v with waves := v.waves.map fun e => (e.1, drained gs e.2) }
      else garnerSettle (setYoke t y (settledYoke k)) y := by
  have hmap : ∀ (gs : List Nat) (m : AMap Wave), (m.map fun e =>
      if gs.contains e.2.group then
        match e.2.stall with
        | some (.mdrain nx) => (e.1, Wave.finish { e.2 with stall := none } nx)
        | _ => e
      else e) = m.map fun e => (e.1, drained gs e.2) := fun gs m => List.map_congr_left fun e _ => by
    unfold drained
    split
    · split <;> rfl
    · rfl
  unfold yokeSettle
  simp only [hk, ← hmap]
  rfl

theorem yokeSettle_noDrain {s : State} {y : Nat} {k : Yoke} (hk : lookup s.yokes y = some k) (hd : NoDrain s.waves) :
    yokeSettle s y = garnerSettle (setYoke ((k.runs.filter fun r => r.done == r.mr).foldl (fun t r => endRun t y r) s) y (settledYoke k)) y := by
  have hruns := PlotsOnly.foldl (fun t r => plotsOnly_endRun t y r) (k.runs.filter fun r => r.done == r.mr) s
  have hw : ∀ gs : List Nat, (((k.runs.filter fun r => r.done == r.mr).foldl (fun t r => endRun t y r) s).waves.any fun e => drainWaits gs e.2) = false := by
    intro gs
    rw [List.any_eq_false]
    intro e he
    have := hruns.waves.noDrain hd e he
    unfold drainWaits
    split
    · next n hn => exact absurd hn (this n)
    · simp
  rw [yokeSettle_eq hk]
  simp only [hw, Bool.and_false, Bool.false_eq_true, if_false]

/-- R341: a yoke of which no run has finished, and which no MDRAIN waits for. -/
theorem yokeSettle_running {s : State} {y : Nat} {k : Yoke} (hd : NoDrain s.waves) (h : ∀ r ∈ k.runs, r.done ≠ r.mr) (h0 : k.runs ≠ []) :
    yokeSettle (setYoke s y k) y = garnerSettle (setYoke s y k) y := by
  obtain ⟨hf, hs⟩ := settledYoke_unfinished h
  rw [yokeSettle_noDrain (yoke_setYoke s y k) hd, hf, hs, if_neg (by simp [h0]), List.foldl_nil]
  simp only [setYoke, put_put]

/-! ### Loads, runs, halts and drains (R340, R341, R344) -/

section
variable {s : State} {w : Wave} (hw : lookup s.waves s.cur = some w) {y : Nat} {k : Yoke} (nx : BitVec 2) (d a : BitVec 6) (q : BitVec 2) (r : BitVec 1)
include hw

theorem mloadb_loads {l : List (Nat × Plot)} (hc : checkMloadb s w (refOf w d) (2 ^ q.toNat) = .ok (y, k, l)) :
    Completes (.mloadb nx d q r) s fun t => waveOf t s.cur = (w.next nx).complete 1#8 ((refOf w d).handle % 64) ∧ SameMemory s t ∧
      lookup t.yokes y = some { k with qb := 2 ^ q.toNat, b := l.map fun p => some ⟨p.2.fmt, (refOf w d).nrows, (refOf w d).ncols, windowImage p.2 (refOf w d)⟩ } := by
  let s1 := setWave { s with uid := s.uid + 1 } s.cur (w.finishAs nx 1#8 ((refOf w d).handle % 64))
  let acc := fun (t : State) (p : Nat × Plot) => acceptRead t p.1 (refOf w d).handle (r == 1#1) (.loadb y s.uid)
  have hacc : PlotsOnly s1 (l.foldl acc s1) := .foldl (fun _ _ => plotsOnly_acceptRead ..) l s1
  have hwv : (l.foldl acc s1).waves = s1.waves := foldl_keeps State.waves acc (fun _ _ => acceptRead_waves ..) l s1
  refine ⟨_, ?_, waveOf_put (t := setYoke (l.foldl acc s1) y _) hwv, SameMemory.trans (physByte_congr rfl rfl) hacc.same, yoke_setYoke ..⟩
  show execMloadb nx d q r s = _
  unfold execMloadb
  rw [checked_ok hw hc]

theorem exec_mrun {g0 prec : Nat} (hg : bitsAt (w.sreg a.toNat).toNat 0 10 = g0) (hp : clampP (bitsAt (w.sreg a.toNat).toNat 16 5) = prec)
    {l : List (Nat × Plot)} (hc : checkMrun s w (refOf w d) g0 prec = .ok (y, k, l)) : ∃ t run,
      exec (.mrun nx d a r) s = .next (yokeSettle (setYoke t y { k with state := .running, runs := k.runs ++ [run] }) y) ∧
      PlotsOnly (setWave { s with uid := s.uid + 1 } s.cur (w.finishAs nx 1#8 ((refOf w d).handle % 64))) t ∧
      run = { id := s.uid, wave := s.cur, a := l.map fun p => ⟨p.2.fmt, windowImage p.2 (refOf w d), p.1, (refOf w d).handle⟩, b := k.b,
              mr := (refOf w d).nrows, kw := (refOf w d).ncols, g0, prec, qb := k.qb, bands := k.ashape, inj := 0, done := 0 } := by
  subst hg hp
  let s1 := setWave { s with uid := s.uid + 1 } s.cur (w.finishAs nx 1#8 ((refOf w d).handle % 64))
  let kc := depthKC k.ashape.toNat k.qb
  let acc := fun (t : State) (p : Nat × Plot) => acceptRead t p.1 (refOf w d).handle (r == 1#1) (.run y s.uid)
  let fin := fun (t : State) (p : Nat × Nat × Plot) => if (refOf w d).ncols ≤ p.1 * kc then endAccess t p.2.1 (refOf w d).handle (.run y s.uid) else t
  have hfin : ∀ t p, PlotsOnly t (fin t p) := fun t p => by
    dsimp only [fin]
    split
    · exact plotsOnly_endAccess ..
    · exact .refl t
  refine ⟨((List.range l.length).zip l).foldl fin (l.foldl acc s1), _, ?_,
    (PlotsOnly.foldl (fun _ _ => plotsOnly_acceptRead ..) l s1).trans (.foldl hfin _ _), rfl⟩
  show execMrun nx d a r s = _
  unfold execMrun
  rw [checked_ok hw hc]

theorem mrun_queues (hst : w.status = .ready) (hd : NoDrain s.waves) {g0 prec : Nat} (hg : bitsAt (w.sreg a.toNat).toNat 0 10 = g0)
    (hp : clampP (bitsAt (w.sreg a.toNat).toNat 16 5) = prec)
    {l : List (Nat × Plot)} (hc : checkMrun s w (refOf w d) g0 prec = .ok (y, k, l)) (h0 : 0 < (refOf w d).nrows) (hr : ∀ e ∈ k.runs, e.done ≠ e.mr) :
    Completes (.mrun nx d a r) s fun t => (waveOf t s.cur).pc = (w.next nx).pc ∧ SameMemory s t ∧ ∃ k' run, lookup t.yokes y = some k' ∧
      k'.state = .running ∧ k'.runs = k.runs ++ [run] ∧ (k.ops = [] → k' = { k with state := .running, runs := k.runs ++ [run] }) ∧
      run = { id := s.uid, wave := s.cur, a := l.map fun p => ⟨p.2.fmt, windowImage p.2 (refOf w d), p.1, (refOf w d).handle⟩, b := k.b,
              mr := (refOf w d).nrows, kw := (refOf w d).ncols, g0, prec, qb := k.qb, bands := k.ashape, inj := 0, done := 0 } := by
  obtain ⟨t, run, he, ht, hrun⟩ := exec_mrun hw nx d a r hg hp hc
  let x := w.finishAs nx 1#8 ((refOf w d).handle % 64)
  let K : Yoke := { k with state := .running, runs := k.runs ++ [run] }
  have hdt : NoDrain t.waves := ht.waves.noDrain fun e he n => by
    obtain rfl | he := mem_put he
    · simpa [Wave.finishAs] using hd _ (lookup_mem hw) n
    · exact hd e he n
  have hset : yokeSettle (setYoke t y K) y = garnerSettle (setYoke t y K) y := by
    refine yokeSettle_running hdt (fun e he => ?_) (by simp [K])
    obtain he | rfl : e ∈ k.runs ∨ e = run := by simpa [K] using he
    · exact hr e he
    · rw [hrun]
      exact Nat.ne_of_lt h0
  obtain ⟨hm, hwv, g, o, hy⟩ := garnerSettle_frame y (yoke_setYoke t y K)
  obtain ⟨x', hx', -, hpc, -⟩ := (ht.waves.trans hwv).ready s.cur x (lookup_put_self ..) (by simp [x, Wave.finishAs, hst])
  refine ⟨_, he.trans (congrArg _ hset), ?_, SameMemory.trans (physByte_congr rfl rfl) (ht.same.trans (SameMemory.trans (physByte_congr rfl rfl) hm)), _, run, hy, rfl, rfl,
    fun hops => ?_, hrun⟩
  · rw [waveOf_of_lookup hx', hpc]
    simp [x, Wave.finishAs]
  · rw [garnerSettle_idle (yoke_setYoke t y K) hops, yoke_setYoke] at hy
    exact (Option.some.inj hy).symm

theorem exec_mhalt (hc : arrayCheck s w = .ok (y, k)) :
    let t := setWave s s.cur ((w.setS d.toNat (BitVec.ofNat 64 (injOf k))).finish nx)
    exec (.mhalt nx d) s = .next (if k.state = .running then haltRuns t y k else t) := by
  show execMhalt nx d s = _
  unfold execMhalt
  rw [checked_ok hw hc]

end

/-- What stands before the first run that is still to inject a row has no row left to inject. -/
theorem mem_takeWhile_of_find? {l : List Run} {c e : Run} (hf : (l.find? fun r => decide (r.inj < r.mr)) = some c)
    (he : e ∈ l.takeWhile fun r => r.id != c.id) : e.mr ≤ e.inj := by
  obtain ⟨-, as, bs, rfl, has⟩ := List.find?_eq_some_iff_append.1 hf
  have hin : e ∈ as := by
    rw [List.takeWhile_append] at he
    split at he
    · simpa using he
    · exact (List.takeWhile_sublist _).subset he
  simpa using has e hin

/-- R344: the run being injected ends with what it has injected, and those after it are gone. -/
theorem haltRuns_halts {s : State} {y : Nat} (k : Yoke) (hd : NoDrain s.waves) : KeepsReady s.waves (haltRuns s y k).waves ∧
    ∃ k', lookup (haltRuns s y k).yokes y = some k' ∧ k'.state = .halted ∧ ∀ e ∈ k'.runs, e.mr ≤ e.inj := by
  unfold haltRuns
  split
  · next hf => exact ⟨.refl _, _, yoke_setYoke .., rfl, fun e he => by simpa using List.find?_eq_none.1 hf e he⟩
  · next c hf =>
    dsimp only
    generalize hK : ({ k with state := .halted, runs := (k.runs.takeWhile fun r => r.id != c.id) ++ [{ c with mr := c.inj }] } : Yoke) = K
    have hafter := PlotsOnly.foldl (fun t r => plotsOnly_endRun t y r) ((k.runs.dropWhile fun r => r.id != c.id).drop 1) (setYoke s y K)
    generalize (List.drop 1 (k.runs.dropWhile fun r => r.id != c.id)).foldl (fun t r => endRun t y r) (setYoke s y K) = t at hafter ⊢
    have hkt : lookup t.yokes y = some K := by rw [hafter.yokes, yoke_setYoke]
    have hfin := PlotsOnly.foldl (fun t r => plotsOnly_endRun t y r) (K.runs.filter fun r => r.done == r.mr) t
    rw [yokeSettle_noDrain hkt (hafter.waves.noDrain hd)]
    obtain ⟨-, hwv, g, o, hy⟩ := garnerSettle_frame y
      (yoke_setYoke ((K.runs.filter fun r => r.done == r.mr).foldl (fun t r => endRun t y r) t) y (settledYoke K))
    refine ⟨(hafter.waves.trans hfin.waves).trans hwv, _, hy, ?_, fun e he => ?_⟩
    · have : K.state = .halted := by rw [← hK]
      exact (settledYoke_state (by rw [this]; decide)).trans this
    · have he' : e ∈ K.runs := (List.mem_filter.1 (settledYoke_runs K ▸ he)).1
      rw [← hK] at he'
      rcases List.mem_append.1 he' with he' | he'
      · exact mem_takeWhile_of_find? hf he'
      · obtain rfl := List.mem_singleton.1 he'
        exact Nat.le_refl _

section
variable {s : State} {w : Wave} (hw : lookup s.waves s.cur = some w) {y : Nat} {k : Yoke} (nx : BitVec 2) (d a : BitVec 6)
include hw

theorem mhalt_halts (hst : w.status = .ready) (hd : NoDrain s.waves) (hc : arrayCheck s w = .ok (y, k)) (hr : k.state = .running) :
    Completes (.mhalt nx d) s fun t => (d ≠ 0#6 → (waveOf t s.cur).sreg d.toNat = BitVec.ofNat 64 (injOf k)) ∧
      ∃ k', lookup t.yokes y = some k' ∧ k'.state = .halted ∧ ∀ e ∈ k'.runs, e.mr ≤ e.inj := by
  let x := (w.setS d.toNat (BitVec.ofNat 64 (injOf k))).finish nx
  have hdx : NoDrain (setWave s s.cur x).waves := fun e he n => by
    obtain rfl | he := mem_put he
    · simpa [x] using hd _ (lookup_mem hw) n
    · exact hd e he n
  obtain ⟨hwv, hk⟩ := haltRuns_halts (s := setWave s s.cur x) (y := y) k hdx
  obtain ⟨x', hx', -, -, hs⟩ := hwv.ready s.cur x (lookup_put_self ..) (by simp [x, hst])
  refine ⟨_, (exec_mhalt hw nx d hc).trans (by rw [if_pos hr]), fun h0 => ?_, hk⟩
  have hne : d.toNat ≠ 0 := fun h => h0 (BitVec.eq_of_toNat_eq h)
  rw [waveOf_of_lookup hx', Wave.sreg, hs]
  have := Wave.sreg_setS w (k := d.toNat) (BitVec.ofNat 64 (injOf k)) d.isLt
  simpa [Wave.sreg, x, hne] using this

theorem exec_mdrain (hc : arrayCheck s w = .ok (y, k)) :
    exec (.mdrain nx) s = .next (yokeSettle (setWave (setYoke s y { k with held := false }) s.cur { w with stall := some (.mdrain nx) }) y) := by
  show execMdrain nx s = _
  unfold execMdrain
  rw [checked_ok hw hc]

omit hw in
/-- What R337 finds in order: a member of a yoke that is formed, not lost and not ending. -/
theorem arrayCheck_ok (hc : arrayCheck s w = .ok (y, k)) :
    (k.members.map (·.group)).contains w.group = true ∧ k.state ≠ .forming ∧ k.state ≠ .releasing ∧ k.state ≠ .lost := by
  unfold arrayCheck at hc
  split at hc
  · cases hc
  split at hc
  · cases hc
  next m hm =>
  split at hc
  · cases hc
  split at hc
  · cases hc
  split at hc
  · cases hc
  next h1 h2 _ =>
  obtain ⟨rfl, rfl⟩ := Prod.mk.inj (Except.ok.inj hc)
  have hg : m.group = w.group := by simpa using List.find?_some hm
  simp only [Bool.or_eq_true, decide_eq_true_eq, not_or] at h1
  refine ⟨?_, h1.1.2, h1.2, h2⟩
  rw [List.contains_iff_mem, ← hg]
  exact List.mem_map_of_mem (List.mem_of_find?_eq_some hm)

theorem mdrain_ends (hc : arrayCheck s w = .ok (y, k)) (hr : k.runs = []) (ho : k.ops = []) :
    Completes (.mdrain nx) s fun t => waveOf t s.cur = Wave.finish { w with stall := none } nx ∧
      lookup t.yokes y = some { k with held := false, state := if k.state = .idle ∨ k.state = .releasing then k.state else .idle } := by
  obtain ⟨hin, hform, hrel, hlost⟩ := arrayCheck_ok hc
  let K : Yoke := { k with held := false }
  let K1 : Yoke := { K with state := if k.state = .running then .idle else k.state }
  let K2 : Yoke := { K with state := .idle }
  let x : Wave := { w with stall := some (.mdrain nx) }
  let t := setWave (setYoke s y K) s.cur x
  obtain ⟨hf, hs⟩ := settledYoke_unfinished (k := K) (by simp [K, hr])
  have hs1 : settledYoke K = K1 := by
    rw [hs]
    by_cases h : k.state = .running <;> simp [K, K1, hr, h]
  have hs2 : drainedYoke K1 = K2 := by
    cases hks : k.state <;> simp_all [drainedYoke, K1, K2]
  have hcur : (K1.members.map (·.group)).contains w.group = true := hin
  have hwaits : t.waves.any (fun e => drainWaits (K1.members.map (·.group)) e.2) = true :=
    List.any_eq_true.2 ⟨_, lookup_mem (lookup_put_self s.waves s.cur x), by rw [drainWaits, hcur]; rfl⟩
  have hfl : (inFlight K1 == 0 && (K1.state != .running)) = true := by
    have h0 : inFlight K1 = 0 := by simp [inFlight, K1, K, hr]
    rw [h0]
    by_cases h : k.state = .running <;> simp [K1, h]
  have hv : garnerSettle (setYoke t y K2) y = setYoke t y K2 := garnerSettle_idle (yoke_setYoke ..) ho
  have heq := yokeSettle_eq (s := t) (yoke_setYoke s y K)
  simp only [hf, List.foldl_nil, hs1, hfl, hwaits, Bool.and_self, if_true, hs2, hv] at heq
  refine ⟨_, (exec_mdrain hw nx hc).trans (congrArg _ heq), ?_, ?_⟩
  · have hl : lookup (put s.waves s.cur x) s.cur = some x := lookup_put_self ..
    simp only [waveOf, t, setYoke, setWave, lookup_map_key, hl, Option.map_some, Option.getD_some, drained]
    rw [if_pos (show (K1.members.map (·.group)).contains x.group = true from hcur)]
  · refine (yoke_setYoke t y K2).trans (congrArg some ?_)
    simp only [K2, K]
    cases hks : k.state <;> simp_all

theorem exec_msave {l : Yoke × Placed} (hc : checkGarner s w (w.sreg a.toNat) 1 true = .ok (y, l)) :
    exec (.msave nx a) s = .next (setWave { s with uid := s.uid + 1 } s.cur { w with stall := some (.msave nx (w.sreg a.toNat) s.uid) }) := by
  show execMsave nx a s = _
  exact checked_ok hw hc _

theorem exec_mrest {l : Yoke × Placed} (hc : checkGarner s w (w.sreg a.toNat) 0 true = .ok (y, l)) :
    exec (.mrest nx a) s = .next (setWave { s with uid := s.uid + 1 } s.cur { w with stall := some (.mrest nx (w.sreg a.toNat) s.uid) }) := by
  show execMrest nx a s = _
  exact checked_ok hw hc _

end

/-- MCADR without an arrival names no barrier. -/
theorem checkMcadr_noBar {s : State} {w : Wave} {base pitch g0 n y : Nat} {k : Yoke} {bar : Option Place}
    (h : checkMcadr s w base pitch g0 n false = .ok (y, k, bar)) : bar = none := by
  obtain ⟨y', k', -, h⟩ := arrayThen_ok h
  split at h
  · cases h
  split at h
  · cases h
  split at h
  · cases h
  simp only [checkCbar, Bool.not_false, if_true, Except.ok.injEq, Prod.mk.injEq] at h
  exact h.2.2.symm

theorem bitsAt_row (x : Nat) : bitsAt x 0 10 = x % 1024 := by simp [bitsAt_eq]
theorem bitsAt_count (x : Nat) : bitsAt x 16 16 = x / 65536 % 65536 := by simp [bitsAt_eq]

/-- Settles O45: each instruction by what its checks have found; those on the garner by the pass over the operations that wait. -/
theorem arrayInstructions : Obligations.ArrayInstructions := by
  unfold Obligations.ArrayInstructions
  intro nx d a b q t2 c r s w hw hst hstall
  refine ⟨fun h => arrayInstr_noYoke hw h nx d a b q t2 c r, fun y k hk hd => ?_⟩
  intro ref at' ends x row n loaded
  have hrow : bitsAt (w.sreg a.toNat).toNat 0 10 = row := bitsAt_row _
  have hn : bitsAt (w.sreg a.toNat).toNat 16 16 = n := bitsAt_count _
  refine ⟨fun l hc => mloadb_loads hw nx d q r hc, ?_, ?_⟩
  · intro prec l hc h0 hr
    have hp : clampP (bitsAt (w.sreg a.toNat).toNat 16 5) = prec := by rw [bitsAt_eq]; rfl
    obtain ⟨t, ht, hpc, hm, k', run, hk', hs', hr', hops, rfl⟩ := mrun_queues hw nx d a r hst hd hrow hp hc h0 hr
    exact ⟨t, ht, hpc, hm, k', _, hk', hs', hr', hops, rfl, rfl, rfl, rfl, rfl, rfl, rfl, rfl, rfl, rfl⟩
  intro zeros blocked owed
  refine ⟨mzero_free hw nx a hrow hn, mzero_queued hw nx a hrow hn,
    fun hc ho hb => ⟨mreadg_owed hw nx d a hrow hn hc ho hb, maccg_owed hw nx d a hrow hn hc ho hb⟩,
    fun hc hp => ⟨mreadg_free hw nx d a hrow hn hc hp, ?_⟩, ?_,
    fun hc => ⟨fun hr => (exec_mhalt hw nx d hc).trans (by rw [if_neg hr]), mhalt_halts hw nx d hst hd hc, mdrain_ends hw nx hc⟩,
    fun l hc => exec_msave hw nx a hc, fun l hc => exec_mrest hw nx a hc⟩
  · obtain ⟨t, ht, hwv, hm, k', hk', hoth, hacc⟩ := maccg_free hw nx d a hrow hn hc hp
    exact ⟨t, ht, hwv, hm, k', hk', hoth, fun i hi => by rw [hacc]; exact accRow_getElem? _ n w.active w d.toNat hi⟩
  · intro g0 m bar hc h0 hb hq
    refine mcadr_starts hw nx d a b c t2 (bitsAt_row _) (bitsAt_count _) h0 hc hb (hq.imp_left ?_)
    rintro rfl
    exact checkMcadr_noBar hc

end Sys2Proof

/-! SUPPORT. FREEZE_END in a state that holds one wave's key twice: the list of the group's waves names the key for its second entry, and what was held
for the wave acts on the first, a wave of another group, whose trap kills the fault domain and the group with it. -/
namespace Sys2Proof
open Machine

/-- Group 1 of context 1 is frozen on its way to core 1. Key 7 stands twice among the waves: first a wave of group 2 whose faults have all been answered, with
KILL, then a wave of group 1. -/
def doubledWave : State where
  contexts := [(1, { ctx := some 1 })]
  groups := [(1, { ctag := 1, frozen := true, moving := some ⟨1, 0, 1#16, 0, true⟩ })]
  waves := [(7, { ctag := 1, group := 2, status := .parked (.fault [] [(1#32, 0#64)] 0#64 0#8) }), (7, { ctag := 1, group := 1 })]

/-- The groups that a step leaves, and one of default fields where it ends otherwise. -/
def groupsAfter (o : Out) : AMap Group :=
  match o with
  | .next t => t.groups
  | _ => [(0, {})]

/-- R163: HOST_KILL without a handler kills the fault domain, and its group goes. -/
theorem freezeEnd_doubledWave : groupsAfter (exec (.freezeEnd 1) doubledWave) = [] := by decide +kernel

/-- Refutes O50: after FREEZE_END the group that has landed is gone, killed by the answer held for a wave of another group under the same key. -/
theorem not_powerAndTime : ¬ Obligations.PowerAndTime := by
  unfold Obligations.PowerAndTime
  intro h
  obtain ⟨-, -, -, -, -, -, -, -, -, -, -, -, -, -, -, hend, -⟩ := h doubledWave
  obtain ⟨-, hlands⟩ := hend 1 _ rfl
  have hfaults : ∀ e ∈ doubledWave.waves, e.2.group = 1 → ∀ dead va kind, e.2.status ≠ .parked (.fault [] dead va kind) := by
    intro e he hg
    obtain rfl | rfl : e = _ ∨ e = _ := by simpa [doubledWave] using he
    · cases hg
    · nofun
  obtain ⟨hmove, -⟩ := hlands rfl (by decide +kernel) (by decide) (by simp [doubledWave]) hfaults
  obtain ⟨t, ht, hg⟩ := hmove ⟨1, 0, 1#16, 0, true⟩ (by decide +kernel) (by decide +kernel)
  have hgone : t.groups = [] := by rw [← freezeEnd_doubledWave, ht, groupsAfter]
  have hcore : (groupOf t 1).core = 1 := by rw [hg]
  rw [groupOf, hgone] at hcore
  exact absurd hcore (by decide)

end Sys2Proof

/-! SUPPORT. MSAVE_MREST_COMPLETE in a state that holds one yoke's key twice (R87, R344): the end of an MSAVE settles the yoke that is found first under the
key of the group's own, and there an operation of another launch acts. -/
namespace Sys2Proof
open Machine

/-! ### Writes of a wave (R110, R140) -/

theorem drainOnly_settleLine (s : State) (c line : Nat) : DrainOnly s (settleLine s c line) := by
  unfold settleLine
  dsimp only
  split
  · exact (drainOnly_settleEarly ..).trans (drainOnly_drainWay ..)
  · exact drainOnly_settleEarly ..

theorem drainOnly_orderedWrite (s : State) (c kid k : Nat) (b : List Byte) : DrainOnly s (orderedWrite s c kid k b) :=
  (drainOnly_drainWay ..).trans (memoryOnly_performWrite ..).drainOnly

theorem drainOnly_coreWrite (s : State) (c w kid k : Nat) (b : List Byte) : DrainOnly s (coreWrite s c w kid k b) := by
  unfold coreWrite
  dsimp only
  split
  · exact drainOnly_orderedWrite ..
  · exact drainOnly_setCore ..

theorem drainOnly_writePiece (s : State) (c u : Nat) (p : Place) (b : List Byte) : DrainOnly s (writePiece s c u p b) := by
  unfold writePiece
  split
  · exact .refl s
  split
  · exact drainOnly_orderedWrite ..
  · exact (drainOnly_settleLine ..).trans (drainOnly_coreWrite ..)

theorem drainOnly_writeLane (s : State) (c u : Nat) (l : List (Place × Nat)) (b : List Byte) : DrainOnly s (writeLane s c u l b) :=
  List.foldlRecOn (motive := fun acc : State × List Byte => DrainOnly s acc.1) l _ (.refl s) fun _ ih _ _ => ih.trans (drainOnly_writePiece ..)

/-! ### Accesses whose places are all of this device (R35, R49) -/

theorem peerBlocks_onDevice {l : Placed} (h : OnDevice l) : peerBlocks l = [] := by
  have hf : (l.flatMap fun e => e.2.filterMap fun p => if p.1.loc = 2 then some (p.1.key / 64) else none) = [] :=
    List.flatMap_eq_nil_iff.2 fun e he => List.filterMap_eq_nil_iff.2 fun p hp => if_neg (h e he p hp)
  rw [peerBlocks, hf, List.dedup_nil]

theorem writeAsks_onDevice {l : List (Placed × List Byte)} (h : OnDevice (l.flatMap (·.1))) : writeAsks l = [] := by
  rw [writeAsks, peerBlocks_onDevice h, List.map_nil]

/-- Accesses that all find their places pass the checks of their lanes (R49). -/
theorem checkLanes_ok {s : State} {w : Wave} {kind : AccKind} {l : List LaneAcc} {f : LaneAcc → List (Place × Nat)}
    (h : ∀ a ∈ l, placesOf s w kind a = .ok (f a)) : checkLanes s w kind l = .ok (l.map fun a => (a, f a)) := by
  have hres : (l.map fun a => (a, placesOf s w kind a)) = l.map fun a => (a, .ok (f a)) := List.map_congr_left fun a ha => by rw [h a ha]
  have hnone : l.flatMap (fun _ => ([] : List (Nat × LaneFail))) = [] := List.flatMap_eq_nil_iff.2 fun _ _ => rfl
  simp [checkLanes, hres, List.flatMap_map, List.filterMap_map, hnone]

/-! ### MSAVE (R344) -/

section
variable {s : State} {u : Nat} {w : Wave} {nx : BitVec 2} {va : DWord} {y : Nat} {k : Yoke} {l : Placed}

/-- What the checks of an MSAVE or MREST at its end find (R344): its yoke, an aligned image, and the places of its blocks. -/
theorem checkGarner_ok {kind : AccKind} (hk : arrayCheck s w = .ok (y, k)) (ha : va.toNat % 64 = 0)
    (hl : checkLanes s w kind (garnerBlocks k va) = .ok l) : checkGarner s w va kind false = .ok (y, k, l) := by
  simp only [checkGarner, arrayThen, hk, ha, hl, Bool.false_and, Bool.false_eq_true, if_false, bne_self_eq_false]

theorem mem_garnerBlocks {a : LaneAcc} (h : a ∈ garnerBlocks k va) : ∃ i < 16384 * shapeCols k.shape.toNat, a.va = (va + BitVec.ofNat 64 (64 * i)).toNat := by
  obtain ⟨i, hi, rfl⟩ := List.mem_map.1 h
  exact ⟨i, List.mem_range.1 hi, rfl⟩

/-- The end of an MSAVE whose image lies on this device leaves groups and yokes. -/
theorem drainOnly_finishMsave (hc : checkGarner s w va 1 false = .ok (y, k, l)) (hl : OnDevice l) : DrainOnly s (finishMsave s u w nx va) := by
  have hdev : OnDevice (((((List.range l.length).zip l).map fun e => (e.2, garnerBlock k e.1)).map fun e => ([e.1], e.2)).flatMap (·.1)) := by
    intro e he
    simp only [List.mem_flatMap, List.mem_map] at he
    obtain ⟨_, ⟨_, ⟨d, hd, rfl⟩, rfl⟩, he⟩ := he
    obtain rfl := List.mem_singleton.1 he
    exact hl _ (List.of_mem_zip hd).2
  simp only [finishMsave, hc, writeAsks_onDevice hdev, withPeers_none]
  exact (DrainOnly.foldl (fun _ _ => drainOnly_writeLane ..) _ _).trans (drainOnly_setWave ..)

/-- MSAVE_MREST_COMPLETE of an MSAVE that comes first on every row (R87). -/
theorem exec_msaveComplete {i : Nat} (hw : lookup s.waves u = some w) (hst : w.stall = some (.msave nx va i)) (hr : imageReady s w = true) :
    exec (.msaveMrestComplete u) s = .next (settleGroup (finishMsave s u w nx va) w.group) := by
  show execMsaveMrestComplete u s = _
  simp only [execMsaveMrestComplete, hw, hr, hst, Bool.not_true, Bool.false_eq_true, if_false]

theorem settleGroup_eq {g : Nat} (h : yokeOf s g = some (y, k)) : settleGroup s g = garnerSettle s y := by
  simp only [settleGroup, h]

/-- A zero that nothing owes is the only operation that waits: it acts (R87). -/
theorem garnerSettle_zero {i row : Nat} (hk : lookup s.yokes y = some k) (ho : k.ops = [(i, .zero row)]) (hr : runOwes k i row = false)
    (hi : imageOwes s k i = false) : garnerSettle s y = garnerAct s y k (i, .zero row) := by
  simp only [garnerSettle, hk, ho]
  rw [garnerPass_cons_free hk (by simp [GarnerOp.row, hr, hi]), garnerPass]

end

/-! ### Two yokes under one key -/

/-- A wave of group 1 that is stalled in an MSAVE to 0x10000, at place 4 of the order of issue. -/
def savingWave : Wave := { group := 1, stall := some (.msave 0#2 0x10000#64 4) }

/-- The yoke of that group, which holds its lease. -/
def savedYoke : Yoke where
  ctag := 0; launch := 4; gang := 1; state := .idle; held := false; shape := 8#32; ashape := 1#4; members := [⟨1, none, true, false, false, 0⟩]
  qb := 1; b := []; runs := []; inj := 0; done := 0; outerr := false; garner := []

/-- A yoke of another launch without members, on which an MZERO of row 0 waits. -/
def strayYoke : Yoke := { savedYoke with launch := 5, members := [], ops := [(5, .zero 0)] }

/-- Key 7 stands twice among the yokes, first with the stray one; a page of 1 GiB covers the image. -/
def doubledYoke : State where
  groups := [(1, { launch := 4, gang := 1, state := .resident })]
  waves := [(2, savingWave)]
  yokes := [(7, strayYoke), (7, savedYoke)]
  tlb := [⟨.die 0, 0, 0, 2 ^ 30, 0xF#64, false⟩]

/-- Where an access to the page goes. -/
def doubledPlaces (a : LaneAcc) : List (Place × Nat) := [(placeOf 0xF#64 (2 ^ 30) 0 a.va false, a.n)]

theorem doubledYoke_places {a : LaneAcc} (h : a.va < 2 ^ 30) : placesOf doubledYoke savingWave 1 a = .ok (doubledPlaces a) := by
  have htop : bitsAt a.va 55 9 = 0 := by
    rw [bitsAt_eq]
    omega
  have hasker : askerOf doubledYoke savingWave = .core 0 := by decide
  have hhit : tlbHit doubledYoke (.core 0) 0 a.va = some ⟨.die 0, 0, 0, 2 ^ 30, 0xF#64, false⟩ := by
    norm_num at h
    simp [tlbHit, tlbEntry, doubledYoke, Asker.dieNo, h]
  have hleaf : checkLeaf doubledYoke 0xF#64 1 = .ok 0 := rfl
  have hctag : savingWave.ctag = 0 := rfl
  have hplaced : savingWave.placed = [] := rfl
  have htranslate : translate doubledYoke (.core 0) 0 a.va 1 false = .ok (placeOf 0xF#64 (2 ^ 30) 0 a.va false) := by
    simp [Machine.translate, leafFor, canonical, isPrivate, htop, hhit, hleaf]
  simp [placesOf, hplaced, lanePlaces, isPrivate, htop, hasker, hctag, htranslate, doubledPlaces]

/-- The places of the image. -/
def doubledImage : Placed := (garnerBlocks savedYoke 0x10000#64).map fun a => (a, doubledPlaces a)

theorem doubledImage_onDevice : OnDevice doubledImage := by
  intro e he p hp
  obtain ⟨a, -, rfl⟩ := List.mem_map.1 he
  obtain rfl := List.mem_singleton.1 hp
  show (0 : Nat) ≠ 2
  decide

/-- The checks of MSAVE find the second yoke, which is the group's. -/
theorem checkGarner_doubledYoke : checkGarner doubledYoke savingWave 0x10000#64 1 false = .ok (7, savedYoke, doubledImage) := by
  refine checkGarner_ok rfl (by decide) (checkLanes_ok fun a ha => doubledYoke_places ?_)
  obtain ⟨i, hi, ha⟩ := mem_garnerBlocks ha
  have hcols : shapeCols savedYoke.shape.toNat = 1 := rfl
  rw [ha, BitVec.toNat_add, BitVec.toNat_ofNat, BitVec.toNat_ofNat]
  omega

/-- After the image is written the operation of the stray yoke acts. -/
theorem settleGroup_doubledYoke {t : State} (h : DrainOnly doubledYoke t) :
    lookup (settleGroup t savingWave.group).yokes 7 = some { strayYoke with ops := [] } := by
  obtain ⟨_, _, _, _, _, _, _, _, _, _, _, rfl⟩ := h
  rw [settleGroup_eq (y := 7) (k := savedYoke) rfl, garnerSettle_zero (k := strayYoke) rfl rfl rfl (by simp [imageOwes, strayYoke])]
  exact yoke_setYoke ..

/-- Refutes O46: MSAVE_MREST_COMPLETE settles the yoke that is found under the key of the group's own, and so an MZERO that waits on a yoke of another
launch under the same key acts: the yokes do not stay. -/
theorem not_rowsAndGarner : ¬ Obligations.RowsAndGarner := by
  unfold Obligations.RowsAndGarner
  intro h
  obtain ⟨-, -, himage⟩ := h
  obtain ⟨-, hends, -⟩ := himage doubledYoke 2 savingWave 0#2 0x10000#64 7 savedYoke doubledImage rfl 4 (.inl rfl)
  obtain ⟨hsave, -⟩ := hends ⟨rfl, rfl⟩ doubledImage_onDevice (by decide) (by simp [savedYoke]) rfl
  obtain ⟨t, ht, -, hyokes⟩ := hsave rfl checkGarner_doubledYoke
  have hend : exec (.msaveMrestComplete 2) doubledYoke = _ := exec_msaveComplete (w := savingWave) rfl rfl (by decide)
  have hleft := settleGroup_doubledYoke (drainOnly_finishMsave (u := 2) (nx := 0#2) checkGarner_doubledYoke doubledImage_onDevice)
  rw [Host.Outcome.next.inj (hend.symm.trans ht), hyokes] at hleft
  exact absurd hleft (by decide)

end Sys2Proof

/-! SUPPORT. What a core reads, writes and does atomically (R110, R121-R123, R131, R138, R140, R256, R291, R292): loads and stores through the L1, stores on
their way to memory, atomics at a slice, and the statements about them. -/
namespace Sys2Proof
open Machine

/-! ### Atomics (Table 11.2, R121, R142) -/

/-- A sum that wraps is the sum of the patterns (R96). -/
theorem wrapOf_intVal_add (ty x y : Nat) : wrapOf (typeBits ty) (intVal ty x + intVal ty y) = (x + y) % 2 ^ typeBits ty := by
  apply Int.ofNat_inj.1
  rw [wrapOf_cast, Int.add_emod, intVal_emod, intVal_emod]
  push_cast
  exact (Int.add_emod ..).symm

/-- An atomic is a read of the line, which its copies have left, and a write at home where the operation writes. -/
theorem atomicAt_eq (s : State) (src : Option Nat) {kid k n : Nat} (op ty d c : Nat) (h : UnderKey s kid k n) :
    ∃ q, SliceOnly s q ∧ SameMemory s q ∧ atomicAt s src kid k n op ty d c =
      (if (atomOp op ty (natOf (physBytes s k n)) d c).2 then
        homeWrite q src kid k (bytesOf n (atomOp op ty (natOf (physBytes s k n)) d c).1) else q, natOf (physBytes s k n)) := by
  let m := seekLine s (homeOf k) (lineOf k) true n
  have hm : SliceOnly s m := sliceOnly_seekLine ..
  have hq : SameMemory s (reached m (homeOf k) src k false n) := fun a =>
    (physByte_reached ..).trans (physByte_congr (seekLine_mem ..) (seekLine_l2 ..) a)
  refine ⟨_, hm.trans (sliceOnly_reached m (homeOf k) src k false n), hq, ?_⟩
  rw [atomicAt, touch_same s kid k n h, homeRead, performRead_eq _ _ _ (hm.underKey h), physBytes_congr hq]

/-- R121, R142: an atomic returns what memory held, and writes its result or, where a compare fails, nothing. -/
theorem atomicAt_effect (s : State) (src : Option Nat) {kid k n : Nat} (op ty d c : Nat) (h : UnderKey s kid k n) (hs : s.snaps = []) :
    let r := atomicAt s src kid k n op ty d c
    let new := atomOp op ty (natOf (physBytes s k n)) d c
    r.2 = natOf (physBytes s k n) ∧ SliceOnly s r.1 ∧ (new.2 = true → Written s r.1 k (bytesOf n new.1)) ∧ (new.2 = false → SameMemory s r.1) := by
  obtain ⟨q, hq, hm, he⟩ := atomicAt_eq s src op ty d c h
  rw [he]
  generalize atomOp op ty (natOf (physBytes s k n)) d c = new
  obtain ⟨x, wr⟩ := new
  have hu : UnderKey q kid k (bytesOf n x).length := by rw [bytesOf_length]; exact hq.underKey h
  cases wr with
  | false => exact ⟨rfl, hq, fun h => Bool.noConfusion h, fun _ => hm⟩
  | true => exact ⟨rfl, hq.trans (homeWrite_only q src hu (hq.snaps.trans hs)), fun _ => .congrLeft hm (homeWrite_written q src hu (hq.snaps.trans hs)),
      fun h => Bool.noConfusion h⟩

/-- Settles O16: the sum by its residue, the others by their definition; an atomic at a slice by its read and its write. -/
theorem atomicUnit : Obligations.AtomicUnit := by
  unfold Obligations.AtomicUnit
  refine ⟨fun ty old d c _ _ _ => ⟨congrArg (·, true) (wrapOf_intVal_add ty old d), rfl, rfl, rfl, rfl, rfl, rfl, rfl⟩, ?_⟩
  intro s src kid k n op ty d c _ h hs
  obtain ⟨hold, -, hwritten, hsame⟩ := atomicAt_effect s src op ty d c h hs
  exact ⟨hold, hwritten, hsame⟩

/-! ### Copies in an L1 (R32, R39, R110, R125) -/

/-- What a load of a core asks of a copy: its key, its half, and no fill of the line on the way. -/
def Serves (x : Core) (kid k : Nat) (copy : L1Line) : Prop :=
  (isHostKey k = true ∨ copy.kid = kid) ∧ copy.halves.getLsbD (k % 128 / 64) = true ∧
    ∀ e ∈ x.path, ∀ u y z i j l, e = .load u y z i j l → y / 128 ≠ k / 128

theorem loadOn_iff (path : List PathEntry) (line : Nat) :
    loadOn path line = true ↔ ∃ e ∈ path, ∃ u y z i j l, e = .load u y z i j l ∧ y / 128 = line := by
  rw [loadOn, List.any_eq_true]
  refine exists_congr fun e => and_congr_right fun _ => ?_
  cases e <;> simp [lineOf]

theorem serves_iff (x : Core) (kid k : Nat) (copy : L1Line) : Serves x kid k copy ↔ (copy.holds kid k && !loadOn x.path (lineOf k)) = true := by
  rw [Bool.and_eq_true, Bool.not_eq_true', ← Bool.not_eq_true, loadOn_iff]
  simp only [Serves, L1Line.holds, lineOf, Bool.and_eq_true, Bool.or_eq_true, beq_iff_eq, and_assoc, not_exists, not_and, ne_eq]

section
variable {x : Core} {kid k : Nat}

theorem hitLine_of_serves {copy : L1Line} (hl : lookup x.l1 (k / 128) = some copy) (h : Serves x kid k copy) : hitLine x kid k = some copy := by
  simp only [hitLine, lineOf, hl]
  exact if_pos ((serves_iff ..).1 h)

theorem hitLine_of_not_serves (h : ∀ copy, lookup x.l1 (k / 128) = some copy → ¬Serves x kid k copy) : hitLine x kid k = none := by
  unfold hitLine
  split
  · rfl
  · next copy hl => exact if_neg fun hc => h copy hl ((serves_iff ..).2 hc)

/-- The copy that serves an access at once is one of the L1. -/
theorem lookup_of_hitLine {copy : L1Line} (h : hitLine x kid k = some copy) : lookup x.l1 (k / 128) = some copy := by
  unfold hitLine at h
  split at h
  · cases h
  · next hl => exact hl.trans (Option.ite_none_right_eq_some.1 h).2

end

/-! ### Loads (R110, R131) -/

theorem coreLoad_hit {s : State} {c kid k : Nat} {copy : L1Line} (u n id part : Nat) (h : hitLine (coreOf s c) kid k = some copy) :
    coreLoad s c u kid k n id part = (s, some (sliceBytes copy.bytes (k % 128) n)) := by
  simp only [coreLoad, h]

theorem coreLoad_owned {s : State} {c kid k n : Nat} (u id part : Nat) (h : hitLine (coreOf s c) kid k = none)
    (ho : (coreOf s c).owned.contains (k / 128) = true) (hk : UnderKey s kid k n) :
    SameMemory s (coreLoad s c u kid k n id part).1 ∧ (coreLoad s c u kid k n id part).2 = some (physBytes s k n) := by
  simp only [coreLoad, h, lineOf, ho, if_true, homeRead, performRead_eq s _ _ hk]
  exact ⟨fun a => physByte_reached .., congrArg some (physBytes_congr (fun a => physByte_reached ..) k n)⟩

theorem coreLoad_missed {s : State} {c kid k : Nat} (u n id part : Nat) (h : hitLine (coreOf s c) kid k = none)
    (ho : (coreOf s c).owned.contains (k / 128) = false) :
    coreLoad s c u kid k n id part = (setCore s c { coreOf s c with path := (coreOf s c).path ++ [.load u k kid n id part] }, none) := by
  simp only [coreLoad, h, lineOf, ho, Bool.false_eq_true, if_false]

/-- A read that takes its value at once, and that no copy serves: the bytes of memory, after what the core sends to the slice before. -/
theorem coreRead_missed {s : State} {c kid k n : Nat} (h : hitLine (coreOf s c) kid k = none)
    (hk : (coreOf s c).owned.contains (k / 128) = true → UnderKey s kid k n)
    (hk' : (coreOf s c).owned.contains (k / 128) = false → UnderKey (drainWay s c (wayOf k)) kid (k / 128 * 128) 128) :
    (coreRead s c kid k n).2.1 = physBytes (if (coreOf s c).owned.contains (k / 128) then s else drainWay s c (wayOf k)) k n := by
  unfold coreRead
  simp only [h]
  cases ho : (coreOf s c).owned.contains (k / 128) with
  | true =>
    simp only [lineOf, ho, if_true, homeRead, performRead_eq s _ _ (hk ho)]
    exact physBytes_congr (fun a => physByte_reached ..) k n
  | false =>
    simp only [lineOf, ho, Bool.false_eq_true, if_false]
    exact physBytes_congr (fillLine_frame _ c (hk' ho)).2.1 k n

/-! ### Stores (R39, R110, R140) -/

/-- The L1 after a store on a line that its core does not own: a copy under the store's key takes the bytes, one under another key leaves. -/
def storedL1 (x : Core) (kid k : Nat) (b : List Byte) : AMap L1Line :=
  match lookup x.l1 (lineOf k) with
  | some ln => if isHostKey k || ln.kid == kid then put x.l1 (lineOf k) { ln with bytes := patch ln.bytes (k % 128) b } else erase x.l1 (lineOf k)
  | none => x.l1

section
variable {x : Core} {kid k : Nat} {copy : L1Line}

theorem storedL1_none (b : List Byte) (h : lookup x.l1 (k / 128) = none) : storedL1 x kid k b = x.l1 := by
  simp only [storedL1, lineOf, h]

theorem lookup_storedL1_same (b : List Byte) (h : lookup x.l1 (k / 128) = some copy) (hk : isHostKey k = true ∨ copy.kid = kid) :
    lookup (storedL1 x kid k b) (k / 128) = some { copy with bytes := patch copy.bytes (k % 128) b } := by
  have hk' : (isHostKey k || copy.kid == kid) = true := by simpa using hk
  simp only [storedL1, lineOf, h, hk', if_true, lookup_put_self]

theorem lookup_storedL1_other (b : List Byte) (h : lookup x.l1 (k / 128) = some copy) (hh : isHostKey k = false) (hk : copy.kid ≠ kid) :
    lookup (storedL1 x kid k b) (k / 128) = none := by
  have hk' : ¬(isHostKey k || copy.kid == kid) = true := by simp [hh, hk]
  simp only [storedL1, lineOf, h, if_neg hk', lookup_erase_self]

/-- A copy that stands in the L1 after a store holds the store's bytes. -/
theorem bytes_of_lookup_storedL1 {b : List Byte} (h : lookup (storedL1 x kid k b) (k / 128) = some copy) :
    ∃ old, lookup x.l1 (k / 128) = some old ∧ copy.bytes = patch old.bytes (k % 128) b := by
  cases hl : lookup x.l1 (k / 128) with
  | none => rw [storedL1_none b hl, hl] at h; cases h
  | some old =>
    refine ⟨old, rfl, ?_⟩
    by_cases hk : isHostKey k = true ∨ old.kid = kid
    · rw [lookup_storedL1_same b hl hk] at h
      exact congrArg L1Line.bytes (Option.some.inj h).symm
    · rw [not_or, Bool.not_eq_true] at hk
      rw [lookup_storedL1_other b hl hk.1 hk.2] at h
      cases h

end

/-- The bytes put into a copy are there. -/
theorem sliceBytes_patch {l : List Byte} {off : Nat} (b : List Byte) (h : off ≤ l.length) : sliceBytes (patch l off b) off b.length = b := by
  refine List.ext_getElem (sliceBytes_length ..) fun i _ hi => ?_
  have hlen : (l.take off).length = off := List.length_take_of_le h
  rw [← List.getD_eq_getElem _ 0#8, sliceBytes_getD _ _ hi, patch, List.append_assoc, List.getD_append_right _ _ _ _ (by omega), hlen,
    Nat.add_sub_cancel_left, List.getD_append _ _ _ _ hi, List.getD_eq_getElem]

theorem coreWrite_owned {s : State} {c kid k : Nat} (u : Nat) (b : List Byte) (h : (coreOf s c).owned.contains (k / 128) = true) :
    coreWrite s c u kid k b = homeWrite (drainWay s c (wayOf k)) (some c) kid k b := by
  simp only [coreWrite, lineOf, h, if_true]

theorem coreWrite_sent {s : State} {c kid k : Nat} (u : Nat) (b : List Byte) (h : (coreOf s c).owned.contains (k / 128) = false) :
    coreWrite s c u kid k b =
      setCore s c { coreOf s c with l1 := storedL1 (coreOf s c) kid k b, path := (coreOf s c).path ++ [.store u k kid b] } := by
  simp only [coreWrite, lineOf, h, Bool.false_eq_true, if_false]
  rfl

/-- A write of a core at a slice leaves its own record, but for what it owns. -/
theorem coreOf_sliceWrite (s : State) (c : Nat) {kid k : Nat} {l : List Byte} (h : UnderKey s kid k l.length) (hs : s.snaps = []) :
    ∃ o, coreOf (sliceWrite s (some c) kid k l) c = { coreOf s c with owned := o } := by
  by_cases hl : l = []
  · rw [hl, sliceWrite_nil]
    exact ⟨_, rfl⟩
  · obtain ⟨f, hf⟩ := asideFuel_eq s
    obtain ⟨o, ho⟩ := coreOf_reached s (entryDie (some c) k) (some c) k true l.length c
    exact ⟨o, by rw [sliceWrite, hf, performWrite_plain f s _ _ h hs hl, coreOf_markCounted, coreOf_l2Write, ho]⟩

theorem takeWay_path {x : Core} {e : PathEntry} {early rest : List PathEntry} (hp : x.path = early ++ e :: rest) (he : ∀ y ∈ early, y.way ≠ e.way) :
    takeWay x.path e.way = some (e, early ++ rest) := by
  rw [hp, takeWay_append he]

/-- The oldest store of a core to a slice performs (R110): it is in memory, and the rest of the core's record stays but for what it owns. -/
theorem performWay_store {s : State} {c u kid k : Nat} {b : List Byte} {early rest : List PathEntry}
    (hp : (coreOf s c).path = early ++ .store u k kid b :: rest) (he : ∀ e ∈ early, e.way ≠ wayOf k) (hk : UnderKey s kid k b.length) (hs : s.snaps = []) :
    let t := performWay s c (wayOf k)
    SliceOnly s t ∧ Written s t k b ∧ ∃ o, coreOf t c = { coreOf s c with path := early ++ rest, owned := o } := by
  have ht : takeWay (coreOf s c).path (wayOf k) = some (.store u k kid b, early ++ rest) := takeWay_path (e := .store u k kid b) hp he
  let m := setCore s c { coreOf s c with path := early ++ rest }
  have hm : SliceOnly s m := sliceOnly_setCore ..
  have hx : performWay s c (wayOf k) = sliceWrite m (some c) kid k b := by
    simp only [performWay, ht]
    rfl
  obtain ⟨o, ho⟩ := coreOf_sliceWrite m c (hm.underKey hk) hs
  rw [hx]
  exact ⟨hm.trans (sliceWrite_only m _ (hm.underKey hk) hs), .congrLeft (fun _ => rfl) (sliceWrite_written m _ kid k b (hm.underKey hk) hs), o,
    ho.trans (by rw [coreOf_setCore])⟩

theorem writeThroughPerform_store {s : State} {c u kid k : Nat} {b : List Byte} {early rest : List PathEntry}
    (hp : (coreOf s c).path = early ++ .store u k kid b :: rest) (he : ∀ e ∈ early, e.way ≠ wayOf k) (hk : UnderKey s kid k b.length) (hs : s.snaps = []) :
    Completes (.writeThroughPerform ⟨c, wayOf k⟩) s fun t =>
      Written s t k b ∧ (coreOf t c).path = early ++ rest ∧ (coreOf t c).l1 = (coreOf s c).l1 ∧ t.waves = s.waves := by
  have ht : takeWay (coreOf s c).path (wayOf k) = some (.store u k kid b, early ++ rest) := takeWay_path (e := .store u k kid b) hp he
  have hx : exec (.writeThroughPerform ⟨c, wayOf k⟩) s = .next (performWay s c (wayOf k)) := by
    show Host.Outcome.next _ = _
    simp only [ht]
  obtain ⟨ho, hw, o, hc⟩ := performWay_store hp he hk hs
  exact ⟨_, hx, hw, by rw [hc], by rw [hc], ho.waves⟩

/-- A path that holds one store, applied to the store's slice. -/
theorem drainWay_store {s : State} {c u kid k : Nat} {b : List Byte} (hp : (coreOf s c).path = [.store u k kid b]) :
    drainWay s c (wayOf k) = performWay s c (wayOf k) := by
  have hw : (PathEntry.way (.store u k kid b)) = wayOf k := rfl
  rw [drainWay, hp, List.filter_cons_of_pos (by simp [hw])]
  rfl

section
variable {s : State} {c kid k : Nat} {b : List Byte} (u : Nat) (h0 : 0 < b.length) (hb : k % 128 + b.length ≤ 128) (hk : UnderKey s kid k b.length)
  (hs : s.snaps = []) (hp : (coreOf s c).path = [])

include h0 hb hk in
/-- Bytes of one line that stand under a key: so does the line. -/
theorem UnderKey.line : UnderKey s kid (k / 128 * 128) 128 := fun line h1 h2 => hk line (by omega) (by omega)

include h0 hb hk hs hp

/-- A store on a line that its core owns has performed before the core reads it. -/
theorem coreRead_coreWrite_owned (ho : (coreOf s c).owned.contains (k / 128) = true) (hl : lookup (coreOf s c).l1 (k / 128) = none) :
    (coreRead (coreWrite s c u kid k b) c kid k b.length).2.1 = b := by
  have quiet : ∀ t : State, (coreOf t c).path = [] → drainWay t c (wayOf k) = t := fun t ht => drainWay_quiet t c _ (by simp [ht])
  rw [coreWrite_owned u b ho, quiet s hp]
  obtain ⟨o, hc⟩ := coreOf_homeWrite s c hk hs
  have hf := homeWrite_only s (some c) hk hs
  have hw := homeWrite_written s (some c) hk hs
  generalize homeWrite s (some c) kid k b = t at hc hf hw ⊢
  have hq := quiet t (by rw [hc]; exact hp)
  have hmiss : hitLine (coreOf t c) kid k = none := hitLine_of_not_serves fun copy h => by rw [hc, hl] at h; cases h
  rw [coreRead_missed hmiss (fun _ => hf.underKey hk) (fun _ => hq.symm ▸ hf.underKey (hk.line h0 hb)), hq, ite_self]
  exact hw.bytes

/-- A store on another line is in the core's copy, or performs before the read that finds none. -/
theorem coreRead_coreWrite_sent (ho : (coreOf s c).owned.contains (k / 128) = false)
    (hl : ∀ copy, lookup (coreOf s c).l1 (k / 128) = some copy → copy.bytes.length = 128) :
    (coreRead (coreWrite s c u kid k b) c kid k b.length).2.1 = b := by
  rw [coreWrite_sent u b ho, hp]
  let t := setCore s c { coreOf s c with l1 := storedL1 (coreOf s c) kid k b, path := [.store u k kid b] }
  have hc : coreOf t c = { coreOf s c with l1 := storedL1 (coreOf s c) kid k b, path := [.store u k kid b] } := coreOf_setCore ..
  show (coreRead t c kid k b.length).2.1 = b
  cases hhit : hitLine (coreOf t c) kid k with
  | some copy =>
    obtain ⟨old, hold, hbytes⟩ := bytes_of_lookup_storedL1 (by simpa only [hc] using lookup_of_hitLine hhit)
    simp only [coreRead, hhit, hbytes]
    exact sliceBytes_patch b (by rw [hl old hold]; omega)
  | none =>
    have hown : (coreOf t c).owned.contains (k / 128) = false := by rw [hc]; exact ho
    have hpath : (coreOf t c).path = [] ++ .store u k kid b :: [] := by rw [hc]; rfl
    have hkt : UnderKey t kid k b.length := hk
    have hdrain : drainWay t c (wayOf k) = performWay t c (wayOf k) := drainWay_store hpath
    obtain ⟨hf, hw, -⟩ := performWay_store hpath (by simp) hkt hs
    rw [coreRead_missed hhit (fun _ => hk) (fun _ => hdrain ▸ hf.underKey (hkt.line h0 hb)), hown, if_neg (by simp), hdrain]
    exact hw.bytes

end

/-! ### Loads that see another core's stores (R138) -/

theorem mergeWaiting_store {u kid k : Nat} (b l : List Byte) : mergeWaiting [.store u k kid b] (k / 128) l = patch l (k % 128) b := by
  simp [mergeWaiting, waitingWrites, lineOf]

/-- R138: a load that sees the one store on another core's path gives its bytes and leaves memory as it is. -/
theorem readEarly_store {s : State} {a u kid k : Nat} {b : List Byte} (c : Nat) (hk : UnderKey s kid k b.length)
    (hp : (coreOf s a).path = [.store u k kid b]) :
    let r := readEarly s c a kid k b.length
    r.2 = b ∧ SameMemory s r.1 ∧ lookup (coreOf r.1 c).early (k / 128) = some a := by
  obtain ⟨-, hm, o, ha⟩ := sliceRead_frame s (some c) hk a
  refine ⟨?_, hm.trans fun _ => rfl, ?_⟩
  · simp only [readEarly, ha, hp, lineOf, mergeWaiting_store]
    exact sliceBytes_patch b (by rw [physBytes_length]; omega)
  · simp only [readEarly, lineOf, coreOf_setCore, lookup_put_self]

/-- Settles O13: a write and a read of a slice, a core's store and its load, where a load takes its bytes, and a load that sees a store early. -/
theorem memoryReadsBack : Obligations.MemoryReadsBack := by
  unfold Obligations.MemoryReadsBack
  refine ⟨fun s src rd kid k b hk hs => ?_, fun s c u kid k b h0 hb hk hs hl ho hp => ?_,
    fun s c u kid k n id part => ⟨fun copy hl h => coreLoad_hit u n id part (hitLine_of_serves hl h), fun h => ?_⟩,
    fun s c a u kid k b _ _ hk hp => readEarly_store c hk hp⟩
  · have hw := sliceWrite_written s src kid k b hk hs
    have hk' := (sliceWrite_only s src hk hs).underKey hk
    obtain ⟨hm, hbytes⟩ := sliceRead_bytes (sliceWrite s src kid k b) rd kid k b.length hk'
    exact ⟨hw, hbytes.trans hw.bytes, hm⟩
  · cases hown : (coreOf s c).owned.contains (k / 128) with
    | true => exact coreRead_coreWrite_owned u h0 hb hk hs hp hown (ho hown)
    | false => exact coreRead_coreWrite_sent u h0 hb hk hs hp hown hl
  · have hmiss : hitLine (coreOf s c) kid k = none := hitLine_of_not_serves h
    exact ⟨fun ho hk => coreLoad_owned u id part hmiss ho hk, fun ho => coreLoad_missed u n id part hmiss ho⟩

/-- Settles O14: a store that is sent, the places of a lane's pieces, and a store that performs. -/
theorem storePath : Obligations.StorePath := by
  unfold Obligations.StorePath
  refine ⟨fun s c u kid k b ho => ?_, fun s c u n q more b hq => ⟨rfl, rfl, fun hsc => ?_, fun hsc => ?_⟩,
    fun s c u k kid b early rest hp he hk hs => writeThroughPerform_store hp he hk hs⟩
  · rw [coreWrite_sent u b ho]
    refine ⟨fun _ => rfl, ?_, fun d hd => coreOf_setCore_ne s _ hd, fun copy hl hk => ?_, fun copy hl hh hk => ?_, fun hl => ?_, rfl⟩
    all_goals rw [coreOf_setCore]
    · exact lookup_storedL1_same b hl hk
    · exact lookup_storedL1_other b hl hh hk
    · exact storedL1_none b hl
  · simp only [writePiece, if_neg hq, hsc, if_true]
    rfl
  · simp only [writePiece, if_neg hq, hsc, Bool.false_eq_true, if_false]
    rfl

/-! ### Atomics of waves (R256, R291, R292) -/

theorem atomAsks_onDevice {l : Placed} (h : OnDevice l) (op ty : Nat) (d c : Nat → Nat) : atomAsks l op ty d c = [] := by
  rw [atomAsks, peerBlocks_onDevice h, List.map_nil]

/-- The wave of a scalar atomic that has been placed (R121, R256): the old value is outstanding, and known where the atomic was performed at once. -/
def atomicIssued (w : Wave) (nx : BitVec 2) (id : Nat) (regs : List RegName) (sc : Bool) (write : Nat → RegWrite) (old : Option Nat) : Wave :=
  match old with
  | some x => Wave.finish { w with
      ctr := { w.ctr with faratom := w.ctr.faratom + (if sc then 1#64 else 0#64) }
      pending := w.pending ++ [⟨id, regs, [write x], true⟩] } nx
  | none => Wave.finish { w with
      ctr := { w.ctr with faratom := w.ctr.faratom + 1#64 }
      pending := w.pending ++ [⟨id, regs, [], false⟩] } nx

/-- A scalar atomic whose place is memory of this device is placed as R121 states, and its old value is outstanding for s[D]. -/
theorem scalarAtomic_onDevice {s : State} {w : Wave} {acc : LaneAcc} {q : Place} {m : Nat} {ps : List (Place × Nat)} {rest : Placed}
    (hw : lookup s.waves s.cur = some w) (hl : OnDevice ((acc, (q, m) :: ps) :: rest)) (nx : BitVec 2) (d a : BitVec 6) (ty op scope : Nat)
    (hc : checkScalar s w 3 (w.sreg a.toNat).toNat (typeBytes ty) = .ok ((acc, (q, m) :: ps) :: rest)) :
    scalarAtomic s nx d a ty op scope =
      (let n := typeBytes ty
       let r := coreAtomic { s with uid := s.uid + 1 } (coreNo s w) q.kid q.key (leafSC q.leaf) scope
         ⟨s.cur, s.uid, .s d.toNat, 0, n, op, ty, (w.sreg d.toNat).toNat % 2 ^ (8 * n), (w.sreg (d.toNat + 1)).toNat % 2 ^ (8 * n)⟩
       .next (setWave r.1 s.cur (atomicIssued (waveOf r.1 s.cur) nx s.uid (sN d) (leafSC q.leaf) (fun x => .s d.toNat (scalarForm ty x)) r.2))) := by
  have hq : q.loc ≠ 2 := hl _ (List.mem_cons_self ..) _ (List.mem_cons_self ..)
  have hcore : coreNo { s with uid := s.uid + 1 } w = coreNo s w := rfl
  rw [scalarAtomic, checked_ok hw hc]
  simp only [atomAsks_onDevice hl, withPeers_none, if_neg hq, atomLane, hcore]
  generalize coreAtomic _ _ _ _ _ _ _ = r
  obtain ⟨t, _ | x⟩ := r
  · rfl
  · cases leafSC q.leaf <;> rfl

theorem wideN_eq (ty : Nat) : wideN ty = if ty = 6 ∨ ty = 7 then 2 else 1 := by
  simp [wideN, isWide]

theorem vW_eq (ty : Nat) (d : BitVec 6) : vW ty d = if ty = 6 ∨ ty = 7 then [RegName.v d.toNat, .v (d.toNat + 1)] else [.v d.toNat] := by
  simp [vW, isWide, vQ, vN]

/-- The atomic of one lane of a VATOM, at memory of this device (R291). -/
def laneAtomic (u id d ty op scope : Nat) (dat cmp : Nat → Nat) (t : State) (e : LaneAcc × List (Place × Nat)) : State :=
  match e.2 with
  | (q, _) :: _ => atomicLane t u id d ty op scope e.1 q (dat e.1.lane) (cmp e.1.lane)
  | [] => t

/-- A VATOM whose places are memory of this device performs its lanes one after another; one that is on its way leaves the result outstanding. -/
theorem execVatom_onDevice {s : State} {w : Wave} {l : Placed} (hw : lookup s.waves s.cur = some w) (hl : OnDevice l) (nx : BitVec 2) (d a : BitVec 6)
    (p k : BitVec 3) (o : BitVec 4) (hc : checkVector s w (okAtomic o.toNat) 3 (fun i => gatherAddr w a.toNat k.toNat i) = .ok l) :
    execVatom nx d a p k o s =
      (let t := l.foldl (laneAtomic s.cur s.uid d.toNat w.ty o.toNat p.toNat (w.elem w.ty d.toNat) (w.elem w.ty (d.toNat + wideN w.ty)))
        { s with uid := s.uid + 1 }
       let w' := waveOf t s.cur
       .next (setWave t s.cur (Wave.finish
         (if atomicWaits (coreOf t (coreNo t w')).path s.uid then { w' with pending := w'.pending ++ [⟨s.uid, vW w.ty d, [], false⟩] } else w') nx))) := by
  rw [execVatom, checkedLanes_ok hw hc]
  simp only [atomAsks_onDevice hl, withPeers_none]
  rw [List.foldl_ext (g := laneAtomic s.cur s.uid d.toNat w.ty o.toNat p.toNat (w.elem w.ty d.toNat) (w.elem w.ty (d.toNat + wideN w.ty)))]
  intro t e he
  obtain ⟨acc, _ | ⟨⟨q, m⟩, ps⟩⟩ := e
  · rfl
  · exact if_neg (hl _ he _ (List.mem_cons_self ..))

/-- Settles O18: SATOM and SATOMF by the placing of a scalar atomic, VATOM by its lanes one after another. -/
theorem coreAtomics : Obligations.CoreAtomics := by
  unfold Obligations.CoreAtomics
  refine ⟨fun nx d a p t o fo s w acc q m ps rest hw hl => ⟨fun hc => scalarAtomic_onDevice hw hl nx d a 6 o.toNat p.toNat hc,
    fun hc => scalarAtomic_onDevice hw hl nx d a (satomfType t.toNat) fo.toNat p.toNat hc⟩, fun nx d a p k o s w l hw hl hc => ?_⟩
  have hx := execVatom_onDevice hw hl nx d a p k o hc
  rw [wideN_eq, vW_eq] at hx
  exact hx

end Sys2Proof

/-! SUPPORT. Requests of waves to peers, fences and hints (R48, R111, R120, R294-R297): what an access that reaches a peer waits for, and the statements about
it and about FENCE, PREFETCH, CFLUSH and LOCQ. -/
namespace Sys2Proof
open Machine

/-! ### Accesses that reach a peer (R48, R120) -/

section
variable (s : State) (u : Nat) {w : Wave} (l : Placed) {asks : List PeerAsk} (lw : Bool) (k : State → List (List Byte) → State) (ha : asks ≠ [])
include ha

theorem withPeers_unsent (hp : w.peer = []) : withPeers s u w l asks lw k = sendAsks s u w l asks := by
  simp [withPeers, ha, hp]

theorem withPeers_unanswered (hx : ∃ x ∈ w.peer, x.answer = none) : withPeers s u w l asks lw k = s := by
  obtain ⟨x, hx, hn⟩ := hx
  have hany : w.peer.any (·.answer.isNone) = true := List.any_eq_true.2 ⟨x, hx, by simp [hn]⟩
  simp [withPeers, ha, List.ne_nil_of_mem hx, hany]

/-- With every request granted the access goes on with the answers' bytes. -/
theorem withPeers_granted (hp : w.peer ≠ []) (hx : ∀ x ∈ w.peer, ∃ b, x.answer = some (true, b)) :
    withPeers s u w l asks lw k = k (setWave s u { w with peer := [], placed := [] }) (w.peer.map fun x => ((x.answer.map (·.2)).getD [])) := by
  have hany : w.peer.any (·.answer.isNone) = false := List.any_eq_false.2 fun x h => by obtain ⟨b, hb⟩ := hx x h; simp [hb]
  simp only [withPeers, List.isEmpty_iff, ha, hp, if_false, hany, Bool.false_eq_true]
  rw [List.filter_eq_nil_iff.2 fun e he => by obtain ⟨b, hb⟩ := hx e.1 (List.of_mem_zip he).1; simp [hb]]
  exact congrArg (k _) (List.map_congr_left fun x h => by obtain ⟨b, hb⟩ := hx x h; simp [hb])

end

/-- An access with one request, which was refused, takes PEER_REFUSED and goes no further. -/
theorem withPeers_refused (s : State) (u : Nat) {w : Wave} (l : Placed) (e : PeerAsk) (lw : Bool) (k : State → List (List Byte) → State) {x : PeerTx}
    {b : List Byte} (hp : w.peer = [x]) (hx : x.answer = some (false, b)) :
    withPeers s u w l [e] lw k = takeTrap (setWave s u { w with peer := [], placed := [] }) u ⟨9, 10, argAddr e.va, 0#32 ||| e.lanes⟩ true lw := by
  simp [withPeers, hp, hx]

/-- The requests that an access sends: a packet and a transaction for each, and nothing else of memory or of the wave's place. -/
theorem sendAsks_frame (s : State) (u : Nat) (w : Wave) (l : Placed) (asks : List PeerAsk) :
    let t := sendAsks s u w l asks
    t.packets.length = s.packets.length + asks.length ∧ (waveOf t u).peer.length = asks.length ∧ (waveOf t u).pc = w.pc ∧ (waveOf t u).placed = l ∧
      (∀ x ∈ (waveOf t u).peer, x.answer = none) ∧ SameMemory s t := by
  simp only [sendAsks, waveOf_setWave]
  refine ⟨by simp, by simp, trivial, trivial, fun x hx => ?_, fun _ => rfl⟩
  obtain ⟨e, -, rfl⟩ := List.mem_map.1 hx
  rfl

/-- Settles O20: requests are sent, waited for, granted or refused. -/
theorem peerTransactions : Obligations.PeerTransactions := by
  unfold Obligations.PeerTransactions
  intro s u w l asks lw k ha
  refine ⟨fun hp => ?_, fun _ hx => withPeers_unanswered s u l lw k ha hx, fun hp hx => withPeers_granted s u l lw k ha hp hx,
    fun x b hp _ hx e he => ?_⟩
  · rw [withPeers_unsent s u l lw k ha hp]
    exact sendAsks_frame s u w l asks
  · subst he
    exact withPeers_refused s u l e lw k hp hx

/-! ### FENCE, PREFETCH, CFLUSH and LOCQ (R111, R294-R297) -/

section
variable {s : State} {w : Wave} (hw : lookup s.waves s.cur = some w) (nx : BitVec 2) (a b : BitVec 6)
include hw

theorem exec_fence (p : BitVec 3) (k : BitVec 2) :
    exec (.fence nx p k) s =
      (let t0 := flushResults s s.cur
       let t1 := if k ≠ 0#2 ∧ 2 ≤ p.toNat then drainPath t0 (coreNo s w) else t0
       let t2 := if k ≠ 1#2 ∧ 2 ≤ p.toNat then setCore t1 (coreNo s w) { coreOf t1 (coreNo s w) with l1 := [] } else t1
       .next (setWave t2 s.cur ((waveOf t2 s.cur).finish nx))) := by
  have hrel : ∀ t, (if k = 0#2 then t else fenceRelease t (coreNo s w) p.toNat) =
      if k ≠ 0#2 ∧ 2 ≤ p.toNat then drainPath t (coreNo s w) else t := fun t => by
    by_cases hk : k = 0#2 <;> simp [fenceRelease, hk]
  have hacq : ∀ t, (if k = 1#2 then t else fenceAcquire t (coreNo s w) p.toNat) =
      if k ≠ 1#2 ∧ 2 ≤ p.toNat then setCore t (coreNo s w) { coreOf t (coreNo s w) with l1 := [] } else t := fun t => by
    by_cases hk : k = 1#2 <;> simp [fenceAcquire, dropShared, hk]
  show execFence nx p k s = _
  rw [execFence, onWave_eq hw]
  simp only [hrel, hacq]

/-- A PREFETCH ends, whatever it has found. -/
theorem exec_prefetch (m : BitVec 1) :
    exec (.prefetch nx a b m) s =
      (let t := match translate s (.core (coreNo s w)) w.ctag (w.sreg a.toNat + w.sreg b.toNat).toNat 0 false with
        | .error _ => s
        | .ok q => if q.loc = 2 then s else if m = 0#1 then prefetchL2 s (coreNo s w) q else if leafSC q.leaf then s else prefetchL1 s (coreNo s w) q
       .next (setWave t s.cur ((waveOf t s.cur).finish nx))) := by
  show execPrefetch nx a b m s = _
  rw [execPrefetch, onWave_eq hw]
  rfl

theorem prefetch_nothing (m : BitVec 1)
    (h : (∃ e, translate s (.core (coreNo s w)) w.ctag (w.sreg a.toNat + w.sreg b.toNat).toNat 0 false = .error e) ∨
      ∃ q, translate s (.core (coreNo s w)) w.ctag (w.sreg a.toNat + w.sreg b.toNat).toNat 0 false = .ok q ∧
        (q.loc = 2 ∨ (m = 1#1 ∧ leafSC q.leaf = true))) :
    exec (.prefetch nx a b m) s = .next (setWave s s.cur (w.finish nx)) := by
  rw [exec_prefetch hw]
  obtain ⟨e, he⟩ | ⟨q, hq, h2 | ⟨rfl, hsc⟩⟩ := h
  · simp only [he, waveOf_of_lookup hw]
  · simp only [hq, h2, if_true, waveOf_of_lookup hw]
  · simp only [hq, hsc, if_true, if_neg (show ¬(1#1 : BitVec 1) = 0#1 by decide), ite_self, waveOf_of_lookup hw]

theorem prefetch_l2 {q : Place} (hq : translate s (.core (coreNo s w)) w.ctag (w.sreg a.toNat + w.sreg b.toNat).toNat 0 false = .ok q) (hloc : q.loc ≠ 2) :
    exec (.prefetch nx a b 0#1) s = .next (setWave (sliceRead s (some (coreNo s w)) q.kid (q.key / 128 * 128) 128).1 s.cur (w.finish nx)) := by
  have hwaves : waveOf (prefetchL2 s (coreNo s w) q) s.cur = w := by
    rw [waveOf, prefetchL2, sliceRead, (memoryOnly_performRead ..).waves]
    exact waveOf_of_lookup hw
  rw [exec_prefetch hw]
  simp only [hq, if_neg hloc, if_true, hwaves]
  rfl

theorem prefetch_l1 {q : Place} (hq : translate s (.core (coreNo s w)) w.ctag (w.sreg a.toNat + w.sreg b.toNat).toNat 0 false = .ok q) (hloc : q.loc ≠ 2)
    (hsc : leafSC q.leaf = false) :
    exec (.prefetch nx a b 1#1) s =
      .next (setWave (prefetchL1 s (coreNo s w) q) s.cur ((waveOf (prefetchL1 s (coreNo s w) q) s.cur).finish nx)) := by
  rw [exec_prefetch hw]
  simp only [hq, if_neg hloc, if_neg (show ¬(1#1 : BitVec 1) = 0#1 by decide), hsc, Bool.false_eq_true, if_false]

theorem exec_cflush (k : BitVec 2) :
    exec (.cflush nx a b k) s =
      (let n := (w.sreg b.toNat).toNat % 2 ^ 32
       .next (if n = 0 then setWave s s.cur (w.finish nx) else setWave s s.cur { w with stall := some (.cflush nx (w.sreg a.toNat) n k.toNat) })) := by
  show execCflush nx a b k s = _
  rw [execCflush, onWave_eq hw]
  simp only [bitsAt_low]

end

/-- Settles O21: each instruction by what it does of the current wave. -/
theorem fencesAndHints : Obligations.FencesAndHints := by
  unfold Obligations.FencesAndHints
  intro nx d a b p k m s w hw
  refine ⟨exec_fence hw nx p k, ⟨prefetch_nothing hw nx a b m, fun q hq hloc hm => ?_, fun q hq hloc hsc hm => ?_⟩,
    ⟨fun hn => ?_, fun hn => ?_⟩, regOp_eq hw nx _⟩
  · subst hm
    exact prefetch_l2 hw nx a b hq hloc
  · subst hm
    exact prefetch_l1 hw nx a b hq hloc hsc
  · rw [exec_cflush hw]
    exact congrArg Host.Outcome.next (if_pos hn)
  · rw [exec_cflush hw]
    exact congrArg Host.Outcome.next (if_neg hn)

end Sys2Proof

/-! SUPPORT. Other devices (R120, R405, R413, R418-R422): their requests and the answers to ours, the ports to them, and the statement about them. -/
namespace Sys2Proof
open Machine

/-! ### What accesses leave of the packets sent -/

theorem packets_touch (s : State) (kid k n : Nat) : (touch s kid k n).packets = s.packets := by
  have one : ∀ (s : State) line, (retag s line kid).packets = s.packets := fun s line => by
    unfold retag
    dsimp only
    split
    · rfl
    · split <;> rfl
  have many : ∀ n (s : State) line, (retagMany s line n kid).packets = s.packets := by
    intro n
    induction n with
    | zero => exact fun _ _ => rfl
    | succ n ih => exact fun s line => (ih _ _).trans (one s line)
  unfold touch
  split
  · rfl
  · exact many ..

theorem packets_performWrite (fuel : Nat) (s : State) (die : Nat) (src : Option Nat) (kid k : Nat) (l : List Byte) :
    (performWrite fuel s die src kid k l).packets = s.packets := by
  induction fuel generalizing s die src kid k l with
  | zero => rfl
  | succ f ih =>
    have aside : ∀ (l : List (Nat × Nat × List Byte)) (t : State),
        (l.foldl (fun t e => performWrite f t (homeOf e.2.1) none e.1 e.2.1 e.2.2) t).packets = t.packets := fun l t =>
      List.foldlRecOn (motive := fun u : State => u.packets = t.packets) l _ rfl fun u hu e _ => (ih u ..).trans hu
    unfold performWrite
    split
    · rfl
    · exact (sliceOnly_l2Write ..).packets.trans ((aside _ _).trans ((sliceOnly_reached ..).packets.trans (packets_touch ..)))

theorem packets_atomicAt (s : State) (src : Option Nat) (kid k n op ty d c : Nat) : (atomicAt s src kid k n op ty d c).1.packets = s.packets := by
  have hr : (performRead (seekLine (touch s kid k n) (homeOf k) (lineOf k) true n) (homeOf k) src kid k n).1.packets = s.packets :=
    (sliceOnly_reached ..).packets.trans ((packets_touch ..).trans ((sliceOnly_seekLine ..).packets.trans (packets_touch ..)))
  unfold atomicAt
  dsimp only [homeRead]
  split
  · exact (packets_performWrite ..).trans hr
  · exact hr

/-! ### Bytes under a mask (R120) -/

/-- The byte at position `j` after runs of bytes have been written one after another over `d`. -/
def runByte (runs : List (Nat × List Byte)) (j : Nat) (d : Byte) : Byte :=
  runs.foldl (fun x e => if e.1 ≤ j ∧ j < e.1 + e.2.length then e.2.getD (j - e.1) 0#8 else x) d

theorem runByte_cons (e : Nat × List Byte) (rest : List (Nat × List Byte)) (j : Nat) (d : Byte) :
    runByte (e :: rest) j d = runByte rest j (if e.1 ≤ j ∧ j < e.1 + e.2.length then e.2.getD (j - e.1) 0#8 else d) := rfl

/-- A byte before the runs of a mask joins the run that it meets, or is a run of its own. -/
theorem runByte_maskRuns_some (i : Nat) (b : Byte) (m : List (Option Byte)) (j : Nat) (d : Byte) :
    runByte (maskRuns i (some b :: m)) j d = runByte (maskRuns (i + 1) m) j (if j = i then b else d) := by
  have alone : (if i ≤ j ∧ j < i + 1 then [b].getD (j - i) 0#8 else d) = if j = i then b else d := by
    by_cases h : j = i
    · subst h
      simp
    · rw [if_neg (by omega), if_neg h]
  cases hr : maskRuns (i + 1) m with
  | nil =>
    simp only [maskRuns, hr]
    exact alone
  | cons e rest =>
    obtain ⟨p, l⟩ := e
    simp only [maskRuns, hr]
    by_cases hp : p = i + 1
    · subst hp
      rw [if_pos rfl, runByte_cons, runByte_cons]
      congr 1
      dsimp only
      rw [List.length_cons]
      by_cases h : j = i
      · subst h
        simp
      · by_cases hj : i + 1 ≤ j ∧ j < i + 1 + l.length
        · rw [if_pos (by omega), if_pos hj, show j - i = (j - (i + 1)) + 1 by omega, List.getD_cons_succ]
        · rw [if_neg (by omega), if_neg hj, if_neg h]
    · rw [if_neg hp, runByte_cons]
      exact congrArg (runByte _ j) alone

/-- The runs of a mask write the bytes that it names, each at its place. -/
theorem runByte_maskRuns (i : Nat) (m : List (Option Byte)) (j : Nat) (d : Byte) :
    runByte (maskRuns i m) j d = if i ≤ j then (m.getD (j - i) none).getD d else d := by
  induction m generalizing i d with
  | nil => simp [maskRuns, runByte]
  | cons x m ih =>
    have head : runByte (maskRuns i (x :: m)) j d = runByte (maskRuns (i + 1) m) j (if j = i then x.getD d else d) := by
      cases x with
      | none => simp only [maskRuns, Option.getD_none, ite_self]
      | some b => exact runByte_maskRuns_some ..
    rw [head, ih]
    by_cases h : j = i
    · subst h
      rw [if_neg (by omega), if_pos rfl, if_pos (le_refl j), Nat.sub_self]
      rfl
    · rw [if_neg h]
      by_cases hj : i + 1 ≤ j
      · rw [if_pos hj, if_pos (by omega), show j - i = (j - (i + 1)) + 1 by omega, List.getD_cons_succ]
      · rw [if_neg hj, if_neg (by omega)]

theorem maskRuns_bounds {i : Nat} {m : List (Option Byte)} {e : Nat × List Byte} (h : e ∈ maskRuns i m) :
    i ≤ e.1 ∧ e.1 + e.2.length ≤ i + m.length ∧ 0 < e.2.length := by
  induction m generalizing i e with
  | nil => cases h
  | cons x m ih =>
    have later : ∀ e ∈ maskRuns (i + 1) m, i ≤ e.1 ∧ e.1 + e.2.length ≤ i + (m.length + 1) ∧ 0 < e.2.length := fun e he => by
      have := ih he
      omega
    cases x with
    | none => exact later e h
    | some b =>
      cases hr : maskRuns (i + 1) m with
      | nil =>
        simp only [maskRuns, hr, List.mem_singleton] at h
        subst h
        simp
      | cons f rest =>
        obtain ⟨p, l⟩ := f
        rw [hr] at later
        obtain ⟨-, hl, -⟩ := later (p, l) (List.mem_cons_self ..)
        simp only [maskRuns, hr] at h
        split at h
        · next hp =>
          obtain rfl | h := List.mem_cons.1 h
          · simp only [List.length_cons] at hl ⊢
            omega
          · exact later e (List.mem_cons_of_mem _ h)
        · obtain rfl | h := List.mem_cons.1 h
          · simp
          · exact later e h

/-- Runs of bytes written from a place on, one after another. -/
theorem runs_written (s : State) {die off : Nat} {runs : List (Nat × List Byte)} (hs : s.snaps = [])
    (hk : ∀ e ∈ runs, UnderKey s (key0 s) (localKey die off + e.1) e.2.length) :
    let t := runs.foldl (fun s e => agentWrite s (key0 s) (localKey die (off + e.1)) e.2) s
    SliceOnly s t ∧ ∀ a, physByte t a = if localKey die off ≤ a then runByte runs (a - localKey die off) (physByte s a) else physByte s a := by
  induction runs generalizing s with
  | nil => exact ⟨.refl s, fun a => (ite_self _).symm⟩
  | cons e rest ih =>
    have hplace : localKey die (off + e.1) = localKey die off + e.1 := (Nat.add_assoc ..).symm
    have he := hk e (List.mem_cons_self ..)
    have ho := agentWrite_only s he hs
    have hw := agentWrite_written s he hs
    obtain ⟨ho', hb⟩ := ih (agentWrite s (key0 s) (localKey die off + e.1) e.2) (ho.snaps.trans hs) fun f hf => by
      rw [ho.key0]
      exact ho.underKey (hk f (List.mem_cons_of_mem _ hf))
    rw [List.foldl_cons, hplace]
    refine ⟨ho.trans ho', fun a => (hb a).trans ?_⟩
    rw [hw a, runByte_cons]
    by_cases ha : localKey die off ≤ a
    · rw [if_pos ha, if_pos ha]
      congr 1
      exact if_congr (by omega) (by rw [Nat.sub_add_eq]) rfl
    · rw [if_neg ha, if_neg ha, if_neg (by omega)]

theorem maskedBytes_getD (b : List Byte) (mask : List Bool) (i : Nat) :
    (maskedBytes b mask).getD i none = if i < b.length ∧ (mask = [] ∨ mask.getD i false = true) then some (b.getD i 0#8) else none := by
  by_cases hi : i < b.length
  · simp [maskedBytes, List.getD, hi]
  · simp [maskedBytes, List.getD, hi]

/-! ### Requests of other devices (R419, R421) -/

/-- One word of an incoming atomic: it performs at its home, and its old value follows those of the words before. -/
def peerWord (die n op ty : Nat) (acc : State × List Byte) (e : Nat × DWord × DWord) : State × List Byte :=
  let r := atomicAt acc.1 none (key0 acc.1) (localKey die e.1) n op ty (e.2.1.toNat % 2 ^ (8 * n)) (e.2.2.toNat % 2 ^ (8 * n))
  (r.1, acc.2 ++ bytesOf n r.2)

theorem peerAtomics_eq (s : State) (die n op ty : Nat) (words : List (Nat × DWord × DWord)) :
    peerAtomics s die n op ty words = words.foldl (peerWord die n op ty) (s, []) := rfl

/-- The words of an incoming atomic give an old value each, and send nothing. -/
theorem peerWords_frame (die n op ty : Nat) (words : List (Nat × DWord × DWord)) (acc : State × List Byte) :
    (words.foldl (peerWord die n op ty) acc).2.length = acc.2.length + n * words.length ∧
      (words.foldl (peerWord die n op ty) acc).1.packets = acc.1.packets := by
  induction words generalizing acc with
  | nil => exact ⟨rfl, rfl⟩
  | cons e rest ih =>
    obtain ⟨hlen, hpack⟩ := ih (peerWord die n op ty acc e)
    refine ⟨hlen.trans ?_, hpack.trans (packets_atomicAt ..)⟩
    rw [peerWord, List.length_append, bytesOf_length, List.length_cons, Nat.mul_succ]
    omega

theorem exec_peerRequest_atomic {s : State} (node : BitVec 12) {die : Nat} {op : BitVec 4} {ty : BitVec 3} {words : List (Nat × DWord × DWord)}
    (hp : peerShape s die ((words.headD (0, 0, 0)).1 / 64 * 64) 64 = true) (ha : peerAtomicOk op ty words = true)
    (hw : windowAllows s node.toNat die ((words.headD (0, 0, 0)).1 / 64 * 64) 64 true = true) :
    exec (.peerRequest node (.atomic die op ty words)) s =
      (let r := peerAtomics s die (typeBytes (peerType op ty)) op.toNat (peerType op ty) words
       .next (answerPeer r.1 node true r.2)) := by
  show Host.Outcome.next (if _ then _ else _) = _
  rw [if_pos (by rw [hp, ha, hw]; rfl)]

section
variable {s : State} (hs : s.snaps = []) (node : BitVec 12) {die off n : Nat}

theorem peerRequest_read (hk : UnderKey s (key0 s) (localKey die off) n) (hp : peerShape s die off n = true)
    (hw : windowAllows s node.toNat die off n false = true) :
    Completes (.peerRequest node (.read die off n)) s fun t =>
      SameMemory s t ∧ t.packets = s.packets ++ [.answer node.toNat true (physBytes s (localKey die off) n)] := by
  obtain ⟨ho, hm, hb⟩ := agentRead_same s hk
  have hx : exec (.peerRequest node (.read die off n)) s =
      .next (answerPeer (agentRead s (key0 s) (localKey die off) n).1 node true (agentRead s (key0 s) (localKey die off) n).2) := by
    show Host.Outcome.next (if _ then _ else _) = _
    rw [if_pos (by rw [hp, hw]; rfl)]
  refine ⟨_, hx, hm, ?_⟩
  rw [answerPeer, ho.packets, hb]

include hs

theorem peerRequest_write {b : List Byte} (mask : List Bool) (hk : UnderKey s (key0 s) (localKey die off) b.length)
    (hp : peerShape s die off b.length = true) (hw : windowAllows s node.toNat die off b.length true = true) :
    Completes (.peerRequest node (.write die off b mask)) s fun t =>
      (∀ i, i < b.length → physByte t (localKey die off + i) =
        if mask = [] ∨ mask.getD i false = true then b.getD i 0#8 else physByte s (localKey die off + i)) ∧
      (∀ k, k < localKey die off ∨ localKey die off + b.length ≤ k → physByte t k = physByte s k) ∧
      t.packets = s.packets ++ [.answer node.toNat true []] := by
  have hlen : (maskedBytes b mask).length = b.length := by simp [maskedBytes]
  obtain ⟨ho, hb⟩ := runs_written s (die := die) (off := off) (runs := maskRuns 0 (maskedBytes b mask)) hs fun e he => by
    obtain ⟨-, h2, h3⟩ := maskRuns_bounds he
    exact hk.sub (by omega) (by omega) h3
  have hx : exec (.peerRequest node (.write die off b mask)) s = .next (answerPeer ((maskRuns 0 (maskedBytes b mask)).foldl
      (fun s e => agentWrite s (key0 s) (localKey die (off + e.1)) e.2) s) node true []) := by
    show Host.Outcome.next (if _ then _ else _) = _
    rw [if_pos (by rw [hp, hw]; rfl)]
  refine ⟨_, hx, fun i hi => (hb _).trans ?_, fun k h => (hb k).trans ?_, ?_⟩
  · rw [if_pos (by omega), Nat.add_sub_cancel_left, runByte_maskRuns, if_pos (Nat.zero_le i), Nat.sub_zero, maskedBytes_getD]
    simp only [hi, true_and]
    split <;> rfl
  · split
    · rw [runByte_maskRuns, if_pos (Nat.zero_le _), Nat.sub_zero, maskedBytes_getD, if_neg (by omega)]
      rfl
    · rfl
  · rw [answerPeer, ho.packets]

/-- One word of an incoming atomic is an atomic at its home (R121). -/
theorem peerRequest_atomic_one {op : BitVec 4} {ty : BitVec 3} {d c : DWord} (hp : peerShape s die (off / 64 * 64) 64 = true)
    (ha : peerAtomicOk op ty [(off, d, c)] = true) (hw : windowAllows s node.toNat die (off / 64 * 64) 64 true = true)
    (hk : UnderKey s (key0 s) (localKey die off) (typeBytes (peerType op ty))) :
    Completes (.peerRequest node (.atomic die op ty [(off, d, c)])) s fun t =>
      let x := peerType op ty
      let n := typeBytes x
      let old := natOf (physBytes s (localKey die off) n)
      let r := atomOp op.toNat x old (d.toNat % 2 ^ (8 * n)) (c.toNat % 2 ^ (8 * n))
      (r.2 = true → Written s t (localKey die off) (bytesOf n r.1)) ∧ (r.2 = false → SameMemory s t) ∧
      t.packets = s.packets ++ [.answer node.toNat true (bytesOf n old)] := by
  obtain ⟨hold, ho, hwritten, hsame⟩ := atomicAt_effect s none op.toNat (peerType op ty) (d.toNat % 2 ^ (8 * typeBytes (peerType op ty)))
    (c.toNat % 2 ^ (8 * typeBytes (peerType op ty))) hk hs
  refine ⟨_, exec_peerRequest_atomic node hp ha hw, hwritten, hsame, ?_⟩
  rw [peerAtomics_eq, List.foldl_cons, List.foldl_nil, peerWord, answerPeer, ho.packets, hold, List.nil_append]

end

theorem peerRequest_atomic (s : State) (node : BitVec 12) {die : Nat} {op : BitVec 4} {ty : BitVec 3} {words : List (Nat × DWord × DWord)}
    (hp : peerShape s die ((words.headD (0, 0, 0)).1 / 64 * 64) 64 = true) (ha : peerAtomicOk op ty words = true)
    (hw : windowAllows s node.toNat die ((words.headD (0, 0, 0)).1 / 64 * 64) 64 true = true) :
    Completes (.peerRequest node (.atomic die op ty words)) s fun t =>
      ∃ old : List Byte, old.length = typeBytes (peerType op ty) * words.length ∧ t.packets = s.packets ++ [.answer node.toNat true old] := by
  obtain ⟨hlen, hpack⟩ := peerWords_frame die (typeBytes (peerType op ty)) op.toNat (peerType op ty) words (s, [])
  exact ⟨_, exec_peerRequest_atomic node hp ha hw, _, hlen.trans (Nat.zero_add _), congrArg (· ++ _) hpack⟩

/-- A request whose shape is not legal, or that no window allows, is refused. -/
theorem peerRequest_refused (s : State) (node : BitVec 12) (req : PeerReq)
    (h : (match req with
      | .read die off n => peerShape s die off n && windowAllows s node.toNat die off n false
      | .write die off b _ => peerShape s die off b.length && windowAllows s node.toNat die off b.length true
      | .atomic die op ty words => peerShape s die ((words.headD (0, 0, 0)).1 / 64 * 64) 64 && peerAtomicOk op ty words
          && windowAllows s node.toNat die ((words.headD (0, 0, 0)).1 / 64 * 64) 64 true
      | .other => false) = false) :
    exec (.peerRequest node req) s = .next { s with packets := s.packets ++ [.answer node.toNat false []] } := by
  have refused : ∀ {p : Bool} (t : State), p = false → (if p = true then t else answerPeer s node false []) = answerPeer s node false [] := fun t hp => by
    rw [hp, if_neg (by simp)]
  cases req with
  | read die off n => exact congrArg Host.Outcome.next (refused _ h)
  | write die off b mask => exact congrArg Host.Outcome.next (refused _ h)
  | atomic die op ty words => exact congrArg Host.Outcome.next (refused _ h)
  | other => rfl

/-! ### Answers of other devices (R120) -/

/-- The one transaction that waits is answered. -/
theorem peerAnswer_one (s : State) {u : Nat} {w : Wave} {x : PeerTx} (ok : Bool) (b : List Byte) (hw : s.waves = [(u, w)]) (ht : s.transfers = [])
    (hp : w.peer = [x]) (hx : x.answer = none) :
    peerAnswer s x.id ok b = { s with waves := [(u, { w with peer := [{ x with answer := some (ok, b) }] })] } := by
  have hset : setAnswer w.peer x.id ok b = [{ x with answer := some (ok, b) }] := by simp [setAnswer, hp, hx]
  simp only [peerAnswer, hw, ht, mapVals, List.map_cons, List.map_nil, hset]

theorem peerTimeout_one (s : State) {u : Nat} {w : Wave} {x : PeerTx} (hw : s.waves = [(u, w)]) (ht : s.transfers = [])
    (hp : w.peer = [x]) (hx : x.answer = none) :
    exec .peerTimeout s = .next (if x.sent + 50000000 ≤ s.tsc.toNat then peerAnswer s x.id false [] else s) := by
  have hopen : peerOpen s = [x] := by simp [peerOpen, hw, ht, hp]
  show Host.Outcome.next _ = _
  by_cases h : x.sent + 50000000 ≤ s.tsc.toNat
  · simp [hopen, peerLate, hx, h]
  · simp [hopen, peerLate, hx, h]

/-! ### Ports (R405, R418) -/

theorem postEvent_events (s : State) (source kind : Nat) (data : List Byte) (h : s.events.length < 1024) :
    (postEvent s source kind data).events = s.events ++ [⟨s.tsc.toNat, source, kind, sliceBytes data 0 16⟩] := by
  have : ¬s.events.length ≥ Config.eventBuffer := Nat.not_le.2 h
  rw [postEvent, if_neg this]

theorem postEvent_waves (s : State) (source kind : Nat) (data : List Byte) : (postEvent s source kind data).waves = s.waves := by
  obtain ⟨_, _, _, h⟩ := postEvent_frame s source kind data
  rw [h]

theorem postEvent_bar (s : State) (source kind : Nat) (data : List Byte) : (postEvent s source kind data).bar = s.bar := by
  obtain ⟨_, _, _, h⟩ := postEvent_frame s source kind data
  rw [h]

theorem postEvent_port (s : State) (source kind : Nat) (data : List Byte) (port : Nat) : portUp (postEvent s source kind data) port = portUp s port := by
  obtain ⟨_, _, _, h⟩ := postEvent_frame s source kind data
  rw [h]
  rfl

theorem portUp_put (s : State) (port q : Nat) (up : Bool) : portUp { s with ports := put s.ports port up } q = if q = port then up else portUp s q := by
  unfold portUp
  split
  · next h => rw [h, lookup_put_self]; rfl
  · next h => rw [lookup_put_ne _ _ h]

/-- A port that goes down leaves the others, and nothing of the waves or of BAR0. -/
theorem dropPort_frame (s : State) (port : Nat) :
    (dropPort s port).waves = s.waves ∧ (dropPort s port).bar = s.bar ∧ ∀ q, portUp (dropPort s port) q = if q = port then false else portUp s q := by
  unfold dropPort
  split
  · exact ⟨postEvent_waves .., postEvent_bar .., fun q => (postEvent_port ..).trans (portUp_put ..)⟩
  · next h =>
    refine ⟨rfl, rfl, fun q => ?_⟩
    split
    · next hq => rw [hq, Bool.eq_false_iff.2 h]
    · rfl

theorem dropPorts_frame (l : List Nat) (s : State) :
    (l.foldl dropPort s).waves = s.waves ∧ (l.foldl dropPort s).bar = s.bar ∧ ∀ q, portUp (l.foldl dropPort s) q = if q ∈ l then false else portUp s q := by
  induction l generalizing s with
  | nil => exact ⟨rfl, rfl, fun q => by simp⟩
  | cons p l ih =>
    obtain ⟨hw, hb, hu⟩ := ih (dropPort s p)
    obtain ⟨hw', hb', hu'⟩ := dropPort_frame s p
    refine ⟨hw.trans hw', hb.trans hb', fun q => ?_⟩
    rw [List.foldl_cons, hu, hu']
    by_cases h : q = p <;> simp [h]

theorem portSource_nawalink {port : Nat} (h : port < 96) : portSource port = 16 + port := if_pos h

theorem nodeId_eq (s : State) : nodeId s = s.bar.nodeid.toNat % 4096 := by
  rw [nodeId, bitsAt_eq, pow_zero, Nat.div_one]
  rfl

section
variable {s : State} {port : Nat}

/-- A port that trains takes the node number that was written (R405). -/
theorem trainNode_node (hn : s.bar.nodeidNext.toNat % 4096 ≠ 0xFFF) : trainNode s = { s with bar := { s.bar with nodeid := s.bar.nodeidNext } } := by
  unfold trainNode
  exact if_neg (by rw [nodeId_eq]; exact hn)

theorem trainNode_none (hn : s.bar.nodeidNext.toNat % 4096 = 0xFFF) :
    (trainNode s).waves = s.waves ∧ (trainNode s).bar = { s.bar with nodeid := s.bar.nodeidNext } ∧ ∀ q, q < 96 → portUp (trainNode s) q = false := by
  have he : trainNode s = (List.range 96).foldl dropPort { s with bar := { s.bar with nodeid := s.bar.nodeidNext } } := by
    unfold trainNode
    exact if_pos (by rw [nodeId_eq]; exact hn)
  obtain ⟨hw, hb, hu⟩ := dropPorts_frame (List.range 96) { s with bar := { s.bar with nodeid := s.bar.nodeidNext } }
  rw [he]
  exact ⟨hw, hb, fun q hq => (hu q).trans (if_pos (List.mem_range.2 hq))⟩

/-- LINK_UP of a port to another device that is down (R418). -/
theorem exec_linkUp (hp : port < 96) (hd : portUp s port = false) (auth : Bool) :
    exec (.linkUp port auth) s = .next (if auth = false ∨ nodeId (trainNode s) = 0xFFF then trainNode s
      else postEvent { trainNode s with ports := put (trainNode s).ports port true } (16 + port) 5 [1#8]) := by
  have h : ¬(decide (port > 103) || portUp s port) = true := by simp [hd]; omega
  show Host.Outcome.next (if _ then _ else _) = _
  rw [if_neg h, if_pos hp, portSource_nawalink hp]
  simp [hp]

variable (hp : port < 96) (hroom : s.events.length < 1024)
include hp hroom

theorem linkUp_trains (hd : portUp s port = false) (hn : s.bar.nodeidNext.toNat % 4096 ≠ 0xFFF) :
    Completes (.linkUp port true) s fun t => portUp t port = true ∧ t.bar.nodeid = s.bar.nodeidNext ∧
      t.events = s.events ++ [⟨s.tsc.toNat, 16 + port, 5, sliceBytes [1#8] 0 16⟩] ∧ t.waves = s.waves := by
  refine ⟨_, exec_linkUp hp hd true, ?_⟩
  rw [trainNode_node hn, if_neg (by rw [nodeId_eq]; simpa using hn)]
  exact ⟨(postEvent_port ..).trans ((portUp_put ..).trans (if_pos rfl)), congrArg Bar0.nodeid (postEvent_bar ..), postEvent_events _ _ _ _ hroom,
    postEvent_waves ..⟩

omit hroom in
theorem linkUp_refused (hd : portUp s port = false) (hn : s.bar.nodeidNext.toNat % 4096 ≠ 0xFFF) :
    Completes (.linkUp port false) s fun t => portUp t port = false ∧ t.events = s.events ∧ t.waves = s.waves := by
  refine ⟨_, exec_linkUp hp hd false, ?_⟩
  rw [trainNode_node hn, if_pos (.inl rfl)]
  exact ⟨hd, rfl, rfl⟩

omit hroom in
theorem linkUp_noNode (hd : portUp s port = false) (auth : Bool) (hn : s.bar.nodeidNext.toNat % 4096 = 0xFFF) :
    Completes (.linkUp port auth) s fun t => (∀ q, q < 96 → portUp t q = false) ∧ t.bar.nodeid = s.bar.nodeidNext ∧ t.waves = s.waves := by
  obtain ⟨hw, hb, hu⟩ := trainNode_none hn
  refine ⟨_, exec_linkUp hp hd auth, ?_⟩
  rw [if_pos (.inr (by rw [nodeId_eq, hb]; exact hn))]
  exact ⟨hu, by rw [hb], hw⟩

theorem linkDown_drops (hu : portUp s port = true) :
    Completes (.linkDown port) s fun t => portUp t port = false ∧
      t.events = s.events ++ [⟨s.tsc.toNat, 16 + port, 5, sliceBytes [0#8] 0 16⟩] ∧ t.waves = s.waves := by
  obtain ⟨hw, -, hdown⟩ := dropPort_frame s port
  refine ⟨_, rfl, (hdown port).trans (if_pos rfl), ?_, hw⟩
  rw [dropPort, if_pos hu, portSource_nawalink hp]
  exact postEvent_events _ _ _ _ hroom

end

/-! ### Commands about other devices (R407, R421, R422) -/

/-- A completion record and MQHEAD, and nothing of what a command about other devices sets. -/
theorem completeCommand_answers (s : State) (hs : s.snaps = []) (cpla : DWord) (status result : Nat) :
    let t := completeCommand s cpla status result
    Answered s t cpla status result ∧ t.windows = s.windows ∧ t.binds = s.binds := by
  let b := bytesOf 4 status ++ bytesOf 4 result ++ bytesOf 8 s.tsc.toNat ++ zeroBytes 16
  have hlen : b.length = 32 := by simp [b, zeroBytes]
  have ho := hostWrite_only s (kid := 0) (l := b) (hostKey_ge cpla.toNat) hs
  have hw := (hostWrite_written s (kid := 0) (l := b) (hostKey_ge cpla.toNat) hs).bytes
  rw [hlen] at hw
  have hc : completeCommand s cpla status result =
      (let m := agentWrite s 0 (hostKey cpla.toNat) b
       { m with bar := { m.bar with mqhead := m.bar.mqhead + 1#32 } }) := rfl
  simp only [hc]
  generalize agentWrite s 0 (hostKey cpla.toNat) b = m at ho hw
  exact ⟨⟨congrArg (fun r : Bar0 => r.mqhead + 1#32) ho.bar, (physBytes_congr (s := m) (fun _ => rfl) _ _).trans hw⟩,
    ho.congr State.windows fun _ _ _ _ _ => rfl, ho.congr State.binds fun _ _ _ _ _ => rfl⟩

/-- A command that is done is answered with status 0 from the state that it leaves. -/
theorem completes_of_done {s m : State} {i : Instr} {cpla : DWord} {f : State → Answer} {result : Nat} (hi : exec i s = command s cpla f)
    (hr : s.bar.recovery = false) (hm : m.snaps = []) (h : f s = done m result) :
    Completes i s fun t => Answered m t cpla 0 result ∧ t.windows = m.windows ∧ t.binds = m.binds := by
  refine ⟨completeCommand m cpla 0 result, hi.trans ?_, completeCommand_answers m hm cpla 0 result⟩
  rw [command, hr, h]
  rfl

section
variable {s : State} (hs : s.snaps = []) (hr : s.bar.recovery = false)
include hs hr

theorem peerWindow_sets {idx node die base len perm : DWord} (cpla : DWord) (hi : idx.toNat ≤ 15) (hn : node.toNat ≤ 0xFFF) (hd : die.toNat ≤ 1)
    (hp : perm = 0#64 ∨ perm = 1#64 ∨ perm = 3#64) :
    Completes (.peerWindow idx node die base len perm cpla) s fun t => Answered s t cpla 0 0 ∧
      t.windows = put s.windows idx.toNat ⟨node.toNat, die.toNat, base.toNat * 65536, len.toNat * 65536, perm.toNat⟩ := by
  have hperm : (perm == 0#64 || perm == 1#64 || perm == 3#64) = true := by simpa [or_assoc] using hp
  have hok : ¬(decide (idx.toNat > 15) || decide (node.toNat > 0xFFF) || decide (die.toNat > 1) || !(perm == 0#64 || perm == 1#64 || perm == 3#64)) = true := by
    rw [hperm]
    simp
    omega
  let m : State := { s with windows := put s.windows idx.toNat ⟨node.toNat, die.toNat, base.toNat * 65536, len.toNat * 65536, perm.toNat⟩ }
  have hi : exec (.peerWindow idx node die base len perm cpla) s = execPeerWindow idx node die base len perm cpla s := rfl
  rw [execPeerWindow] at hi
  obtain ⟨t, hx, ha, hw, -⟩ := completes_of_done hi hr (m := m) hs (if_neg hok)
  exact ⟨t, hx, ha, hw⟩

theorem peerBind_sets {node peer localCtx : DWord} {binds : List (Nat × Nat × Nat)} (cpla : DWord)
    (h : peerBind s node peer localCtx = done { s with binds := binds } 0) :
    Completes (.peerBind node peer localCtx cpla) s fun t => Answered s t cpla 0 0 ∧ t.binds = binds := by
  have hi : exec (.peerBind node peer localCtx cpla) s = command s cpla fun s => peerBind s node peer localCtx := rfl
  obtain ⟨t, hx, ha, -, hb⟩ := completes_of_done hi hr (m := { s with binds := binds }) hs h
  exact ⟨t, hx, ha, hb⟩

/-- A binding takes the place of the one that its node and context had (R422). -/
theorem peerBind_binds {node peer localCtx : DWord} {c : Nat} (cpla : DWord) (hn : node.toNat ≤ 4094) (hl : localCtx.toNat ≤ 63)
    (hc : ctxTag s localCtx = some c) (hres : (ctxOf s c).cstate = .resident) :
    Completes (.peerBind node peer localCtx cpla) s fun t => Answered s t cpla 0 0 ∧ (node.toNat, peer.toNat, c) ∈ t.binds ∧
      ∀ b ∈ t.binds, b.1 = node.toNat → b.2.1 = peer.toNat → b.2.2 = c := by
  have hne : localCtx ≠ 0xFF#64 := fun h => by rw [h] at hl; exact absurd hl (by decide)
  have hbind : peerBind s node peer localCtx = done { s with
      binds := (s.binds.filter fun b => !(b.1 == node.toNat && b.2.1 == peer.toNat)) ++ [(node.toNat, peer.toNat, c)] } 0 := by
    simp [peerBind, onContext, hc, hres, hne, Nat.not_lt.2 hn, Nat.not_lt.2 hl]
  obtain ⟨t, hx, ha, hb⟩ := peerBind_sets hs hr cpla hbind
  refine ⟨t, hx, ha, by simp [hb], fun b hm h1 h2 => ?_⟩
  rw [hb, List.mem_append, List.mem_filter, List.mem_singleton] at hm
  obtain ⟨-, hm⟩ | rfl := hm
  · simp [h1, h2] at hm
  · rfl

theorem peerBind_unbinds {node peer : DWord} (cpla : DWord) (hn : node.toNat ≤ 4094) :
    Completes (.peerBind node peer 0xFF#64 cpla) s fun t => Answered s t cpla 0 0 ∧ ∀ b ∈ t.binds, ¬(b.1 = node.toNat ∧ b.2.1 = peer.toNat) := by
  have hbind : peerBind s node peer 0xFF#64 = done { s with binds := s.binds.filter fun b => !(b.1 == node.toNat && b.2.1 == peer.toNat) } 0 := by
    simp [peerBind, Nat.not_lt.2 hn]
  obtain ⟨t, hx, ha, hb⟩ := peerBind_sets hs hr cpla hbind
  refine ⟨t, hx, ha, fun b hm h => ?_⟩
  rw [hb, List.mem_filter] at hm
  simp [h.1, h.2] at hm

end

/-- Settles O47: requests by their checks and what they perform, answers, ports and commands by what each leaves. -/
theorem peersAndLinks : Obligations.PeersAndLinks := by
  unfold Obligations.PeersAndLinks
  intro s hs
  refine ⟨fun node die off n hp hk => ⟨fun hw => peerRequest_read node hk hp hw, fun b mask hb hw => ?_⟩, fun node die op ty words => ?_,
    fun node req h => peerRequest_refused s node req h, fun u w x ok b hw ht hp hx => ?_, fun port hp hd hroom => ?_,
    fun port hp hu hroom => linkDown_drops hp hroom hu, fun _ => rfl, fun req => ⟨_, rfl, ⟨_, rfl⟩, rfl, fun _ => rfl, rfl⟩, fun hr => ?_⟩
  · subst hb
    exact peerRequest_write hs node mask hk hp hw
  · refine fun ha hp hw => ⟨fun off d c he hk => ?_, peerRequest_atomic s node hp ha hw⟩
    subst he
    exact peerRequest_atomic_one hs node hp ha hw hk
  · refine ⟨congrArg Host.Outcome.next (peerAnswer_one s ok b hw ht hp hx), fun h => ?_, fun h => ?_⟩
    · rw [peerTimeout_one s hw ht hp hx, if_pos h, peerAnswer_one s false [] hw ht hp hx]
    · rw [peerTimeout_one s hw ht hp hx, if_neg (by omega)]
  · exact ⟨fun hn => linkUp_trains hp hroom hd hn, fun hn => linkUp_refused hp hd hn, fun auth hn => linkUp_noNode hp hd auth hn⟩
  · refine ⟨fun idx node die base len perm cpla hi hn hd hp => peerWindow_sets hs hr cpla hi hn hd hp, fun node peer localCtx cpla c hn =>
      ⟨fun hl hc hres => peerBind_binds hs hr cpla hn hl hc hres, fun hl => ?_⟩⟩
    subst hl
    exact peerBind_unbinds hs hr cpla hn

end Sys2Proof

/-! SUPPORT. XENG and PUBLISH (R151, R331, R332): reads of a core that nothing delays, the leaves of a range, the publish point, and the statement about them. -/
namespace Sys2Proof
open Machine

/-! ### Reads of a core that nothing delays (R110) -/

theorem physBytes_getD (s : State) {k n i : Nat} (h : i < n) : (physBytes s k n).getD i 0#8 = physByte s (k + i) := by
  induction n generalizing k i with
  | zero => omega
  | succ n ih =>
    cases i with
    | zero => rfl
    | succ i =>
      rw [physBytes, List.getD_cons_succ, ih (by omega), show k + 1 + i = k + (i + 1) by omega]

/-- A part of an extent's bytes is the bytes of that part. -/
theorem sliceBytes_physBytes (s : State) {k n off m : Nat} (h : off + m ≤ n) : sliceBytes (physBytes s k n) off m = physBytes s (k + off) m := by
  have hb := physBytes_eq_of (s := s) (k := k + off) (b := sliceBytes (physBytes s k n) off m) fun i hi => by
    rw [sliceBytes_length] at hi
    rw [sliceBytes_getD _ _ hi, physBytes_getD s (by omega), Nat.add_assoc]
  rw [← hb, sliceBytes_length]

/-- Bytes put where they already stand change nothing. -/
theorem patch_sliceBytes {l : List Byte} {off n : Nat} (h : off + n ≤ l.length) : patch l off (sliceBytes l off n) = l := by
  have hs : sliceBytes l off n = (l.drop off).take n := by
    refine List.ext_getElem (by simp [sliceBytes_length]; omega) fun i hi _ => ?_
    rw [sliceBytes_length] at hi
    simp [sliceBytes, show off + i < l.length by omega]
  rw [patch, sliceBytes_length, hs, List.append_assoc, ← List.drop_drop, List.take_append_drop, List.take_append_drop]

theorem not_mem_of_lookup_none {α : Type} {m : AMap α} {k : Nat} (h : lookup m k = none) (a : α) : (k, a) ∉ m := by
  induction m with
  | nil => simp
  | cons e t ih =>
    obtain ⟨j, b⟩ := e
    rw [lookup] at h
    split at h
    · cases h
    · next hj =>
      rw [List.mem_cons, not_or]
      exact ⟨fun he => hj (congrArg Prod.fst he).symm, ih h⟩

/-- Room in an L1 is made by giving copies up. -/
theorem mem_of_mem_roomFor {x : Core} {line : Nat} {e : Nat × L1Line} (h : e ∈ (roomFor x line).l1) : e ∈ x.l1 := by
  unfold roomFor at h
  split at h
  · exact h
  · split at h
    · exact h
    · exact List.mem_of_mem_drop h

@[simp] theorem putLine_early (x : Core) (line : Nat) (ln : L1Line) : (putLine x line ln).early = x.early := by
  simp only [putLine, roomFor]
  split
  · rfl
  · split <;> rfl

theorem mem_of_mem_putLine {x : Core} {line : Nat} {ln : L1Line} {e : Nat × L1Line} (h : e ∈ (putLine x line ln).l1) : e = (line, ln) ∨ e ∈ x.l1 :=
  (mem_put h).imp_right mem_of_mem_roomFor

/-- Every copy of a line in a core's L1 holds the bytes of memory. -/
def CopyTrue (s : State) (c line : Nat) : Prop := ∀ copy, (line, copy) ∈ (coreOf s c).l1 → copy.bytes = physBytes s (line * 128) 128

theorem CopyTrue.of_none {s : State} {c line : Nat} (h : lookup (coreOf s c).l1 line = none) : CopyTrue s c line :=
  fun copy hm => absurd hm (not_mem_of_lookup_none h copy)

/-- What a read leaves of the state: memory, the core's paths as quiet as they were, and copies that hold the bytes of memory. -/
structure ReadLeaves (s : State) (c : Nat) (t : State) : Prop where
  only : SliceOnly s t
  same : SameMemory s t
  quiet : CoreQuiet t c
  copies : ∀ line, CopyTrue s c line → CopyTrue t c line

namespace ReadLeaves
variable {s t v : State} {c : Nat}

protected theorem refl (h : CoreQuiet s c) : ReadLeaves s c s := ⟨.refl s, .refl s, h, fun _ h => h⟩

protected theorem trans (h : ReadLeaves s c t) (h' : ReadLeaves t c v) : ReadLeaves s c v :=
  ⟨h.only.trans h'.only, h.same.trans h'.same, h'.quiet, fun line hl => h'.copies line (h.copies line hl)⟩

/-- A read that changes of the core's record only what it owns. -/
protected theorem ofOwned (hq : CoreQuiet s c) (ho : SliceOnly s t) (hm : SameMemory s t) (hc : ∃ o, coreOf t c = { coreOf s c with owned := o }) :
    ReadLeaves s c t := by
  obtain ⟨o, hc⟩ := hc
  refine ⟨ho, hm, by rw [CoreQuiet, hc]; exact hq, fun line hl copy hmem => ?_⟩
  rw [hc] at hmem
  rw [hl copy hmem, physBytes_congr hm]

end ReadLeaves

/-- A copy of a line that holds the bytes of memory enters the L1. -/
theorem putLine_leaves {s : State} {c line : Nat} {ln : L1Line} (hq : CoreQuiet s c) (hb : ln.bytes = physBytes s (line * 128) 128) :
    ReadLeaves s c (setCore s c (putLine (coreOf s c) line ln)) := by
  refine ⟨sliceOnly_setCore .., fun _ => rfl, ?_, fun j hj copy hm => ?_⟩
  · rw [CoreQuiet, coreOf_setCore, putLine_path, putLine_early]
    exact hq
  · rw [coreOf_setCore] at hm
    obtain he | hm := mem_of_mem_putLine hm
    · cases he
      exact hb
    · exact hj copy hm

section
variable {s : State} {c kid k n : Nat} (hq : CoreQuiet s c)
include hq

theorem drainWay_coreQuiet (way : Nat) : drainWay s c way = s := drainWay_quiet s c way (by simp [hq.1])

theorem settleLine_quiet (line : Nat) : settleLine s c line = s := by
  simp [settleLine, settleEarly, hq.2, lookup, atomicOn, hq.1]

theorem homeRead_leaves (hk : UnderKey s kid k n) :
    ReadLeaves s c (homeRead s (some c) kid k n).1 ∧ (homeRead s (some c) kid k n).2 = physBytes s k n := by
  simp only [homeRead, performRead_eq s _ _ hk]
  exact ⟨.ofOwned hq (sliceOnly_reached ..) (fun a => physByte_reached ..) (coreOf_reached ..), physBytes_congr (fun a => physByte_reached ..) k n⟩

/-- A fill of a line whose copies are true takes the bytes of memory: nothing of the core waits to change them. -/
theorem fillLine_leaves (hk : UnderKey s kid (k / 128 * 128) 128) (ht : CopyTrue s c (k / 128)) : ReadLeaves s c (fillLine s c kid k) := by
  have hu : UnderKey s kid (if acrossSeam c k then k / 64 * 64 else lineOf k * 128) (if acrossSeam c k then 64 else 128) := by
    split
    · exact hk.sub (by omega) (by omega) (by omega)
    · exact hk
  obtain ⟨ho, hm, hown⟩ := sliceRead_frame s (some c) hu c
  have hr := ReadLeaves.ofOwned hq ho hm hown
  unfold fillLine
  dsimp only
  generalize (sliceRead s (some c) kid _ _).1 = t at hr ⊢
  have hpath : (coreOf t c).path = [] := hr.quiet.1
  have hb : mergeWaiting (coreOf t c).path (lineOf k) (physBytes t (lineOf k * 128) 128) = physBytes t (k / 128 * 128) 128 := by rw [hpath]; rfl
  have hw : ((waitingWrites (coreOf t c).path (lineOf k)).any fun e => e.2.1 != kid) = false := by rw [hpath]; rfl
  rw [hb, hw, Bool.and_false, if_neg Bool.false_ne_true]
  refine hr.trans (putLine_leaves hr.quiet ?_)
  split
  · next old hold =>
    have hold' : old.bytes = physBytes t (k / 128 * 128) 128 := hr.copies _ ht old (lookup_mem hold)
    split
    · simp only [hold']
      exact patch_sliceBytes (by rw [physBytes_length]; omega)
    · rfl
  · rfl

/-- A piece of a read, whichever way it is served: its core's copy, the line that the core owns, a fill, or its home slice. -/
theorem readPiece_leaves {p : Place × Nat} (h0 : 0 < p.2) (hb : p.1.key % 64 + p.2 ≤ 64) (hk : UnderKey s p.1.kid p.1.key p.2)
    (ht : CopyTrue s c (p.1.key / 128)) :
    ReadLeaves s c (readPiece s c p).1 ∧ (readPiece s c p).2 = physBytes s p.1.key p.2 := by
  unfold readPiece
  split
  · rw [orderedRead, drainWay_coreQuiet hq]
    exact homeRead_leaves hq hk
  · simp only [settleLine_quiet hq]
    unfold coreRead
    dsimp only
    split
    · next copy hit =>
      refine ⟨.refl hq, ?_⟩
      dsimp only
      rw [ht copy (lookup_mem (lookup_of_hitLine hit)), sliceBytes_physBytes s (by omega)]
      congr 1
      omega
    · split
      · exact homeRead_leaves hq hk
      · have hf := fillLine_leaves hq (fun line h1 h2 => hk line (by omega) (by omega)) ht
        rw [drainWay_coreQuiet hq]
        exact ⟨hf, physBytes_congr hf.same _ _⟩

/-- The pieces of a read of this device's memory, one after another: the bytes of memory. -/
theorem readPlaces_leaves (l : List (Place × Nat)) (scalar : Bool) (hl : ∀ p ∈ l, p.1.loc ≠ 2 ∧ 0 < p.2 ∧ p.1.key % 64 + p.2 ≤ 64 ∧
    UnderKey s p.1.kid p.1.key p.2 ∧ lookup (coreOf s c).l1 (p.1.key / 128) = none) :
    let r := readPlaces s c [] scalar [] l
    ReadLeaves s c r.1 ∧ r.2 = l.flatMap fun p => physBytes s p.1.key p.2 := by
  unfold readPlaces
  induction l using List.reverseRecOn with
  | nil => exact ⟨.refl hq, rfl⟩
  | append_singleton l p ih =>
    obtain ⟨hr, hbytes⟩ := ih fun x hx => hl x (by simp [hx])
    obtain ⟨hloc, h0, hb, hk, hnone⟩ := hl p (by simp)
    obtain ⟨hr', hbytes'⟩ := readPiece_leaves hr.quiet h0 hb (hr.only.underKey hk) (hr.copies _ (.of_none hnone))
    rw [List.foldl_append, List.foldl_cons, List.foldl_nil, if_neg hloc]
    refine ⟨hr.trans hr', ?_⟩
    dsimp only
    rw [hbytes, hbytes', physBytes_congr hr.same]
    simp
end

/-! ### XENG (R332) -/

theorem readAsks_onDevice {l : Placed} (h : OnDevice l) : readAsks l true = [] := by
  rw [readAsks, if_pos rfl]
  exact List.flatMap_eq_nil_iff.2 fun e he => List.filterMap_eq_nil_iff.2 fun p hp => if_neg (h e he p hp)

/-- The plan of a command names the command as it was read. -/
theorem checkCommand_cmd {s : State} {w : Wave} {c : List Byte} {plan : CmdPlan} (h : checkCommand s w c = .ok plan) : plan.cmd = c := by
  unfold checkCommand at h
  dsimp only at h
  split at h
  · cases h
  · split at h
    · cases h
    · split at h
      · cases h
      · split at h <;> cases h
        rfl

section
variable {s : State} {w : Wave} (hw : lookup s.waves s.cur = some w) (nx : BitVec 2) (d a : BitVec 6)
include hw

/-- A record read whose command names no plot and is no SNAP: its transfer begins, with its barrier registered, and the wave ends the instruction. -/
theorem exec_xeng {l : Placed} {t : State} {record : List Byte} {plan : CmdPlan} (hq : CoreQuiet s (coreNo s w)) (hl : OnDevice l)
    (hc : checkXeng s w (w.sreg a.toNat).toNat = .ok l) (hread : readPlaces s (coreNo s w) [] true [] (l.flatMap (·.2)) = (t, record))
    (hr : ReadLeaves s (coreNo s w) t) (hp : checkCommand t w record = .ok plan) (hsrc : plan.source = none) (hopc : cmdOpc record ≠ 3) :
    exec (.xeng nx d a) s = .next (startTransfer
      (registerBar (setWave t s.cur (((w.setS d.toNat (BitVec.ofNat 64 plan.engine)).next nx).complete 6#8 plan.engine)) (coreNo s w) plan.bar)
      (commandOf t s.cur w plan) true) := by
  have hwave : waveOf t s.cur = w := (hr.only.waveOf _).trans (waveOf_of_lookup hw)
  have hcore : ∀ x : Wave, x.group = w.group → ∀ y, coreNo (setWave t s.cur y) x = coreNo s w := fun x hx y => by
    rw [coreNo, hx, groupOf_setWave, hr.only.groupOf, coreNo]
  show execXeng nx d a s = _
  rw [execXeng, checked_ok hw hc]
  simp only [drainPath_quiet hq, readAsks_onDevice hl, withPeers_none, hread, hwave, hp, hsrc, if_neg hopc, decide_eq_false hopc, Bool.false_and,
    Bool.false_eq_true, if_false, hcore _ (Wave.setS_group ..)]
  rfl

/-- R332: XENG at issue. -/
theorem xeng_issues {l : Placed} (hq : CoreQuiet s (coreNo s w)) (hl : OnDevice l) (hc : checkXeng s w (w.sreg a.toNat).toNat = .ok l)
    (hfit : ∀ e ∈ l, ∀ p ∈ e.2, 0 < p.2 ∧ p.1.key % 64 + p.2 ≤ 64 ∧ UnderKey s p.1.kid p.1.key p.2 ∧
      lookup (coreOf s (coreNo s w)).l1 (p.1.key / 128) = none) :
    let record := (l.flatMap (·.2)).flatMap fun p => physBytes s p.1.key p.2
    let r := readPlaces s (coreNo s w) [] true [] (l.flatMap (·.2))
    r.2 = record ∧
    ∀ plan, checkCommand r.1 w record = .ok plan → plan.source = none → cmdOpc record ≠ 3 → Completes (.xeng nx d a) s fun t =>
      SameMemory s t ∧ waveOf t s.cur = ((w.setS d.toNat (BitVec.ofNat 64 plan.engine)).next nx).complete 6#8 plan.engine ∧
      ∃ x, lookup t.transfers s.uid = some x ∧ x.op = .xeng ∧ x.cmd = record ∧ x.engine = plan.engine ∧ x.done = 0 := by
  intro record r
  have hpieces : ∀ p ∈ l.flatMap (·.2), p.1.loc ≠ 2 ∧ 0 < p.2 ∧ p.1.key % 64 + p.2 ≤ 64 ∧ UnderKey s p.1.kid p.1.key p.2 ∧
      lookup (coreOf s (coreNo s w)).l1 (p.1.key / 128) = none := fun p hp => by
    obtain ⟨e, he, hpe⟩ := List.mem_flatMap.1 hp
    exact ⟨hl e he p hpe, hfit e he p hpe⟩
  obtain ⟨hr, hbytes⟩ := readPlaces_leaves hq _ true hpieces
  refine ⟨hbytes, fun plan hp hsrc hopc => ?_⟩
  have hexec := exec_xeng hw nx d a hq hl hc (t := r.1) (record := record) (Prod.ext rfl hbytes) hr hp hsrc hopc
  let y := ((w.setS d.toNat (BitVec.ofNat 64 plan.engine)).next nx).complete 6#8 plan.engine
  have hq' : CoreQuiet (setWave r.1 s.cur y) (coreNo s w) := hr.quiet
  obtain ⟨cs, ds, hbar⟩ := coresDies_registerBar hq' plan.bar
  have huid : r.1.uid = s.uid := hr.only.congr State.uid fun _ _ _ _ _ => rfl
  rw [hbar] at hexec
  refine ⟨_, hexec, hr.same.trans fun _ => rfl, waveOf_setWave r.1 s.cur y, commandOf r.1 s.cur w plan, ?_, rfl, checkCommand_cmd hp, rfl, rfl⟩
  rw [← huid]
  exact lookup_put_self ..

end

/-! ### The leaves of a range (R25, R331) -/

/-- The memory and the keys that a walk reads. -/
structure SameTables (s t : State) : Prop where
  mem : t.mem = s.mem
  l2 : t.l2 = s.l2
  tags : t.tags = s.tags
  tagBase : t.tagBase = s.tagBase
  sec : t.sec = s.sec
  contexts : t.contexts = s.contexts

namespace SameTables
variable {s t : State} (h : SameTables s t)
include h

protected theorem key0 : key0 t = key0 s := by simp only [Machine.key0, keyId, h.sec]

protected theorem viewBytes (kid k n : Nat) : viewBytes t kid k n = viewBytes s kid k n := by
  simp only [Machine.viewBytes, h.tags, h.tagBase, physBytes_congr (physByte_congr h.mem h.l2)]

protected theorem leafPlace (levels : List (Nat × Nat × Nat)) (die base va : Nat) : leafPlace t levels die base va = leafPlace s levels die base va := by
  induction levels generalizing die base with
  | nil => rfl
  | cons e rest ih => simp only [Machine.leafPlace, h.key0, h.viewBytes, ih]

protected theorem leafOf (ctag va : Nat) : leafOf t ctag va = leafOf s ctag va := by
  simp only [Machine.leafOf, ctxOf, h.contexts, h.leafPlace]

protected theorem leafSpan (ctag base n : Nat) : leafSpan t ctag base n = leafSpan s ctag base n := by simp only [Machine.leafSpan, h.leafOf]

protected theorem rangeLeaves (ctag base n : Nat) : rangeLeaves t ctag base n = rangeLeaves s ctag base n := by
  simp only [Machine.rangeLeaves, h.leafOf]

end SameTables

theorem sameTables_dropShared (s : State) (c : Nat) : SameTables s (dropShared s c) := ⟨rfl, rfl, rfl, rfl, rfl, rfl⟩

/-- A leaf's page has the size of the level at which its walk ended. -/
theorem leafPlace_size {s : State} {levels : List (Nat × Nat × Nat)} {die base va : Nat} {e : Nat × DWord × Nat}
    (h : leafPlace s levels die base va = some e) : ∃ v ∈ levels, e.2.2 = 2 ^ v.2.1 := by
  induction levels generalizing die base with
  | nil => cases h
  | cons v rest ih =>
    obtain ⟨x, sh, n⟩ := v
    rw [leafPlace] at h
    split at h
    · cases h
    · split at h
      · cases h
        exact ⟨_, List.mem_cons_self .., rfl⟩
      · obtain ⟨v, hv, he⟩ := ih h
        exact ⟨v, List.mem_cons_of_mem _ hv, he⟩

/-- Pages are of 64 KiB and of multiples of that (R25). -/
theorem leafOf_size {s : State} {ctag va : Nat} : ∃ j, 0 < j ∧ ((leafOf s ctag va).map (·.2.2)).getD 65536 = 65536 * j := by
  have hlevel : ∀ v ∈ walkLevels, 2 ^ v.2.1 = 65536 * 2 ^ (v.2.1 - 16) := by decide
  cases h : leafOf s ctag va with
  | none => exact ⟨1, by decide, rfl⟩
  | some e =>
    unfold leafOf at h
    dsimp only at h
    split at h
    · cases h
    · obtain ⟨v, hv, he⟩ := leafPlace_size h
      exact ⟨2 ^ (v.2.1 - 16), Nat.two_pow_pos _, he.trans (hlevel v hv)⟩

/-- The whole of the leaves that a range overlaps holds the range. -/
theorem leafSpan_holds (s : State) (ctag : Nat) {base n : Nat} (hb : base % 65536 = 0) (hn : n % 65536 = 0) :
    (leafSpan s ctag base n).1 ≤ base ∧ base + n ≤ (leafSpan s ctag base n).1 + (leafSpan s ctag base n).2 := by
  obtain ⟨j, hj, hsize⟩ := leafOf_size (s := s) (ctag := ctag) (va := base + n - 65536)
  have hlo : ∀ z, base / z * z ≤ base := fun z => Nat.div_mul_le_self base z
  -- The last page of the range lies in a leaf, which ends on a page.
  have hend : base + n ≤ (base + n - 65536) / (65536 * j) * (65536 * j) + 65536 * j := by
    have hpage : base + n - 65536 = 65536 * ((base + n - 65536) / 65536) := by omega
    have hlt : (base + n - 65536) / 65536 < ((base + n - 65536) / 65536 / j + 1) * j := Nat.lt_mul_of_div_lt (Nat.lt_succ_self _) hj
    rw [← Nat.div_div_eq_div_mul]
    have heq : (base + n - 65536) / 65536 / j * (65536 * j) + 65536 * j = 65536 * (((base + n - 65536) / 65536 / j + 1) * j) := by ring
    omega
  simp only [leafSpan, hsize]
  refine ⟨hlo _, ?_⟩
  have := hlo (((leafOf s ctag base).map (·.2.2)).getD 65536)
  omega

/-! ### PUBLISH (R331) -/

theorem fenceSystem_quiet {s : State} {u : Nat} {w : Wave} (hw : lookup s.waves u = some w) (hp : w.pending = []) (hq : CoreQuiet s (coreNo s w)) :
    fenceSystem s u w = dropShared s (coreNo s w) := by
  have hc : completeResults s u (fun _ => true) = s := by simp [completeResults, hw, hp]
  have hf : flushResults s u = s := by simp [flushResults, hc, hw, hp]
  rw [fenceSystem, hf, fenceRelease, if_pos (by decide), drainPath_quiet hq, fenceAcquire, if_pos (by decide)]

theorem checkPublish_aligned {s : State} {w : Wave} {base n : Nat} {l : Placed} (h : checkPublish s w base n = .ok l) :
    base % 65536 = 0 ∧ n % 65536 = 0 := by
  unfold checkPublish at h
  split at h
  · cases h
  · split at h
    · cases h
    · next hb hn => exact ⟨by simpa using hb, by simpa using hn⟩

/-- What a PUBLISH of a range hands to the publish unit (R331): the whole of the leaves, and the copies into them that had been accepted. -/
def publishOf (s : State) (w : Wave) (base n : Nat) : Publish :=
  let span := leafSpan s w.ctag base n
  ⟨s.cur, w.ctag, BitVec.ofNat 64 span.1, span.2, (s.transfers.filter fun t => writesInto w.ctag span.1 span.2 t.2).map (·.1)⟩

theorem mem_publishOf_waits {s : State} {w : Wave} {base n x : Nat} : x ∈ (publishOf s w base n).waits ↔
    ∃ q, (x, q) ∈ s.transfers ∧ writesInto w.ctag (leafSpan s w.ctag base n).1 (leafSpan s w.ctag base n).2 q = true := by
  simp [publishOf, List.mem_map, List.mem_filter]

section
variable {s : State} {w : Wave} (hw : lookup s.waves s.cur = some w) (nx : BitVec 2) (a b : BitVec 6)
include hw

theorem publish_misaligned (h : (w.sreg a.toNat).toNat % 65536 ≠ 0) :
    exec (.publish nx a b) s = .next (takeTrap s s.cur ⟨11, 0, argAddr (w.sreg a.toNat).toNat, 0#32⟩ true false) := by
  have hc : checkPublish s w (w.sreg a.toNat).toNat (w.sreg b.toNat).toNat = .error (misalign (w.sreg a.toNat).toNat) := by
    rw [checkPublish, if_pos (by simpa using h)]
  show execPublish nx a b s = _
  rw [execPublish, checked_error hw hc]
  rfl

/-- A PUBLISH whose range passes its checks, of a wave with nothing under way: its core's copies go, and the wave stalls, or goes on where there is nothing
to publish. -/
theorem exec_publish {l : Placed} (hp : w.pending = []) (hq : CoreQuiet s (coreNo s w))
    (hc : checkPublish s w (w.sreg a.toNat).toNat (w.sreg b.toNat).toNat = .ok l) :
    exec (.publish nx a b) s = .next (
      let t := dropShared s (coreNo s w)
      if (w.sreg b.toNat).toNat = 0 then setWave t s.cur (w.finish nx)
      else { setWave t s.cur { w with stall := some (.publish nx s.uid) } with
        uid := s.uid + 1, publishes := put s.publishes s.uid (publishOf s w (w.sreg a.toNat).toNat (w.sreg b.toNat).toNat) }) := by
  have hwave : waveOf (dropShared s (coreNo s w)) s.cur = w := waveOf_of_lookup (s := dropShared s (coreNo s w)) hw
  show execPublish nx a b s = _
  rw [execPublish, checked_ok hw hc]
  simp only [fenceSystem_quiet hw hp hq, hwave, (sameTables_dropShared s (coreNo s w)).leafSpan]
  rfl

theorem publish_issues {l : Placed} (hp : w.pending = []) (hq : CoreQuiet s (coreNo s w))
    (hc : checkPublish s w (w.sreg a.toNat).toNat (w.sreg b.toNat).toNat = .ok l) :
    let base := (w.sreg a.toNat).toNat
    let n := (w.sreg b.toNat).toNat
    Completes (.publish nx a b) s fun t =>
      SameMemory s t ∧ (coreOf t (coreNo s w)).l1 = [] ∧ waveOf t s.cur = (if n = 0 then w.finish nx else { w with stall := some (.publish nx s.uid) }) ∧
      (n ≠ 0 → let span := leafSpan s w.ctag base n
        span.1 ≤ base ∧ base + n ≤ span.1 + span.2 ∧
        ∃ p, lookup t.publishes s.uid = some p ∧ p.wave = s.cur ∧ p.ctag = w.ctag ∧ p.base = BitVec.ofNat 64 span.1 ∧ p.len = span.2 ∧
        ∀ x, x ∈ p.waits ↔ ∃ q, (x, q) ∈ s.transfers ∧ writesInto w.ctag span.1 span.2 q = true) := by
  intro base n
  have hl1 : (coreOf (dropShared s (coreNo s w)) (coreNo s w)).l1 = [] := congrArg Core.l1 (coreOf_setCore ..)
  have hexec := exec_publish hw nx a b hp hq hc
  dsimp only at hexec
  by_cases h0 : n = 0
  · rw [if_pos h0] at hexec ⊢
    exact ⟨_, hexec, fun _ => rfl, hl1, waveOf_setWave .., fun h => absurd h0 h⟩
  · rw [if_neg h0] at hexec ⊢
    obtain ⟨hbase, hn⟩ := checkPublish_aligned hc
    obtain ⟨hlo, hhi⟩ := leafSpan_holds s w.ctag hbase hn
    exact ⟨_, hexec, fun _ => rfl, hl1, waveOf_setWave (dropShared s (coreNo s w)) .., fun _ =>
      ⟨hlo, hhi, _, lookup_put_self .., rfl, rfl, rfl, rfl, fun x => mem_publishOf_waits⟩⟩

end

/-! ### The publish point (R151) -/

theorem MemoryOnly.publishes {s t : State} (h : MemoryOnly s t) : t.publishes = s.publishes := by
  obtain ⟨_, _, _, _, _, _, _, _, _, rfl⟩ := h
  rfl

theorem memoryOnly_publishLeaf (s : State) (e : Nat × DWord × Nat) : MemoryOnly s (publishLeaf s e) := by
  unfold publishLeaf
  dsimp only
  split
  · exact .refl s
  · exact MemoryOnly.trans ⟨_, _, _, _, _, _, _, _, _, rfl⟩ (memoryOnly_agentWrite ..)

/-- What a point has done when the wave goes on (R151): no cached translation of the range is left, and its leaves have been taken one after another. -/
def leavesTaken (s : State) (x : Nat) (p : Publish) : State :=
  (rangeLeaves s p.ctag p.base.toNat p.len).foldl publishLeaf (dropTlb { s with publishes := erase s.publishes x } p.ctag p.base.toNat p.len)

theorem memoryOnly_leavesTaken (s : State) (x : Nat) (p : Publish) :
    MemoryOnly (dropTlb { s with publishes := erase s.publishes x } p.ctag p.base.toNat p.len) (leavesTaken s x p) :=
  .foldl memoryOnly_publishLeaf _ _

/-- With nothing of any core under way, a point has no path to drain. -/
theorem publishNow_quiet {s : State} (hq : ∀ c, CoreQuiet s c) (x : Nat) (p : Publish) :
    publishNow { s with publishes := erase s.publishes x } p = leavesTaken s x p := by
  let q : State := { s with publishes := erase s.publishes x }
  have hd : q.cores.foldl (fun t c => drainPath t c.1) q = q :=
    List.foldlRecOn (motive := fun t => t = q) _ _ rfl fun t ht c _ => by rw [ht, drainPath_quiet (s := q) (hq c.1)]
  have hleaves := SameTables.rangeLeaves (s := s) (t := q) ⟨rfl, rfl, rfl, rfl, rfl, rfl⟩
  rw [publishNow, hd, hleaves, leavesTaken]

theorem leavesTaken_publishes (s : State) (x : Nat) (p : Publish) : (leavesTaken s x p).publishes = erase s.publishes x :=
  (memoryOnly_leavesTaken s x p).publishes

theorem leavesTaken_tlb (s : State) (x : Nat) (p : Publish) {e : TlbEntry} (he : e ∈ (leavesTaken s x p).tlb) :
    ¬(e.ctag = p.ctag ∧ e.base < p.base.toNat + p.len ∧ p.base.toNat < e.base + e.size) := by
  rw [(memoryOnly_leavesTaken s x p).tlb] at he
  have hkept := (List.mem_filter.1 he).2
  rintro ⟨hc, hlo, hhi⟩
  simp [hc, hlo, hhi] at hkept

/-- At its point the word of a SHADOW leaf has SPHASE inverted, and nothing else of memory changes. -/
theorem publishLeaf_written {s : State} {k size : Nat} {leaf : DWord} (h : leafShadow leaf = true) (hk : UnderKey s (key0 s) k 8) (hs : s.snaps = []) :
    Written s (publishLeaf s (k, leaf, size)) k (bytesOf 8 (leaf ^^^ 0x400#64).toNat) := by
  simp only [publishLeaf, h, Bool.not_true, Bool.false_eq_true, if_false]
  exact agentWrite_written (dropLines s _) (by rw [bytesOf_length]; exact hk) hs

section
variable {s : State} {x : Nat} {p : Publish} {w : Wave} {nx : BitVec 2} (hx : lookup s.publishes x = some p) (hp : p.waits = [])
include hx

/-- R48, R150: accesses that wait for a peer come first. -/
theorem publishPoint_waits (hs : shadowPlaced s p.ctag = true) : exec (.publishPoint x) s = .next s := by
  show execPublishPoint x s = _
  simp [execPublishPoint, hx, publishReady, hs]

include hp

theorem exec_publishPoint (hw : lookup s.waves p.wave = some w) (hst : w.stall = some (.publish nx x)) (hs : shadowPlaced s p.ctag = false)
    (hq : ∀ c, CoreQuiet s c) :
    exec (.publishPoint x) s =
      .next (setWave (dropShared (leavesTaken s x p) (coreNo s w)) p.wave (Wave.finish { w with stall := none } nx)) := by
  have hready : publishReady s p = true := by simp [publishReady, hp, hs]
  have hm := memoryOnly_leavesTaken s x p
  have hwt : lookup (leavesTaken s x p).waves p.wave = some w := by rw [hm.waves]; exact hw
  have hcore : coreNo (leavesTaken s x p) w = coreNo s w := by simp only [coreNo, groupOf, hm.groups]; rfl
  show execPublishPoint x s = _
  simp only [execPublishPoint, hx, hready, Bool.not_true, Bool.false_eq_true, if_false, publishNow_quiet hq, hwt, hcore, hst, if_true]

/-- R151: the publish point. -/
theorem publishPoint_publishes (hw : lookup s.waves p.wave = some w) (hst : w.stall = some (.publish nx x)) (hs : shadowPlaced s p.ctag = false)
    (hq : ∀ c, CoreQuiet s c) :
    Completes (.publishPoint x) s fun t => waveOf t p.wave = Wave.finish { w with stall := none } nx ∧ lookup t.publishes x = none ∧
      (coreOf t (coreNo s w)).l1 = [] ∧
      (∀ e ∈ t.tlb, ¬(e.ctag = p.ctag ∧ e.base < p.base.toNat + p.len ∧ p.base.toNat < e.base + e.size)) ∧
      ∀ k leaf size, rangeLeaves s p.ctag p.base.toNat p.len = [(k, leaf, size)] → leafShadow leaf = true → UnderKey s (key0 s) k 8 → s.snaps = [] →
        Written s t k (bytesOf 8 (leaf ^^^ 0x400#64).toNat) := by
  refine ⟨_, exec_publishPoint hx hp hw hst hs hq, waveOf_setWave .., ?_, congrArg Core.l1 (coreOf_setCore ..), fun e he => leavesTaken_tlb s x p he,
    fun k leaf size hl hsh hk hsn => ?_⟩
  · exact (congrArg (lookup · x) (leavesTaken_publishes s x p)).trans (lookup_erase_self ..)
  · have ht : leavesTaken s x p = publishLeaf (dropTlb { s with publishes := erase s.publishes x } p.ctag p.base.toNat p.len) (k, leaf, size) := by
      rw [leavesTaken, hl, List.foldl_cons, List.foldl_nil]
    rw [ht]
    exact publishLeaf_written (s := dropTlb _ p.ctag p.base.toNat p.len) hsh hk hsn

end

/-- Settles O42: XENG by the read of its record, PUBLISH by its fence and the leaves of its range, the publish point by what its leaves' turn leaves. -/
theorem commandsAndPublish : Obligations.CommandsAndPublish := by
  unfold Obligations.CommandsAndPublish
  refine ⟨fun nx d a b s w hw hq hp => ⟨fun l hc hl _ hfit => xeng_issues hw nx d a hq hl hc hfit, publish_misaligned hw nx a b,
    fun l hc => publish_issues hw nx a b hp hq hc⟩, fun s x p w nx hx hp hw hst => ⟨publishPoint_waits hx, publishPoint_publishes hx hp hw hst⟩⟩

end Sys2Proof

/-! SUPPORT. Task instructions (R171-R176, R347-R354): the creation of tasks by its pools, the lanes of a sheaf wave, and the statements about them. -/
namespace Sys2Proof
open Machine

/-! ### ACTIVE lanes, and releases -/

theorem bitsOf_zero (n : Nat) : bitsOf (0#n) = [] := by simp [bitsOf]

/-- A release finds nothing to wait for where its wave owes no result and its core has nothing on its way (R111). -/
theorem releaseAt_quiet {s : State} {u : Nat} {w : Wave} (hw : lookup s.waves u = some w) (hp : w.pending = []) (hq : CoreQuiet s (coreNo s w))
    (scope : Nat) : releaseAt s u w scope = s := by
  have hc : completeResults s u (fun _ => true) = s := by simp [completeResults, hw, hp]
  have hf : flushResults s u = s := by simp [flushResults, hc, hw, hp]
  rw [releaseAt, hf, fenceRelease, drainPath_quiet hq, ite_self]

/-! ### INVOKE and INVOKEF (R349, R350) -/

section
variable (s : State) (nx : BitVec 2) (u : Nat) (w : Wave) (d : Nat) (entry : DWord) (l : List TaskAsk) (fixed : List (Nat × DWord))

/-- Tasks whose homes' pools hold enough slots are sent after a release. -/
theorem createTasks_sends (h : shortHomes s (dieNo (coreNo s w)) l = []) :
    createTasks s nx u w d entry l fixed =
      let r := sendAllAsks (releaseAt s u w 4) u w (dieNo (coreNo s w)) entry l
      setWave r.1 u ((((waveOf r.1 u).setPairs d (r.2 ++ fixed)).next nx).complete 2#8 d) := by
  simp only [createTasks, h, List.isEmpty_nil, if_true, Wave.finishAs]

/-- While a pool is short its home is asked, and the wave parks. -/
theorem createTasks_waits (h : shortHomes s (dieNo (coreNo s w)) l ≠ []) :
    createTasks s nx u w d entry l fixed =
      parkWave ((shortHomes s (dieNo (coreNo s w)) l).foldl (fun t k => askGrant t (dieNo (coreNo s w)) w.ctag k.1) s) u
        (.grant (shortHomes s (dieNo (coreNo s w)) l) []) := by
  rw [createTasks]
  exact if_neg (by simpa using h)

end

section
variable {nx : BitVec 2} {d a b : BitVec 6} {s : State} {w : Wave} (hw : lookup s.waves s.cur = some w)
include hw

theorem exec_invoke_ok {l : List TaskAsk} (hc : checkInvoke s w d.toNat a.toNat b.toNat = .ok l) (hl : l ≠ []) :
    exec (.invoke nx d a b) s = .next (createTasks s nx s.cur w d.toNat (w.sreg a.toNat) l []) := by
  show execInvoke nx d a b s = _
  rw [execInvoke, checked_ok hw hc, if_neg (by simpa using hl)]

theorem exec_invokef_ok {l : List TaskAsk} {stale : List Nat} (hc : checkInvokef s w d.toNat a.toNat b.toNat = .ok (l, stale))
    (hl : l ≠ [] ∨ stale ≠ []) :
    exec (.invokef nx d a b) s = .next (createTasks s nx s.cur w d.toNat (w.sreg a.toNat) l (stale.map fun i => (i, 0#64))) := by
  show execInvokef nx d a b s = _
  rw [execInvokef, checked_ok hw hc, if_neg (by simpa [imp_iff_not_or] using hl)]

/-- With no lane ACTIVE there is nothing to check, and both only end. -/
theorem invoke_noLane (h : w.active = 0#32) :
    exec (.invoke nx d a b) s = .next (setWave s s.cur ((w.next nx).complete 2#8 d.toNat)) ∧
      exec (.invokef nx d a b) s = .next (setWave s s.cur ((w.next nx).complete 2#8 d.toNat)) := by
  have hi : checkInvoke s w d.toNat a.toNat b.toNat = .ok [] := by simp [checkInvoke, h, bitsOf_zero]
  have hf : checkInvokef s w d.toNat a.toNat b.toNat = .ok ([], []) := by simp [checkInvokef, h, bitsOf_zero]
  constructor
  · show execInvoke nx d a b s = _
    rw [execInvoke, checked_ok hw hi]
    rfl
  · show execInvokef nx d a b s = _
    rw [execInvokef, checked_ok hw hf]
    rfl

end

/-- Settles O30: with no lane ACTIVE by the checks, else by what the creation of tasks does with its pools. -/
theorem taskCreation : Obligations.TaskCreation := by
  unfold Obligations.TaskCreation
  intro nx d a b s w hw
  refine ⟨invoke_noLane hw, fun l hl hc => ?_, fun l stale hl hc => ?_⟩
  · rw [exec_invoke_ok hw hc hl]
    exact ⟨fun h => congrArg _ (createTasks_sends _ _ _ _ _ _ _ _ h), fun h => congrArg _ (createTasks_waits _ _ _ _ _ _ _ _ h)⟩
  · rw [exec_invokef_ok hw hc hl]
    exact ⟨fun h => congrArg _ (createTasks_sends _ _ _ _ _ _ _ _ h), fun h => congrArg _ (createTasks_waits _ _ _ _ _ _ _ _ h)⟩

/-! ### TASKARG, TASKRET and TASKBRK (R353, R354) -/

/-- What the ends of a sheaf's ACTIVE lanes leave to be sent: each lane's that holds a task. -/
def sendLaneEnds (s : State) (ctag : Nat) (tasks : AMap LaneTask) (lanes : List Nat) (broken : Bool) (v : Nat → DWord) : State :=
  lanes.foldl (fun t l => match lookup tasks l with
    | some x => sendEnd t ctag x.future broken (v l)
    | none => t) s

theorem sendLaneEnds_waves (s : State) (ctag : Nat) (tasks : AMap LaneTask) (lanes : List Nat) (broken : Bool) (v : Nat → DWord) :
    (sendLaneEnds s ctag tasks lanes broken v).waves = s.waves :=
  foldl_keeps State.waves _ (fun t l => by split <;> rfl) _ _

/-- A sheaf wave that some of its lanes have left (R173). -/
def withoutLanes (w : Wave) (m : Word) : Wave :=
  { w with live := w.live &&& ~~~m, sheaf := w.sheaf.map fun sh => { sh with tasks := sh.tasks.filter fun e => !m.getLsbD e.1 } }

/-- Tasks end in lanes of which others are left LIVE: after a release, each lane's end is sent, and the lanes leave the sheaf. -/
theorem endTasks_some {s : State} {u : Nat} {w : Wave} {sh : SheafInfo} (hw : lookup s.waves u = some w) (hs : w.sheaf = some sh)
    (hl : w.live &&& ~~~w.active ≠ 0#32) (hp : w.pending = []) (hq : CoreQuiet s (coreNo s w)) (nx : BitVec 2) (broken : Bool) (v : Nat → DWord) :
    endTasks s nx u w broken v = setWave (sendLaneEnds s w.ctag sh.tasks (bitsOf w.active) broken v) u (Wave.finish { w with
      live := w.live &&& ~~~w.active
      sheaf := some { sh with tasks := sh.tasks.filter fun e => !w.active.getLsbD e.1 } } nx) := by
  set t := sendLaneEnds s w.ctag sh.tasks (bitsOf w.active) broken v with ht
  have hu : waveOf t u = w := by rw [waveOf, ht, sendLaneEnds_waves, hw]; rfl
  unfold endTasks
  rw [releaseAt_quiet hw hp hq, hs]
  change (if (withoutLanes (waveOf t u) w.active).live = 0#32 then _ else setWave t u ((withoutLanes (waveOf t u) w.active).finish nx)) = _
  rw [hu, if_neg (show (withoutLanes w w.active).live ≠ 0#32 from hl), withoutLanes, hs]
  rfl

section
variable {nx : BitVec 2} {a : BitVec 6} {s : State} {w : Wave} (hw : lookup s.waves s.cur = some w)
include hw

/-- Outside a sheaf wave there is no task to end. -/
theorem taskEnds_outside (hs : w.sheaf = none) :
    exec (.taskret nx a) s = .next (takeTrap s s.cur ⟨10, 0x22, 0, 0#32⟩ true false) ∧
      exec (.taskbrk nx a) s = .next (takeTrap s s.cur ⟨10, 0x22, 0, 0#32⟩ true false) := by
  have hc : checkTask w = .error (protection 0x22 0) := by simp [checkTask, hs]
  constructor
  · show execTaskret nx a s = _
    rw [execTaskret, checked_error hw hc]
    rfl
  · show execTaskbrk nx a s = _
    rw [execTaskbrk, checked_error hw hc]
    rfl

theorem taskEnds_inside {sh : SheafInfo} (hs : w.sheaf = some sh) :
    exec (.taskret nx a) s = .next (endTasks s nx s.cur w false fun i => w.pair64 a.toNat i) ∧
      exec (.taskbrk nx a) s = .next (endTasks s nx s.cur w true fun _ => brokenCause 2 (w.sreg a.toNat).toNat) := by
  have hc : checkTask w = .ok () := by simp [checkTask, hs]
  constructor
  · show execTaskret nx a s = _
    rw [execTaskret, checked_ok hw hc]
  · show execTaskbrk nx a s = _
    rw [execTaskbrk, checked_ok hw hc]

end

/-- Settles O33: TASKARG lane by lane, TASKRET and TASKBRK by their check and the ends that they send. -/
theorem laneTasks : Obligations.LaneTasks := by
  unfold Obligations.LaneTasks
  intro nx d a k s w hw
  refine ⟨regOp_eq hw _ _, taskEnds_outside hw, fun sh hs hl hp hq => ?_⟩
  obtain ⟨hret, hbrk⟩ := taskEnds_inside (nx := nx) (a := a) hw hs
  exact ⟨hret.trans (congrArg _ (endTasks_some hw hs hl hp hq ..)), hbrk.trans (congrArg _ (endTasks_some hw hs hl hp hq ..))⟩

end Sys2Proof

/-! SUPPORT. REGROUP (R182, R183, R357): what parks, endings and retirements leave of other waves, the lanes of a fusion, and the statement about them. -/
namespace Sys2Proof
open Machine

/-! ### Waves that are not parked -/

/-- Every wave of `m` that is not parked stands in `m'` as it was. -/
def KeepsUnparked (m m' : AMap Wave) : Prop := ∀ k x, lookup m k = some x → (∀ p, x.status ≠ .parked p) → lookup m' k = some x

namespace KeepsUnparked
variable {m m' m'' : AMap Wave}

protected theorem refl (m : AMap Wave) : KeepsUnparked m m := fun _ _ hx _ => hx

protected theorem trans (h : KeepsUnparked m m') (h' : KeepsUnparked m' m'') : KeepsUnparked m m'' := fun k x hx hp => h' k x (h k x hx hp) hp

/-- A wave that was parked is replaced. -/
protected theorem put {u : Nat} {w : Wave} {p : Park} (hw : lookup m u = some w) (hp : w.status = .parked p) (x : Wave) :
    KeepsUnparked m (put m u x) := by
  intro k y hy hn
  have hk : k ≠ u := by
    rintro rfl
    obtain rfl : w = y := Option.some.inj (hw.symm.trans hy)
    exact hn p hp
  rwa [lookup_put_ne _ _ hk]

/-- Waves are replaced in place, each one that is not parked by itself. -/
protected theorem map {f : Nat × Wave → Nat × Wave} (hk : ∀ e, (f e).1 = e.1) (h : ∀ e, (∀ p, e.2.status ≠ .parked p) → f e = e) :
    KeepsUnparked m (m.map f) := by
  intro k x hx hp
  have hf : f = fun e => (e.1, (f e).2) := funext fun e => Prod.ext (hk e) rfl
  rw [hf, lookup_map_key, hx, Option.map_some, h (k, x) hp]

end KeepsUnparked

/-! ### What retirement leaves of other waves (R237) -/

theorem keepsUnparked_releasePartners (s : State) (g n : Nat) : KeepsUnparked s.waves (releasePartners s g n).waves := by
  refine .map (fun e => ?_) fun e he => ?_
  · split
    · split
      · split <;> rfl
      · rfl
    · rfl
  · split
    · split
      · next h => exact absurd h (he _)
      · rfl
    · rfl

theorem keepsUnparked_checkGbar (s : State) (g : Nat) : KeepsUnparked s.waves (checkGbar s g).waves := by
  unfold checkGbar
  dsimp only
  split
  · refine .map (fun e => ?_) fun e he => ?_
    · split
      · split <;> rfl
      · rfl
    · split
      · split
        · next h => exact absurd h (he _)
        · rfl
      · rfl
  · exact .refl _

theorem checkGbar_releasePartners_keeps (s : State) (g n : Nat) : KeepsUnparked s.waves (checkGbar (releasePartners s g n) g).waves :=
  (keepsUnparked_releasePartners s g n).trans (keepsUnparked_checkGbar _ _)

theorem breakLanes_noSheaf {s : State} {u : Nat} {w : Wave} (hw : lookup s.waves u = some w) (hs : w.sheaf = none) (m : Word) (cause : DWord) :
    breakLanes s u m cause = s := by simp [breakLanes, hw, hs]

theorem leaveBarriers_noMembers {s : State} {u : Nat} {w : Wave} (hw : lookup s.waves u = some w) (hm : w.members = []) :
    leaveBarriers s u = setWave s u w := by
  simp only [leaveBarriers, hw, hm, List.foldl_nil, setWave]
  rw [← hm]

/-- What is left of a wave that retires. -/
def retired (w : Wave) : Wave :=
  { w with
    status := .retired, stall := none, pev := 0#8, slots := tab 8 fun _ => ({ } : EvSlot), mailbox := [], windows := [], pending := [], loads := []
    peer := [], placed := [], preempt := none, handler := false }

theorem not_allRetired {s : State} {g v : Nat} {x : Wave} (hv : lookup s.waves v = some x) (hg : x.group = g) (hr : x.status ≠ .retired) :
    allRetired s g = false := by
  rw [allRetired, List.all_eq_false]
  exact ⟨_, lookup_mem hv, by simp [hg, hr]⟩

/-- A wave with neither tasks nor barriers retires while another of its group is ready: the one stands retired, the other as it was. -/
theorem retireWave_leaves {s : State} {u v : Nat} {w x : Wave} (hw : lookup s.waves u = some w) (hs : w.sheaf = none) (hm : w.members = [])
    (hv : lookup s.waves v = some x) (hne : v ≠ u) (hg : x.group = w.group) (hr : x.status = .ready) (cause : DWord) :
    lookup (retireWave s u cause).waves u = some (retired w) ∧ lookup (retireWave s u cause).waves v = some x := by
  have hk := checkGbar_releasePartners_keeps (setWave s u (retired w)) w.group w.waveId
  have hu' := hk u (retired w) (lookup_put_self ..) (by simp [retired])
  have hv' := hk v x ((lookup_setWave_ne _ _ hne).trans hv) (by simp [hr])
  have ht : retireWave s u cause = checkGbar (releasePartners (setWave s u (retired w)) w.group w.waveId) w.group := by
    have hw' : lookup (setWave s u w).waves u = some w := lookup_put_self ..
    have hput : ({ setWave s u w with waves := put (setWave s u w).waves u (retired w) } : State) = setWave s u (retired w) := setWave_setWave ..
    unfold retireWave
    simp only [hw, breakLanes_noSheaf hw hs, leaveBarriers_noMembers hw hm, hw']
    rw [← retired, hput, not_allRetired hv' hg (by simp [hr])]
    rfl
  rw [ht]
  exact ⟨hu', hv'⟩

/-! ### A REGROUP that ends without a fusion (R182) -/

theorem endRegroup_parked {s : State} {k q : Nat} {x : Wave} {nx : BitVec 2} {m : DWord} (hx : lookup s.waves k = some x)
    (hs : x.status = .parked (.regroup nx q m)) : endRegroup s k = setWave s k (Wave.finish { x with status := .ready, c := false } nx) := by
  simp only [endRegroup, hx, hs]

theorem keepsUnparked_endRegroup (s : State) (k : Nat) : KeepsUnparked s.waves (endRegroup s k).waves := by
  unfold endRegroup
  split
  · exact .refl _
  · next x hx =>
    split
    · next h => exact .put hx h _
    · exact .refl _

theorem keepsUnparked_endRegroups (l : List Nat) (s : State) : KeepsUnparked s.waves (l.foldl endRegroup s).waves :=
  List.foldlRecOn (motive := fun t : State => KeepsUnparked s.waves t.waves) _ _ (.refl _) fun t h k _ => h.trans (keepsUnparked_endRegroup t k)

/-! ### The lanes of a fusion (R183) -/

theorem getLsbD_maskFold (f : Nat → Bool) {j : Nat} (hj : j < 32) (l : List Nat) :
    (l.foldr (fun i acc => if f i then acc ||| (1#32 <<< i) else acc) 0#32).getLsbD j = (decide (j ∈ l) && f j) := by
  induction l with
  | nil => simp
  | cons i t ih =>
    rw [List.foldr_cons]
    have hbit : (1#32 <<< i).getLsbD j = decide (i = j) := by
      rw [Bool.eq_iff_iff]
      simp only [BitVec.getLsbD_shiftLeft, BitVec.getLsbD_one, Bool.and_eq_true, Bool.not_eq_true', decide_eq_true_eq, decide_eq_false_iff_not]
      omega
    split
    · next h =>
      rw [BitVec.getLsbD_or, ih, hbit]
      by_cases hij : i = j
      · subst hij; simp [h]
      · simp [hij, Ne.symm hij]
    · next h =>
      rw [ih]
      by_cases hij : j = i
      · subst hij; simp [h]
      · simp [hij]

/-- R15: a mask's bit of a lane. -/
theorem getLsbD_maskOf (f : Nat → Bool) {j : Nat} (hj : j < 32) : (maskOf f).getLsbD j = f j := by
  rw [maskOf, getLsbD_maskFold f hj]
  simp [hj]

/-- The lanes that a fusion packs, in order: the receiver's ACTIVE lanes, then the donor's. -/
def fusedLanes (r d : Wave) : List (Wave × Nat) := (bitsOf r.active).map (fun i => (r, i)) ++ (bitsOf d.active).map fun i => (d, i)

section
variable (r d : Wave) (mask : DWord)

theorem fusedLanes_length : (fusedLanes r d).length = popCount r.active + popCount d.active := by simp [fusedLanes, popCount]

variable {r d} {i j : Nat}

theorem fusedLanes_receiver (h : (bitsOf r.active)[j]? = some i) : (fusedLanes r d)[j]? = some (r, i) := by
  have hj : j < (bitsOf r.active).length := (List.getElem?_eq_some_iff.1 h).1
  rw [fusedLanes, List.getElem?_append_left (by simpa using hj), List.getElem?_map, h]
  rfl

theorem fusedLanes_donor (hj : (bitsOf r.active).length ≤ j) (h : (bitsOf d.active)[j - (bitsOf r.active).length]? = some i) :
    (fusedLanes r d)[j]? = some (d, i) := by
  rw [fusedLanes, List.getElem?_append_right (by simpa using hj), List.length_map, List.getElem?_map, h]
  rfl

theorem fusedLanes_none (h : (bitsOf r.active).length + (bitsOf d.active).length ≤ j) : (fusedLanes r d)[j]? = none := by
  rw [List.getElem?_eq_none_iff, fusedLanes_length]
  exact h

/-- A lane of a fused receiver, in a register that the mask selects or does not. -/
theorem fuseWaves_lane {x : Nat} (hx : x < 64) (hj : j < 32) : (fuseWaves r d mask).lane x j =
    if mask.getLsbD x then ((fusedLanes r d)[j]?.map fun e => e.1.lane x e.2).getD 0#32 else 0#32 := by
  simp only [Wave.lane, Wave.vreg, fuseWaves, tab_getD _ _ hx, tab_getD _ _ hj]
  rw [← fusedLanes]
  split
  · cases (fusedLanes r d)[j]? <;> rfl
  · rfl

theorem fuseWaves_preg {k : Nat} (h1 : 1 ≤ k) (hk : k < 8) (hj : j < 32) : ((fuseWaves r d mask).preg k).getLsbD j =
    ((fusedLanes r d)[j]?.map fun e => (e.1.preg k).getLsbD e.2).getD false := by
  rw [Wave.preg, if_neg (by omega)]
  simp only [fuseWaves, tab_getD _ _ hk]
  rw [if_neg (by omega), getLsbD_maskOf _ hj, ← fusedLanes]
  cases (fusedLanes r d)[j]? <;> rfl

theorem fuseWaves_live (hj : j < 32) : (fuseWaves r d mask).live.getLsbD j = decide (j < popCount r.active + popCount d.active) := by
  simp only [fuseWaves]
  rw [getLsbD_maskOf _ hj, ← fusedLanes, fusedLanes_length]

end

/-! ### Fusion (R182) -/

/-- The fused receiver and the donor that retires, in a group whose two waves have nothing else to leave. -/
theorem fusion_leaves {s : State} {rk dk : Nat} {r d : Wave} (hd : lookup s.waves dk = some d) (hne : rk ≠ dk) (hg : r.group = d.group)
    (hs : d.sheaf = none) (hm : d.members = []) (mask : DWord) (nx : BitVec 2) (cause : DWord) :
    let x := Wave.finish { fuseWaves r d mask with status := .ready } nx
    let t := retireWave (setWave s rk x) dk cause
    lookup t.waves dk = some (retired d) ∧ lookup t.waves rk = some x :=
  retireWave_leaves ((lookup_setWave_ne _ _ hne.symm).trans hd) hs hm (lookup_put_self ..) hne (by simp [fuseWaves, hg]) (by simp) cause

/-- Of two waves that owe nothing, the one of the lower WAVEID receives. -/
theorem fuseNow_idle {s : State} {u k : Nat} {w x : Wave} (hw : lookup s.waves u = some w) (hk : lookup s.waves k = some x) (hp : w.pending = [])
    (hxp : x.pending = []) (hwin : w.windows = []) (hxwin : x.windows = []) (nx xnx : BitVec 2) (mask : DWord) : fuseNow s nx xnx u k mask =
      if w.waveId < x.waveId then retireWave (setWave s u (Wave.finish { fuseWaves w x mask with status := .ready } nx)) k (brokenCause 4 0)
      else retireWave (setWave s k (Wave.finish { fuseWaves x w mask with status := .ready } xnx)) u (brokenCause 4 0) := by
  have hu : waveOf s u = w := waveOf_of_lookup hw
  have hv : waveOf s k = x := waveOf_of_lookup hk
  unfold fuseNow
  rw [settleWave_idle s hw hp hwin, settleWave_idle s hk hxp hxwin]
  dsimp only
  rw [hu, hv]
  split
  · simp only [hu, hv]
  · simp only [hu, hv]

/-- What the current wave, the second of a pair, leaves alone: it goes on, and so do those that wait for it. -/
def regroupAlone (s : State) (u : Nat) (w : Wave) (nx : BitVec 2) : State :=
  setWave ((regroupWaiters s u w).foldl endRegroup s) u (Wave.finish { w with c := false } nx)

theorem canFuse_iff (w x : Wave) (q : Nat) (mask xmask : DWord) : canFuse w x q mask xmask = true ↔
    x.pc = w.pc ∧ q = w.waveId ∧ xmask = mask ∧ x.mode.setWidth 3 = w.mode.setWidth 3 ∧ popCount w.active + popCount x.active ≤ 32 := by
  have hg : x.guard = w.guard ↔ x.mode.setWidth 3 = w.mode.setWidth 3 := by
    simp only [Wave.guard, bitsAt_eq, pow_zero, Nat.div_one, ← BitVec.toNat_inj, BitVec.toNat_setWidth]
  simp only [canFuse, Bool.and_eq_true, beq_iff_eq, decide_eq_true_eq, hg, and_assoc]

/-- A wave that owes no result owes none when it is settled. -/
theorem not_outstanding_settleWave {s : State} {u : Nat} {w : Wave} (hw : lookup s.waves u = some w) (hp : w.pending = []) :
    outstanding (settleWave s u) u = false := by
  have hc : completeResults s u (fun _ => true) = s := by simp [completeResults, hw, hp]
  simp only [settleWave, hc, hw, hp]
  by_cases h : w.windows = [] <;> simp [outstanding, hw, hp, h]

section
variable {nx : BitVec 2} {a b : BitVec 6} {s : State} {w : Wave} (hw : lookup s.waves s.cur = some w)
include hw

/-- A partner that cannot come. -/
theorem regroup_noPartner (h : w.sheaf.isSome ∨ (w.sreg a.toNat).toNat % 16 = w.waveId ∨ (groupOf s w.group).nwave ≤ (w.sreg a.toNat).toNat % 16 ∨
    waveByWaveId s w.group ((w.sreg a.toNat).toNat % 16) = none) : exec (.regroup nx a b) s = .next (regroupAlone s s.cur w nx) := by
  show execRegroup nx a b s = _
  rw [execRegroup, onWave_eq hw]
  simp only [word_kind]
  split
  · rfl
  · next hn =>
    simp only [Bool.or_eq_true, decide_eq_true_eq, not_or] at hn
    obtain ⟨⟨hsheaf, hid⟩, hwave⟩ := hn
    obtain h | h | h | h := h
    · exact absurd h hsheaf
    · exact absurd h hid
    · exact absurd h hwave
    · rw [h]
      rfl

section
variable {k : Nat} {x : Wave} (hs : w.sheaf = none) (hid : (w.sreg a.toNat).toNat % 16 ≠ w.waveId)
  (hn : (w.sreg a.toNat).toNat % 16 < (groupOf s w.group).nwave) (hx : waveByWaveId s w.group ((w.sreg a.toNat).toNat % 16) = some (k, x))
include hs hid hn hx

/-- With a partner of the group that has not retired, it is the partner's state that decides. -/
theorem exec_regroup_partner : exec (.regroup nx a b) s = .next (match x.status with
    | .parked (.regroup xnx q xmask) =>
      if outstanding (settleWave s s.cur) s.cur then settleWave s s.cur
      else if canFuse w x q (w.sreg b.toNat) xmask then
        ((regroupWaiters s s.cur w).filter (· != k)).foldl endRegroup (fuseNow s nx xnx s.cur k (w.sreg b.toNat))
      else endRegroup (regroupAlone s s.cur w nx) k
    | _ => if (regroupWaiters s s.cur w).isEmpty then parkWave s s.cur (.regroup nx ((w.sreg a.toNat).toNat % 16) (w.sreg b.toNat))
      else regroupAlone s s.cur w nx) := by
  show execRegroup nx a b s = _
  rw [execRegroup, onWave_eq hw]
  simp only [word_kind]
  rw [if_neg (by simp [hs, hid, hn]), hx]
  rfl

/-- A partner that has not come is waited for, unless another wave waits for this one. -/
theorem regroup_waits (h : ∀ xnx q m, x.status ≠ .parked (.regroup xnx q m)) :
    (regroupWaiters s s.cur w = [] →
      exec (.regroup nx a b) s = .next (parkWave s s.cur (.regroup nx ((w.sreg a.toNat).toNat % 16) (w.sreg b.toNat)))) ∧
    (regroupWaiters s s.cur w ≠ [] → exec (.regroup nx a b) s = .next (regroupAlone s s.cur w nx)) := by
  rw [exec_regroup_partner hw hs hid hn hx]
  split
  · next hp => exact absurd hp (h _ _ _)
  · exact ⟨fun he => by rw [he]; rfl, fun he => by rw [if_neg (by simpa using he)]⟩

section
variable {xnx : BitVec 2} {q : Nat} {xmask : DWord} (hp : w.pending = []) (hst : x.status = .parked (.regroup xnx q xmask))
include hp hst

/-- Partners that do not match. -/
theorem regroup_unmatched (hf : canFuse w x q (w.sreg b.toNat) xmask = false) :
    exec (.regroup nx a b) s = .next (endRegroup (regroupAlone s s.cur w nx) k) := by
  rw [exec_regroup_partner hw hs hid hn hx]
  simp only [hst, not_outstanding_settleWave hw hp, hf]
  rfl

theorem exec_regroup_fuses (hf : canFuse w x q (w.sreg b.toNat) xmask = true) : exec (.regroup nx a b) s =
    .next (((regroupWaiters s s.cur w).filter (· != k)).foldl endRegroup (fuseNow s nx xnx s.cur k (w.sreg b.toNat))) := by
  rw [exec_regroup_partner hw hs hid hn hx]
  simp only [hst, not_outstanding_settleWave hw hp, hf]
  rfl

/-- Partners that match: the one of the lower WAVEID receives. -/
theorem regroup_fuses (hf : canFuse w x q (w.sreg b.toNat) xmask = true) (hk : lookup s.waves k = some x) (hne : k ≠ s.cur)
    (hg : x.group = w.group) (hxs : x.sheaf = none) (hxp : x.pending = []) (hwin : w.windows = []) (hxwin : x.windows = [])
    (hm : w.members = []) (hxm : x.members = []) :
    Completes (.regroup nx a b) s fun t =>
      let r := if w.waveId < x.waveId then s.cur else k
      let d := if w.waveId < x.waveId then k else s.cur
      (waveOf t r).c = true ∧ (waveOf t r).status = .ready ∧ (waveOf t d).status = .retired ∧
      ∀ j, j < 32 → (waveOf t r).live.getLsbD j = decide (j < popCount w.active + popCount x.active) := by
  refine ⟨_, exec_regroup_fuses hw hs hid hn hx hp hst hf, ?_⟩
  have keeps := keepsUnparked_endRegroups ((regroupWaiters s s.cur w).filter (· != k)) (fuseNow s nx xnx s.cur k (w.sreg b.toNat))
  rw [fuseNow_idle hw hk hp hxp hwin hxwin] at keeps ⊢
  by_cases hlt : w.waveId < x.waveId
  · simp only [hlt, if_true] at keeps ⊢
    obtain ⟨hd, hr⟩ := fusion_leaves (r := w) hk hne.symm hg.symm hxs hxm (w.sreg b.toNat) nx (brokenCause 4 0)
    rw [waveOf_of_lookup (keeps _ _ hr (by simp)), waveOf_of_lookup (keeps _ _ hd (by simp [retired]))]
    exact ⟨by simp [fuseWaves], by simp, rfl, fun j hj => by simp [fuseWaves_live _ hj]⟩
  · simp only [hlt, if_false] at keeps ⊢
    obtain ⟨hd, hr⟩ := fusion_leaves (r := x) hw hne hg hs hm (w.sreg b.toNat) xnx (brokenCause 4 0)
    rw [waveOf_of_lookup (keeps _ _ hr (by simp)), waveOf_of_lookup (keeps _ _ hd (by simp [retired]))]
    exact ⟨by simp [fuseWaves], by simp, rfl, fun j hj => by simp [fuseWaves_live _ hj, Nat.add_comm]⟩

end
end
end

/-- Settles O35: the outcomes of REGROUP by the partner's state, the fused lanes by their order. -/
theorem regroup : Obligations.Regroup := by
  unfold Obligations.Regroup
  refine ⟨fun nx a b s w hw => ⟨regroup_noPartner hw, fun k x hs hid hn hx => ⟨regroup_waits hw hs hid hn hx, fun xnx q xmask hst => ⟨fun hf hp => ?_,
    fun hf _ hk hne _ hg hxs hp hxp hwin hxwin hm hxm => ?_⟩⟩⟩, fun s k q x nx m hx hst => endRegroup_parked hx hst, fun r d mask x j hx hj => ?_⟩
  · exact regroup_unmatched hw hs hid hn hx hp hst (Bool.eq_false_iff.2 fun h => hf ((canFuse_iff ..).1 h))
  · exact regroup_fuses hw hs hid hn hx hp hst ((canFuse_iff ..).2 hf) hk hne hg hxs hxp hwin hxwin hm hxm
  · refine ⟨fun hmask i hi => ?_, fun hmask i hj' hi => ?_, fun h => ?_, fun k h1 hk => ⟨fun i hi => ?_, fun i hj' hi => ?_, fun h => ?_⟩, rfl, rfl, rfl⟩
    · rw [fuseWaves_lane mask hx hj, hmask, fusedLanes_receiver hi]
      rfl
    · rw [fuseWaves_lane mask hx hj, hmask, fusedLanes_donor hj' hi]
      rfl
    · rw [fuseWaves_lane mask hx hj]
      obtain h | h := h
      · rw [h]
        rfl
      · rw [fusedLanes_none h]
        exact ite_self _
    · rw [fuseWaves_preg mask h1 hk hj, fusedLanes_receiver hi]
      rfl
    · rw [fuseWaves_preg mask h1 hk hj, fusedLanes_donor hj' hi]
      rfl
    · rw [fuseWaves_preg mask h1 hk hj, fusedLanes_none h]
      rfl

end Sys2Proof

/-! SUPPORT. Messages about tasks and futures at their homes (R172, R176-R179, R349, R350, R422): what a write of a slot leaves, each message, slot grants and the
tasks of peers, and the statement about them. -/
namespace Sys2Proof
open Machine

/-! ### What a write of a slot leaves (R181) -/

theorem memoryOnly_writeFrtLine (s : State) (die slot : Nat) : MemoryOnly s (writeFrtLine s die slot) := by
  unfold writeFrtLine
  dsimp only
  split
  · split
    · exact .refl s
    · exact memoryOnly_agentWrite ..
  · exact .refl s

/-- A slot's write changes its die's table, and memory. -/
theorem memoryOnly_setFrt (s : State) (die slot : Nat) (x : FrtSlot) :
    MemoryOnly (setDie s die { dieOf s die with frt := put (dieOf s die).frt slot x }) (setFrt s die slot x) :=
  .foldl (fun t k => memoryOnly_writeFrtLine t die k) _ _

protected theorem MemoryOnly.uid {s t : State} (h : MemoryOnly s t) : t.uid = s.uid := by obtain ⟨_, _, _, _, _, _, _, _, _, rfl⟩ := h; rfl
protected theorem MemoryOnly.tsc {s t : State} (h : MemoryOnly s t) : t.tsc = s.tsc := by obtain ⟨_, _, _, _, _, _, _, _, _, rfl⟩ := h; rfl

section
variable (s : State) (die slot : Nat) (x : FrtSlot)

@[simp] theorem setFrt_uid : (setFrt s die slot x).uid = s.uid := (memoryOnly_setFrt ..).uid
@[simp] theorem setFrt_tsc : (setFrt s die slot x).tsc = s.tsc := (memoryOnly_setFrt ..).tsc
@[simp] theorem setFrt_waves : (setFrt s die slot x).waves = s.waves := (memoryOnly_setFrt ..).waves

@[simp] theorem setFrt_packets : (setFrt s die slot x).packets = s.packets := by
  have line : ∀ (t : State) k, (writeFrtLine t die k).packets = t.packets := fun t k => by
    unfold writeFrtLine
    dsimp only
    split
    · split
      · rfl
      · exact foldl_keeps State.packets _ (fun t _ => packets_performWrite ..) _ _
    · rfl
  exact foldl_keeps State.packets _ line _ _

@[simp] theorem dieOf_setFrt : dieOf (setFrt s die slot x) die = { dieOf s die with frt := put (dieOf s die).frt slot x } := by
  rw [dieOf, (memoryOnly_setFrt s die slot x).dies]
  exact dieOf_setDie ..

theorem dieOf_setFrt_ne {d : Nat} (h : d ≠ die) : dieOf (setFrt s die slot x) d = dieOf s d := by
  rw [dieOf, (memoryOnly_setFrt s die slot x).dies]
  exact dieOf_setDie_ne s _ h

/-- What a die holds beside its table stays. -/
theorem setFrt_keeps {γ : Type} (g : Die → γ) (hg : ∀ y f, g { y with frt := f } = g y) (d : Nat) : g (dieOf (setFrt s die slot x) d) = g (dieOf s d) := by
  by_cases h : d = die
  · rw [h, dieOf_setFrt, hg]
  · rw [dieOf_setFrt_ne _ _ _ _ h]

@[simp] theorem setFrt_grantReqs (d : Nat) : (dieOf (setFrt s die slot x) d).grantReqs = (dieOf s d).grantReqs :=
  setFrt_keeps s die slot x Die.grantReqs (fun _ _ => rfl) d
@[simp] theorem setFrt_pools (d : Nat) : (dieOf (setFrt s die slot x) d).pools = (dieOf s d).pools :=
  setFrt_keeps s die slot x Die.pools (fun _ _ => rfl) d

variable {s die slot x}

theorem frtOf_of_lookup (h : lookup (dieOf s die).frt slot = some x) : frtOf s die slot = x := by simp only [frtOf, h]

@[simp] theorem frtOf_setFrt : frtOf (setFrt s die slot x) die slot = x := frtOf_of_lookup (by simp)

end

/-! ### What a slot is read from -/

/-- A slot reads alike where the table of its die, the tables' memory and FRTBASE are the same. -/
theorem frtOf_congr {s t : State} {die : Nat} (hf : (dieOf t die).frt = (dieOf s die).frt) (hb : t.bar = s.bar) (h : SameTables s t) (slot : Nat) :
    frtOf t die slot = frtOf s die slot := by
  have hp : frtPlace t die slot = frtPlace s die slot := by simp only [frtPlace, hb]
  simp only [frtOf, hf, frtLineTag, hp, h.key0, h.viewBytes]

/-- A die changed beside its table keeps every slot. -/
theorem dieFrt_setDie (s : State) {d : Nat} {x : Die} (h : x.frt = (dieOf s d).frt) (die : Nat) : (dieOf (setDie s d x) die).frt = (dieOf s die).frt := by
  by_cases hd : die = d
  · rw [hd, dieOf_setDie, h]
  · rw [dieOf_setDie_ne _ _ hd]

theorem frtOf_setDie (s : State) {d : Nat} {x : Die} (h : x.frt = (dieOf s d).frt) (die slot : Nat) : frtOf (setDie s d x) die slot = frtOf s die slot :=
  frtOf_congr (dieFrt_setDie s h die) rfl ⟨rfl, rfl, rfl, rfl, rfl, rfl⟩ slot

theorem postFutures_dies (s : State) : (postFutures s).dies = s.dies := by
  obtain ⟨w, c, h⟩ := postFutures_frame s
  rw [h]

@[simp] theorem dieOf_postFutures (s : State) (die : Nat) : dieOf (postFutures s) die = dieOf s die := by rw [dieOf, postFutures_dies]; rfl

@[simp] theorem frtOf_postFutures (s : State) (die slot : Nat) : frtOf (postFutures s) die slot = frtOf s die slot := by
  obtain ⟨w, c, h⟩ := postFutures_frame s
  rw [h]
  exact frtOf_congr rfl rfl ⟨rfl, rfl, rfl, rfl, rfl, rfl⟩ slot

/-! ### The sheaf former (R172) -/

/-- The lane that a task takes of a sheaf. -/
def taskLane (s : State) (die slot : Nat) : LaneTask := ⟨(frtOf s die slot).argp, (frtOf s die slot).val, slotHandle s die slot⟩

/-- Whether an open sheaf is of a task's context, region and entry. -/
def SheafTakes (s : State) (die slot : Nat) (o : OpenSheaf) : Prop :=
  o.ctag = (frtOf s die slot).ctag ∧ o.region = (frtOf s die slot).region ∧ o.entry = (frtOf s die slot).entry

section
variable {s : State} {die slot : Nat}

theorem formTask_opens (h : ∀ o ∈ (dieOf s die).former, ¬SheafTakes s die slot o) :
    let t := formTask s die slot
    (dieOf t die).tasks = (dieOf s die).tasks ∧ (frtOf t die slot).started = true ∧
      (dieOf t die).former = (dieOf s die).former ++
        [⟨(frtOf s die slot).ctag, (frtOf s die slot).region, (frtOf s die slot).entry, [taskLane s die slot], s.tsc.toNat⟩] := by
  have hk : (dieOf s die).former[(dieOf s die).former.findIdx fun o =>
      o.ctag == (frtOf s die slot).ctag && o.region == (frtOf s die slot).region && o.entry == (frtOf s die slot).entry]? = none := by
    rw [List.getElem?_eq_none_iff, List.findIdx_eq_length.2]
    intro o ho
    simpa [SheafTakes, and_assoc] using h o ho
  unfold formTask
  simp only [dieOf_setFrt, hk, dieOf_setDie]
  refine ⟨trivial, ?_, ?_⟩
  · rw [frtOf_setDie _ (by simp), frtOf_setFrt]
  · rw [setFrt_tsc, taskLane]

/-- A sheaf's release moves it to the sheaves that wait for a core. -/
theorem releaseSheaf_leaves {k : Nat} {o : OpenSheaf} (h : (dieOf s die).former[k]? = some o) :
    let t := releaseSheaf s die k
    (dieOf t die).former = (dieOf s die).former.eraseIdx k ∧ (dieOf t die).ready = (dieOf s die).ready ++ [(s.uid, o.ctag, sheafOf o)] ∧
      (dieOf t die).tasks = (dieOf s die).tasks ∧ ∀ n, frtOf t die n = frtOf s die n := by
  unfold releaseSheaf
  simp only [h, dieOf_setDie, true_and]
  refine fun n => frtOf_congr ((dieFrt_setDie { s with uid := s.uid + 1 } ?_ die).trans rfl) rfl ⟨rfl, rfl, rfl, rfl, rfl, rfl⟩ n
  rfl

/-- An open sheaf with one more task. -/
def sheafWith (o : OpenSheaf) (t : LaneTask) : OpenSheaf := { o with tasks := o.tasks ++ [t] }

theorem sheafOf_sheafWith (o : OpenSheaf) (t : LaneTask) :
    sheafOf (sheafWith o t) = ⟨o.entry, o.region, (List.range (o.tasks.length + 1)).zip (sheafWith o t).tasks⟩ := by simp [sheafOf, sheafWith]

/-- A task has started, and has taken the next lane of open sheaf `k`. -/
def joinSheaf (s : State) (die slot k : Nat) (o : OpenSheaf) : State :=
  let x := setFrt s die slot { frtOf s die slot with started := true }
  setDie x die { dieOf x die with former := (dieOf x die).former.set k (sheafWith o (taskLane s die slot)) }

theorem joinSheaf_leaves (k : Nat) (o : OpenSheaf) :
    let t := joinSheaf s die slot k o
    (dieOf t die).former = (dieOf s die).former.set k (sheafWith o (taskLane s die slot)) ∧ (dieOf t die).ready = (dieOf s die).ready ∧
      (dieOf t die).tasks = (dieOf s die).tasks ∧ (frtOf t die slot).started = true ∧ t.uid = s.uid := by
  simp only [joinSheaf, dieOf_setDie, dieOf_setFrt, setDie_uid, setFrt_uid, true_and, and_true]
  rw [frtOf_setDie _ (by simp), frtOf_setFrt]

/-- The former's next state, where the task's sheaf is open. -/
theorem formTask_found {k : Nat} {o : OpenSheaf} (hk : (dieOf s die).former.findIdx (fun o =>
      o.ctag == (frtOf s die slot).ctag && o.region == (frtOf s die slot).region && o.entry == (frtOf s die slot).entry) = k)
    (ho : (dieOf s die).former[k]? = some o) : formTask s die slot =
      if 32 ≤ o.tasks.length + 1 then releaseSheaf (joinSheaf s die slot k o) die k else joinSheaf s die slot k o := by
  unfold formTask joinSheaf
  simp only [dieOf_setFrt, hk, ho]
  rfl

/-- The task takes the next lane of the open sheaf of its kind, and the 32nd releases it. -/
theorem formTask_joins {early late : List OpenSheaf} {o : OpenSheaf} (hf : (dieOf s die).former = early ++ o :: late)
    (he : ∀ x ∈ early, ¬SheafTakes s die slot x) (ho : SheafTakes s die slot o) :
    let t := formTask s die slot
    let o' := sheafWith o (taskLane s die slot)
    (dieOf t die).tasks = (dieOf s die).tasks ∧ (frtOf t die slot).started = true ∧
      (o.tasks.length + 1 < 32 → (dieOf t die).former = early ++ o' :: late ∧ (dieOf t die).ready = (dieOf s die).ready) ∧
      (32 ≤ o.tasks.length + 1 → (dieOf t die).former = early ++ late ∧
        (dieOf t die).ready = (dieOf s die).ready ++ [(s.uid, o.ctag, ⟨o.entry, o.region, (List.range (o.tasks.length + 1)).zip o'.tasks⟩)]) := by
  have hk : (dieOf s die).former.findIdx (fun o =>
      o.ctag == (frtOf s die slot).ctag && o.region == (frtOf s die slot).region && o.entry == (frtOf s die slot).entry) = early.length := by
    rw [hf, List.findIdx_append, List.findIdx_eq_length.2, List.findIdx_cons]
    · simp [ho.1, ho.2.1, ho.2.2]
    · intro x hx
      simpa [SheafTakes, and_assoc] using he x hx
  have ho' : (dieOf s die).former[early.length]? = some o := by simp [hf]
  rw [formTask_found hk ho']
  obtain ⟨hformer, hready, htasks, hstart, huid⟩ := joinSheaf_leaves (s := s) (die := die) (slot := slot) early.length o
  have hset : (dieOf (joinSheaf s die slot early.length o) die).former = early ++ sheafWith o (taskLane s die slot) :: late := by
    rw [hformer, hf]
    simp
  generalize joinSheaf s die slot early.length o = x at *
  dsimp only
  split
  · next h32 =>
    obtain ⟨hformer', hready', htasks', hfrt⟩ :=
      releaseSheaf_leaves (s := x) (die := die) (k := early.length) (o := sheafWith o (taskLane s die slot)) (by simp [hset])
    rw [hformer', hready', htasks', hfrt, hset, hready, huid]
    exact ⟨htasks, hstart, fun h => absurd h (by omega), fun _ => ⟨by simp [List.eraseIdx_append_of_length_le], by rw [sheafOf_sheafWith]; rfl⟩⟩
  · next h32 => exact ⟨htasks, hstart, fun _ => ⟨hset, hready⟩, fun h => absurd h h32⟩

/-! ### Arrivals at the former, and its timeouts (R172) -/

theorem exec_taskArrival {rest : List Msg} (h : (dieOf s die).tasks = .task slot :: rest) : exec (.taskArrival die) s = .next (
    let t := setDie s die { dieOf s die with tasks := rest }
    if (frtOf s die slot).state = 1#2 ∧ (frtOf s die slot).started = false ∧ isResident s (frtOf s die slot).ctag = true then formTask t die slot
    else t) := by
  have hf : frtOf (setDie s die { dieOf s die with tasks := rest }) die slot = frtOf s die slot := frtOf_setDie s (by rfl) die slot
  show execTaskArrival die s = _
  simp only [execTaskArrival, h, hf, Bool.and_eq_true, decide_eq_true_eq, Bool.not_eq_true', and_assoc]
  rfl

section
variable {rest : List Msg} (h : (dieOf s die).tasks = .task slot :: rest)
  (hr : (frtOf s die slot).state = 1#2 ∧ (frtOf s die slot).started = false ∧ isResident s (frtOf s die slot).ctag = true)
include h hr

/-- A task whose kind has no open sheaf. -/
theorem taskArrival_opens (hn : ∀ o ∈ (dieOf s die).former, ¬SheafTakes s die slot o) : Completes (.taskArrival die) s fun t =>
    (dieOf t die).tasks = rest ∧ (frtOf t die slot).started = true ∧ (dieOf t die).former = (dieOf s die).former ++
      [⟨(frtOf s die slot).ctag, (frtOf s die slot).region, (frtOf s die slot).entry, [taskLane s die slot], s.tsc.toNat⟩] := by
  have hf : frtOf (setDie s die { dieOf s die with tasks := rest }) die slot = frtOf s die slot := frtOf_setDie s (by rfl) die slot
  have key := formTask_opens (s := setDie s die { dieOf s die with tasks := rest }) (die := die) (slot := slot)
    (by simpa only [dieOf_setDie, SheafTakes, hf] using hn)
  simp only [dieOf_setDie, taskLane, slotHandle, hf] at key
  exact ⟨_, (exec_taskArrival h).trans (congrArg _ (if_pos hr)), key⟩

/-- A task whose kind has an open sheaf. -/
theorem taskArrival_joins {early late : List OpenSheaf} {o : OpenSheaf} (hd : (dieOf s die).former = early ++ o :: late)
    (he : ∀ x ∈ early, ¬SheafTakes s die slot x) (ho : SheafTakes s die slot o) : Completes (.taskArrival die) s fun t =>
    let o' := sheafWith o (taskLane s die slot)
    (dieOf t die).tasks = rest ∧ (frtOf t die slot).started = true ∧
      (o.tasks.length + 1 < 32 → (dieOf t die).former = early ++ o' :: late ∧ (dieOf t die).ready = (dieOf s die).ready) ∧
      (32 ≤ o.tasks.length + 1 → (dieOf t die).former = early ++ late ∧
        (dieOf t die).ready = (dieOf s die).ready ++ [(s.uid, o.ctag, ⟨o.entry, o.region, (List.range (o.tasks.length + 1)).zip o'.tasks⟩)]) := by
  have hf : frtOf (setDie s die { dieOf s die with tasks := rest }) die slot = frtOf s die slot := frtOf_setDie s (by rfl) die slot
  have key := formTask_joins (s := setDie s die { dieOf s die with tasks := rest }) (die := die) (slot := slot) (early := early) (late := late) (o := o)
    (by rwa [dieOf_setDie]) (by simpa only [SheafTakes, hf] using he) (by simpa only [SheafTakes, hf] using ho)
  simp only [dieOf_setDie, taskLane, slotHandle, hf] at key
  exact ⟨_, (exec_taskArrival h).trans (congrArg _ (if_pos hr)), key⟩

end

/-- A sheaf that has waited for 2 µs, of a resident context, is released, and no other is. -/
theorem sheafTimeout_releases {k : Nat} {o : OpenSheaf} (h : (dieOf s die).former[k]? = some o) :
    (o.since + 2000 ≤ s.tsc.toNat ∧ isResident s o.ctag = true → Completes (.sheafTimeout die k) s fun t =>
      (dieOf t die).former = (dieOf s die).former.eraseIdx k ∧ (dieOf t die).ready = (dieOf s die).ready ++ [(s.uid, o.ctag, sheafOf o)]) ∧
    (¬(o.since + 2000 ≤ s.tsc.toNat ∧ isResident s o.ctag = true) → exec (.sheafTimeout die k) s = .next s) := by
  have hx : exec (.sheafTimeout die k) s =
      .next (if o.since + 2000 ≤ s.tsc.toNat ∧ isResident s o.ctag = true then releaseSheaf s die k else s) := by
    show execSheafTimeout die k s = _
    simp only [execSheafTimeout, h, sheafDue, Bool.and_eq_true, decide_eq_true_eq]
  obtain ⟨hformer, hready, -, -⟩ := releaseSheaf_leaves h
  exact ⟨fun hd => ⟨_, hx.trans (congrArg _ (if_pos hd)), hformer, hready⟩, fun hd => hx.trans (congrArg _ (if_neg hd))⟩

end

/-! ### The ends of futures (R177) -/

section
variable {s : State} {die slot : Nat}

/-- A PENDING slot as its future's end leaves it. -/
def endedSlot (f : FrtSlot) (broken : Bool) (v : DWord) : FrtSlot := { f with state := if broken then 3#2 else 2#2, value := v, fifo := [], waits := false }

/-- What is done of a future that has ended, where neither a record nor a peer has more of it: a peer that created its task is answered. -/
theorem reportEnd_noRecord (h : (frtOf s die slot).resa = 0#64) : ∃ p, reportEnd s die slot = { s with packets := p } := by
  unfold reportEnd
  simp only [h, if_true]
  split <;> exact ⟨_, rfl⟩

/-- A PENDING future on which nothing waits ends: only its slot changes. -/
theorem endSlot_alone (h1 : (frtOf s die slot).state = 1#2) (hfifo : (frtOf s die slot).fifo = []) (hw : (frtOf s die slot).waits = false)
    (hres : (frtOf s die slot).resa = 0#64) (hd : (frtOf s die slot).dropped = false) (broken : Bool) (v : DWord) :
    ∃ t, endSlot s die slot broken v = (t, []) ∧ dieOf t die = dieOf (setFrt s die slot (endedSlot (frtOf s die slot) broken v)) die ∧
      frtOf t die slot = endedSlot (frtOf s die slot) broken v := by
  have hf : frtOf (setFrt s die slot (endedSlot (frtOf s die slot) broken v)) die slot = endedSlot (frtOf s die slot) broken v := frtOf_setFrt
  obtain ⟨p, hp⟩ := reportEnd_noRecord (s := setFrt s die slot (endedSlot (frtOf s die slot) broken v)) (die := die) (slot := slot)
    (by rw [hf]; exact hres)
  set x := setFrt s die slot (endedSlot (frtOf s die slot) broken v) with hx
  have hx' : frtOf { x with packets := p } die slot = endedSlot (frtOf s die slot) broken v :=
    (frtOf_congr rfl rfl ⟨rfl, rfl, rfl, rfl, rfl, rfl⟩ slot).trans hf
  refine ⟨{ x with packets := p }, ?_, rfl, hx'⟩
  have hfree : tryFree { x with packets := p } die slot = { x with packets := p } := by
    unfold tryFree
    rw [hx']
    exact if_neg (by simp [endedSlot, hd])
  have he : endSlot s die slot broken v = (tryFree (reportEnd x die slot) die slot, []) := by
    unfold endSlot
    simp only [h1, hfifo, hw, ne_eq, not_true_eq_false, if_false, leaveFifo, List.foldl_nil, ite_self, Bool.false_eq_true]
    rfl
  rw [he, hp, hfree]

theorem breakSlots_nil (fuel : Nat) (s : State) (die : Nat) (cause : DWord) : breakSlots fuel s die [] cause = s := by
  cases fuel <;> simp [breakSlots]

/-- The end of a task that its slot still carries, with nothing waiting on its future. -/
theorem finishSlot_alone (h1 : (frtOf s die slot).state = 1#2) (hfifo : (frtOf s die slot).fifo = []) (hw : (frtOf s die slot).waits = false)
    (hres : (frtOf s die slot).resa = 0#64) (hd : (frtOf s die slot).dropped = false) (broken : Bool) (v : DWord) :
    let t := finishSlot s die slot (frtOf s die slot).tag (frtOf s die slot).ctag broken v
    dieOf t die = dieOf (setFrt s die slot (endedSlot (frtOf s die slot) broken v)) die ∧ frtOf t die slot = endedSlot (frtOf s die slot) broken v := by
  obtain ⟨t, ht, hdie, hslot⟩ := endSlot_alone h1 hfifo hw hres hd broken v
  have he : finishSlot s die slot (frtOf s die slot).tag (frtOf s die slot).ctag broken v = t := by
    cases broken
    · simp [finishSlot, ht]
    · simp [finishSlot, breakSlot, breakSlots, breakSlots_nil, ht]
  rw [he]
  exact ⟨hdie, hslot⟩

theorem exec_frtTaskEnd {tag : BitVec 12} {ctag : Nat} {broken : Bool} {v : DWord} {rest : List Msg}
    (h : (dieOf s die).ends = .finish slot tag ctag broken v :: rest) : exec (.frtTaskEnd die) s =
      .next (postFutures (finishSlot (setDie s die { dieOf s die with ends := rest }) die slot tag ctag broken v)) := by
  show execFrtTaskEnd die s = _
  simp only [execFrtTaskEnd, h]

/-- The end of a task of the slot's own incarnation and context. -/
theorem frtTaskEnd_ends {broken : Bool} {v : DWord} {rest : List Msg}
    (h : (dieOf s die).ends = .finish slot (frtOf s die slot).tag (frtOf s die slot).ctag broken v :: rest) (h1 : (frtOf s die slot).state = 1#2)
    (hfifo : (frtOf s die slot).fifo = []) (hw : (frtOf s die slot).waits = false) (hres : (frtOf s die slot).resa = 0#64)
    (hd : (frtOf s die slot).dropped = false) : Completes (.frtTaskEnd die) s fun t => (dieOf t die).ends = rest ∧
      (frtOf t die slot).state = (if broken then 3#2 else 2#2) ∧ (frtOf t die slot).value = v ∧ (frtOf t die slot).tag = (frtOf s die slot).tag := by
  have hf : frtOf (setDie s die { dieOf s die with ends := rest }) die slot = frtOf s die slot := frtOf_setDie s (by rfl) die slot
  rw [← hf] at h1 hfifo hw hres hd
  obtain ⟨hdie, hslot⟩ := finishSlot_alone h1 hfifo hw hres hd broken v
  rw [hf] at hdie hslot
  refine ⟨_, exec_frtTaskEnd h, ?_⟩
  beta_reduce
  rw [dieOf_postFutures, frtOf_postFutures, hdie, hslot, dieOf_setFrt, dieOf_setDie]
  exact ⟨rfl, rfl, rfl, rfl⟩

/-- The end of a task of another incarnation or of another context changes no future. -/
theorem frtTaskEnd_stale {tag : BitVec 12} {ctag : Nat} {broken : Bool} {v : DWord} {rest : List Msg}
    (h : (dieOf s die).ends = .finish slot tag ctag broken v :: rest) (hne : tag ≠ (frtOf s die slot).tag ∨ ctag ≠ (frtOf s die slot).ctag) :
    Completes (.frtTaskEnd die) s fun t => (dieOf t die).ends = rest ∧ SameMemory s t ∧
      ∀ d k, (dieOf t d).frt = (dieOf s d).frt ∧ frtOf t d k = frtOf s d k := by
  have hf : frtOf (setDie s die { dieOf s die with ends := rest }) die slot = frtOf s die slot := frtOf_setDie s (by rfl) die slot
  have hs : finishSlot (setDie s die { dieOf s die with ends := rest }) die slot tag ctag broken v = setDie s die { dieOf s die with ends := rest } := by
    unfold finishSlot
    rw [hf, if_pos (by simpa [ne_comm] using hne)]
  refine ⟨_, exec_frtTaskEnd h, ?_⟩
  beta_reduce
  rw [hs, dieOf_postFutures, dieOf_setDie]
  refine ⟨rfl, ?_, fun d k => ?_⟩
  · obtain ⟨w, c, hp⟩ := postFutures_frame (setDie s die { dieOf s die with ends := rest })
    rw [hp]
    exact physByte_congr rfl rfl
  · rw [dieOf_postFutures, frtOf_postFutures]
    exact ⟨dieFrt_setDie s (by rfl) d, frtOf_setDie s (by rfl) d k⟩

/-! ### Drops (R177, R352) -/

/-- A future that has ended, and is dropped with no forward waiting on it, is free under its next TAG. -/
theorem arriveDrop_frees {h : DWord} (hd : handleDie h = die) (hs : handleSlot h = slot) (ht : handleTag h = (frtOf s die slot).tag)
    (h2 : 2#2 ≤ (frtOf s die slot).state) (hfifo : (frtOf s die slot).fifo = []) :
    frtOf (arriveDrop s h) die slot = { tag := nextTag (frtOf s die slot).tag } ∧ (dieOf (arriveDrop s h) die).drops = (dieOf s die).drops := by
  subst hd hs
  have hended : (frtOf s (handleDie h) (handleSlot h)).state = 2#2 ∨ (frtOf s (handleDie h) (handleSlot h)).state = 3#2 := by
    generalize (frtOf s (handleDie h) (handleSlot h)).state = x at h2 ⊢
    revert x
    decide
  have hne : (frtOf s (handleDie h) (handleSlot h)).state ≠ 0#2 := by
    obtain h | h := hended <;> rw [h] <;> decide
  have he : arriveDrop s h = freeSlot (setFrt s (handleDie h) (handleSlot h) { frtOf s (handleDie h) (handleSlot h) with dropped := true })
      (handleDie h) (handleSlot h) := by
    unfold arriveDrop
    rw [if_neg (by simp [ht, hne]), tryFree, frtOf_setFrt]
    exact if_pos (by simpa [hfifo] using hended)
  rw [he, freeSlot, dieOf_setDie, frtOf_setDie _ (by simp)]
  simp

theorem exec_dropArrival {h : DWord} {rest : List Msg} (hf : (dieOf s die).forwards = []) (hd : (dieOf s die).drops = .drop h :: rest) :
    exec (.dropArrival die) s = .next (postFutures (arriveDrop (setDie s die { dieOf s die with drops := rest }) h)) := by
  have hfind : (dieOf s die).drops.find? (dropReady (dieOf s die)) = some (.drop h) := by simp [hd, dropReady, hf]
  show execDropArrival die s = _
  simp only [execDropArrival, hfind]
  rw [hd, List.erase_cons_head]

theorem dropArrival_frees {h : DWord} {rest : List Msg} (hf : (dieOf s die).forwards = []) (hd : (dieOf s die).drops = .drop h :: rest)
    (hdie : handleDie h = die) (hs : handleSlot h = slot) (ht : handleTag h = (frtOf s die slot).tag) (h2 : 2#2 ≤ (frtOf s die slot).state)
    (hfifo : (frtOf s die slot).fifo = []) : Completes (.dropArrival die) s fun t => (dieOf t die).drops = rest ∧
      (frtOf t die slot).state = 0#2 ∧ (frtOf t die slot).tag = if (frtOf s die slot).tag = 4095#12 then 1#12 else (frtOf s die slot).tag + 1#12 := by
  have hfrt : frtOf (setDie s die { dieOf s die with drops := rest }) die slot = frtOf s die slot := frtOf_setDie s (by rfl) die slot
  rw [← hfrt] at ht h2 hfifo
  obtain ⟨hslot, hdrops⟩ := arriveDrop_frees hdie hs ht h2 hfifo
  refine ⟨_, exec_dropArrival hf hd, ?_⟩
  beta_reduce
  rw [dieOf_postFutures, frtOf_postFutures, hslot, hdrops, hfrt, dieOf_setDie]
  exact ⟨rfl, rfl, rfl⟩

/-! ### Forwards (R177, R350) -/

section
variable {target : DWord} (h1 : (frtOf s die slot).state = 1#2) (ht : (frtOf s die (handleSlot target)).tag = handleTag target)
  (hc : (frtOf s die (handleSlot target)).ctag = (frtOf s die slot).ctag)
include h1 ht hc

/-- A forward to a complete future starts with its value. -/
theorem arriveForward_starts (h2 : (frtOf s die (handleSlot target)).state = 2#2) :
    let t := arriveForward s die target slot
    (dieOf t die).forwards = (dieOf s die).forwards ∧ (frtOf t die slot).val = (frtOf s die (handleSlot target)).value ∧
      (dieOf t die).tasks = (dieOf s die).tasks ++ [.task slot] := by
  have he : arriveForward s die target slot =
      sendTask (setFrt s die slot { frtOf s die slot with val := (frtOf s die (handleSlot target)).value, waits := false }) die slot := by
    simp [arriveForward, startForward, h1, ht, hc, h2]
  dsimp only
  rw [he, sendTask, dieOf_setDie, frtOf_setDie _ (by rfl), frtOf_setFrt, dieOf_setFrt]
  exact ⟨rfl, rfl, rfl⟩

/-- A forward to a pending future joins its FIFO. -/
theorem arriveForward_queues (hne : handleSlot target ≠ slot) (h2 : (frtOf s die (handleSlot target)).state = 1#2) :
    let t := arriveForward s die target slot
    (dieOf t die).forwards = (dieOf s die).forwards ∧ (dieOf t die).tasks = (dieOf s die).tasks ∧
      (frtOf t die (handleSlot target)).fifo = (frtOf s die (handleSlot target)).fifo ++ [slot] ∧
      (frtOf t die slot).target = some (handleSlot target) ∧ (frtOf t die slot).waits = true := by
  have he : arriveForward s die target slot = setFrt (setFrt s die slot { frtOf s die slot with target := some (handleSlot target), waits := true }) die
      (handleSlot target) { frtOf s die (handleSlot target) with fifo := (frtOf s die (handleSlot target)).fifo ++ [slot] } := by
    simp [arriveForward, h1, ht, hc, h2]
  have hslot : frtOf (arriveForward s die target slot) die slot = { frtOf s die slot with target := some (handleSlot target), waits := true } := by
    rw [he]
    exact frtOf_of_lookup (by simp [lookup_put_ne _ _ hne.symm])
  refine ⟨?_, ?_, ?_, ?_, ?_⟩
  · rw [he, dieOf_setFrt, dieOf_setFrt]
  · rw [he, dieOf_setFrt, dieOf_setFrt]
  · rw [he, frtOf_setFrt]
  · rw [hslot]
  · rw [hslot]

end

theorem exec_forwardArrival {target : DWord} {rest : List Msg} (h : (dieOf s die).forwards = .forward target slot :: rest) :
    exec (.forwardArrival die) s = .next (postFutures (arriveForward (setDie s die { dieOf s die with forwards := rest }) die target slot)) := by
  show execForwardArrival die s = _
  simp only [execForwardArrival, h]

/-- R177: a forward whose target is complete starts, and one whose target is pending waits for it. -/
theorem forwardArrival_arrives {target : DWord} {rest : List Msg} (h : (dieOf s die).forwards = .forward target slot :: rest)
    (h1 : (frtOf s die slot).state = 1#2) (hne : handleSlot target ≠ slot) (ht : (frtOf s die (handleSlot target)).tag = handleTag target)
    (hc : (frtOf s die (handleSlot target)).ctag = (frtOf s die slot).ctag) :
    ((frtOf s die (handleSlot target)).state = 2#2 → Completes (.forwardArrival die) s fun t => (dieOf t die).forwards = rest ∧
      (frtOf t die slot).val = (frtOf s die (handleSlot target)).value ∧ (dieOf t die).tasks = (dieOf s die).tasks ++ [.task slot]) ∧
    ((frtOf s die (handleSlot target)).state = 1#2 → Completes (.forwardArrival die) s fun t => (dieOf t die).forwards = rest ∧
      (dieOf t die).tasks = (dieOf s die).tasks ∧ (frtOf t die (handleSlot target)).fifo = (frtOf s die (handleSlot target)).fifo ++ [slot] ∧
      (frtOf t die slot).target = some (handleSlot target) ∧ (frtOf t die slot).waits = true) := by
  have hf : ∀ k, frtOf (setDie s die { dieOf s die with forwards := rest }) die k = frtOf s die k := frtOf_setDie s (by rfl) die
  have starts := arriveForward_starts (s := setDie s die { dieOf s die with forwards := rest }) (die := die) (slot := slot) (target := target)
  have queues := arriveForward_queues (s := setDie s die { dieOf s die with forwards := rest }) (die := die) (slot := slot) (target := target)
  simp only [hf, dieOf_setDie] at starts queues
  refine ⟨fun h2 => ⟨_, exec_forwardArrival h, ?_⟩, fun h2 => ⟨_, exec_forwardArrival h, ?_⟩⟩
  · simpa only [dieOf_postFutures, frtOf_postFutures] using starts h1 ht hc h2
  · simpa only [dieOf_postFutures, frtOf_postFutures] using queues h1 ht hc hne h2

/-- What another device's home says of a future is all that is known of it. -/
theorem futureAnswerArrival_records {h : DWord} {ans : FutureAnswer} (ho : ownNode s (handleNode h) = false) (ha : ans ≠ .pending) :
    Completes (.futureAnswerArrival h ans) s fun t => (⟨h, ans⟩ : RemoteFuture) ∈ t.remotes ∧ ∀ r ∈ t.remotes, r.handle = h → r.ans = ans := by
  have hx : exec (.futureAnswerArrival h ans) s =
      .next (postFutures { s with remotes := (s.remotes.filter fun r => r.handle != h) ++ [⟨h, ans⟩] }) := by
    show execFutureAnswerArrival h ans s = _
    simp [execFutureAnswerArrival, ho, ha]
  obtain ⟨w, c, hp⟩ := postFutures_frame { s with remotes := (s.remotes.filter fun r => r.handle != h) ++ [⟨h, ans⟩] }
  refine ⟨_, hx, ?_⟩
  rw [hp]
  refine ⟨by simp, fun r hr he => ?_⟩
  obtain hr | hr := List.mem_append.1 hr
  · simp [he] at hr
  · rw [List.mem_singleton.1 hr]

end

/-! ### Slots that can be granted (R176) -/

/-- A slot that is FREE and in no pool. -/
def IdleSlot (s : State) (die k : Nat) : Prop := (frtOf s die k).state = 0#2 ∧ (frtOf s die k).granted = false

section
variable {s : State} {die : Nat}

theorem idleSlot_of_unlisted {k : Nat} (h : lookup (dieOf s die).frt k = none) : IdleSlot s die k := by simp [IdleSlot, frtOf, h]

theorem freeSlots_idle (fuel k n : Nat) : ∀ x ∈ freeSlots fuel s die k n, IdleSlot s die x := by
  fun_induction freeSlots fuel s die k n with
  | case1 => simp
  | case2 => simp
  | case3 => simp
  | case4 k f m hk x hx ih =>
    refine List.forall_mem_cons.2 ⟨?_, ih⟩
    simpa [IdleSlot] using hx
  | case5 k f m hk x hx ih => exact ih

theorem freeSlots_length (fuel k n : Nat) : (freeSlots fuel s die k n).length ≤ n := by
  fun_induction freeSlots fuel s die k n with
  | case1 => simp
  | case2 => simp
  | case3 => simp
  | case4 k f m hk x hx ih => simpa using ih
  | case5 k f m hk x hx ih => exact ih

/-- The search finds a slot when it looks far enough. -/
theorem freeSlots_ne_nil {m : Nat} (hm : IdleSlot s die m) (hlt : m < Config.frtSlots) (fuel k n : Nat) (hn : 0 < n) (hk : k ≤ m)
    (hf : m < k + fuel) : freeSlots fuel s die k n ≠ [] := by
  fun_induction freeSlots fuel s die k n with
  | case1 => omega
  | case2 => omega
  | case3 k f n hk' => omega
  | case4 => simp
  | case5 k f n hk' x hx ih =>
    have hne : k ≠ m := by
      rintro rfl
      exact hx (by simpa [IdleSlot] using hm)
    exact ih hn (by omega) (by omega)

/-- Slots in use have records: as many records as there are pass them all. -/
theorem exists_idle_le_length {k : Nat} (h : IdleSlot s die k) : ∃ m ≤ k, m ≤ (dieOf s die).frt.length ∧ IdleSlot s die m := by
  classical
  refine ⟨Nat.find ⟨k, h⟩, Nat.find_min' _ h, ?_, Nat.find_spec ⟨k, h⟩⟩
  have hsub : List.range (Nat.find ⟨k, h⟩) ⊆ (dieOf s die).frt.map (·.1) := by
    intro j hj
    cases hl : lookup (dieOf s die).frt j with
    | none => exact absurd (idleSlot_of_unlisted hl) (Nat.find_min _ (List.mem_range.1 hj))
    | some f => exact List.mem_map.2 ⟨_, lookup_mem hl, rfl⟩
  simpa using (List.subperm_of_subset List.nodup_range hsub).length_le

/-- A home with a slot to grant grants one. -/
theorem grantable_ne_nil {k n : Nat} (hk : k < Config.frtSlots) (h : IdleSlot s die k) (hn : 0 < n) : grantable s die n ≠ [] := by
  obtain ⟨m, hmk, hlen, hm⟩ := exists_idle_le_length h
  exact freeSlots_ne_nil hm (by omega) _ _ _ hn (Nat.zero_le _) (by omega)

end

/-! ### Slots that are granted (R176) -/

/-- A slot that a pool holds. -/
def HasGrant (s : State) (die k : Nat) : Prop := ∃ f, lookup (dieOf s die).frt k = some f ∧ f.granted = true

section
variable {s : State} {die : Nat}

theorem HasGrant.granted {k : Nat} (h : HasGrant s die k) : (frtOf s die k).granted = true := by
  obtain ⟨f, hf, hg⟩ := h
  rwa [frtOf_of_lookup hf]

theorem hasGrant_setFrt_self (k : Nat) (f : FrtSlot) (hf : f.granted = true) : HasGrant (setFrt s die k f) die k := ⟨f, by simp, hf⟩

theorem HasGrant.setFrt {k : Nat} (h : HasGrant s die k) (j : Nat) (f : FrtSlot) (hf : f.granted = true) : HasGrant (setFrt s die j f) die k := by
  by_cases hj : k = j
  · exact hj ▸ hasGrant_setFrt_self k f hf
  · obtain ⟨x, hx, hg⟩ := h
    exact ⟨x, by simpa [lookup_put_ne _ _ hj] using hx, hg⟩

theorem HasGrant.grantSlots {k : Nat} (l : List Nat) (h : HasGrant s die k) : HasGrant (grantSlots s die l) die k :=
  List.foldlRecOn (motive := fun t : State => HasGrant t die k) l _ h fun _ ht j _ => ht.setFrt j _ rfl

theorem hasGrant_grantSlots {k : Nat} {l : List Nat} (h : k ∈ l) : HasGrant (grantSlots s die l) die k := by
  induction l generalizing s with
  | nil => cases h
  | cons j t ih =>
    obtain rfl | h := List.mem_cons.1 h
    · exact (hasGrant_setFrt_self k _ rfl).grantSlots t
    · exact ih h

@[simp] theorem grantSlots_waves (l : List Nat) : (grantSlots s die l).waves = s.waves := foldl_keeps State.waves _ (fun _ _ => setFrt_waves ..) _ _
@[simp] theorem grantSlots_grantReqs (l : List Nat) (d : Nat) : (dieOf (grantSlots s die l) d).grantReqs = (dieOf s d).grantReqs :=
  foldl_keeps (fun t : State => (dieOf t d).grantReqs) _ (fun _ _ => setFrt_grantReqs ..) _ _
@[simp] theorem grantSlots_pools (l : List Nat) (d : Nat) : (dieOf (grantSlots s die l) d).pools = (dieOf s d).pools :=
  foldl_keeps (fun t : State => (dieOf t d).pools) _ (fun _ _ => setFrt_pools ..) _ _

/-- With no wave to answer, a grant only fills the pool. -/
theorem grantTo_noWaves (h : s.waves = []) (home : Nat) (l : List Nat) : grantTo s die home l =
    if l.isEmpty then s
    else setDie s die { dieOf s die with pools := put (dieOf s die).pools home ((lookup (dieOf s die).pools home).getD [] ++ l) } := by
  unfold grantTo grantWaves
  split <;> simp [h]

theorem grantTo_pool (h : s.waves = []) (home : Nat) (l : List Nat) :
    (lookup (dieOf (grantTo s die home l) die).pools home).getD [] = (lookup (dieOf s die).pools home).getD [] ++ l := by
  rw [grantTo_noWaves h]
  cases l <;> simp

theorem grantTo_keeps (h : s.waves = []) (home d : Nat) (l : List Nat) :
    (dieOf (grantTo s die home l) d).grantReqs = (dieOf s d).grantReqs ∧ (dieOf (grantTo s die home l) d).frt = (dieOf s d).frt := by
  rw [grantTo_noWaves h]
  split
  · exact ⟨rfl, rfl⟩
  · by_cases hd : d = die
    · subst hd
      simp
    · rw [dieOf_setDie_ne _ _ hd]
      exact ⟨rfl, rfl⟩

theorem slotLow_slot (k : Nat) : slotLow s die k / 4096 = k := by
  have := (frtOf s die k).tag.isLt
  unfold slotLow
  omega

theorem slotLow_tag (k : Nat) : slotLow s die k % 4096 = (frtOf s die k).tag.toNat := by
  have := (frtOf s die k).tag.isLt
  unfold slotLow
  omega

end

/-! ### POOL_GRANT (R176, R349) -/

section
variable {s : State} {home : Nat}

theorem exec_poolGrant_home {die : Nat} {rest : List Nat} (hh : home < 2) (h : (dieOf s home).grantReqs = die :: rest) :
    exec (.poolGrant home []) s = .next (
      let t := setDie s home { dieOf s home with grantReqs := rest }
      let l := grantable t home (poolRoom t die home)
      grantTo (grantSlots t home l) die home (l.map (slotLow t home))) := by
  show execPoolGrant home [] s = _
  rw [execPoolGrant, if_pos hh, h]

/-- A home of this device answers the die that asked first. -/
theorem poolGrant_home {die : Nat} {rest : List Nat} (hh : home < 2) (hw : s.waves = []) (h : (dieOf s home).grantReqs = die :: rest) :
    let old := (lookup (dieOf s die).pools home).getD []
    Completes (.poolGrant home []) s fun t => (dieOf t home).grantReqs = rest ∧
      ∃ new, (lookup (dieOf t die).pools home).getD [] = old ++ new ∧ new.length ≤ 64 - old.length ∧
        (∀ x ∈ new, IdleSlot s home (x / 4096) ∧ (frtOf t home (x / 4096)).granted = true ∧ x % 4096 = (frtOf s home (x / 4096)).tag.toNat) ∧
        (old.length < 64 → (∃ k, k < 2 ^ 20 ∧ IdleSlot s home k) → new ≠ []) := by
  intro old
  set t := setDie s home { dieOf s home with grantReqs := rest } with ht
  have hf : ∀ k, frtOf t home k = frtOf s home k := frtOf_setDie s (by rfl) home
  have hidle : ∀ k, IdleSlot t home k ↔ IdleSlot s home k := fun k => by rw [IdleSlot, hf, IdleSlot]
  have hpool : (dieOf t die).pools = (dieOf s die).pools := by
    by_cases hd : die = home
    · rw [hd, ht, dieOf_setDie]
    · rw [ht, dieOf_setDie_ne _ _ hd]
  have hroom : poolRoom t die home = 64 - old.length := by rw [poolRoom, hpool]
  set l := grantable t home (poolRoom t die home) with hl
  have hwaves : (grantSlots t home l).waves = [] := (grantSlots_waves l).trans hw
  obtain ⟨hreqs, hfrt⟩ := grantTo_keeps hwaves (die := die) home home (l.map (slotLow t home))
  refine ⟨_, exec_poolGrant_home hh h, ?_⟩
  rw [← ht]
  refine ⟨?_, l.map (slotLow t home), ?_, ?_, fun x hx => ?_, fun ho ⟨k, hk, hki⟩ => ?_⟩
  · exact hreqs.trans ((grantSlots_grantReqs ..).trans (by rw [ht, dieOf_setDie]))
  · exact (grantTo_pool hwaves home _).trans (by rw [grantSlots_pools, hpool])
  · rw [List.length_map, ← hroom]
    exact freeSlots_length ..
  · obtain ⟨k, hk, rfl⟩ := List.mem_map.1 hx
    rw [slotLow_slot, slotLow_tag, hf]
    refine ⟨(hidle k).1 (freeSlots_idle _ _ _ k hk), HasGrant.granted ?_, rfl⟩
    rw [HasGrant, hfrt]
    exact hasGrant_grantSlots hk
  · simpa using grantable_ne_nil hk ((hidle k).2 hki) (by rw [hroom]; omega)

theorem poolGrant_noRequest (hh : home < 2) (h : (dieOf s home).grantReqs = []) : exec (.poolGrant home []) s = .next s := by
  show execPoolGrant home [] s = _
  rw [execPoolGrant, if_pos hh, h]

/-- A home of another device gives what it sent. -/
theorem poolGrant_far {far : Nat} {sent : List (BitVec 32)} (hw : s.waves = []) (hs : sent ≠ []) (hl : sent.length ≤ 64)
    (hn : lookup (dieOf s 0).pools (2 + far) = none) :
    Completes (.poolGrant (2 + far) sent) s fun t => lookup (dieOf t 0).pools (2 + far) = some (sent.map (·.toNat)) := by
  have hx : exec (.poolGrant (2 + far) sent) s = .next (grantTo s 0 (2 + far) (sent.map (·.toNat))) := by
    have hdie : grantDie s (2 + far) = 0 := by simp [grantDie, hw]
    have hroom : poolRoom s 0 (2 + far) = 64 := by simp [poolRoom, hn]
    show execPoolGrant (2 + far) sent s = _
    rw [execPoolGrant, if_neg (by omega)]
    simp only [hdie, hroom, List.take_of_length_le hl]
  refine ⟨_, hx, ?_⟩
  rw [grantTo_noWaves hw, if_neg (by simpa using hs)]
  simp [hn]

end

/-! ### Tasks, forwards and drops of peers (R422) -/

section
variable {s : State} {node : BitVec 12} {ctx home slot c : Nat} {entry argp : DWord} {tag : BitVec 12}

/-- A slot that is taken for a peer's task, or for its forward. -/
def peerSlot (f : FrtSlot) (n ctag : Nat) (target : Option Nat) (entry argp region : DWord) : FrtSlot :=
  { state := 1#2, fwd := target.isSome, ctag, tag := f.tag, entry, argp, region, target, peer := some n }

/-- A granted slot is taken: it holds the task, and its home's messages are as they were. -/
theorem takePeer_takes (h0 : (frtOf s home slot).state = 0#2) (hg : (frtOf s home slot).granted = true) (ht : (frtOf s home slot).tag = tag)
    (n c : Nat) (target : Option Nat) : ∃ t, takePeer s n home slot tag c target entry argp = some t ∧
      frtOf t home slot = peerSlot (frtOf s home slot) n c target entry argp (ctxOf s c).rootrcb ∧
      (dieOf t home).tasks = (dieOf s home).tasks ∧ (dieOf t home).forwards = (dieOf s home).forwards := by
  refine ⟨_, if_pos (by simp [h0, hg, ht]), ?_, ?_, ?_⟩
  · rw [frtOf_setFrt, takeFrt, frtOf_setFrt]
    rfl
  · rw [dieOf_setFrt, takeFrt, dieOf_setFrt]
  · rw [dieOf_setFrt, takeFrt, dieOf_setFrt]

/-- What a taken slot says of its task. -/
def TakenFor (s : State) (home slot n c : Nat) (entry argp : DWord) (fwd : Bool) : Prop :=
  (frtOf s home slot).state = 1#2 ∧ (frtOf s home slot).ctag = c ∧ (frtOf s home slot).entry = entry ∧ (frtOf s home slot).argp = argp ∧
    (frtOf s home slot).fwd = fwd ∧ (frtOf s home slot).peer = some n

theorem takenFor_of_slot {f : FrtSlot} {n : Nat} {target : Option Nat} {region : DWord}
    (h : frtOf s home slot = peerSlot f n c target entry argp region) : TakenFor s home slot n c entry argp target.isSome := by
  rw [TakenFor, h]
  exact ⟨rfl, rfl, rfl, rfl, rfl, rfl⟩

section
variable (hb : boundCtx s node.toNat ctx = some c) (h0 : (frtOf s home slot).state = 0#2) (hg : (frtOf s home slot).granted = true)
  (ht : (frtOf s home slot).tag = tag)
include hb h0 hg ht

theorem peerTask_taken : Completes (.peerTaskMessage node ctx (.task home entry argp slot tag)) s fun t =>
    TakenFor t home slot node.toNat c entry argp false ∧ (dieOf t home).tasks = (dieOf s home).tasks ++ [.task slot] := by
  obtain ⟨t, htake, hslot, htasks, -⟩ := takePeer_takes (entry := entry) (argp := argp) h0 hg ht node.toNat c none
  have hx : exec (.peerTaskMessage node ctx (.task home entry argp slot tag)) s = .next (sendTask t home slot) := by
    show execPeerTaskMessage node ctx (.task home entry argp slot tag) s = _
    simp only [execPeerTaskMessage, hb, Option.bind_some, htake]
  refine ⟨_, hx, takenFor_of_slot ((frtOf_setDie t (by rfl) ..).trans hslot), ?_⟩
  rw [sendTask, dieOf_setDie, htasks]

theorem peerForward_taken {target : DWord} (hd : handleDie target = home) :
    Completes (.peerTaskMessage node ctx (.forward target entry argp slot tag)) s fun t =>
      TakenFor t home slot node.toNat c entry argp true ∧ (dieOf t home).forwards = (dieOf s home).forwards ++ [.forward target slot] := by
  obtain ⟨t, htake, hslot, -, hfwd⟩ := takePeer_takes (entry := entry) (argp := argp) h0 hg ht node.toNat c (some (handleSlot target))
  have hx : exec (.peerTaskMessage node ctx (.forward target entry argp slot tag)) s =
      .next (setDie t home { dieOf t home with forwards := (dieOf t home).forwards ++ [.forward target slot] }) := by
    show execPeerTaskMessage node ctx (.forward target entry argp slot tag) s = _
    simp only [execPeerTaskMessage, hb, hd, Option.bind_some, htake]
  refine ⟨_, hx, takenFor_of_slot ((frtOf_setDie t (by rfl) ..).trans hslot), ?_⟩
  rw [dieOf_setDie, hfwd]

end

theorem refuseTask_packets (n die : Nat) : (refuseTask s n die slot tag).packets = s.packets ++ [.future n slot tag (.broken (brokenCause 5 0))] := by
  unfold refuseTask
  dsimp only
  split
  · rw [setFrt_packets]
  · rfl

/-- Without a binding, a task and a forward are answered as broken. -/
theorem peerTask_unbound (hb : boundCtx s node.toNat ctx = none) (msg : PeerTask)
    (hm : msg = .task home entry argp slot tag ∨ ∃ target, msg = .forward target entry argp slot tag) :
    Completes (.peerTaskMessage node ctx msg) s fun t =>
      t.packets = s.packets ++ [.future node.toNat slot tag (.broken (brokenCause 5 0))] := by
  obtain rfl | ⟨target, rfl⟩ := hm
  · have hx : exec (.peerTaskMessage node ctx (.task home entry argp slot tag)) s = .next (refuseTask s node.toNat home slot tag) := by
      show execPeerTaskMessage node ctx (.task home entry argp slot tag) s = _
      simp only [execPeerTaskMessage, hb, Option.bind_none]
    exact ⟨_, hx, refuseTask_packets ..⟩
  · have hx : exec (.peerTaskMessage node ctx (.forward target entry argp slot tag)) s =
        .next (refuseTask s node.toNat (handleDie target) slot tag) := by
      show execPeerTaskMessage node ctx (.forward target entry argp slot tag) s = _
      simp only [execPeerTaskMessage, hb, Option.bind_none]
    exact ⟨_, hx, refuseTask_packets ..⟩

theorem peerDrop_unbound (hb : boundCtx s node.toNat ctx = none) (h : DWord) : exec (.peerTaskMessage node ctx (.drop h)) s = .next s := by
  show execPeerTaskMessage node ctx (.drop h) s = _
  simp only [execPeerTaskMessage, hb]

theorem peerDrop_bound {h : DWord} (hd : handleDie h = home) (hb : boundCtx s node.toNat ctx = some c)
    (hc : (frtOf s home (handleSlot h)).ctag = c) : exec (.peerTaskMessage node ctx (.drop h)) s =
      .next (setDie s home { dieOf s home with drops := (dieOf s home).drops ++ [.drop h] }) := by
  show execPeerTaskMessage node ctx (.drop h) s = _
  simp only [execPeerTaskMessage, hb, hd, hc, if_true]

/-- A peer that asks gets slots as a die of this device does. -/
theorem peerGrant_grants : Completes (.peerTaskMessage node ctx (.grant home)) s fun t => ∃ new : List Nat,
    t.packets = s.packets ++ [.grant node.toNat home (new.map fun k => k * 2 ^ 12 + (frtOf s home k).tag.toNat)] ∧ new.length ≤ 64 ∧
      (∀ k ∈ new, IdleSlot s home k ∧ (frtOf t home k).granted = true) ∧ ((∃ k, k < 2 ^ 20 ∧ IdleSlot s home k) → new ≠ []) := by
  refine ⟨_, rfl, grantable s home 64, rfl, freeSlots_length .., fun k hk => ⟨freeSlots_idle _ _ _ k hk, ?_⟩,
    fun ⟨k, hk, hi⟩ => grantable_ne_nil hk hi (by decide)⟩
  exact HasGrant.granted (hasGrant_grantSlots hk)

end

/-- Settles O36: each message by what its arrival leaves of the slot and of its home. -/
theorem taskMessages : Obligations.TaskMessages := by
  unfold Obligations.TaskMessages
  refine ⟨fun s die slot rest => ⟨taskArrival_opens, fun early o late h hr hf he ho => taskArrival_joins h hr hf he ho, fun h hr => ?_,
    fun k o h => sheafTimeout_releases h, fun broken v h h1 hfifo hw hres hd _ => frtTaskEnd_ends h h1 hfifo hw hres hd,
    fun tag ctag broken v h hne _ => frtTaskEnd_stale h hne, fun h hf hd hdie hs ht h2 hfifo _ => dropArrival_frees hf hd hdie hs ht h2 hfifo,
    fun target h h1 hne _ ht hc => forwardArrival_arrives h h1 hne ht hc, fun h ans ho ha _ => futureAnswerArrival_records ho ha⟩,
    fun s home die rest hh hw => ⟨poolGrant_home hh hw, poolGrant_noRequest hh, fun far sent hs hl hn => poolGrant_far hw hs hl hn,
      fun node ctx slot c entry argp tag => ⟨fun hb h0 hg ht => ⟨peerTask_taken hb h0 hg ht, fun target hd => peerForward_taken hb h0 hg ht hd⟩,
        fun hb => ⟨fun msg hm => peerTask_unbound hb msg hm, peerDrop_unbound hb⟩, fun h hd hb hc => peerDrop_bound hd hb hc, peerGrant_grants⟩⟩⟩
  exact (exec_taskArrival h).trans (congrArg _ (if_neg hr))

end Sys2Proof

/-! SUPPORT. Binding (R112, R166, R168, R201, R202, R204-R208): what PICK chooses from, the group that a binding stages, how a group's waves start, and the gangs
that wait, and the statement about them. -/
namespace Sys2Proof
open Machine

/-! ### What PICK chooses from (R202, R207) -/

theorem mem_insertItem {it x : Item} {l : List Item} (h : x ∈ insertItem it l) : x = it ∨ x ∈ l := by
  induction l with
  | nil => simpa [insertItem] using h
  | cons y t ih =>
    rw [insertItem] at h
    split at h
    · simpa using h
    · obtain rfl | h := List.mem_cons.1 h
      · exact .inr (List.mem_cons_self ..)
      · exact (ih h).imp_right (List.mem_cons_of_mem _)

theorem mem_insertItems {x : Item} {l acc : List Item} (h : x ∈ l.foldl (fun l it => insertItem it l) acc) : x ∈ acc ∨ x ∈ l := by
  induction l generalizing acc with
  | nil => exact .inl h
  | cons y t ih =>
    obtain h | h := ih h
    · obtain rfl | h := mem_insertItem h
      · exact .inr (List.mem_cons_self ..)
      · exact .inl h
    · exact .inr (List.mem_cons_of_mem _ h)

/-- What is not a sheaf is a launch, and has its number. -/
theorem bindItems_launch {s : State} {it : Item} (h : it ∈ bindItems s) (hs : it.sheafDie = none) : it.launch = it.id := by
  obtain h | h := mem_insertItems h
  · cases h
  · obtain h | h := List.mem_append.1 h
    · obtain ⟨e, -, rfl⟩ := List.mem_map.1 h
      rfl
    · obtain ⟨d, -, h⟩ := List.mem_flatMap.1 h
      obtain ⟨r, -, rfl⟩ := List.mem_map.1 h
      cases hs

theorem pickLevel_mem {s : State} {die p : Nat} {items : List Item} {it : Item} {d : Die} (h : pickLevel s die items p = some (it, d)) : it ∈ items := by
  unfold pickLevel at h
  simp only at h
  split at h
  · cases h
  · obtain ⟨x, hx, he⟩ := Option.map_eq_some_iff.1 h
    cases he
    exact List.mem_of_mem_filter (List.mem_of_find?_eq_some hx)

theorem pick_mem {s : State} {die : Nat} {it : Item} {d : Die} (h : pick s die = some (it, d)) : it ∈ bindItems s := by
  obtain ⟨p, -, hp⟩ := List.exists_of_findSome?_eq_some h
  exact List.mem_of_mem_filter (pickLevel_mem hp)

/-! ### Placements (R206-R208) -/

theorem coreFits_fitOn {s : State} {it : Item} {core : Nat} (h : coreFits s it core = true) :
    (fitOn (holdings s core) it.waves it.granules).isSome = true := by
  simp only [coreFits, Bool.and_eq_true] at h
  exact h.2

/-- A choice made along a list is one of it. -/
theorem foldl_choice_mem {α : Type} {f : Option α → α → Option α} (hf : ∀ b x, f b x = b ∨ f b x = some x) {l : List α} {c : α}
    (h : l.foldl f none = some c) : c ∈ l := by
  refine List.foldlRecOn (motive := fun b => ∀ c, b = some c → c ∈ l) l f (fun _ h => by cases h) (fun b hb x hx c hc => ?_) c h
  obtain h | h := hf b x
  · exact hb c (h ▸ hc)
  · obtain rfl : x = c := Option.some.inj (h.symm.trans hc)
    exact hx

/-- Each core of a placement has room for a group of the item. -/
theorem placement_fits {s : State} {it : Item} {die : Nat} {cs : List Nat} (h : placement s it die = some cs) {c : Nat} (hc : c ∈ cs) :
    coreFits s it c = true := by
  unfold placement at h
  simp only at h
  split at h
  · obtain ⟨x, hx, rfl⟩ := Option.map_eq_some_iff.1 h
    obtain rfl := List.mem_singleton.1 hc
    have hmem := foldl_choice_mem (fun b x => ?_) hx
    · have hok := (List.mem_filter.1 hmem).2
      simp only [Bool.and_eq_true] at hok
      exact hok.1
    · cases b with
      | none => exact .inr rfl
      | some y =>
        dsimp only
        split
        · exact .inr rfl
        · exact .inl rfl
  · obtain ⟨hd, -, h⟩ := List.exists_of_findSome?_eq_some h
    obtain ⟨-, h⟩ := Option.filter_eq_some_iff.1 h
    simp only [Bool.and_eq_true, List.all_eq_true] at h
    exact h.1 c hc

/-! ### GROUP_BIND (R112, R204-R206) -/

/-- The group that a bind record stages on a core. -/
def stagedGroup (s : State) (it : Item) (core grpid ypos gang : Nat) (launchId : Word) (lslot : Nat) (sheaf : Option SheafInfo)
    (fit : Nat × BitVec 16 × Nat) : Group :=
  { ctag := it.ctag, launch := it.launch, state := .staged, core, gslot := fit.1, nwave := it.waves, wmask := fit.2.1, pbase := fit.2.2
    pngran := it.granules, grpid, launchId, lslot, prio := effNow s it.ctag it.region 3, share := effNow s it.ctag it.region 2, ypos, gang
    region := it.region, sheaf }

/-- A core on which a launch has its first group is noted, and drops the context's code (R112). -/
def firstOnCore (s : State) (it : Item) (l : Launch) (core : Nat) : State :=
  if l.seen.contains core then s else dropCode { s with launches := put s.launches it.launch { l with seen := core :: l.seen } } core it.ctag

theorem firstOnCore_leaves {s : State} {it : Item} {l : Launch} (hl : lookup s.launches it.launch = some l) (core : Nat) :
    let t := firstOnCore s it l core
    t.uid = s.uid ∧ t.groups = s.groups ∧ t.waves = s.waves ∧
      (lookup t.launches it.launch).map (·.seen) = some (if ¬core ∈ l.seen then core :: l.seen else l.seen) ∧
      (coreOf t core).icache = (coreOf s core).icache.filter fun e => decide ¬(¬core ∈ l.seen ∧ e.2.1 = it.ctag) := by
  unfold firstOnCore
  by_cases h : core ∈ l.seen
  · simp [h, hl]
  · simp only [List.contains_eq_mem, h, decide_false, Bool.false_eq_true, if_false]
    refine ⟨rfl, rfl, rfl, by simp [dropCode], ?_⟩
    rw [dropCode, coreOf_setCore]
    refine List.filter_congr fun e _ => ?_
    rw [Bool.eq_iff_iff]
    simp

theorem bindOne_launch {s : State} {it : Item} {core : Nat} {l : Launch} {fit : Nat × BitVec 16 × Nat}
    (hf : fitOn (holdings s core) it.waves it.granules = some fit) (hl : lookup s.launches it.launch = some l) (grpid ypos gang : Nat) (id : Word) :
    bindOne s it core grpid ypos gang id none =
      let t := firstOnCore s it l core
      { t with uid := t.uid + 1, groups := put t.groups t.uid (stagedGroup t it core grpid ypos gang id l.tslot none fit) } := by
  unfold bindOne
  rw [hf, hl]
  rfl

/-- What a binding of one group does beside its bind record: the launch counts it and waits no more, and no core is kept for it. -/
def launchBound (s : State) (id : Nat) (l : Launch) : State :=
  [0, 1].foldl (fun s d => setDie s d { dieOf s d with reserve := (dieOf s d).reserve.filter fun r => r.1 != id })
    { s with launches := put s.launches id { l with
      next := l.next + 1, headSince := none, seen := ((lookup s.launches id).map (·.seen)).getD [] } }

section
variable {s : State} {it : Item} {core : Nat} {l : Launch} (hs : it.sheafDie = none) (hl : lookup s.launches it.id = some l) (hy : l.yoke = false)
include hs hl hy

theorem bindItem_launch : bindItem s it [core] =
    launchBound (bindOne (noteBlocks s it.ctag (regionChain s it.ctag it.region)) it core l.next 0 0 l.launchId none) it.id l := by
  have hl' : lookup (noteBlocks s it.ctag (regionChain s it.ctag it.region)).launches it.id = some l := hl
  unfold bindItem
  have hy' : ¬l.yoke = true := by simp [hy]
  simp only [hs, hl', if_neg hy', List.length_singleton, List.range_one, List.zip_cons_cons, List.zip_nil_right, List.foldl_cons, List.foldl_nil,
    Nat.add_zero]
  rfl

/-- A group of a launch without yokes is staged on the core of its placement. -/
theorem bindItem_group (hid : it.launch = it.id) (hf : (fitOn (holdings s core) it.waves it.granules).isSome = true) :
    let t := bindItem s it [core]
    let g := groupOf t s.uid
    g.state = .staged ∧ g.core = core ∧ g.ctag = it.ctag ∧ g.launch = it.launch ∧ g.grpid = l.next ∧ g.launchId = l.launchId ∧ g.lslot = l.tslot ∧
    g.region = it.region ∧ t.waves = s.waves ∧
    lookup t.launches it.id = some { l with next := l.next + 1, headSince := none, seen := if ¬core ∈ l.seen then core :: l.seen else l.seen } ∧
    (coreOf t core).icache = (coreOf s core).icache.filter fun e => decide ¬(¬core ∈ l.seen ∧ e.2.1 = it.ctag) := by
  obtain ⟨fit, hfit⟩ := Option.isSome_iff_exists.1 hf
  set n := noteBlocks s it.ctag (regionChain s it.ctag it.region) with hn
  have hl' : lookup n.launches it.launch = some l := hid ▸ hl
  obtain ⟨huid, hgroups, hwaves, hseen, hcode⟩ := firstOnCore_leaves hl' core
  have hb := bindOne_launch (s := n) (fit := fit) hfit hl' l.next 0 0 l.launchId
  rw [bindItem_launch hs hl hy, ← hn, hb]
  set t := firstOnCore n it l core
  have hg : groupOf (launchBound { t with uid := t.uid + 1, groups := put t.groups t.uid (stagedGroup t it core l.next 0 0 l.launchId l.tslot none fit) }
      it.id l) s.uid = stagedGroup t it core l.next 0 0 l.launchId l.tslot none fit := by
    show (lookup (put t.groups t.uid _) s.uid).getD _ = _
    rw [huid]
    exact congrArg (Option.getD · _) (lookup_put_self ..)
  dsimp only
  rw [hg]
  refine ⟨rfl, rfl, rfl, rfl, rfl, rfl, rfl, rfl, hwaves, ?_, hcode⟩
  refine (lookup_put_self ..).trans ?_
  rw [hid] at hseen
  show some { l with next := l.next + 1, headSince := none, seen := ((lookup t.launches it.id).map Launch.seen).getD [] } = _
  rw [hseen]
  rfl

end

/-- R204-R206: PICK's choice is bound on its placement. -/
theorem groupBind_stages {s : State} {die core : Nat} {it : Item} {d : Die} {l : Launch} (hp : pick s die = some (it, d))
    (hpl : placement s it die = some [core]) (hs : it.sheafDie = none) (hl : lookup s.launches it.id = some l) (hy : l.yoke = false) :
    Completes (.groupBind die) s fun t => let g := groupOf t s.uid
      g.state = .staged ∧ g.core = core ∧ g.ctag = it.ctag ∧ g.launch = it.launch ∧ g.grpid = l.next ∧ g.launchId = l.launchId ∧ g.lslot = l.tslot ∧
      g.region = it.region ∧ t.waves = s.waves ∧
      lookup t.launches it.id = some { l with next := l.next + 1, headSince := none, seen := if ¬core ∈ l.seen then core :: l.seen else l.seen } ∧
      (coreOf t core).icache = (coreOf s core).icache.filter fun e => decide ¬(¬core ∈ l.seen ∧ e.2.1 = it.ctag) := by
  have hx : exec (.groupBind die) s = .next (bindItem (setDie s die d) it [core]) := by
    show execGroupBind die s = _
    simp only [execGroupBind, hp, hpl]
  have hfit := coreFits_fitOn (placement_fits hpl (List.mem_singleton_self core))
  exact ⟨_, hx, bindItem_group (s := setDie s die d) hs hl hy (bindItems_launch (pick_mem hp) hs) hfit⟩

theorem groupBind_none {s : State} {die : Nat} (h : pick s die = none) : exec (.groupBind die) s = .next s := by
  show execGroupBind die s = _
  rw [execGroupBind, h]

/-! ### GROUP_RESIDENT (R168, R205) -/

/-- A wave starts with the state of Table 6.4. -/
theorem startWave_launch {s : State} {gr : Group} {l : Launch} (hs : gr.sheaf = none) (hl : lookup s.launches gr.launch = some l) (g waveId wslot : Nat) :
    startWave s g gr waveId wslot = { s with uid := s.uid + 1, waves := put s.waves s.uid (Wave.setS
      { ctag := gr.ctag, group := g, wslot, waveId, pc := l.entry &&& ~~~3#64, live := 0xFFFFFFFF#32, sheaf := none, pslot := freePslot s gr.ctag }
      1 l.argp) } := by
  simp only [startWave, hs, hl, Option.map_some, Option.getD_some]

/-- The scalar registers of a wave that starts read zero. -/
theorem Wave.sreg_started {w : Wave} (h : w.s = Vector.replicate 64 0#64) (i : Nat) : w.sreg i = 0#64 := by
  have hr : (List.replicate 64 (0#64 : DWord)).getD i 0#64 = 0#64 := by
    rw [List.getD_eq_getElem?_getD, List.getElem?_replicate]
    split <;> rfl
  rw [Wave.sreg, h, Vector.toList_replicate, hr, ite_self]

theorem groupResident_starts {s : State} {g k : Nat} {gr : Group} {l : Launch} (hg : lookup s.groups g = some gr) (hst : gr.state = .staged)
    (hgang : gr.gang = 0) (hs : gr.sheaf = none) (hn : gr.nwave = 1) (hk : bitsOf gr.wmask = [k]) (hl : lookup s.launches gr.launch = some l) :
    Completes (.groupResident g) s fun t => (groupOf t g).state = .resident ∧ SameMemory s t ∧
      ∃ w, lookup t.waves s.uid = some w ∧ w.pc = l.entry &&& ~~~3#64 ∧ w.sreg 1 = l.argp ∧ w.live = 0xFFFFFFFF#32 ∧ w.waveId = 0 ∧ w.wslot = k ∧
        w.group = g ∧ w.ctag = gr.ctag ∧ w.status = .ready ∧ w.mode = 0#12 ∧ w.handler = false ∧ (∀ i, i ≠ 1 → w.sreg i = 0#64) := by
  have hgr : groupOf s g = gr := groupOf_of_lookup hg
  have hset : residentSet s g = [g] := by simp [residentSet, hgr, hst, hgang]
  have hx : exec (.groupResident g) s = .next (startWave (dropShared (setGroup s g { gr with state := .resident }) gr.core) g gr 0 k) := by
    show execGroupResident g s = _
    simp only [execGroupResident, hg, hset, List.foldl_cons, List.foldl_nil, makeResident, hgr, hn, hk]
    rfl
  have hstart := startWave_launch (s := dropShared (setGroup s g { gr with state := .resident }) gr.core) hs hl g 0 k
  refine ⟨_, hx.trans (congrArg _ hstart), ?_, fun _ => rfl, _, lookup_put_self .., ?_⟩
  · exact congrArg Group.state (groupOf_setGroup s g _)
  · refine ⟨rfl, ?_, rfl, rfl, rfl, rfl, rfl, rfl, rfl, rfl, fun i hi => ?_⟩
    · rw [Wave.sreg_setS _ _ (by decide)]
      simp
    · rw [Wave.sreg_setS _ _ (by decide)]
      rw [if_neg (by simp [hi])]
      exact Wave.sreg_started rfl i

/-! ### GANG_WAIT_TIMEOUT (R208) -/

section
variable {s : State} {die : Nat}

theorem gangWaitTimeout_none (h : gangNext s die = none) : exec (.gangWaitTimeout die) s = .next s := by
  show execGangWaitTimeout die s = _
  simp only [execGangWaitTimeout, h]

/-- The oldest item of a level, when it is a gang that neither can bind nor has cores kept for it. -/
theorem mem_headGangs {p : Nat} {it : Item} (hp : p < 8)
    (hf : ((bindItems s).filter fun x => itemDie s x die).find? (fun x => effNow s x.ctag x.region 3 == p) = some it) (hs : it.shape.isSome)
    (hpl : placement s it die = none) (hr : ∀ r ∈ (dieOf s die).reserve, r.1 ≠ it.id) : it ∈ headGangs s die := by
  have hres : hasReserve s die it.id = false := by simpa [hasReserve] using hr
  refine List.mem_filterMap.2 ⟨p, ?_, ?_⟩
  · simp only [List.mem_cons, List.not_mem_nil, or_false]
    omega
  · rw [hf]
    simp [Option.filter, hs, hpl, hres]

variable {it : Item} {l : Launch}

theorem gangNote_waiting {n : Nat} (hl : lookup s.launches it.id = some l) (hh : l.headSince = some n) :
    (s.tsc.toNat < n + gangWait s * 1000 → gangNote s die it = none) ∧
    (n + gangWait s * 1000 ≤ s.tsc.toNat → reservePlace s it die (it.shape.getD 0) = none → gangNote s die it = none) := by
  unfold gangNote
  simp only [hl, hh]
  exact ⟨fun h => by simp [Nat.not_le.2 h], fun h hp => by simp [h, hp]⟩

theorem gangNote_begins (hl : lookup s.launches it.id = some l) (hh : l.headSince = none) (hg : gangWait s ≠ 0) :
    gangNote s die it = some (.wait it.id l) := by simp [gangNote, hl, hh, hg]

theorem gangNote_reserves {cs : List Nat} (hl : lookup s.launches it.id = some l)
    (hh : l.headSince = none ∧ gangWait s = 0 ∨ ∃ n, l.headSince = some n ∧ n + gangWait s * 1000 ≤ s.tsc.toNat)
    (hp : reservePlace s it die (it.shape.getD 0) = some cs) : gangNote s die it = some (.reserve it.id cs) := by
  obtain ⟨hn, hg⟩ | ⟨n, hn, ht⟩ := hh
  · simp [gangNote, hl, hn, hg, hp]
  · simp [gangNote, hl, hn, ht, hp]

/-- The first of the gangs that has something to note decides. -/
theorem gangNext_first {early late : List Item} {note : GangNote} (h : headGangs s die = early ++ it :: late) (he : ∀ x ∈ early, gangNote s die x = none)
    (hn : gangNote s die it = some note) : gangNext s die = some note := by
  rw [gangNext, h, List.findSome?_append, List.findSome?_eq_none_iff.2 he, List.findSome?_cons, hn]
  rfl

theorem gangWaitTimeout_notes {note : GangNote} (h : gangNext s die = some note) : exec (.gangWaitTimeout die) s = .next (match note with
    | .wait k l => { s with launches := put s.launches k { l with headSince := some s.tsc.toNat } }
    | .reserve k cs => setDie s die { dieOf s die with reserve := (dieOf s die).reserve ++ [(k, cs)] }) := by
  show execGangWaitTimeout die s = _
  simp only [execGangWaitTimeout, h]
  cases note <;> rfl

end

/-- Settles O49: GROUP_BIND by what PICK has chosen, GROUP_RESIDENT by the start of its wave, GANG_WAIT_TIMEOUT by the first gang with something to note. -/
theorem binding : Obligations.Binding := by
  unfold Obligations.Binding
  refine fun s die => ⟨fun it d core l hp hpl hs hl hy => groupBind_stages hp hpl hs hl hy, groupBind_none,
    fun g gr l k hg hst hgang hs hn hk hl => groupResident_starts hg hst hgang hs hn hk hl, gangWaitTimeout_none,
    fun p it hp hf hs hpl hr => mem_headGangs hp hf hs hpl hr, fun it l n hl hh => gangNote_waiting hl hh,
    fun early it late l h he hl => ⟨fun hh hg => ?_, fun cs hh hp => ?_⟩⟩
  · exact gangWaitTimeout_notes (gangNext_first h he (gangNote_begins hl hh hg))
  · exact gangWaitTimeout_notes (gangNext_first h he (gangNote_reserves hl hh hp))

end Sys2Proof

/-! SUPPORT. Dependence entries (R132, R210, R355, R356): what a read and a write of an entry at its slices leave, how LAUNCH and DEPSIG end, and the statement
about them. -/
namespace Sys2Proof
open Machine

/-! ### Entries at their slices (R132) -/

protected theorem SliceOnly.coreNo {s t : State} (h : SliceOnly s t) (w : Wave) : coreNo t w = coreNo s w := by simp only [Machine.coreNo, h.groupOf]

/-- A read of another agent takes of a core at most lines that it owns. -/
theorem coreOf_agentRead (s : State) {kid k n : Nat} (h : UnderKey s kid k n) (c : Nat) :
    ∃ o, coreOf (agentRead s kid k n).1 c = { coreOf s c with owned := o } := by
  simp only [agentRead, touch_same s kid k n h]
  refine List.foldlRecOn (motive := fun t => ∃ o, coreOf t c = { coreOf s c with owned := o }) _ _ ⟨_, rfl⟩ fun t ⟨o, ht⟩ i _ => ?_
  obtain ⟨o', ho⟩ := coreOf_recallOwned (seekLine t (homeOf k) i false 64) i none c
  exact ⟨o', by rw [ho, coreOf_seekLine, ht]⟩

/-- A core that gives up its copy of a line holds none of it, and is otherwise as it was. -/
theorem dropLine_drops (s : State) (c line : Nat) :
    ∃ l1, lookup l1 line = none ∧ SliceOnly s (dropLine s c line) ∧ SameMemory s (dropLine s c line) ∧
      coreOf (dropLine s c line) c = { coreOf s c with l1 := l1 } := by
  unfold dropLine
  split
  · next h => exact ⟨_, h, .refl s, .refl s, rfl⟩
  · exact ⟨_, lookup_erase_self .., sliceOnly_setCore .., fun _ => rfl, coreOf_setCore ..⟩

section
variable {s : State} {w : Wave} {p : Place} (hq : CoreQuiet s (coreNo s w))
include hq

/-- What a read of an entry gives, and that its core then holds no copy of the entry. -/
theorem entryRead_leaves {off n : Nat} (hk : UnderKey s p.kid (p.key + off) n) :
    let r := entryRead s w p off n
    SliceOnly s r.1 ∧ SameMemory s r.1 ∧ CoreQuiet r.1 (coreNo s w) ∧ lookup (coreOf r.1 (coreNo s w)).l1 (p.key / 128) = none ∧
      r.2 = physBytes s (p.key + off) n := by
  obtain ⟨l1, hl1, hdrop, hsame, hcore⟩ := dropLine_drops s (coreNo s w) (p.key / 128)
  have hr : entryRead s w p off n = agentRead (dropLine s (coreNo s w) (p.key / 128)) p.kid (p.key + off) n := by
    unfold entryRead
    dsimp only
    rw [drainPath_quiet hq]
    rfl
  obtain ⟨hread, hmem, hbytes⟩ := agentRead_same _ (hdrop.underKey hk)
  obtain ⟨o, ho⟩ := coreOf_agentRead _ (hdrop.underKey hk) (coreNo s w)
  rw [hcore] at ho
  rw [hr]
  exact ⟨hdrop.trans hread, hsame.trans hmem, by rw [CoreQuiet, ho]; exact hq, by rw [ho]; exact hl1, hbytes.trans (physBytes_congr hsame ..)⟩

/-- What a write of an entry leaves. -/
theorem entryWrite_leaves {b : List Byte} (hk : UnderKey s p.kid p.key b.length) (hs : s.snaps = []) :
    let t := entryWrite s w p b
    SliceOnly s t ∧ Written s t p.key b ∧ lookup (coreOf t (coreNo s w)).l1 (p.key / 128) = none := by
  obtain ⟨l1, hl1, hdrop, hsame, hcore⟩ := dropLine_drops (agentWrite s p.kid p.key b) (coreNo s w) (p.key / 128)
  have hr : entryWrite s w p b = dropLine (agentWrite s p.kid p.key b) (coreNo s w) (p.key / 128) := by
    unfold entryWrite
    dsimp only
    rw [drainPath_quiet hq]
    rfl
  rw [hr]
  exact ⟨(agentWrite_only s hk hs).trans hdrop, (agentWrite_written s hk hs).congr hsame, by rw [hcore]; exact hl1⟩

end

/-- An entry whose last signal has come is noted for the die that takes it (R210). -/
theorem fireEntry_notes (s : State) (c die i : Nat) (P : Prop) [Decidable P] :
    let t := if P then fireEntry s c die i else s
    SameMemory s t ∧ t.waves = s.waves ∧ (∀ k, coreOf t k = coreOf s k) ∧
      ∃ n, (ctxOf t c).fired = (ctxOf s c).fired ++ if P then [(n, die, i)] else [] := by
  by_cases h : P
  · simp only [if_pos h]
    exact ⟨fun _ => rfl, rfl, fun _ => rfl, s.uid, congrArg Context.fired (ctxOf_setCtx { s with uid := s.uid + 1 } c _)⟩
  · simp only [if_neg h]
    exact ⟨.refl s, trivial, fun _ => trivial, 0, (List.append_nil _).symm⟩

/-- The number of an entry, as LAUNCH and DEPSIG name it. -/
theorem bitsAt_entry (x : Nat) : bitsAt x 0 16 = x % 65536 := by simp [bitsAt_eq]

/-! ### LAUNCH (R355) -/

/-- LAUNCH ends with its answer as a result that is ready (R221). -/
def launchEnds (s : State) (u : Nat) (nx : BitVec 2) (d : BitVec 6) (i : Nat) (x : DWord) : State :=
  setWave { s with uid := s.uid + 1 } u (((waveOf s u).addResult s.uid (sN d) [.s d.toNat x]).finishAs nx 3#8 i)

@[simp] theorem coreOf_launchEnds (s : State) (u : Nat) (nx : BitVec 2) (d : BitVec 6) (i : Nat) (x : DWord) (c : Nat) :
    coreOf (launchEnds s u nx d i x) c = coreOf s c := rfl

/-- What LAUNCH has told its wave (R221, R355). -/
def LaunchAnswers (s : State) (u : Nat) (d : BitVec 6) (x : DWord) : Prop :=
  ∃ k, (waveOf s u).pending = [⟨k, if d = 0#6 then [] else [.s d.toNat], [.s d.toNat x], true⟩]

theorem launchEnds_answers {s : State} {u : Nat} {w : Wave} (hw : lookup s.waves u = some w) (hp : w.pending = []) (nx : BitVec 2) (d : BitVec 6)
    (i : Nat) (x : DWord) : LaunchAnswers (launchEnds s u nx d i x) u d x :=
  ⟨s.uid, by simp [launchEnds, waveOf_of_lookup hw, Wave.finishAs, Wave.addResult, hp, sN]⟩

/-- LAUNCH at an entry of the table, with the record that it has read. -/
def launchEntry (s : State) (u : Nat) (w : Wave) (nx : BitVec 2) (d : BitVec 6) (p : Place) (record : List Byte) (pred i : Nat) : State :=
  let r := entryRead s w p 68 1
  if r.2.headD 0#8 ≠ 0#8 then launchEnds r.1 u nx d i 1#64
  else
    let v := entryWrite r.1 w p (depBytes record pred)
    launchEnds (if pred = 0 then fireEntry v w.ctag (dieNo (coreNo v w)) i else v) u nx d i 0#64

/-- A free entry gets the record, PRED and ESTATE; one that is not stays. -/
theorem launchEntry_leaves {s : State} {u : Nat} {w : Wave} {p : Place} (hw : lookup s.waves u = some w) (hp : w.pending = [])
    (hq : CoreQuiet s (coreNo s w)) (hk : UnderKey s p.kid p.key 128) (hs : s.snaps = []) (nx : BitVec 2) (d : BitVec 6) (record : List Byte)
    (pred i : Nat) :
    let t := launchEntry s u w nx d p record pred i
    lookup (coreOf t (coreNo s w)).l1 (p.key / 128) = none ∧
    (physByte s (p.key + 68) ≠ 0#8 → LaunchAnswers t u d 1#64 ∧ SameMemory s t) ∧
    (physByte s (p.key + 68) = 0#8 → LaunchAnswers t u d 0#64 ∧ Written s t p.key (depBytes record pred) ∧
      ∃ n, (ctxOf t w.ctag).fired = (ctxOf s w.ctag).fired ++ if pred = 0 then [(n, dieNo (coreNo s w), i)] else []) := by
  obtain ⟨hr, hsame, hqr, hnone, hbyte⟩ :=
    entryRead_leaves (p := p) (off := 68) (n := 1) hq (hk.sub (by omega) (by omega) (by omega))
  have hstate : (entryRead s w p 68 1).2.headD 0#8 = physByte s (p.key + 68) := by rw [hbyte]; rfl
  unfold launchEntry
  dsimp only
  rw [hstate]
  generalize (entryRead s w p 68 1).1 = r at *
  have hwr : lookup r.waves u = some w := by rw [hr.waves]; exact hw
  have hcr : coreNo r w = coreNo s w := hr.coreNo w
  split
  · next h => exact ⟨hnone, fun _ => ⟨launchEnds_answers hwr hp .., hsame⟩, fun h0 => absurd h0 h⟩
  · next h =>
    have hlen : (depBytes record pred).length = 128 := by simp [depBytes, sliceBytes, zeroBytes]
    obtain ⟨hv, hwritten, hnone'⟩ :=
      entryWrite_leaves (p := p) (b := depBytes record pred) (hcr ▸ hqr) (by rw [hlen]; exact hr.underKey hk) (hr.snaps.trans hs)
    rw [hcr] at hnone'
    generalize entryWrite r w p (depBytes record pred) = v at *
    have hcv : coreNo v w = coreNo s w := (hr.trans hv).coreNo w
    obtain ⟨hmem, hwaves, hcores, n, hfired⟩ := fireEntry_notes v w.ctag (dieNo (coreNo v w)) i (pred = 0)
    rw [(hr.trans hv).ctxOf, hcv] at hfired
    rw [hcv] at hmem hwaves hcores ⊢
    have hwv := hwr
    rw [← hv.waves, ← hwaves] at hwv
    refine ⟨by rw [coreOf_launchEnds, hcores]; exact hnone', fun h0 => absurd h0 h, fun _ => ⟨launchEnds_answers hwv hp .., ?_, n, hfired⟩⟩
    exact (hwritten.congrLeft hsame).congr hmem

section
variable {nx : BitVec 2} {d a b : BitVec 6} {s : State} {w : Wave} (hw : lookup s.waves s.cur = some w) (hp : w.pending = [])
  (hq : CoreQuiet s (coreNo s w))
include hw hp hq

/-- LAUNCH on a core with nothing on its way: the record is read, then its entry is looked at. -/
theorem exec_launch {l : Placed} {e : Option Place} {t : State} {record : List Byte} (hl : OnDevice l)
    (hc : checkLaunchOp s w (w.sreg a.toNat).toNat ((w.sreg b.toNat).toNat % 65536) = .ok (l, e))
    (hread : readPlaces s (coreNo s w) [] true [] (l.flatMap (·.2)) = (t, record)) :
    exec (.launch nx d a b) s = .next (match e with
      | none => launchEnds t s.cur nx d ((w.sreg b.toNat).toNat % 65536) 2#64
      | some p => launchEntry t s.cur w nx d p record ((w.sreg b.toNat).toNat / 2 ^ 32) ((w.sreg b.toNat).toNat % 65536)) := by
  show execLaunch nx d a b s = _
  rw [execLaunch]
  dsimp only
  rw [checked_ok hw (a := (l, e)) (by rw [bitsAt_entry]; exact hc)]
  simp only [releaseAt_quiet hw hp hq, drainPath_quiet hq, readAsks_onDevice hl, withPeers_none, hread, bitsAt_entry, bitsAt_high, bne_iff_ne]
  cases e <;> rfl

omit hw hp in
/-- The record of LAUNCH as its core reads it: the bytes of memory. -/
theorem launchRecord_leaves {l : Placed} (hl : OnDevice l) (hfit : ∀ e ∈ l, ∀ p ∈ e.2, 0 < p.2 ∧ p.1.key % 64 + p.2 ≤ 64 ∧
      UnderKey s p.1.kid p.1.key p.2 ∧ lookup (coreOf s (coreNo s w)).l1 (p.1.key / 128) = none) :
    ∃ t, ReadLeaves s (coreNo s w) t ∧ readPlaces s (coreNo s w) [] true [] (l.flatMap (·.2)) =
      (t, (l.flatMap (·.2)).flatMap fun p => physBytes s p.1.key p.2) := by
  obtain ⟨hr, hbytes⟩ := readPlaces_leaves hq (l.flatMap (·.2)) true fun p hp => by
    obtain ⟨e, he, hpe⟩ := List.mem_flatMap.1 hp
    exact ⟨hl e he p hpe, hfit e he p hpe⟩
  exact ⟨_, hr, Prod.ext rfl hbytes⟩

/-- R355: LAUNCH on the context's dependence table. -/
theorem launch_launches {l : Placed} (hs : s.snaps = []) (hl : OnDevice l) (hfit : ∀ e ∈ l, ∀ p ∈ e.2, 0 < p.2 ∧
      p.1.key % 64 + p.2 ≤ 64 ∧ UnderKey s p.1.kid p.1.key p.2 ∧ lookup (coreOf s (coreNo s w)).l1 (p.1.key / 128) = none) :
    let record := (l.flatMap (·.2)).flatMap fun p => physBytes s p.1.key p.2
    let idx := (w.sreg b.toNat).toNat % 65536
    let pred := (w.sreg b.toNat).toNat / 2 ^ 32
    let check := checkLaunchOp s w (w.sreg a.toNat).toNat idx
    (check = .ok (l, none) → Completes (.launch nx d a b) s fun t => LaunchAnswers t s.cur d 2#64 ∧ SameMemory s t) ∧
    ∀ p, check = .ok (l, some p) → UnderKey s p.kid p.key 128 →
      (physByte s (p.key + 68) ≠ 0#8 → Completes (.launch nx d a b) s fun t => LaunchAnswers t s.cur d 1#64 ∧ SameMemory s t ∧
        lookup (coreOf t (coreNo s w)).l1 (p.key / 128) = none) ∧
      (physByte s (p.key + 68) = 0#8 → Completes (.launch nx d a b) s fun t => LaunchAnswers t s.cur d 0#64 ∧
        Written s t p.key (depBytes record pred) ∧ lookup (coreOf t (coreNo s w)).l1 (p.key / 128) = none ∧
        ∃ n, (ctxOf t w.ctag).fired = (ctxOf s w.ctag).fired ++ (if pred = 0 then [(n, dieNo (coreNo s w), idx)] else [])) := by
  intro record idx pred check
  obtain ⟨t, hr, hread⟩ := launchRecord_leaves hq hl hfit
  have hwt : lookup t.waves s.cur = some w := by rw [hr.only.waves]; exact hw
  have hcore : coreNo t w = coreNo s w := hr.only.coreNo w
  refine ⟨fun hc => ⟨_, exec_launch hw hp hq hl hc hread, launchEnds_answers hwt hp .., hr.same⟩, fun p hc hk => ?_⟩
  obtain ⟨hnone, htaken, hfree⟩ := launchEntry_leaves hwt hp (hcore ▸ hr.quiet) (hr.only.underKey hk) (hr.only.snaps.trans hs) nx d record pred idx
  rw [hcore] at hnone hfree
  rw [hr.same] at htaken hfree
  have hx := exec_launch (nx := nx) (d := d) hw hp hq hl hc hread
  refine ⟨fun h => ?_, fun h => ?_⟩
  · obtain ⟨ha, hm⟩ := htaken h
    exact ⟨_, hx, ha, hr.same.trans hm, hnone⟩
  · obtain ⟨ha, hm, n, hf⟩ := hfree h
    rw [hr.only.ctxOf] at hf
    exact ⟨_, hx, ha, hm.congrLeft hr.same, hnone, n, hf⟩

end

/-! ### DEPSIG (R356) -/

@[simp] theorem Wave.sreg_finish (w : Wave) (nx : BitVec 2) (k : Nat) : (w.finish nx).sreg k = w.sreg k := by simp only [Wave.sreg, Wave.finish_s]

/-- DEPSIG ends with its answer. -/
def signalEnds (s : State) (u : Nat) (nx : BitVec 2) (d : BitVec 6) (x : DWord) : State := setWave s u (((waveOf s u).setS d.toNat x).finish nx)

@[simp] theorem coreOf_signalEnds (s : State) (u : Nat) (nx : BitVec 2) (d : BitVec 6) (x : DWord) (c : Nat) :
    coreOf (signalEnds s u nx d x) c = coreOf s c := rfl

theorem signalEnds_answers (s : State) (u : Nat) (nx : BitVec 2) (d : BitVec 6) (x : DWord) (hd : d ≠ 0#6) :
    (waveOf (signalEnds s u nx d x) u).sreg d.toNat = x := by
  have h0 : d.toNat ≠ 0 := fun h => hd (BitVec.eq_of_toNat_eq h)
  rw [signalEnds, waveOf_setWave, Wave.sreg_finish, Wave.sreg_setS _ _ d.isLt, if_pos ⟨rfl, h0⟩]

/-- DEPSIG at an entry of the table. -/
def signalEntry (s : State) (u : Nat) (w : Wave) (nx : BitVec 2) (d : BitVec 6) (p : Place) (i : Nat) : State :=
  let r := entryRead s w p 64 5
  let pred := fieldOf r.2 0 4
  if fieldOf r.2 4 1 = 1 ∧ 0 < pred then
    let v := entryWrite r.1 w { p with key := p.key + 64 } (bytesOf 4 (pred - 1) ++ [if pred = 1 then 2#8 else 1#8])
    signalEnds (if pred = 1 then fireEntry v w.ctag (dieNo (coreNo v w)) i else v) u nx d (BitVec.ofNat 64 pred)
  else signalEnds r.1 u nx d (BitVec.allOnes 64)

/-- A field of bytes in memory. -/
theorem fieldOf_physBytes (s : State) {k n off m : Nat} (h : off + m ≤ n) : fieldOf (physBytes s k n) off m = natOf (physBytes s (k + off) m) := by
  rw [fieldOf, sliceBytes_physBytes s h]

/-- A signal that an entry waits for takes one from PRED; any other is lost. -/
theorem signalEntry_leaves {s : State} {u : Nat} {w : Wave} {p : Place} (hq : CoreQuiet s (coreNo s w)) (h128 : p.key % 128 = 0)
    (hk : UnderKey s p.kid p.key 128) (hs : s.snaps = []) (nx : BitVec 2) (d : BitVec 6) (i : Nat) :
    let t := signalEntry s u w nx d p i
    let pred := natOf (physBytes s (p.key + 64) 4)
    let waiting := physByte s (p.key + 68) = 1#8 ∧ 0 < pred
    lookup (coreOf t (coreNo s w)).l1 (p.key / 128) = none ∧
    (¬waiting → (d ≠ 0#6 → (waveOf t u).sreg d.toNat = BitVec.allOnes 64) ∧ SameMemory s t) ∧
    (waiting → (d ≠ 0#6 → (waveOf t u).sreg d.toNat = BitVec.ofNat 64 pred) ∧
      Written s t (p.key + 64) (bytesOf 4 (pred - 1) ++ [if pred = 1 then 2#8 else 1#8]) ∧
      ∃ n, (ctxOf t w.ctag).fired = (ctxOf s w.ctag).fired ++ if pred = 1 then [(n, dieNo (coreNo s w), i)] else []) := by
  obtain ⟨hr, hsame, hqr, hnone, hbytes⟩ :=
    entryRead_leaves (p := p) (off := 64) (n := 5) hq (hk.sub (by omega) (by omega) (by omega))
  have hpred : fieldOf (entryRead s w p 64 5).2 0 4 = natOf (physBytes s (p.key + 64) 4) := by rw [hbytes, fieldOf_physBytes s (by omega)]
  have hstate : fieldOf (entryRead s w p 64 5).2 4 1 = 1 ↔ physByte s (p.key + 68) = 1#8 := by
    rw [hbytes, fieldOf_physBytes s (by omega), ← BitVec.toNat_inj]
    simp [physBytes, natOf]
  unfold signalEntry
  simp only [hpred, hstate]
  generalize natOf (physBytes s (p.key + 64) 4) = pred
  generalize (entryRead s w p 64 5).1 = r at *
  have hcr : coreNo r w = coreNo s w := hr.coreNo w
  split
  · next h =>
    obtain ⟨hv, hwritten, hnone'⟩ :=
      entryWrite_leaves (p := { p with key := p.key + 64 }) (b := bytesOf 4 (pred - 1) ++ [if pred = 1 then 2#8 else 1#8]) (hcr ▸ hqr)
        (hr.underKey (hk.sub (by simp) (by simp) (by simp))) (hr.snaps.trans hs)
    rw [hcr, show (p.key + 64) / 128 = p.key / 128 by omega] at hnone'
    generalize entryWrite r w _ _ = v at *
    have hcv : coreNo v w = coreNo s w := (hr.trans hv).coreNo w
    obtain ⟨hmem, -, hcores, n, hfired⟩ := fireEntry_notes v w.ctag (dieNo (coreNo v w)) i (pred = 1)
    rw [(hr.trans hv).ctxOf, hcv] at hfired
    rw [hcv] at hmem hcores ⊢
    refine ⟨by rw [coreOf_signalEnds, hcores]; exact hnone', fun h0 => absurd h h0, fun _ => ⟨signalEnds_answers _ _ _ _ _, ?_, n, hfired⟩⟩
    exact (hwritten.congrLeft hsame).congr hmem
  · next h => exact ⟨hnone, fun _ => ⟨signalEnds_answers _ _ _ _ _, hsame⟩, fun h0 => absurd h0 h⟩

section
variable {nx : BitVec 2} {d a : BitVec 6} {s : State} {w : Wave} (hw : lookup s.waves s.cur = some w) (hp : w.pending = [])
  (hq : CoreQuiet s (coreNo s w))
include hw hp hq

/-- DEPSIG on a core with nothing on its way. -/
theorem exec_depsig {e : Option Place} (hc : checkDepsig s w ((w.sreg a.toNat).toNat % 65536) = .ok e) :
    exec (.depsig nx d a) s = .next (match e with
      | none => signalEnds s s.cur nx d (BitVec.allOnes 64)
      | some p => signalEntry s s.cur w nx d p ((w.sreg a.toNat).toNat % 65536)) := by
  show execDepsig nx d a s = _
  rw [execDepsig]
  dsimp only
  rw [checked_ok hw (a := e) (by rw [bitsAt_entry]; exact hc)]
  simp only [releaseAt_quiet hw hp hq, bitsAt_entry, gt_iff_lt, Bool.and_eq_true, decide_eq_true_eq]
  cases e <;> rfl

end

/-- Settles O34: LAUNCH by the read of its record and its entry, DEPSIG by its entry. -/
theorem dependenceTable : Obligations.DependenceTable := by
  unfold Obligations.DependenceTable
  refine ⟨fun nx d a b s w l hw hp hq hs hl hfit => ?_, fun nx d a s w hw hp hq => ⟨fun hc => ?_, fun p hc h128 hk hs => ?_⟩⟩
  · obtain ⟨hbeyond, hentry⟩ := launch_launches (nx := nx) (d := d) (a := a) (b := b) hw hp hq hs hl hfit
    exact ⟨hbeyond, fun p hc _ hk => hentry p hc hk⟩
  · rw [exec_depsig hw hp hq hc, signalEnds, waveOf_of_lookup hw]
  · have hx := exec_depsig (nx := nx) (d := d) hw hp hq hc
    obtain ⟨hnone, hlost, htaken⟩ := signalEntry_leaves (u := s.cur) hq h128 hk hs nx d ((w.sreg a.toNat).toNat % 65536)
    refine ⟨fun h => ?_, fun h => ?_⟩
    · obtain ⟨ha, hm⟩ := hlost h
      exact ⟨_, hx, ha, hm, hnone⟩
    · obtain ⟨ha, hm, hf⟩ := htaken h
      exact ⟨_, hx, ha, hm, hnone, hf⟩

end Sys2Proof

/-! SUPPORT. Queues (R191-R200, R203, R205, R210): what writes through a context's tables leave, leaders and their moves, records at their take, fabric enqueues
and fired entries, and the statement about them. -/
namespace Sys2Proof
open Machine

/-! ### What a step of the Reeve leaves of the device -/

protected theorem MemoryOnly.ctxOf {s t : State} (h : MemoryOnly s t) (c : Nat) : ctxOf t c = ctxOf s c := by simp only [Machine.ctxOf, h.contexts]
protected theorem DrainOnly.contexts {s t : State} (h : DrainOnly s t) : t.contexts = s.contexts := by
  obtain ⟨_, _, _, _, _, _, _, _, _, _, _, rfl⟩ := h; rfl
protected theorem DrainOnly.launches {s t : State} (h : DrainOnly s t) : t.launches = s.launches := by
  obtain ⟨_, _, _, _, _, _, _, _, _, _, _, rfl⟩ := h; rfl

theorem memoryOnly_ctxWrite {s t : State} {c va : Nat} {l : List Byte} (h : ctxWrite s c va l false = some t) : MemoryOnly s t := by
  have hr := memoryOnly_ctxRecord s c va l
  rwa [ctxRecord, h] at hr

/-- Raising a fault, and posting the records that wait, leave the contexts and the launches. -/
def KeepsQueues (s t : State) : Prop := t.contexts = s.contexts ∧ t.launches = s.launches

theorem MemoryOnly.keepsQueues {s t : State} (h : MemoryOnly s t) : KeepsQueues s t := ⟨h.contexts, h.launches⟩
theorem DrainOnly.keepsQueues {s t : State} (h : DrainOnly s t) : KeepsQueues s t := ⟨h.contexts, h.launches⟩
theorem KeepsQueues.trans {s t v : State} (h : KeepsQueues s t) (h' : KeepsQueues t v) : KeepsQueues s v := ⟨h'.1.trans h.1, h'.2.trans h.2⟩
theorem KeepsQueues.ctxOf {s t : State} (h : KeepsQueues s t) (c : Nat) : ctxOf t c = ctxOf s c := by simp only [Machine.ctxOf, h.1]

theorem keepsQueues_raiseFault (s : State) (c die : Nat) (who : Waiter) (f : Recov) : KeepsQueues s (raiseFault s c die who f).1 := by
  unfold raiseFault
  dsimp only
  split <;> exact ⟨rfl, rfl⟩

theorem keepsQueues_postFault (s : State) (token : Nat) : KeepsQueues s (postFault s token) := by
  unfold postFault
  split
  · exact ⟨rfl, rfl⟩
  · dsimp only
    split
    · exact ⟨rfl, rfl⟩
    · split
      · have ho : ∀ k l k' l', MemoryOnly s (agentWrite (agentWrite s 0 k l) 0 k' l') := fun _ _ _ _ =>
          (memoryOnly_agentWrite ..).trans (memoryOnly_agentWrite ..)
        exact ⟨(ho ..).contexts, (ho ..).launches⟩
      · exact ⟨rfl, rfl⟩

theorem keepsQueues_postFaults (s : State) : KeepsQueues s (postFaults s) :=
  List.foldlRecOn (motive := KeepsQueues s) _ _ ⟨rfl, rfl⟩ fun _ ht f _ => ht.trans (keepsQueues_postFault _ f.token)

theorem keepsQueues_postEvent (s : State) (source kind : Nat) (data : List Byte) : KeepsQueues s (postEvent s source kind data) := by
  unfold postEvent
  split <;> exact ⟨rfl, rfl⟩

theorem keepsQueues_writeCompletion (s : State) (c : Nat) (cpla : DWord) (status : Nat) (id : Word) (faults : Nat) :
    KeepsQueues s (writeCompletion s c cpla status id faults) := by
  unfold writeCompletion
  split
  · exact ⟨rfl, rfl⟩
  · exact (drainOnly_drainAll s).keepsQueues.trans (memoryOnly_ctxRecord ..).keepsQueues

theorem keepsQueues_freeEntry (s : State) (c : Nat) (dep : Option Nat) : KeepsQueues s (freeEntry s c dep) := by
  cases dep with
  | none => exact ⟨rfl, rfl⟩
  | some i => exact (memoryOnly_ctxRecord ..).keepsQueues

/-! ### Writes through a context's tables (R446) -/

/-- An extent within 64 KiB is one chunk. -/
theorem chunksOf_one {va n : Nat} (h0 : 0 < n) (h : va % 65536 + n ≤ 65536) : chunksOf va n = [(va, n)] := by
  have hmin : min n (65536 - va % 65536) = n := by omega
  have hnil : ∀ f v, pageChunks f v 0 = [] := fun f v => by cases f <;> rfl
  rw [chunksOf, pageChunks, if_neg (by omega)]
  dsimp only
  rw [hmin, Nat.sub_self, hnil]

/-- What is written to this device's memory through a context's tables, within 64 KiB. -/
theorem ctxWrite_writes {s : State} {c va : Nat} {l : List Byte} {p : Place} (hs : s.snaps = []) (h0 : 0 < l.length)
    (hva : va % 65536 + l.length ≤ 65536) (hp : translate s (.die 0) c va 1 false = .ok p) (hl : p.loc ≠ 2) (hk : UnderKey s p.kid p.key l.length) :
    ∃ t, ctxWrite s c va l false = some t ∧ SliceOnly s t ∧ Written s t p.key l := by
  refine ⟨agentWrite s p.kid p.key l, ?_, agentWrite_only s hk hs, agentWrite_written s hk hs⟩
  simp [ctxWrite, chunksOf_one h0 hva, hp, hl]

/-- A context's fields that no walk reads change no translation. -/
theorem walkFrom_setCtx (s : State) (c : Nat) (k : Context) (levels : List (Nat × Nat × Nat)) (die base va : Nat) :
    walkFrom (setCtx s c k) levels die base va = walkFrom s levels die base va := by
  induction levels generalizing die base with
  | nil => rfl
  | cons e rest ih =>
    obtain ⟨lv, sh, n⟩ := e
    simp only [walkFrom, ih]
    rfl

theorem translate_setCtx (s : State) {c : Nat} {k : Context} (h : k.ptbase = (ctxOf s c).ptbase) (a : Asker) (va : Nat) (kind : AccKind) (e : Bool) :
    translate (setCtx s c k) a c va kind e = translate s a c va kind e := by
  have hw : walk (setCtx s c k) c va = walk s c va := by
    simp only [walk, ctxOf_setCtx, walkFrom_setCtx, h]
  have hf : leafFor (setCtx s c k) a c va = leafFor s a c va := by
    simp only [leafFor, hw]
    rfl
  simp only [Machine.translate, hf]
  rfl

/-! ### Leaders (Table 7.5) -/

/-- A context with a queue's leader record replaced. -/
def withLeader (k : Context) (qt : Bool) (q : Nat) (l : Leader) : Context :=
  { k with queues := k.queues.filter (fun e => !(e.1 == qt && e.2.1 == q)) ++ [(qt, q, l)] }

@[simp] theorem leaderOf_withLeader (k : Context) (qt : Bool) (q : Nat) (l : Leader) : leaderOf (withLeader k qt q l) qt q = some l := by
  have hn : (k.queues.filter fun e => !(e.1 == qt && e.2.1 == q)).find? (fun e => e.1 == qt && e.2.1 == q) = none := by
    rw [List.find?_eq_none]
    intro e he hq
    have hne := (List.mem_filter.1 he).2
    rw [hq] at hne
    cases hne
  rw [leaderOf, withLeader, List.find?_append, hn]
  simp

section
variable (s : State) (c : Nat) (qt : Bool) (q : Nat) (l : Leader)

theorem memoryOnly_setLeader : MemoryOnly (setCtx s c (withLeader (ctxOf s c) qt q l)) (setLeader s c qt q l) := memoryOnly_ctxRecord ..

@[simp] theorem ctxOf_setLeader : ctxOf (setLeader s c qt q l) c = withLeader (ctxOf s c) qt q l :=
  ((memoryOnly_setLeader ..).ctxOf c).trans (ctxOf_setCtx ..)

@[simp] theorem setLeader_launches : (setLeader s c qt q l).launches = s.launches := (memoryOnly_setLeader ..).launches
@[simp] theorem setLeader_uid : (setLeader s c qt q l).uid = s.uid := (memoryOnly_setLeader ..).uid
@[simp] theorem setLeader_dies : (setLeader s c qt q l).dies = s.dies := (memoryOnly_setLeader ..).dies

theorem leaderOf_setLeader : leaderOf (ctxOf (setLeader s c qt q l) c) qt q = some l := by simp

end

/-- A queue whose record can be taken is led. -/
theorem canTake_led {s : State} {c q : Nat} {qt : Bool} {b : List Byte} {l : Leader} (h : canTake s c qt q = some (b, l)) : l.state = .led := by
  unfold canTake at h
  split at h
  · split at h
    · next hc =>
      cases h
      simp only [Bool.and_eq_true, beq_iff_eq] at hc
      exact hc.1.1.1.1.1.1.1.1.1
    · cases h
  · cases h

/-! ### Takes (R194, R200) -/

section
variable {s : State} {c q : Nat} {qt : Bool} {b : List Byte} {l : Leader}

/-- TAKE as a leader writes it: HEAD, LEPOCH and LDIE. -/
def takeBytes (head : Nat) (l : Leader) : List Byte := bytesOf 4 head ++ bytesOf 2 l.epoch ++ bytesOf 2 l.die

/-- R200: TAKE is written, and then LSTATE. -/
theorem writeTake_writes {head : Nat} {p : Place} (hled : l.state = .led) (hs : s.snaps = []) (hd : descAddr (ctxOf s c) qt q % 64 = 0)
    (hp : translate s (.die 0) c (descAddr (ctxOf s c) qt q + 24) 1 false = .ok p) (hl : p.loc ≠ 2) (hk : UnderKey s p.kid p.key 8) :
    ∃ h, writeTake s c qt q head l = some h ∧ Written s h p.key (takeBytes head l) ∧
      ∀ z, translate h (.die 0) c (descAddr (ctxOf s c) qt q + 32) 1 false = .ok z → z.loc ≠ 2 → UnderKey h z.kid z.key 1 →
        Written h (setLeader h c qt q { l with kill := false }) z.key [1#8] := by
  have hlen : (takeBytes head l).length = 8 := by simp [takeBytes]
  obtain ⟨h, hw, ho, hwritten⟩ := ctxWrite_writes (l := takeBytes head l) hs (by omega) (by omega) hp hl (by rwa [hlen])
  refine ⟨h, hw, hwritten, fun z hz hzl hzk => ?_⟩
  let m := setCtx h c (withLeader (ctxOf h c) qt q { l with kill := false })
  have hm : setLeader h c qt q { l with kill := false } = ctxRecord m c (descAddr (ctxOf s c) qt q + 32) [1#8] := by
    show ctxRecord m c (descAddr (ctxOf h c) qt q + 32) (bytesOf 1 (leaderCode l.state)) = _
    rw [ho.ctxOf, hled]
    rfl
  have hz' : translate m (.die 0) c (descAddr (ctxOf s c) qt q + 32) 1 false = .ok z :=
    (translate_setCtx h (k := withLeader _ _ _ _) rfl ..).trans hz
  obtain ⟨t, ht, -, hwt⟩ := ctxWrite_writes (s := m) (l := [1#8]) (ho.snaps.trans hs) (by simp) (by simp; omega) hz' hzl hzk
  rw [hm, ctxRecord, ht]
  exact hwt

variable {hold : State → List Byte → Nat → Bool} {lost : State → State} {k : State → Leader → List Byte → List Byte → State}

theorem takeHead_none {f : State → State} (h : writeTake s c qt q ((descHead b + 1) % 2 ^ 32) l = none) : takeHead s c qt q b l f = s := by
  rw [takeHead, h]

theorem takeHead_some {f : State → State} {t : State} (h : writeTake s c qt q ((descHead b + 1) % 2 ^ 32) l = some t) :
    takeHead s c qt q b l f = f (setLeader t c qt q { l with kill := false }) := by
  rw [takeHead, h]

section
variable (hc : canTake s c qt q = some (b, l))
include hc

/-- A record whose fault was answered with KILL is taken unread. -/
theorem takeNext_killed (hk : l.kill = true) : takeNext s c qt q hold lost k = takeHead s c qt q b l lost := by
  simp only [takeNext, hc, hk, if_true]

theorem takeNext_unread (hk : l.kill = false) {r : Nat} (hr : readRecord s c l.die (recordAddr b (descHead b)) = .error (.fatal r)) :
    takeNext s c qt q hold lost k = if r = 11 then killContext (takeHead s c qt q b l lost) c else takeHead s c qt q b l lost := by
  simp only [takeNext, hc, hk, hr, Bool.false_eq_true, if_false, unreadRecord]

theorem takeNext_waits (hk : l.kill = false) {nw : Bool} (hr : readRecord s c l.die (recordAddr b (descHead b)) = .error (.recoverable nw)) :
    let r := raiseFault s c l.die (.queue qt q) { va := recordAddr b (descHead b), kind := 0, nw }
    takeNext s c qt q hold lost k = postFaults (setLeader r.1 c qt q { l with waitFault := some r.2 }) := by
  simp only [takeNext, hc, hk, hr, Bool.false_eq_true, if_false, unreadRecord]

theorem takeNext_read (hk : l.kill = false) {r : List Byte} (hr : readRecord s c l.die (recordAddr b (descHead b)) = .ok r) :
    takeNext s c qt q hold lost k = if hold s r (descHead b) then s else takeHead s c qt q b l fun t => k t l b r := by
  simp only [takeNext, hc, hk, hr, Bool.false_eq_true, if_false]

end

/-- Where TAKE cannot be written nothing is taken (log 68). -/
theorem takeNext_unwritable (hc : canTake s c qt q = some (b, l)) (hw : writeTake s c qt q ((descHead b + 1) % 2 ^ 32) l = none)
    (hr : l.kill = true ∨ (∃ r, readRecord s c l.die (recordAddr b (descHead b)) = .ok r) ∨
      ∃ r, readRecord s c l.die (recordAddr b (descHead b)) = .error (.fatal r) ∧ r ≠ 11) : takeNext s c qt q hold lost k = s := by
  cases hk : l.kill with
  | true => rw [takeNext_killed hc hk, takeHead_none hw]
  | false =>
    rw [hk] at hr
    obtain h | ⟨r, hr⟩ | ⟨r, hr, h11⟩ := hr
    · cases h
    · rw [takeNext_read hc hk hr, takeHead_none hw, ite_self]
    · rw [takeNext_unread hc hk hr, if_neg h11, takeHead_none hw]

/-- A record whose page is not there waits for the answer to its fault. -/
theorem takeNext_faults (hc : canTake s c qt q = some (b, l)) (hk : l.kill = false) {nw : Bool}
    (hr : readRecord s c l.die (recordAddr b (descHead b)) = .error (.recoverable nw)) :
    let t := takeNext s c qt q hold lost k
    t.launches = s.launches ∧ ∃ tok, leaderOf (ctxOf t c) qt q = some { l with waitFault := some tok } := by
  dsimp only
  rw [takeNext_waits hc hk hr]
  have hr := keepsQueues_raiseFault s c l.die (.queue qt q) { va := recordAddr b (descHead b), kind := 0, nw }
  have hp := keepsQueues_postFaults (setLeader (raiseFault s c l.die (.queue qt q) { va := recordAddr b (descHead b), kind := 0, nw }).1 c qt q
    { l with waitFault := some (raiseFault s c l.die (.queue qt q) { va := recordAddr b (descHead b), kind := 0, nw }).2 })
  exact ⟨hp.2.trans ((setLeader_launches ..).trans hr.2), _, by rw [hp.ctxOf, leaderOf_setLeader]⟩

/-- A queue that is neither served amiss nor ready to take stays. -/
theorem takeNext_idle (hc : canTake s c qt q = none) (ha : queueAmiss s c qt q = false) : takeNext s c qt q hold lost k = s := by
  simp [takeNext, hc, mendQueue, ha]

theorem canTake_none (hl : leaderOf (ctxOf s c) qt q = some l) (hd : readDesc s c qt q = some b) (h : l.state ≠ .led ∨ descOk b = false) :
    canTake s c qt q = none := by
  have : (l.state == .led) = false ∨ descOk b = false := h.imp_left beq_false_of_ne
  obtain h | h := this <;> simp [canTake, hl, hd, h]

section
variable (hl : leaderOf (ctxOf s c) qt q = some l) (hd : readDesc s c qt q = some b) (hr : isResident s c = true) (he : descEn b = true)
include hl hd hr he

/-- R193: a descriptor that goes bad. -/
theorem takeNext_bad (hst : l.state = .led ∨ l.state = .idle ∨ l.state = .moving) (hok : descOk b = false) :
    takeNext s c qt q hold lost k = serveIdle (setLeader s c qt q { l with state := .bad }) := by
  obtain h | h | h := hst <;> simp [takeNext, canTake_none hl hd (.inr hok), mendQueue, queueAmiss, hl, hd, hr, he, h, hok]

/-- R193: a descriptor that is mended. -/
theorem takeNext_mended (hst : l.state = .bad) (hok : descOk b = true) : takeNext s c qt q hold lost k = serveQueue s c qt q := by
  simp [takeNext, canTake_none hl hd (.inl (by rw [hst]; decide)), mendQueue, queueAmiss, hl, hd, hr, he, hst, hok]

end
end

/-! ### Launch records (R194-R198) -/

section
variable (s : State) (c die : Nat) (b : List Byte) (queue : Option (Bool × Nat)) (index : Nat) (dep : Option Nat) (ordered : Bool)

@[simp] theorem ctxOf_skipLaunch : ctxOf (skipLaunch s c) c = { ctxOf s c with nextLaunch := nextId (ctxOf s c).nextLaunch } := ctxOf_setCtx ..

/-- A record that passes its checks becomes a launch under the next LAUNCHID. -/
theorem takeLaunch_launches {chain : List (Nat × List Byte)}
    (h : checkLaunchRecord (skipLaunch s c) c b (if dep.isSome then none else some index) = .ok chain) :
    let t := takeLaunch s c die b queue index dep ordered
    lookup t.launches s.uid = some { launchFrom c die (ctxOf s c).nextLaunch b queue index dep ordered with tslot := freeTslot s die } ∧
      (∃ r, ctxOf t c = { ctxOf (skipLaunch s c) c with rcbs := r }) ∧ SameMemory s t := by
  have ht : takeLaunch s c die b queue index dep ordered =
      let m := noteBlocks (skipLaunch s c) c chain
      let x := { launchFrom c die (ctxOf s c).nextLaunch b queue index dep ordered with tslot := freeTslot m die }
      { m with uid := m.uid + 1, launches := put m.launches m.uid x } := by
    unfold takeLaunch
    dsimp only
    rw [show checkLaunchRecord (setCtx s c { ctxOf s c with nextLaunch := nextId (ctxOf s c).nextLaunch }) c b _ = _ from h]
    rfl
  rw [ht]
  exact ⟨lookup_put_self .., ⟨_, ctxOf_setCtx (skipLaunch s c) c _⟩, fun _ => rfl⟩

/-- A record that fails a check is answered with its completion record. -/
theorem takeLaunch_refuses {e : LaunchStatus}
    (h : checkLaunchRecord (skipLaunch s c) c b (if dep.isSome then none else some index) = .error e) :
    takeLaunch s c die b queue index dep ordered =
      killIfLost (freeEntry (writeCompletion (skipLaunch s c) c (BitVec.ofNat 64 (fieldOf b 48 8)) e (ctxOf s c).nextLaunch 0) c dep) c
        (e == 2 && recordLost (skipLaunch s c) c b) := by
  unfold takeLaunch
  dsimp only
  rw [show checkLaunchRecord (setCtx s c { ctxOf s c with nextLaunch := nextId (ctxOf s c).nextLaunch }) c b _ = _ from h]
  rfl

end

/-- A byte of a record, as a field. -/
theorem fieldOf_byte (l : List Byte) (i : Nat) : fieldOf l i 1 = (l.getD i 0#8).toNat := by simp [fieldOf, sliceBytes, natOf]

/-- ORDERED of a descriptor's flags (R192). -/
theorem descOrdered_eq (b : List Byte) : (bitsAt (fieldOf b 9 1) 1 1 == 1) = (b.getD 9 0#8 &&& 2#8 != 0#8) := by
  rw [fieldOf_byte]
  generalize b.getD 9 0#8 = x
  revert x
  decide

/-- A take leaves of its context all but the leader. -/
theorem ctxOf_taken {s h : State} {c q head : Nat} {qt : Bool} {l : Leader} (hw : writeTake s c qt q head l = some h) (l' : Leader) :
    ctxOf (setLeader h c qt q l') c = withLeader (ctxOf s c) qt q l' := by
  rw [ctxOf_setLeader, (memoryOnly_ctxWrite hw).ctxOf]

section
variable {s : State} {c q : Nat} {b : List Byte} {l : Leader} (hc : canTake s c false q = some (b, l))
  {h : State} (hw : writeTake s c false q ((descHead b + 1) % 2 ^ 32) l = some h)
include hw

/-- After a take the next LAUNCHID is used up. -/
theorem skipLaunch_taken (l' : Leader) : skipLaunch (setLeader h c false q l') c = setCtx (setLeader h c false q l') c
    { ctxOf (setLeader h c false q l') c with nextLaunch := nextId (ctxOf s c).nextLaunch } := by
  rw [skipLaunch, ctxOf_taken hw]
  rfl

include hc

theorem recordTake_killed (hk : l.kill = true) :
    exec (.recordTake c q) s = .next (skipLaunch (setLeader h c false q { l with kill := false }) c) := by
  show Host.Outcome.next (takeNext ..) = _
  rw [takeNext_killed hc hk, takeHead_some hw]

theorem recordTake_unread (hk : l.kill = false) {r : Nat} (hr : readRecord s c l.die (recordAddr b (descHead b)) = .error (.fatal r)) :
    exec (.recordTake c q) s = .next (
      let m := skipLaunch (setLeader h c false q { l with kill := false }) c
      if r = 11 then killContext m c else m) := by
  show Host.Outcome.next (takeNext ..) = _
  rw [takeNext_unread hc hk hr, takeHead_some hw]

theorem recordTake_read (hk : l.kill = false) {r : List Byte} (hr : readRecord s c l.die (recordAddr b (descHead b)) = .ok r) :
    exec (.recordTake c q) s = .next (takeLaunch (setLeader h c false q { l with kill := false }) c l.die r (some (false, q)) (descHead b) none
      (b.getD 9 0#8 &&& 2#8 != 0#8)) := by
  show Host.Outcome.next (takeNext ..) = _
  rw [takeNext_read hc hk hr, takeHead_some hw, if_neg Bool.false_ne_true, descOrdered_eq]

/-- R196-R198: a record that passes its checks. -/
theorem recordTake_launches (hk : l.kill = false) {r : List Byte} (hr : readRecord s c l.die (recordAddr b (descHead b)) = .ok r)
    {chain : List (Nat × List Byte)}
    (hck : checkLaunchRecord (skipLaunch (setLeader h c false q { l with kill := false }) c) c r (some (descHead b)) = .ok chain) :
    Completes (.recordTake c q) s fun t =>
      lookup t.launches s.uid = some { launchFrom c l.die (ctxOf s c).nextLaunch r (some (false, q)) (descHead b) none (b.getD 9 0#8 &&& 2#8 != 0#8) with
        tslot := freeTslot s l.die } ∧
      (ctxOf t c).nextLaunch = nextId (ctxOf s c).nextLaunch ∧ leaderOf (ctxOf t c) false q = some { l with kill := false } ∧
      SameMemory (setLeader h c false q { l with kill := false }) t := by
  obtain ⟨hlaunch, ⟨x, hx⟩, hm⟩ := takeLaunch_launches _ c l.die r (some (false, q)) (descHead b) none (b.getD 9 0#8 &&& 2#8 != 0#8) hck
  have ho := memoryOnly_ctxWrite hw
  have hslot : freeTslot (setLeader h c false q { l with kill := false }) l.die = freeTslot s l.die := by
    simp only [freeTslot, setLeader_launches, ho.launches]
  rw [ctxOf_skipLaunch, ctxOf_taken hw] at hx
  rw [setLeader_uid, ho.uid, hslot, ctxOf_taken hw] at hlaunch
  refine ⟨_, recordTake_read hc hw hk hr, hlaunch, by rw [hx]; rfl, ?_, hm⟩
  rw [hx]
  exact leaderOf_withLeader ..

/-- R197: a record that fails a check. -/
theorem recordTake_refuses (hk : l.kill = false) {r : List Byte} (hr : readRecord s c l.die (recordAddr b (descHead b)) = .ok r) {e : LaunchStatus}
    (hck : checkLaunchRecord (skipLaunch (setLeader h c false q { l with kill := false }) c) c r (some (descHead b)) = .error e) :
    let m := skipLaunch (setLeader h c false q { l with kill := false }) c
    let t := writeCompletion m c (BitVec.ofNat 64 (fieldOf r 48 8)) e (ctxOf s c).nextLaunch 0
    exec (.recordTake c q) s = .next (if e = 2 ∧ recordLost m c r = true then killContext t c else t) := by
  have ht := takeLaunch_refuses _ c l.die r (some (false, q)) (descHead b) none (b.getD 9 0#8 &&& 2#8 != 0#8) hck
  have hid : (ctxOf (setLeader h c false q { l with kill := false }) c).nextLaunch = (ctxOf s c).nextLaunch := by rw [ctxOf_taken hw]; rfl
  rw [recordTake_read hc hw hk hr, ht, hid]
  simp only [killIfLost, Bool.and_eq_true, beq_iff_eq, freeEntry]

end

/-! ### Task records (R199) -/

/-- What a home can grant depends on its table alone. -/
theorem grantable_congr {s t : State} (h : t.dies = s.dies) (die n : Nat) : grantable t die n = grantable s die n := by
  have hd : ∀ d, dieOf t d = dieOf s d := fun d => by simp only [dieOf, h]
  have hidle : ∀ k, (frtOf t die k).state = (frtOf s die k).state ∧ (frtOf t die k).granted = (frtOf s die k).granted := fun k => by
    simp only [frtOf, hd]
    split <;> exact ⟨rfl, rfl⟩
  have hfree : ∀ fuel k n, freeSlots fuel t die k n = freeSlots fuel s die k n := by
    intro fuel
    induction fuel with
    | zero => intro k n; rw [freeSlots, freeSlots]
    | succ f ih =>
      intro k n
      cases n with
      | zero => rw [freeSlots, freeSlots] <;> simp
      | succ m => simp only [freeSlots, hidle, ih]
  rw [grantable, grantable, hfree, hd]

/-- The home that a task record names. -/
theorem recordHome_eq (r : List Byte) : bitsAt (fieldOf r 1 1) 0 1 = (r.getD 1 0#8).toNat % 2 := by
  rw [fieldOf_byte, bitsAt_eq, pow_zero, Nat.div_one, pow_one]

section
variable {s : State} {c i : Nat} {r : List Byte}

theorem takeTask_illFormed (h : taskRecordOk r i = false) : takeTask s c r i = refuseRecord s c r (brokenCause 3 0) := by
  simp [takeTask, h]

theorem takeTask_noRegion (h : taskRecordOk r i = true) {e : LaunchStatus} (hc : checkRegion s c (BitVec.ofNat 64 (fieldOf r 32 8)) = .error e)
    (hl : e = 2 → recordLost s c r = false) : takeTask s c r i = refuseRecord s c r (brokenCause 3 0) := by
  have hk : (e == 2 && recordLost s c r) = false := by
    by_cases he : e = 2
    · rw [hl he, Bool.and_false]
    · rw [beq_false_of_ne he, Bool.false_and]
  simp [takeTask, h, hc, hk, killIfLost]

/-- R199: a task record takes the next slot that its home can grant. -/
theorem takeTask_takes (h : taskRecordOk r i = true) {chain : List (Nat × List Byte)}
    (hc : checkRegion s c (BitVec.ofNat 64 (fieldOf r 32 8)) = .ok chain) {home slot : Nat} {rest : List Nat} (hh : (r.getD 1 0#8).toNat % 2 = home)
    (hlost : isLost s home = false) (hg : grantable s home 1 = slot :: rest) :
    let t := takeTask s c r i
    let f := frtOf t home slot
    (f.state = 1#2 ∧ f.ctag = c ∧ f.entry = BitVec.ofNat 64 (fieldOf r 8 8) ∧ f.argp = BitVec.ofNat 64 (fieldOf r 16 8) ∧
      f.resa = BitVec.ofNat 64 (fieldOf r 48 8)) ∧
    (dieOf t home).tasks = (dieOf s home).tasks ++ [.task slot] ∧ (ctxOf t c).queues = (ctxOf s c).queues := by
  set n := noteBlocks s c chain with hn
  have hlost' : isLost n home = false := hlost
  have hg' : grantable n home 1 = slot :: rest := (grantable_congr (s := s) (t := n) rfl home 1).trans hg
  have ht : takeTask s c r i =
      let x := takeFrt n home slot c none (BitVec.ofNat 64 (fieldOf r 8 8)) (BitVec.ofNat 64 (fieldOf r 16 8)) (BitVec.ofNat 64 (fieldOf r 32 8))
      sendTask (setFrt x home slot { frtOf x home slot with resa := BitVec.ofNat 64 (fieldOf r 48 8) }) home slot := by
    unfold takeTask
    simp only [h, hc, recordHome_eq, hh, ← hn, hlost', hg', Bool.not_true, Bool.false_eq_true, if_false]
  rw [ht]
  dsimp only
  refine ⟨?_, ?_, ?_⟩
  · rw [sendTask, frtOf_setDie _ (by rfl), frtOf_setFrt, takeFrt, frtOf_setFrt]
    exact ⟨rfl, rfl, rfl, rfl, rfl⟩
  · rw [sendTask, dieOf_setDie, dieOf_setFrt, takeFrt, dieOf_setFrt]
    rfl
  · rw [ctxOf, sendTask, setDie_contexts, setFrt_contexts, takeFrt, setFrt_contexts]
    show (ctxOf n c).queues = _
    rw [hn, noteBlocks, ctxOf_setCtx]

end

section
variable {s : State} {c q : Nat} {b r : List Byte} {l : Leader} (hc : canTake s c true q = some (b, l)) (hk : l.kill = false)
  (hr : readRecord s c l.die (recordAddr b (descHead b)) = .ok r)
include hc hk hr

/-- A record whose home has no slot waits at the head of its queue (log 73). -/
theorem taskRecordTake_held (h : taskHeld s c r (descHead b) = true) : exec (.taskRecordTake c q) s = .next s := by
  show Host.Outcome.next (takeNext ..) = _
  rw [takeNext_read hc hk hr, if_pos h]

theorem taskRecordTake_taken (h : taskHeld s c r (descHead b) = false) {t : State}
    (hw : writeTake s c true q ((descHead b + 1) % 2 ^ 32) l = some t) :
    exec (.taskRecordTake c q) s = .next (takeTask (setLeader t c true q { l with kill := false }) c r (descHead b)) := by
  show Host.Outcome.next (takeNext ..) = _
  rw [takeNext_read hc hk hr, if_neg (by rw [h]; exact Bool.false_ne_true), takeHead_some hw]

/-- R199: a task record that is taken. -/
theorem taskRecordTake_takes {t : State} (hw : writeTake s c true q ((descHead b + 1) % 2 ^ 32) l = some t)
    (hok : taskRecordOk r (descHead b) = true) {chain : List (Nat × List Byte)}
    (hck : checkRegion (setLeader t c true q { l with kill := false }) c (BitVec.ofNat 64 (fieldOf r 32 8)) = .ok chain)
    {home slot : Nat} {rest : List Nat} (hh : (r.getD 1 0#8).toNat % 2 = home) (hlost : isLost s home = false)
    (hg : grantable s home 1 = slot :: rest) :
    Completes (.taskRecordTake c q) s fun v =>
      let f := frtOf v home slot
      f.state = 1#2 ∧ f.ctag = c ∧ f.entry = BitVec.ofNat 64 (fieldOf r 8 8) ∧ f.argp = BitVec.ofNat 64 (fieldOf r 16 8) ∧
      f.resa = BitVec.ofNat 64 (fieldOf r 48 8) ∧ (dieOf v home).tasks = (dieOf s home).tasks ++ [.task slot] ∧
      leaderOf (ctxOf v c) true q = some { l with kill := false } := by
  have hheld : taskHeld s c r (descHead b) = false := by
    simp only [taskHeld, recordHome_eq, hh, hg, List.isEmpty_cons, Bool.and_false]
  have hdies : (setLeader t c true q { l with kill := false }).dies = s.dies := (setLeader_dies ..).trans (memoryOnly_ctxWrite hw).dies
  obtain ⟨⟨h1, h2, h3, h4, h5⟩, htasks, hqueues⟩ := takeTask_takes hok hck hh (by rw [isLost, dieOf, hdies]; exact hlost)
    ((grantable_congr hdies home 1).trans hg)
  refine ⟨_, taskRecordTake_taken hc hk hr hheld hw, h1, h2, h3, h4, h5, ?_, ?_⟩
  · rw [htasks, dieOf, hdies]
    rfl
  · rw [leaderOf, hqueues]
    exact leaderOf_setLeader ..

end

/-! ### Records that come by the fabric (R203) -/

/-- QUEUE_REPLY, as FABRIC_ENQUEUE sends it. -/
def queueReply (s : State) (stale full : Bool) : State := { s with packets := s.packets ++ [.queueReply stale full] }

/-- The parts of a queue handle (Table 7.3). -/
theorem handle_parts (h : DWord) : bitsAt h.toNat 0 16 = h.toNat % 65536 ∧ bitsAt h.toNat 29 12 = h.toNat / 2 ^ 29 % 4096 ∧
    bitsAt h.toNat 41 23 = h.toNat / 2 ^ 41 ∧ bitsAt h.toNat 17 12 = h.toNat / 2 ^ 17 % 4096 := by
  have := h.isLt
  simp only [bitsAt_eq]
  omega

section
variable {s : State} {k qn : Nat} {qt : Bool} {b r : List Byte}

/-- A ring that is open takes the record. -/
theorem placeRecord_ring {t : State} (ho : isResident s k = true ∧ descOvflc b = 0 ∧ ringRoom b = true) (ht : ringAppend s k qt qn b r = some t) :
    placeRecord s k qt qn b r = some t := by simp [placeRecord, ho, ht]

/-- A record that finds no place in the ring goes to the overflow area. -/
theorem placeRecord_overflow (h : ¬(isResident s k = true ∧ descOvflc b = 0 ∧ ringRoom b = true) ∨ ringAppend s k qt qn b r = none) :
    placeRecord s k qt qn b r = overflowAppend s k qt qn b r := by
  have hn : (if isResident s k && descOvflc b == 0 && ringRoom b then ringAppend s k qt qn b r else none) = none := by
    obtain h | h := h
    · exact if_neg (by simpa [and_assoc] using h)
    · rw [h, ite_self]
  rw [placeRecord, hn]

theorem overflowAppend_full (h : descOvfl b = 0 ∨ fieldOf b 48 2 ≤ descOvflc b) : overflowAppend s k qt qn b r = none :=
  if_pos (by simpa using h)

end

section
variable (s : State) (h : DWord) (bytes : List Byte)

theorem fabricEnqueue_noContext (hk : lookup s.contexts (h.toNat / 2 ^ 29 % 4096) = none) :
    exec (.fabricEnqueue h bytes) s = .next (queueReply s true false) := by
  obtain ⟨-, hctx, -, -⟩ := handle_parts h
  show execFabricEnqueue h bytes s = _
  simp only [execFabricEnqueue, hctx, hk]
  rfl

variable {y : Context} (hk : lookup s.contexts (h.toNat / 2 ^ 29 % 4096) = some y)
include hk

theorem fabricEnqueue_unread (hd : readDesc s (h.toNat / 2 ^ 29 % 4096) (h.getLsbD 16) (h.toNat % 65536) = none) :
    exec (.fabricEnqueue h bytes) s = .next (queueReply
      (if h.toNat / 2 ^ 41 = 0 ∧ descLost s (h.toNat / 2 ^ 29 % 4096) (h.getLsbD 16) (h.toNat % 65536) = true then
        killContext s (h.toNat / 2 ^ 29 % 4096) else s) true false) := by
  obtain ⟨hq, hctx, htop, -⟩ := handle_parts h
  show execFabricEnqueue h bytes s = _
  simp only [execFabricEnqueue, hctx, hk, hq, hd, htop, killIfLost, Bool.and_eq_true, beq_iff_eq]
  rfl

variable {b : List Byte} (hd : readDesc s (h.toNat / 2 ^ 29 % 4096) (h.getLsbD 16) (h.toNat % 65536) = some b)
include hd

theorem fabricEnqueue_stale (hst : h.toNat / 2 ^ 41 ≠ 0 ∨ fieldOf b 10 2 ≠ h.toNat / 2 ^ 17 % 4096 ∨ descEn b = false) :
    exec (.fabricEnqueue h bytes) s = .next (queueReply s true false) := by
  obtain ⟨hq, hctx, htop, hgen⟩ := handle_parts h
  have hc : (decide (h.toNat / 2 ^ 41 ≠ 0) || decide (fieldOf b 10 2 ≠ h.toNat / 2 ^ 17 % 4096) || !descEn b) = true := by
    simpa [or_assoc] using hst
  show execFabricEnqueue h bytes s = _
  simp only [execFabricEnqueue, hctx, hk, hq, hd, htop, hgen, hc, if_true]
  rfl

/-- R203: a record under a handle that stands. -/
theorem fabricEnqueue_places (htop0 : h.toNat / 2 ^ 41 = 0) (hgen0 : fieldOf b 10 2 = h.toNat / 2 ^ 17 % 4096) (he : descEn b = true) :
    exec (.fabricEnqueue h bytes) s =
      .next (match placeRecord s (h.toNat / 2 ^ 29 % 4096) (h.getLsbD 16) (h.toNat % 65536) b (sliceBytes bytes 0 64) with
        | some t => queueReply t false false
        | none => queueReply s false true) := by
  obtain ⟨hq, hctx, htop, hgen⟩ := handle_parts h
  have hc : (decide (h.toNat / 2 ^ 41 ≠ 0) || decide (fieldOf b 10 2 ≠ h.toNat / 2 ^ 17 % 4096) || !descEn b) = false := by
    simp only [htop0, hgen0, he, ne_eq, not_true, decide_false, Bool.not_true, Bool.or_false]
  show execFabricEnqueue h bytes s = _
  simp only [execFabricEnqueue, hctx, hk, hq, hd, htop, hgen, hc, Bool.false_eq_true, if_false] <;> rfl

end

/-! ### Writes into a ring and its overflow area (R203) -/

section
variable {s : State} {c q va n : Nat} {qt : Bool} {b r : List Byte} {p : Place}

/-- Where a record goes, and the field of the descriptor that counts it. -/
theorem ctxRecord_counted (hlen : r.length = 64) (hva : va % 64 = 0) (hd : descAddr (ctxOf s c) qt q % 64 = 0) (hs : s.snaps = [])
    (hp : translate s (.die 0) c va 1 false = .ok p) (hl : p.loc ≠ 2) (hk : UnderKey s p.kid p.key 64) :
    ∃ m, ctxWrite s c va r false = some m ∧ ctxRecord s c va r = m ∧ Written s m p.key r ∧ ctxOf m c = ctxOf s c ∧
      ∀ {off : Nat} {x : List Byte} {z : Place}, 0 < x.length → off + x.length ≤ 64 →
        translate m (.die 0) c (descAddr (ctxOf s c) qt q + off) 1 false = .ok z → z.loc ≠ 2 → UnderKey m z.kid z.key x.length →
        ∃ t, ctxWrite m c (descAddr (ctxOf m c) qt q + off) x false = some t ∧ Written m t z.key x := by
  obtain ⟨m, hm, ho, hw⟩ := ctxWrite_writes (l := r) hs (by omega) (by omega) hp hl (by rwa [hlen])
  refine ⟨m, hm, by rw [ctxRecord, hm]; rfl, hw, ho.ctxOf c, fun h0 h64 hz hzl hzk => ?_⟩
  rw [ho.ctxOf]
  obtain ⟨t, ht, -, hwt⟩ := ctxWrite_writes (ho.snaps.trans hs) h0 (by omega) hz hzl hzk
  exact ⟨t, ht, hwt⟩

end

/-- R203: a record is written at its place, and then TAIL, or OVFLC. -/
theorem record_appended {s : State} {c q va cnt v n : Nat} {qt : Bool} {b r : List Byte} {p : Place} (hlen : r.length = 64) (hva : va % 64 = 0)
    (hd : descAddr (ctxOf s c) qt q % 64 = 0) (hs : s.snaps = [])
    (hplace : (va = (recordAddr b (descTail b)).toNat ∧ cnt = descAddr (ctxOf s c) qt q + 16 ∧ v = (descTail b + 1) % 2 ^ 32 ∧ n = 4) ∨
      (descOvfl b ≠ 0 ∧ descOvflc b < fieldOf b 48 2 ∧ va = descOvfl b + 64 * descOvflc b ∧ cnt = descAddr (ctxOf s c) qt q + 50 ∧
        v = descOvflc b + 1 ∧ n = 2))
    (hp : translate s (.die 0) c va 1 false = .ok p) (hl : p.loc ≠ 2) (hk : UnderKey s p.kid p.key 64) :
    let m := ctxRecord s c va r
    Written s m p.key r ∧ ∀ z, translate m (.die 0) c cnt 1 false = .ok z → z.loc ≠ 2 → UnderKey m z.kid z.key n →
      ∃ t, Written m t z.key (bytesOf n v) ∧ (if n = 4 then ringAppend s c qt q b r = some t else overflowAppend s c qt q b r = some t) := by
  obtain ⟨m, hm, hrec, hw, -, hcount⟩ := ctxRecord_counted hlen hva hd hs hp hl hk
  dsimp only
  rw [hrec]
  refine ⟨hw, fun z hz hzl hzk => ?_⟩
  obtain ⟨rfl, rfl, rfl, rfl⟩ | ⟨h0, hroom, rfl, rfl, rfl, rfl⟩ := hplace
  · obtain ⟨t, ht, hwt⟩ := hcount (x := bytesOf 4 ((descTail b + 1) % 2 ^ 32)) (by simp) (by simp) hz hzl (by simpa using hzk)
    refine ⟨t, hwt, ?_⟩
    rw [if_pos rfl, ringAppend, hm]
    exact ht
  · obtain ⟨t, ht, hwt⟩ := hcount (x := bytesOf 2 (descOvflc b + 1)) (by simp) (by simp) hz hzl (by simpa using hzk)
    refine ⟨t, hwt, ?_⟩
    rw [if_neg (by decide), overflowAppend, if_neg (by simp [h0, hroom]), hm]
    exact ht

theorem canOverflow_iff {s : State} {c q : Nat} {qt : Bool} (b : List Byte) : canOverflow s c qt q = some b ↔
    readDesc s c qt q = some b ∧ 0 < descOvflc b ∧ ringRoom b = true ∧ isResident s c = true := by
  simp [canOverflow, Option.filter_eq_some_iff, and_assoc]

section
variable {s : State} {c q : Nat} {qt : Bool} {b l : List Byte} (hc : canOverflow s c qt q = some b)
  (hr : ctxRead s c (descOvfl b) (64 * descOvflc b) = some l)
include hc hr

theorem overflowMove_moves {t u v : State} (ht : ringAppend s c qt q b (l.take 64) = some t) (hu : ctxWrite t c (descOvfl b) (l.drop 64) false = some u)
    (hv : ctxWrite u c (descAddr (ctxOf u c) qt q + 50) (bytesOf 2 (descOvflc b - 1)) false = some v) : exec (.overflowMove c qt q) s = .next v := by
  show execOverflowMove c qt q s = _
  simp only [execOverflowMove, hc, hr, ht, hu, hv, Option.bind_some, Option.getD_some]

/-- A move of which a place cannot be written moves nothing (log 68). -/
theorem overflowMove_stays (h : ringAppend s c qt q b (l.take 64) = none ∨
      ∀ t, ringAppend s c qt q b (l.take 64) = some t → ctxWrite t c (descOvfl b) (l.drop 64) false = none) :
    exec (.overflowMove c qt q) s = .next s := by
  have hn : ((ringAppend s c qt q b (l.take 64)).bind fun t => ctxWrite t c (descOvfl b) (l.drop 64) false) = none := by
    obtain h | h := h
    · rw [h, Option.bind_none]
    · exact Option.bind_eq_none_iff.2 h
  show execOverflowMove c qt q s = _
  simp only [execOverflowMove, hc, hr, hn, Option.bind_none, Option.getD_none]

end

/-! ### Moves of leadership (R200) -/

/-- A launch that passes to another die, where that has room. -/
def passLaunch (die : Nat) (s : State) (k : Nat) : State :=
  match lookup s.launches k with
  | none => s
  | some x => if x.die = die || !tableRoom s die then s else { s with launches := put s.launches k { x with die, tslot := freeTslot s die } }

theorem put_length {α : Type} {m : AMap α} {k : Nat} {a x : α} (h : lookup m k = some x) : (put m k a).length = m.length := by
  induction m with
  | nil => cases h
  | cons e t ih =>
    obtain ⟨j, y⟩ := e
    rw [lookup] at h
    rw [put]
    split
    · rfl
    · next hj => rw [List.length_cons, ih (by rwa [if_neg hj] at h), List.length_cons]

section
variable {s : State} {die k : Nat} {x : Launch}

theorem passLaunch_contexts (j : Nat) : (passLaunch die s j).contexts = s.contexts := by
  unfold passLaunch
  split
  · rfl
  · split <;> rfl

theorem passLaunch_length (j : Nat) : (passLaunch die s j).launches.length = s.launches.length := by
  unfold passLaunch
  split
  · rfl
  · next h =>
    split
    · rfl
    · exact put_length h

theorem passLaunch_ne {j : Nat} (h : k ≠ j) : lookup (passLaunch die s j).launches k = lookup s.launches k := by
  unfold passLaunch
  split
  · rfl
  · split
    · rfl
    · exact lookup_put_ne _ _ h

/-- Where all launches find room in one table, each that is to pass does. -/
theorem passLaunch_passes (hroom : s.launches.length ≤ Config.launchTableEntries) (h : lookup s.launches k = some x) :
    ∃ i, lookup (passLaunch die s k).launches k = some { x with die, tslot := i } := by
  unfold passLaunch
  simp only [h]
  by_cases hd : x.die = die
  · subst hd
    exact ⟨x.tslot, by simp [h]⟩
  · have hlt : launchCount s die < s.launches.length :=
      List.length_filter_lt_length_iff_exists.2 ⟨(k, x), lookup_mem h, by simpa using hd⟩
    have htable : tableRoom s die = true := by
      rw [tableRoom, decide_eq_true_eq]
      omega
    exact ⟨freeTslot s die, by simp [hd, htable]⟩

/-- A launch that is to pass has passed once its turn has come. -/
theorem passLaunch_foldl {l : List Nat} (hroom : s.launches.length ≤ Config.launchTableEntries)
    (h : (k ∈ l ∧ lookup s.launches k = some x) ∨ ∃ i, lookup s.launches k = some { x with die, tslot := i }) :
    ∃ i, lookup (l.foldl (passLaunch die) s).launches k = some { x with die, tslot := i } := by
  induction l generalizing s with
  | nil =>
    obtain ⟨hk, -⟩ | h := h
    · cases hk
    · exact h
  | cons j t ih =>
    refine ih (by rw [passLaunch_length]; exact hroom) ?_
    by_cases hj : k = j
    · subst hj
      obtain ⟨-, h⟩ | ⟨i, h⟩ := h
      · exact .inr (passLaunch_passes hroom h)
      · obtain ⟨i', h'⟩ := passLaunch_passes (die := die) hroom h
        exact .inr ⟨i', h'⟩
    · rw [passLaunch_ne hj]
      exact h.imp_left fun ⟨hk, hx⟩ => ⟨(List.mem_cons.1 hk).resolve_left hj, hx⟩

end

/-- Launches of a queue with no group bound pass to the die that leads it now (R205). -/
theorem passLaunches_passes {s : State} {c die : Nat} {e : Bool × Nat} (hroom : s.launches.length ≤ Config.launchTableEntries) {k : Nat} {x : Launch}
    (h : lookup s.launches k = some x) (hc : x.ctag = c) (hq : x.queue = some e) (hn : x.next = 0) :
    ∃ i, lookup (passLaunches s c e die).launches k = some { x with die, tslot := i } :=
  passLaunch_foldl hroom (.inl ⟨List.mem_map.2 ⟨_, List.mem_filter.2 ⟨lookup_mem h, by simp [hc, hq, hn]⟩, rfl⟩, h⟩)

theorem passLaunches_contexts (s : State) (c die : Nat) (e : Bool × Nat) : (passLaunches s c e die).contexts = s.contexts :=
  foldl_keeps State.contexts (passLaunch die) (fun _ => passLaunch_contexts) _ _

section
variable {s : State} {c q : Nat} {qt : Bool} {l : Leader} (hl : leaderOf (ctxOf s c) qt q = some l) (hst : l.state = .moving)
include hl hst

/-- A queue that moves and whose descriptor cannot be read stays, but for lost memory (R388). -/
theorem leadershipMove_unread (hd : readDesc s c qt q = none) :
    exec (.leadershipMove c qt q) s = .next (if descLost s c qt q = true then killContext s c else s) := by
  show execLeadershipMove c qt q s = _
  simp only [execLeadershipMove, hl, hd, hst, BEq.rfl, Bool.true_and, killIfLost]

variable {b : List Byte} (hd : readDesc s c qt q = some b) (he : descEn b = true)
include hd he

/-- R200: where TAKE can be written, the other die leads under the next epoch, or hands the queue back. -/
theorem exec_leadershipMove {st : LState} (hst' : (if isOnline s (1 - l.die) = false ∧ isOnline s l.die = true then LState.moving else .led) = st) :
    let n : Leader := { l with state := st, die := 1 - l.die, epoch := (l.epoch + 1) % 65536 }
    exec (.leadershipMove c qt q) s = .next (match writeTake s c qt q (descHead b) n with
      | none => s
      | some t =>
        let t := passLaunches (setLeader t c qt q n) c (qt, q) (1 - l.die)
        postEvent t (1 + l.die) 2
          ([BitVec.ofNat 8 ((ctxOf t c).ctx.getD 0xFF), BitVec.ofNat 8 (1 - l.die)] ++ bytesOf 2 q ++ [if qt then 1#8 else 0#8])) := by
  have hmove : (l.state != LState.moving) = false := by rw [hst]; rfl
  have hidle : st ≠ .idle := by
    rw [← hst']
    split <;> decide
  have hstate : (if (!descEn b) = true then LState.idle else
      if (!isOnline s (1 - l.die) && isOnline s l.die) = true then LState.moving else .led) = st := by
    rw [he, ← hst']
    simp
  show execLeadershipMove c qt q s = _
  simp only [execLeadershipMove, hl, hd, hmove, hstate, hidle, Bool.false_eq_true, if_false] <;> rfl

/-- R200, R205: leadership moves with the launches that have not begun. -/
theorem leadershipMove_moves {st : LState} (hst' : (if isOnline s (1 - l.die) = false ∧ isOnline s l.die = true then LState.moving else .led) = st) :
    let n : Leader := { l with state := st, die := 1 - l.die, epoch := (l.epoch + 1) % 65536 }
    (writeTake s c qt q (descHead b) n = none → exec (.leadershipMove c qt q) s = .next s) ∧
    (writeTake s c qt q (descHead b) n ≠ none → Completes (.leadershipMove c qt q) s fun t => leaderOf (ctxOf t c) qt q = some n ∧
      (s.launches.length ≤ Config.launchTableEntries → ∀ k x, lookup s.launches k = some x → x.ctag = c → x.queue = some (qt, q) → x.next = 0 →
        ∃ i, lookup t.launches k = some { x with die := 1 - l.die, tslot := i })) := by
  intro n
  have hx := exec_leadershipMove hl hst hd he hst'
  refine ⟨fun hn => ?_, fun hn => ?_⟩
  · rw [hx]
    dsimp only
    rw [hn]
  · obtain ⟨t, ht⟩ := Option.ne_none_iff_exists'.1 hn
    have hlaunches : (setLeader t c qt q n).launches = s.launches := (setLeader_launches ..).trans (memoryOnly_ctxWrite ht).launches
    dsimp only at hx
    rw [ht] at hx
    set m := passLaunches (setLeader t c qt q n) c (qt, q) (1 - l.die) with hm
    have hp := keepsQueues_postEvent m (1 + l.die) 2
      ([BitVec.ofNat 8 ((ctxOf m c).ctx.getD 0xFF), BitVec.ofNat 8 (1 - l.die)] ++ bytesOf 2 q ++ [if qt then 1#8 else 0#8])
    refine ⟨_, hx, ?_, fun hroom k x hk hc hq hn0 => ?_⟩
    · rw [hp.ctxOf, hm, ctxOf, passLaunches_contexts]
      exact leaderOf_setLeader ..
    · rw [hp.2]
      exact passLaunches_passes (by rw [hlaunches]; exact hroom) (by rw [hlaunches]; exact hk) hc hq hn0

end

/-- R200: on a die whose throttle level has stayed too high, a queue starts to move. -/
theorem leaderThrottleTimeout_moves {s : State} {c q : Nat} {qt : Bool} {k : Context} {l : Leader} (hc : s.contexts = [(c, k)])
    (hq : k.queues = [(qt, q, l)]) (hst : l.state = .led) (hd : l.die = 0) (hdue : throttleDue s 0 = true) :
    Completes .leaderThrottleTimeout s fun t => leaderOf (ctxOf t c) qt q = some { l with state := .moving } := by
  have hon : isOnline s (1 - 0) = true := by
    simp only [throttleDue, Bool.and_eq_true] at hdue
    exact hdue.1.2
  have hmove : moveFrom s 0 = setLeader s c qt q { l with state := .moving } := by
    simp [moveFrom, hon, hc, hq, hst, hd]
  refine ⟨_, ?_, leaderOf_setLeader s c qt q _⟩
  show execLeaderThrottleTimeout s = _
  rw [execLeaderThrottleTimeout, List.find?_cons, hdue, ← hmove]

/-! ### Queues that start and stop (R192, R200) -/

section
variable {s : State} {c q : Nat} {qt : Bool} {b : List Byte} (hd : readDesc s c qt q = some b)
include hd

/-- A descriptor whose flags have been written with EN. -/
def enWritten (s : State) (c : Nat) (qt : Bool) (q : Nat) (b : List Byte) (en : Bool) : State :=
  ctxRecord s c (descAddr (ctxOf s c) qt q + 9) [(b.getD 9 0#8 &&& 0xFE#8) ||| (if en then 1#8 else 0#8)]

theorem exec_enWrite (en : Bool) : exec (.queueDescriptorEnWrite c qt q en) s = .next (
    let m := enWritten s c qt q b en
    let old := (leaderOf (ctxOf s c) qt q).getD ⟨.idle, 0, 0, none, false⟩
    if en then serveQueue (if old.state == .idle then setLeader m c qt q old else m) c qt q
    else if old.state == .moving then m
    else serveIdle (setLeader m c qt q { old with state := .idle })) := by
  have hctx : ∀ va x, ctxOf (ctxRecord s c va x) c = ctxOf s c := fun _ _ => (memoryOnly_ctxRecord ..).ctxOf c
  show execQueueDescriptorEnWrite c qt q en s = _
  simp only [execQueueDescriptorEnWrite, hd, hctx, enWritten]

theorem enWrite_starts (hl : leaderOf (ctxOf s c) qt q = none) : exec (.queueDescriptorEnWrite c qt q true) s =
    .next (serveQueue (setLeader (enWritten s c qt q b true) c qt q ⟨.idle, 0, 0, none, false⟩) c qt q) := by
  rw [exec_enWrite hd, hl]
  rfl

theorem enWrite_stops {l : Leader} (hl : leaderOf (ctxOf s c) qt q = some l) : exec (.queueDescriptorEnWrite c qt q false) s =
    .next (if l.state = .moving then enWritten s c qt q b false else
      serveIdle (setLeader (enWritten s c qt q b false) c qt q { l with state := .idle })) := by
  rw [exec_enWrite hd, hl]
  simp only [Option.getD_some, Bool.false_eq_true, if_false, beq_iff_eq]

variable {l : Leader} (he : descEn b = true) (hr : isResident s c = true) (hl : leaderOf (ctxOf s c) qt q = some l)
  (hst : l.state = .idle ∨ l.state = .held)
include he hr hl hst

/-- What a queue that is not served yet comes to. -/
theorem serveQueue_serves {d : Nat} (hok : descOk b = true) (hcap : ledCount s qt < queueCapacity qt) (hdie : chooseLeader s (fieldOf b 12 1) = some d)
    (hw : writeTake s c qt q (descHead b) { l with state := .led, die := d, epoch := descEpoch b } ≠ none) :
    leaderOf (ctxOf (serveQueue s c qt q) c) qt q = some { l with state := .led, die := d, epoch := descEpoch b } := by
  obtain ⟨t, ht⟩ := Option.ne_none_iff_exists'.1 hw
  have hs : serveQueue s c qt q = setLeader t c qt q { l with state := .led, die := d, epoch := descEpoch b } := by
    obtain h | h := hst <;> simp [serveQueue, hd, he, hr, hl, h, hok, Nat.not_le.2 hcap, hdie, ht]
  rw [hs, leaderOf_setLeader]

theorem serveQueue_bad (hok : descOk b = false) : leaderOf (ctxOf (serveQueue s c qt q) c) qt q = some { l with state := .bad } := by
  have hs : serveQueue s c qt q = setLeader s c qt q { l with state := .bad } := by
    obtain h | h := hst <;> simp [serveQueue, hd, he, hr, hl, h, hok]
  rw [hs, leaderOf_setLeader]

end

/-! ### Fired entries (R205, R210) -/

section
variable {s : State} {c die : Nat} {f : Nat × Nat × Nat}

/-- A fired entry that leaves the list, with the LAUNCHID that its record uses up. -/
theorem skipLaunch_dropFired : skipLaunch (dropFired s c f) c = setCtx s c { ctxOf s c with
    fired := (ctxOf s c).fired.erase f, firedWait := (ctxOf s c).firedWait.filter fun e => e.1 != f.2.2
    nextLaunch := nextId (ctxOf s c).nextLaunch } := by
  rw [skipLaunch, dropFired, ctxOf_setCtx]
  exact congrArg (fun m => { s with contexts := m }) (put_put ..)

/-- What the context keeps of an entry that has been taken. -/
def EntryTaken (s : State) (c : Nat) (f : Nat × Nat × Nat) (t : State) : Prop :=
  (ctxOf t c).fired = (ctxOf s c).fired.erase f ∧ (ctxOf t c).nextLaunch = nextId (ctxOf s c).nextLaunch

theorem entryTaken_of_keeps {t : State} (h : KeepsQueues (skipLaunch (dropFired s c f) c) t) : EntryTaken s c f t ∧ t.launches = s.launches := by
  refine ⟨?_, h.2⟩
  rw [EntryTaken, h.ctxOf, skipLaunch_dropFired, ctxOf_setCtx]
  exact ⟨rfl, rfl⟩

variable (hf : firedWaits s die = some (c, f)) (hon : isOnline s die = true) (htab : tableRoom s die = true)
include hf hon htab

/-- An entry whose fault was answered with KILL is refused unread. -/
theorem firedEntryTake_killed (hw : (ctxOf s c).firedWait = [(f.2.2, none)]) :
    Completes (.firedEntryTake die) s fun t => EntryTaken s c f t ∧ t.launches = s.launches := by
  have hx : exec (.firedEntryTake die) s = .next (refuseFired s c f) := by
    show execFiredEntryTake die s = _
    simp [execFiredEntryTake, hf, hon, htab, hw]
  exact ⟨_, hx, entryTaken_of_keeps (keepsQueues_freeEntry ..)⟩

variable {b : List Byte} (hw : ∀ e ∈ (ctxOf s c).firedWait, e.1 ≠ f.2.2)
  (hr : readRecord s c die (BitVec.ofNat 64 (depAddr s c f.2.2)) = .ok b)
include hw hr

theorem firedEntryTake_read :
    exec (.firedEntryTake die) s = .next (takeLaunch (dropFired s c f) c die b none f.2.2 (some f.2.2) false) := by
  have hnone : ((ctxOf s c).firedWait.any fun e => e.1 == f.2.2) = false := by simpa using hw
  show execFiredEntryTake die s = _
  simp only [execFiredEntryTake, hf, hon, htab, hnone, hr, Bool.and_self, Bool.not_true, Bool.false_eq_true, if_false]

theorem firedEntryTake_launches {chain : List (Nat × List Byte)} (hck : checkLaunchRecord (skipLaunch (dropFired s c f) c) c b none = .ok chain) :
    Completes (.firedEntryTake die) s fun t => EntryTaken s c f t ∧
      lookup t.launches s.uid = some { launchFrom c die (ctxOf s c).nextLaunch b none f.2.2 (some f.2.2) false with tslot := freeTslot s die } := by
  obtain ⟨hlaunch, ⟨r, hx⟩, -⟩ := takeLaunch_launches (dropFired s c f) c die b none f.2.2 (some f.2.2) false hck
  have hid : (ctxOf (dropFired s c f) c).nextLaunch = (ctxOf s c).nextLaunch := by rw [dropFired, ctxOf_setCtx]
  rw [hid] at hlaunch
  refine ⟨_, firedEntryTake_read hf hon htab hw hr, ?_, hlaunch⟩
  rw [EntryTaken, hx, skipLaunch_dropFired, ctxOf_setCtx]
  exact ⟨rfl, rfl⟩

theorem firedEntryTake_refuses {e : LaunchStatus} (hck : checkLaunchRecord (skipLaunch (dropFired s c f) c) c b none = .error e)
    (hl : e = 2 → recordLost (skipLaunch (dropFired s c f) c) c b = false) :
    Completes (.firedEntryTake die) s fun t => EntryTaken s c f t ∧ t.launches = s.launches := by
  have ht := takeLaunch_refuses (dropFired s c f) c die b none f.2.2 (some f.2.2) false hck
  have hk : (e == 2 && recordLost (skipLaunch (dropFired s c f) c) c b) = false := by
    by_cases he : e = 2
    · rw [hl he, Bool.and_false]
    · rw [beq_false_of_ne he, Bool.false_and]
  rw [hk, killIfLost, if_neg Bool.false_ne_true] at ht
  have hx := firedEntryTake_read hf hon htab hw hr
  rw [ht] at hx
  exact ⟨_, hx, entryTaken_of_keeps ((keepsQueues_writeCompletion ..).trans (keepsQueues_freeEntry ..))⟩

end

/-- Settles O48: takes by what is read of their record, enqueues by where the record goes, moves by the TAKE that they write, fired entries as records are. -/
theorem queues : Obligations.Queues := by
  unfold Obligations.Queues
  intro s c q
  refine ⟨fun hc ha => congrArg _ (takeNext_idle hc ha), fun b l hc => ?record, fun b l r hc hk hr => ?task, fun h bytes => ?fabric, fun qt => ?queue⟩
  case record =>
    refine ⟨fun p hs hd hp hl hk => writeTake_writes (canTake_led hc) hs hd hp hl hk, fun hw hr => congrArg _ (takeNext_unwritable hc hw hr),
      fun nw hk hr => ⟨_, rfl, takeNext_faults hc hk hr⟩, fun h hw => ?_⟩
    intro n m
    have hm : m = skipLaunch n c := (skipLaunch_taken hw _).symm
    clear_value m
    subst hm
    exact ⟨recordTake_killed hc hw, fun r hk hr => recordTake_unread hc hw hk hr, fun r hk hr =>
      ⟨fun chain hck => recordTake_launches hc hw hk hr hck, fun e hck => recordTake_refuses hc hw hk hr hck⟩⟩
  case task =>
    intro home
    refine ⟨fun k hok hck hlost hg => taskRecordTake_held hc hk hr ?_, fun h hw => ⟨fun hok => ?_, fun e hheld hok hck hl => ?_,
      fun chain slot rest hok hck hlost hg => taskRecordTake_takes hc hk hr hw hok hck rfl hlost hg⟩⟩
    · rw [taskHeld, hok, hck, recordHome_eq, show isLost s ((r.getD 1 0#8).toNat % 2) = false from hlost,
        show grantable s ((r.getD 1 0#8).toNat % 2) 1 = [] from hg]
      rfl
    · rw [taskRecordTake_taken hc hk hr (by simp [taskHeld, hok]) hw, takeTask_illFormed hok]
    · rw [taskRecordTake_taken hc hk hr hheld hw, takeTask_noRegion hok hck hl]
  case fabric =>
    refine ⟨fabricEnqueue_noContext s h bytes, fun y hk hd => fabricEnqueue_unread s h bytes hk hd, fun y b hk hd =>
      ⟨fabricEnqueue_stale s h bytes hk hd, fun htop hgen he => ?_⟩⟩
    have hx := fabricEnqueue_places s h bytes hk hd htop hgen he
    refine ⟨fun t ho ht => ?_, fun ho => ⟨fun t ht => ?_, fun ht => ?_⟩, overflowAppend_full⟩
    · rw [hx, placeRecord_ring ho ht]
      rfl
    · rw [hx, placeRecord_overflow ho, ht]
      rfl
    · rw [hx, placeRecord_overflow ho, ht]
      rfl
  case queue =>
    refine ⟨fun b r va cnt v n p => ?_, fun b l hl hd hr he => ?_, fun b l hc hr => ?_, canOverflow_iff, fun l hl hd hst => leadershipMove_unread hl hst hd,
      fun b l hl hd hst he => ?_, fun k l hc hq hst hd hdue => leaderThrottleTimeout_moves hc hq hst hd hdue, fun b en hd => ?_, fun b l d hd he hr hl hst => ?_,
      fun die f hf hon htab => ?_⟩
    · exact fun hlen hva hd hs hplace hp hl hk => record_appended hlen hva hd hs hplace hp hl hk
    · cases qt <;> exact ⟨fun hst hok => congrArg _ (takeNext_bad hl hd hr he hst hok), fun hst hok => congrArg _ (takeNext_mended hl hd hr he hst hok)⟩
    · exact ⟨fun t u v ht hu hv => overflowMove_moves hc hr ht hu hv, overflowMove_stays hc hr⟩
    · intro back st wt
      obtain ⟨hstays, hmoves⟩ := leadershipMove_moves hl hst hd he (st := st) rfl
      refine ⟨hstays, fun hw => ?_⟩
      obtain ⟨t, hx, hlead, hlaunch⟩ := hmoves hw
      refine ⟨t, hx, fun hb => ?_, fun hb => ?_, hlaunch⟩
      · rw [hlead, show st = .led from if_neg hb]
      · rw [hlead, show st = .moving from if_pos hb]
    · refine ⟨fun hen hl => ?_, fun hen l hl => ⟨fun hst => ?_, fun hst => ?_⟩⟩ <;> subst hen
      · exact enWrite_starts hd hl
      · rw [enWrite_stops hd hl, if_pos hst]
        rfl
      · rw [enWrite_stops hd hl, if_neg hst]
        rfl
    · exact ⟨serveQueue_serves hd he hr hl hst, serveQueue_bad hd he hr hl hst⟩
    · intro id taken m
      have hm : m = skipLaunch (dropFired s c f) c := skipLaunch_dropFired.symm
      clear_value m
      subst hm
      exact ⟨firedEntryTake_killed hf hon htab, fun b hw hr =>
        ⟨fun chain hck => firedEntryTake_launches hf hon htab hw hr hck, fun e hck hl => firedEntryTake_refuses hf hon htab hw hr hck hl⟩⟩

end Sys2Proof

/-! SUPPORT. Control threads hold word addresses (R212): what the end of a step does after it has aligned PC, BT and LT keeps them aligned, one lemma for each
operation, and the statement about a step. -/
namespace Sys2Proof
open Machine

/-! ### Waves -/

/-- PC, BT and LT of a wave are word addresses. -/
def WordAligned (w : Wave) : Prop := w.pc.toNat % 4 = 0 ∧ w.bt.toNat % 4 = 0 ∧ w.lt.toNat % 4 = 0

/-- Only the control thread's addresses matter. -/
protected theorem WordAligned.same {w x : Wave} (h : WordAligned w) (hpc : x.pc = w.pc) (hbt : x.bt = w.bt) (hlt : x.lt = w.lt) : WordAligned x := by
  rwa [WordAligned, hpc, hbt, hlt]

/-- Clearing bits [1:0] leaves a word address. -/
theorem clearLow_mod (x : DWord) : (x &&& ~~~3#64).toNat % 4 = 0 := by
  have : (x &&& ~~~3#64).extractLsb' 0 2 = 0#2 := by ext i hi; interval_cases i <;> simp
  have h := congrArg BitVec.toNat this
  simpa using h

theorem wordAligned_alignControl (w : Wave) : WordAligned (alignControl w) := ⟨clearLow_mod _, clearLow_mod _, clearLow_mod _⟩

theorem add_mod_word {x y : DWord} (hx : x.toNat % 4 = 0) (hy : y.toNat % 4 = 0) : (x + y).toNat % 4 = 0 := by
  rw [BitVec.toNat_add]
  omega

protected theorem WordAligned.next {w : Wave} (h : WordAligned w) (nx : BitVec 2) : WordAligned (w.next nx) := by
  obtain ⟨hpc, hbt, hlt⟩ := h
  have hseq : (w.pc + 4#64).toNat % 4 = 0 := add_mod_word hpc rfl
  unfold Wave.next
  split
  · exact ⟨hseq, hbt, hlt⟩
  · exact ⟨by dsimp only; split_ifs <;> assumption, hbt, hlt⟩
  · exact ⟨by dsimp only; split_ifs <;> assumption, hbt, hlt⟩
  · exact ⟨hbt, hbt, hlt⟩

protected theorem WordAligned.complete {w : Wave} (h : WordAligned w) (kind : Byte) (val : Nat) : WordAligned (w.complete kind val) := h

protected theorem WordAligned.finish {w : Wave} (h : WordAligned w) (nx : BitVec 2) : WordAligned (w.finish nx) := (h.next nx).complete _ _

/-- A wave that goes on after its park (R217). -/
protected theorem WordAligned.resume {w : Wave} (h : WordAligned w) (st : Status) (nx : BitVec 2) : WordAligned (Wave.finish { w with status := st } nx) :=
  WordAligned.finish (w := { w with status := st }) h nx

protected theorem WordAligned.setS {w : Wave} (h : WordAligned w) (n : Nat) (x : DWord) : WordAligned (w.setS n x) := by
  unfold Wave.setS
  split <;> exact h

/-- A WAITANY that takes its slot goes on in the dispatch block, whose entries are words (R310). -/
protected theorem WordAligned.takeSlot {w : Wave} (h : WordAligned w) (d a : BitVec 6) (k : Nat) : WordAligned (w.takeSlot d a k) := by
  obtain ⟨-, hbt, hlt⟩ := h.setS d.toNat (BitVec.ofNat 64 k)
  refine ⟨add_mod_word (clearLow_mod _) ?_, hbt, hlt⟩
  rw [BitVec.toNat_ofNat]
  omega

protected theorem WordAligned.settleChoice {w : Wave} (h : WordAligned w) (s : State) (now : Nat) : WordAligned (settleChoice s now w) := by
  unfold settleChoice
  split
  · split
    · split
      · exact h
      · exact h.takeSlot ..
    · exact h
  · exact h

protected theorem WordAligned.gotPart {w : Wave} (h : WordAligned w) (id part : Nat) (b : List Byte) : WordAligned (w.gotPart id part b) := by
  unfold Wave.gotPart
  split
  · exact h
  · extract_lets parts
    split <;> exact h

protected theorem WordAligned.setAtomicDst {w : Wave} (h : WordAligned w) (dst : RegName) (n ty lane old : Nat) :
    WordAligned (w.setAtomicDst dst n ty lane old) := by
  unfold Wave.setAtomicDst
  split
  · exact h.setS ..
  · dsimp only
    split <;> exact h
  · exact h

/-! ### States -/

/-- Every wave of a map holds word addresses. -/
def AllAligned (m : AMap Wave) : Prop := ∀ e ∈ m, WordAligned e.2

/-- Every wave of a state holds word addresses. -/
def Aligned (s : State) : Prop := AllAligned s.waves

namespace AllAligned
variable {m : AMap Wave}

protected theorem lookup (h : AllAligned m) {u : Nat} {w : Wave} (hw : lookup m u = some w) : WordAligned w := h _ (lookup_mem hw)

protected theorem put (h : AllAligned m) (u : Nat) {w : Wave} (hw : WordAligned w) : AllAligned (put m u w) := by
  intro e he
  obtain rfl | he := mem_put he
  · exact hw
  · exact h e he

protected theorem map (h : AllAligned m) {f : Nat × Wave → Nat × Wave} (hf : ∀ e, WordAligned e.2 → WordAligned (f e).2) : AllAligned (m.map f) := by
  intro e he
  obtain ⟨d, hd, rfl⟩ := List.mem_map.1 he
  exact hf d (h d hd)

protected theorem filter (h : AllAligned m) (p : Nat × Wave → Bool) : AllAligned (m.filter p) := fun e he => h e (List.mem_filter.1 he).1

end AllAligned

section
variable {s t : State} {α : Type}

protected theorem Aligned.same (h : Aligned s) (hw : t.waves = s.waves) : Aligned t := by rwa [Aligned, hw]

protected theorem Aligned.ite {c : Prop} {_ : Decidable c} (hs : Aligned s) (ht : Aligned t) : Aligned (if c then s else t) := by
  split
  · exact hs
  · exact ht

protected theorem Aligned.foldl {f : State → α → State} {l : List α} (h : Aligned s) (hf : ∀ t x, Aligned t → Aligned (f t x)) : Aligned (l.foldl f s) :=
  List.foldlRecOn l f h fun t ht x _ => hf t x ht

/-- Writing memory leaves the waves. -/
protected theorem Aligned.memory (h : Aligned s) (hm : MemoryOnly s t) : Aligned t := h.same hm.waves

protected theorem Aligned.onWaveRec (h : Aligned s) {u : Nat} {f : Wave → Wave} (hf : ∀ w, WordAligned w → WordAligned (f w)) :
    Aligned (onWaveRec s u f) := by
  unfold onWaveRec
  split
  · exact h
  next hw => exact AllAligned.put h u (hf _ (AllAligned.lookup h hw))

/-! ### What a core's path holds performs -/

protected theorem Aligned.performEntry (h : Aligned s) {c : Nat} {e : PathEntry} : Aligned (performEntry s c e) := by
  cases e with
  | load w key kid n id part =>
    dsimp only [performEntry]
    split
    · exact (h.memory (memoryOnly_readEarly ..)).onWaveRec fun _ hw => hw.gotPart ..
    · exact (h.memory (memoryOnly_fillLine ..)).onWaveRec fun _ hw => hw.gotPart ..
  | store w key kid b => exact h.memory (memoryOnly_performWrite ..)
  | l1atomic w key kid b lost => exact Aligned.ite h (h.memory (memoryOnly_performWrite ..))
  | atomic w key kid n op ty d cc id dst lane =>
    rw [performEntry_atomic]
    refine Aligned.onWaveRec ?_ fun w hw => ?_
    · exact h.memory ((sliceOnly_recallOwned ..).memoryOnly.trans ((memoryOnly_atomicAt ..).trans (refreshCopy_frame ..).1.memoryOnly))
    · split <;> exact hw.setAtomicDst ..

protected theorem Aligned.performWay (h : Aligned s) {c way : Nat} : Aligned (performWay s c way) := by
  unfold performWay
  dsimp only
  split
  · exact h
  · exact Aligned.performEntry (s := setCore s c _) h

protected theorem Aligned.performHead (h : Aligned s) {c : Nat} : Aligned (performHead s c) := by
  unfold performHead
  split
  · exact h
  · exact h.performWay

protected theorem Aligned.performMany (h : Aligned s) {c n : Nat} : Aligned (performMany s c n) := by
  induction n generalizing s with
  | zero => exact h
  | succ n ih => exact ih h.performHead

protected theorem Aligned.performWayMany (h : Aligned s) {c way n : Nat} : Aligned (performWayMany s c way n) := by
  induction n generalizing s with
  | zero => exact h
  | succ n ih => exact ih h.performWay

protected theorem Aligned.settleEarly (h : Aligned s) {c line : Nat} : Aligned (settleEarly s c line) := by
  unfold settleEarly
  split
  · exact h
  · exact Aligned.same h.performWayMany rfl

protected theorem Aligned.drainPath (h : Aligned s) {c : Nat} : Aligned (drainPath s c) :=
  h.performMany.foldl fun _ _ ht => ht.settleEarly

protected theorem Aligned.drainAll (h : Aligned s) : Aligned (drainAll s) := h.foldl fun _ _ ht => ht.drainPath

/-! ### Parked waves and postings -/

protected theorem Aligned.settleChoices (h : Aligned s) {now : Nat} : Aligned (settleChoices s now) := AllAligned.map h fun _ hw => WordAligned.settleChoice hw ..

protected theorem Aligned.recheckAt (h : Aligned s) {u now : Nat} : Aligned (recheckAt s u now) := by
  unfold recheckAt
  split
  · exact h
  next w hw =>
  have hwd : WordAligned w := AllAligned.lookup h (Option.filter_eq_some_iff.1 hw).1
  have put {x : Wave} (hx : WordAligned x) : AllAligned (put s.waves u x) := AllAligned.put h u hx
  split
  · exact Aligned.ite h (put hwd)
  · exact Aligned.ite (put (hwd.resume ..)) h
  · exact Aligned.ite (put (hwd.resume ..)) h
  · dsimp only
    split
    · have hr (s : State) (d a b : Nat) : WordAligned (reportFutures s w d a b) := hwd.same rfl rfl rfl
      split <;> exact put (WordAligned.resume (hr ..) ..)
    · exact h
  · dsimp only
    split
    · refine put (WordAligned.resume ?_ ..)
      split
      · exact hwd.setS ..
      · exact hwd
    · exact h
  · exact h

protected theorem Aligned.recheckAll (h : Aligned s) : Aligned (recheckAll s) := h.foldl fun _ _ ht => ht.recheckAt

protected theorem Aligned.post (h : Aligned s) {p : Nat → Wave → EvSlot → Bool} : Aligned (post s p) :=
  Aligned.recheckAll (AllAligned.map h.settleChoices fun _ hw => hw)

/-! ### Plots -/

protected theorem Aligned.drainEnd (h : Aligned s) {g k : Nat} : Aligned (drainEnd s g k) := by
  have hp (p : Plot) : Aligned (setPlot s g k p) := h
  unfold drainEnd
  split
  · exact h
  · exact Aligned.ite (Aligned.ite h (Aligned.ite (hp _).post (Aligned.ite (hp _).post (hp _).recheckAll))) h

protected theorem Aligned.endAccess (h : Aligned s) {g k : Nat} {a : Access} : Aligned (endAccess s g k a) := by
  unfold endAccess
  dsimp only
  split
  · exact h
  · exact Aligned.drainEnd (s := setPlot (setGroup s g _) g k _) h

protected theorem Aligned.failPlot (h : Aligned s) {g k : Nat} {code : BitVec 2} : Aligned (failPlot s g k code) := by
  have hp (p : Plot) : Aligned (setPlot s g k p) := h
  unfold failPlot
  split
  · exact h
  · exact Aligned.ite (hp _).post (Aligned.ite h h)

/-! ### Barrier objects -/

protected theorem Aligned.barPut (h : Aligned s) {o : BarObj} {off n v : Nat} : Aligned (barPut s o off n v) := h.memory (memoryOnly_performWrite ..)

protected theorem Aligned.barCheck (h : Aligned s) {o : BarObj} : Aligned (barCheck s o) :=
  Aligned.ite h.barPut.barPut.barPut.post h

protected theorem Aligned.barArrive (h : Aligned s) {o : BarObj} {n : Nat} : Aligned (barArrive s o n) := h.barPut.barCheck

protected theorem Aligned.dropLine (h : Aligned s) {c line : Nat} : Aligned (dropLine s c line) := by
  unfold dropLine
  split <;> exact h

protected theorem Aligned.barApply (h : Aligned s) {e : BarObj × Nat × Nat × Option (Nat × Nat)} : Aligned (barApply s e) := by
  obtain ⟨o, op, n, dst⟩ := e
  have hop : Aligned (if op = 0 then barArrive s o n else barRegister s o) := h.barArrive.ite h.barPut
  unfold barApply
  dsimp -zeta only
  extract_lets gen s1
  split
  · exact hop
  next u id =>
    split
    · exact hop
    next w hw =>
      extract_lets w1
      have hw1 : WordAligned w1 := List.foldlRecOn (motive := WordAligned) _ _ (AllAligned.lookup hop hw) fun w hw p _ =>
        List.foldlRecOn (motive := WordAligned) _ _ hw fun w hw r _ => by split; exacts [hw.setS .., hw]
      refine Aligned.dropLine ?_
      exact AllAligned.put hop u (hw1.same rfl rfl rfl)

protected theorem Aligned.barSteps (h : Aligned s) {die n : Nat} : Aligned (barSteps s die n) := by
  have step (t : State) (ht : Aligned t) : Aligned (barStep t die) := by
    unfold barStep
    split
    · exact ht
    · exact Aligned.barApply (s := setDie t die _) ht
  induction n generalizing s with
  | zero => exact h
  | succ n ih => exact ih (step s h)

protected theorem Aligned.barFlush (h : Aligned s) {key : Nat} : Aligned (barFlush s key) := h.barSteps

/-! ### Launches and groups -/

protected theorem Aligned.ctxRecord (h : Aligned s) {c va : Nat} {l : List Byte} : Aligned (ctxRecord s c va l) := h.memory (memoryOnly_ctxRecord ..)

protected theorem Aligned.checkLaunch (h : Aligned s) {k : Nat} : Aligned (checkLaunch s k) := by
  have hf {t : State} (ht : Aligned t) (c : Nat) (d : Option Nat) : Aligned (freeEntry t c d) := by
    cases d with
    | none => exact ht
    | some i => exact ht.ctxRecord
  have hc {c : Nat} {a : DWord} {st : Nat} {id : Word} {n : Nat} : Aligned (writeCompletion s c a st id n) := h.ite h.drainAll.ctxRecord
  unfold checkLaunch
  split
  · exact h
  · exact Aligned.ite (hf (h.ite hc) _ _) h

protected theorem Aligned.removeGroup (h : Aligned s) {g : Nat} : Aligned (removeGroup s g) := by
  have hw : AllAligned (s.waves.filter fun e => e.2.group != g) := AllAligned.filter h _
  unfold removeGroup
  refine Aligned.checkLaunch ?_
  split <;> exact hw

protected theorem Aligned.checkEnding (h : Aligned s) {g : Nat} : Aligned (checkEnding s g) :=
  Aligned.ite (Aligned.ite (Aligned.ite h h) h.removeGroup) h

protected theorem Aligned.checkEndings (h : Aligned s) : Aligned (checkEndings s) := by
  have pass {t : State} (ht : Aligned t) (l : List Nat) : Aligned (l.foldl (fun t g => match lookup t.groups g with
      | some _ => checkEnding t g
      | none => t) t) := ht.foldl fun _ _ hv => by
    split
    · exact hv.checkEnding
    · exact hv
  exact pass (pass h _) _

/-! ### Ends of transfers -/

protected theorem Aligned.logFault (h : Aligned s) {c : Nat} {region : DWord} {cause : Nat} {info : DWord} : Aligned (logFault s c region cause info) := by
  unfold logFault
  dsimp only
  split
  · exact h
  · exact h.ctxRecord.ctxRecord.ite h.ctxRecord

protected theorem Aligned.countFault (h : Aligned s) {k : Nat} : Aligned (countFault s k) := by
  unfold countFault
  split <;> exact h

protected theorem Aligned.transferFault (h : Aligned s) {t : Transfer} {reason va : Nat} : Aligned (transferFault s t reason va) := by
  unfold transferFault
  refine Aligned.countFault (Aligned.logFault ?_)
  split
  · exact h
  next w hw => exact AllAligned.put h _ (WordAligned.same (AllAligned.lookup h hw) rfl rfl rfl)

protected theorem Aligned.endOutcome (h : Aligned s) {x : Nat} {t : Transfer} {status reason va : Nat} : Aligned (endOutcome s x t status reason va) := by
  unfold endOutcome
  extract_lets fails s'
  have hy : Aligned s' := by
    unfold s'
    split
    · split
      · split <;> exact h
      · exact h
    · exact h
  exact Aligned.ite (Aligned.ite (hy.foldl fun _ _ ht => ht.failPlot) hy) (Aligned.ite hy.transferFault hy)

protected theorem Aligned.arrive (h : Aligned s) {t : Transfer} : Aligned (arrive s t) := by
  unfold arrive
  split
  · exact h
  · refine Aligned.barArrive (Aligned.barFlush ?_)
    split <;> exact h

protected theorem Aligned.leaveEngine (h : Aligned s) {x : Nat} {t : Transfer} {status reason : Nat} : Aligned (leaveEngine s x t status reason) := by
  unfold leaveEngine
  extract_lets s1 s2 s3 s4
  have h2 : Aligned s2 := Aligned.foldl (s := s1) h fun _ _ ht => ht.endAccess
  have h3 : Aligned s3 := Aligned.ite h2.ctxRecord h2
  have h4 : Aligned s4 := h3.ite h3.arrive
  exact h4.checkEndings.checkLaunch

protected theorem Aligned.endTransfer (h : Aligned s) {x status reason va : Nat} : Aligned (endTransfer s x status reason va) := by
  unfold endTransfer
  split
  · exact h
  · exact h.endOutcome.leaveEngine

/-! ### The end of a step -/

protected theorem Aligned.trimSlices (h : Aligned s) : Aligned (trimSlices s) := by
  have leave {t : State} (ht : Aligned t) {die line : Nat} : Aligned (leaveSlice t die line) := Aligned.ite ht ht
  exact h.ite (h.foldl fun _ _ ht => ht.foldl fun _ _ hv => leave hv)

protected theorem Aligned.resolveSnaps (h : Aligned s) : Aligned (resolveSnaps s) := by
  have fix {t : State} (ht : Aligned t) (p : Snap) : Aligned (fixSnap t p) := by
    unfold fixSnap
    split
    · exact ht
    · exact Aligned.ite ht (Aligned.ite ht.endTransfer ht)
  have hs : Aligned ((s.snaps.map (resolveLines s)).foldl fixSnap { s with snaps := s.snaps.map (resolveLines s) }) :=
    Aligned.foldl (s := { s with snaps := _ }) h fun _ _ ht => fix ht _
  refine AllAligned.map hs fun e he => ?_
  dsimp only
  unfold passSnap
  split
  · split
    · exact he
    · exact WordAligned.next (w := { e.2 with stall := none }) he _
  · exact he

protected theorem Aligned.admitWaits (h : Aligned s) : Aligned (admitWaits s) := by
  refine h.foldl fun t u ht => ?_
  unfold admitWait
  split
  · exact ht
  next w hw =>
  have hwd : WordAligned w := AllAligned.lookup ht (Option.filter_eq_some_iff.1 hw).1
  split
  · exact Aligned.ite ht (Aligned.ite (AllAligned.put ht u (hwd.resume ..)) (AllAligned.put ht u hwd))
  · exact ht

protected theorem Aligned.passTurn (h : Aligned s) {turn : Bool} : Aligned (passTurn turn s) := by
  have charge : Aligned (chargeSlot s s.cur) := by
    unfold chargeSlot
    split
    · exact h
    · exact Aligned.ite h h
  have next {t : State} (ht : Aligned t) : Aligned (nextWave t) := by
    unfold nextWave
    dsimp only
    split
    · exact ht
    · exact ht
  exact Aligned.ite (charge.ite h) (next (charge.ite h))

/-- The end of a step aligns every wave, and nothing that it does afterwards leaves a word address. -/
theorem aligned_tick (turn : Bool) (s : State) : Aligned (tick turn s) := by
  have h : Aligned { s with
      tsc := s.tsc + BitVec.ofNat 64 (Config.elapsedNs s.stepNo)
      waves := s.waves.map fun (e : Nat × Wave) => (e.1, alignControl (advanceWave s.stepNo (coreNo s e.2) (pausedWave s e.2) e.2))
      stepNo := s.stepNo + 1 } := by
    intro e he
    obtain ⟨d, -, rfl⟩ := List.mem_map.1 he
    exact wordAligned_alignControl _
  exact h.trimSlices.resolveSnaps.settleChoices.admitWaits.passTurn

end

/-! ### Every step ends with a tick -/

theorem endStep_next {turn : Bool} {o : Out} {t : State} (h : endStep turn o = .next t) : ∃ s, t = tick turn s := by
  cases o with
  | next s => exact ⟨s, (Host.Outcome.next.inj h).symm⟩
  | fault r => cases h
  | refused r => cases h

theorem step_next {s t : State} (h : step s = .next t) : ∃ turn v, t = tick turn v := by
  unfold step freeStep at h
  split at h
  · exact ⟨_, endStep_next h⟩
  · split at h
    · exact ⟨_, endStep_next h⟩
    · split at h
      · exact ⟨_, endStep_next h⟩
      · split at h
        · exact ⟨_, endStep_next h⟩
        · split at h
          · exact ⟨_, endStep_next h⟩
          · exact ⟨_, _, (Host.Outcome.next.inj h).symm⟩

/-- Settles O58: every step ends with a tick, which aligns each wave and keeps it aligned. -/
theorem controlAligned : Obligations.ControlAligned := by
  unfold Obligations.ControlAligned
  intro s t h
  obtain ⟨turn, v, rfl⟩ := step_next h
  exact aligned_tick turn v

end Sys2Proof

/-! SUPPORT. Words and instructions (R212-R214, Table 8.10), the next address (R216) and the register files (R222): the statements about them. -/
namespace Sys2Proof
open Machine

/-! ### Words -/

/-- The code 3 of VVOTE's field S is that of VVOTE.pballot, whose destination is a predicate register (Table 10.1): the encoder gives both instructions one word. -/
theorem encode_vvote_code3 : encode (.vvote 0#2 0#6 0#6 3#2) = encode (.vvotePballot 0#2 0#3 0#6) := by decide

/-- The decoder reads that word as VVOTE.pballot. -/
theorem decode_vvotePballot : decode 0x57000003#32 = .ok (.vvotePballot 0#2 0#3 0#6) := by decide

/-- Refutes O54: the word of VVOTE with S = 3 and D below 8, which the encoder gives although no VVOTE has that code, is decoded as VVOTE.pballot. -/
theorem not_decodeEncode : ¬ Obligations.DecodeEncode := by
  unfold Obligations.DecodeEncode
  rintro ⟨hdecodes, -, -⟩
  have hword : encode (.vvote 0#2 0#6 0#6 3#2) = some 0x57000003#32 := encode_vvote_code3.trans (by decide)
  have hread := hdecodes _ _ hword
  rw [decode_vvotePballot] at hread
  cases hread

/-- Settles O55: each word is read by the row of its opcode's high digit. -/
theorem knownWords : Obligations.KnownWords := by
  unfold Obligations.KnownWords
  decide

/-! ### The next address -/

/-- The loop counter has reached 0 after it where it was 0 or 1. -/
theorem lc_ends_iff (x : Word) : (if x = 0#32 then 0#32 else x - 1#32) = 0#32 ↔ x = 0#32 ∨ x = 1#32 := by
  split
  next h => simp [h]
  next h => rw [or_iff_right h, BitVec.sub_eq_iff_eq_add, BitVec.zero_add]

/-- Settles O1: by the value of NX. -/
theorem nextAddress : Obligations.NextAddress := by
  unfold Obligations.NextAddress
  intro w
  refine ⟨rfl, rfl, ?loops, rfl, fun nx => ?ends⟩
  case loops =>
    show ({ w with lc := _, pc := _ } : Wave) = _
    simp only [lc_ends_iff]
  case ends => obtain rfl | rfl | rfl | rfl := nx_cases nx <;> rfl

/-! ### The register files -/

theorem Wave.sreg_setS_ne (w : Wave) {d k : Nat} (x : DWord) (h : k ≠ d) : (w.setS d x).sreg k = w.sreg k := by
  by_cases hd : d = 0
  · rw [hd, Wave.setS_zero]
  · simp only [Wave.setS, hd, if_false, Wave.sreg, vector_getD_set, h, false_and]

theorem Wave.preg_setP_ne (w : Wave) {d k : Nat} (x : Word) (h : k ≠ d) : (w.setP d x).preg k = w.preg k := by
  by_cases hd : d = 0
  · rw [hd, Wave.setP_zero]
  · simp only [Wave.setP, hd, if_false, Wave.preg, vector_getD_set, h, false_and]

theorem Wave.vreg_setV_ne (w : Wave) {d k : Nat} (x : Vector Word 32) (h : k ≠ d) : (w.setV d x).vreg k = w.vreg k := by
  simp only [Wave.setV, Wave.vreg, vector_getD_set, h, false_and, if_false]

/-- Settles O2: what is read of each file after a write to the same register and to another, and what a write changes. -/
theorem registerFiles : Obligations.RegisterFiles := by
  unfold Obligations.RegisterFiles
  intro w d k
  refine ⟨Wave.setS_zero w, Wave.sreg_zero w, Wave.setP_zero w, Wave.preg_zero w, fun x h0 h => ?_, fun x => Wave.sreg_setS_ne w x, fun x h0 h => ?_, fun x => Wave.preg_setP_ne w x,
    fun x h => ?_, fun x => Wave.vreg_setV_ne w x, fun x => ?_, fun x => ?_, fun x => ⟨_, rfl⟩⟩
  · rw [Wave.sreg_setS w x h, if_pos ⟨rfl, h0⟩]
  · rw [Wave.preg_setP w x h, if_pos ⟨rfl, h0⟩]
  · rw [Wave.vreg_setV w x h, if_pos rfl]
  · by_cases hd : d = 0
    · exact ⟨w.s, by rw [hd, Wave.setS_zero]⟩
    · exact ⟨_, if_neg hd⟩
  · by_cases hd : d = 0
    · exact ⟨w.p, by rw [hd, Wave.setP_zero]⟩
    · exact ⟨_, if_neg hd⟩

/-! ### Long-latency vector functions -/

theorem okAny_iff (t : Nat) : okAny t = true ↔ t ≤ 10 := by
  simp only [okAny, isInt, isFp, Bool.or_eq_true, Bool.and_eq_true, decide_eq_true_eq]
  omega

theorem okFp_iff (t : Nat) : okFp t = true ↔ 8 ≤ t ∧ t ≤ 10 := by simp [okFp, isFp]

theorem isWide_iff (t : Nat) : isWide t = true ↔ t = 6 ∨ t = 7 := by simp [isWide]

/-- All ones are -1 modulo the width, so that both quotients by zero of R97 are one element. -/
theorem wrapOf_quotInt (t : Nat) (a b : Int) : wrapOf (typeBits t) (quotInt t a b) = wrapOf (typeBits t) (if b = 0 then -1 else a.tdiv b) := by
  have hones (n : Nat) : wrapOf n (((2 ^ n : Nat) : Int) - 1) = wrapOf n (-1) := by
    rw [wrapOf, wrapOf, sub_eq_neg_add, Int.add_emod_right]
  unfold quotInt
  split
  · split
    · rfl
    · exact hones _
  · rfl

section
variable (nx : BitVec 2) (d a b : BitVec 6) (la : BitVec 4)

/-- A function of one floating-point operand (R266). -/
theorem issuesResult_of_llFun {i : Instr} {f g : Wave → Nat → Nat} (h : ∀ s, exec i s = llFun s nx d a la f) (e : ∀ w x, f w x = g w x) :
    IssuesResult i nx la (fun t => 8 ≤ t ∧ t ≤ 10) (fun _ => [.v d.toNat])
      (fun w => elemWrites w.ty d.toNat w.active fun l => g w (w.elem w.ty a.toNat l)) :=
  issuesResult_of_llVec h okFp_iff (fun _ => rfl) fun w _ => by simp only [e]

/-- VDIV's destination is a pair for 64-bit types (R257). -/
theorem vdiv_issues :
    IssuesResult (.vdiv nx d a b la) nx la (· ≤ 10) (fun w => if w.ty = 6 ∨ w.ty = 7 then [.v d.toNat, .v (d.toNat + 1)] else [.v d.toNat])
      (fun w => elemWrites w.ty d.toNat w.active fun l =>
        let x := w.elem w.ty a.toNat l
        let y := w.elem w.ty b.toNat l
        if w.ty ≤ 7 then
          wrapOf (typeBits w.ty) (if intVal w.ty y = 0 then -1 else (intVal w.ty x).tdiv (intVal w.ty y))
        else resultF (fmtOf w.ty) w.rnd w.sat w.flush (divV (elemVal w.ty w.flush x) (elemVal w.ty w.flush y))) := by
  refine issuesResult_of_llVec (fun _ => rfl) okAny_iff (fun w => ?_) fun w _ => ?_
  · simp only [vW, isWide_iff]
    rfl
  · simp only [Wave.divElem, wrapOf_quotInt, isInt, decide_eq_true_eq]
    rfl

/-- VSINCOS writes the sine, and the cosine into the next register (R266). -/
theorem vsincos_issues :
    IssuesResult (.vsincos nx d a la) nx la (fun t => 8 ≤ t ∧ t ≤ 10) (fun _ => [.v d.toNat, .v (d.toNat + 1)])
      (fun w => (elemWrites w.ty d.toNat w.active fun l => llResult (fmtOf w.ty) w.rnd w.sat w.flush 4 (w.elem w.ty a.toNat l)) ++
        elemWrites w.ty (d.toNat + 1) w.active fun l => llResult (fmtOf w.ty) w.rnd w.sat w.flush 5 (w.elem w.ty a.toNat l)) :=
  issuesResult_of_llVec (fun _ => rfl) okFp_iff (fun _ => rfl) fun w _ => by simp only [Wave.tableFun]

end

/-- Settles O10: each function's results and registers, by the form that its meaning has. -/
theorem vectorLongLatency : Obligations.VectorLongLatency := by
  unfold Obligations.VectorLongLatency
  intro nx d a b la one fn table
  have tableFn (i : Instr) (n : Nat) (h : ∀ s, exec i s = llFun s nx d a la fun w x => w.tableFun n x) :
      IssuesResult i nx la (fun t => 8 ≤ t ∧ t ≤ 10) one (fn (table n)) :=
    issuesResult_of_llFun nx d a la (g := table n) h fun _ _ => rfl
  refine ⟨vdiv_issues nx d a b la, ?sqrt, tableFn (.vrcp nx d a la) 0 fun _ => rfl, tableFn (.vrsq nx d a la) 1 fun _ => rfl,
    tableFn (.vexp2 nx d a la) 2 fun _ => rfl, tableFn (.vlog2 nx d a la) 3 fun _ => rfl, ?sincos⟩
  case sqrt =>
    have hx : ∀ s, exec (.vsqrt nx d a la) s = llFun s nx d a la fun w x => w.fres w.ty (sqrtV (w.fval x)) := fun _ => rfl
    exact issuesResult_of_llFun nx d a la (g := fun w x => resultF (fmtOf w.ty) w.rnd w.sat w.flush (sqrtV (elemVal w.ty w.flush x))) hx fun _ _ => rfl
  case sincos => exact vsincos_issues nx d a la

end Sys2Proof

/-! SUPPORT. HALT (R237, R221): a wave that retires while others of its group go on, and the statement about it. -/
namespace Sys2Proof
open Machine

theorem lookup_of_mem_nodup {α : Type} {m : AMap α} {e : Nat × α} (he : e ∈ m) (hn : (m.map (·.1)).Nodup) : lookup m e.1 = some e.2 := by
  induction m with
  | nil => cases he
  | cons d t ih =>
    obtain ⟨hd, ht⟩ := List.nodup_cons.1 hn
    obtain rfl | he := List.mem_cons.1 he
    · exact if_pos rfl
    · have hne : d.1 ≠ e.1 := fun h => hd (List.mem_map.2 ⟨e, he, h.symm⟩)
      exact (if_neg hne).trans (ih he ht)

/-- A wave without outstanding results closes its windows, and nothing else of it changes (R221). -/
theorem settleWave_noPending {s : State} {u : Nat} {w : Wave} (hw : lookup s.waves u = some w) (hp : w.pending = []) :
    settleWave s u = if w.windows.isEmpty then s else setWave s u { w with windows := [] } := by
  have hc : completeResults s u (fun _ => true) = s := by simp [completeResults, hw, hp]
  simp only [settleWave, hc, hw, hp, List.isEmpty_nil, List.any_nil, List.foldl_nil, Bool.true_and, Bool.or_false, setWave]

/-- Whatever it had open, a wave without outstanding results is written over as if it had not settled. -/
theorem setWave_settleWave {s : State} {u : Nat} {w : Wave} (hw : lookup s.waves u = some w) (hp : w.pending = []) (x : Wave) :
    setWave (settleWave s u) u x = setWave s u x := by
  rw [settleWave_noPending hw hp]
  split
  · rfl
  · exact setWave_setWave ..

theorem lookup_settleWave {s : State} {u : Nat} {w : Wave} (hw : lookup s.waves u = some w) (hp : w.pending = []) :
    lookup (settleWave s u).waves u = some { w with windows := [] } := by
  rw [settleWave_noPending hw hp]
  split
  next h =>
    have : w.windows = [] := List.isEmpty_iff.1 h
    rw [hw, ← this]
  · exact lookup_put_self ..

theorem exec_halt {s : State} {w : Wave} (hw : lookup s.waves s.cur = some w) (hp : w.pending = []) :
    exec .halt s = .next (retireWave (setWave s s.cur (Wave.complete { w with windows := [] } 0#8 0)) s.cur (brokenCause 4 0)) := by
  have ho : outstanding (settleWave s s.cur) s.cur = false := by simp [outstanding, lookup_settleWave hw hp, hp]
  have hv : waveOf (settleWave s s.cur) s.cur = { w with windows := [] } := waveOf_of_lookup (lookup_settleWave hw hp)
  show execHalt s = _
  simp only [execHalt, onWave_eq hw, ho, hv, Bool.false_eq_true, if_false, setWave_settleWave hw hp]

/-- A GBAR for which a wave of the group is still to come does not complete (R305). -/
theorem checkGbar_waits {s : State} {g : Nat} {e : Nat × Wave} (he : e ∈ s.waves) (hg : e.2.group = g) (hr : e.2.status ≠ .retired)
    (hb : (groupOf s g).gbar.getLsbD e.2.waveId = false) : checkGbar s g = s := by
  unfold checkGbar
  refine if_neg fun h => ?_
  obtain ⟨-, hall⟩ := Bool.and_eq_true_iff.1 h
  have hlive : e ∈ s.waves.filter fun e => e.2.group == g && e.2.status != .retired := List.mem_filter.2 ⟨he, by simp [hg, hr]⟩
  have := List.all_eq_true.1 hall e hlive
  rw [hb] at this
  cases this

/-- A wave with neither tasks nor barriers retires while another of its group, which GBAR waits for, is ready: only the group's parked partners go on. -/
theorem retireWave_eq {s : State} {u v : Nat} {w x : Wave} (hw : lookup s.waves u = some w) (hs : w.sheaf = none) (hm : w.members = [])
    (hv : lookup s.waves v = some x) (hne : v ≠ u) (hg : x.group = w.group) (hr : x.status = .ready)
    (hb : (groupOf s w.group).gbar.getLsbD x.waveId = false) (cause : DWord) :
    retireWave s u cause = releasePartners (setWave s u (retired w)) w.group w.waveId := by
  have hv' : lookup (releasePartners (setWave s u (retired w)) w.group w.waveId).waves v = some x :=
    keepsUnparked_releasePartners _ _ _ v x ((lookup_setWave_ne _ _ hne).trans hv) (by simp [hr])
  have hgbar := checkGbar_waits (lookup_mem hv') hg (by simp [hr]) (g := w.group) hb
  have hw' : lookup (setWave s u w).waves u = some w := lookup_put_self ..
  have hput : ({ setWave s u w with waves := put (setWave s u w).waves u (retired w) } : State) = setWave s u (retired w) := setWave_setWave ..
  unfold retireWave
  simp only [hw, breakLanes_noSheaf hw hs, leaveBarriers_noMembers hw hm, hw']
  rw [← retired, hput, hgbar, not_allRetired hv' hg (by simp [hr])]
  rfl

/-- Settles O29: the wave, completed and with its windows closed, retires beside a ready wave of its group. -/
theorem halt : Obligations.Halt := by
  unfold Obligations.Halt
  rintro s w hw hp hm hs ⟨e, he, hne, hg, hr, hb⟩ hn
  have hx := exec_halt hw hp
  have hu : lookup (setWave s s.cur (Wave.complete { w with windows := [] } 0#8 0)).waves s.cur = _ := lookup_put_self ..
  have hv := (lookup_setWave_ne s (Wave.complete { w with windows := [] } 0#8 0) hne).trans (lookup_of_mem_nodup he hn)
  have hleft := (retireWave_leaves hu hs hm hv hne hg hr (brokenCause 4 0)).1
  rw [retireWave_eq hu hs hm hv hne hg hr hb] at hx hleft
  refine ⟨_, hx, ?_⟩
  dsimp only
  rw [waveOf_of_lookup hleft]
  exact ⟨rfl, rfl, rfl, rfl, rfl, rfl, fun i hi => congrArg EvSlot.bound (tab_getD _ _ hi), rfl, fun _ => rfl, rfl⟩

end Sys2Proof

/-! SUPPORT. A wave's turn (R212, R215, R219, R220): the checks of a word before it issues and the step that runs it, and the statements about both. -/
namespace Sys2Proof
open Machine

/-! ### The word and its registers -/

theorem decodeFor_ok {w : Wave} {x : Word} {i : Instr} (h : decode x = .ok i)
    (hwf : (wellFormed i && wellFormedIn i w.ty) = true) :
    decodeFor w x = .ok i := by
  simp only [decodeFor, h, hwf, if_true]

theorem decodeFor_illFormed {w : Wave} {x : Word} {i : Instr} (h : decode x = .ok i)
    (hwf : (wellFormed i && wellFormedIn i w.ty) = false) :
    decodeFor w x = .error ⟨2, 0, x.toNat, 0#32⟩ := by
  simp only [decodeFor, h, hwf, Bool.false_eq_true, if_false]

/-- Nothing is outstanding for registers of which there are none, nor for a wave without outstanding results. -/
theorem awaits_none {s : State} {u : Nat} {w : Wave} {names : List RegName} (hw : lookup s.waves u = some w) (h : w.pending = [] ∨ names = []) :
    awaits s u names = false := by
  rw [awaits, waveOf_of_lookup hw]
  obtain h | rfl := h
  · simp [h]
  · simp

theorem waitForRegs_none {s : State} {u : Nat} {w : Wave} {names : List RegName} (hw : lookup s.waves u = some w) (h : w.pending = [] ∨ names = []) :
    waitForRegs s u names = s := by
  have hn : (w.pending.any fun p => p.regs.any names.contains) = false := by
    rw [← awaits_none hw h, awaits, waveOf_of_lookup hw]
  simp only [waitForRegs, hw, hn, Bool.false_eq_true, if_false]

/-- One window of which one register is named: the trap names both (Table 14.2). -/
theorem brokenWindow_one {w : Wave} {win : Window} {names : List RegName} {r : RegName} (hwin : w.windows = [win])
    (hr : names.filter (fun k => win.regs.contains k) = [r]) :
    brokenWindow w names = some ⟨4, regCode r, win.pc.toNat % 2 ^ 56, 0#32⟩ := by
  simp only [brokenWindow, hwin, List.findSome?_cons, hr, List.foldl_nil, Option.map_some, argAddr]

/-! ### What a word does at its wave's turn -/

section
variable {s : State} {u : Nat} {w : Wave} {x : Word} {i : Instr}

theorem issueWord_error {t : Trap} (h : decodeFor w x = .error t) : issueWord s u w x = .done (takeTrap s u t (replayOf t.cause) false) := by
  simp only [issueWord, h]

variable (h : decodeFor w x = .ok i)
include h

/-- What decides the names of an instruction is still owed (R87). -/
theorem issueWord_unnamed (ha : awaits (waitForRegs s u (namingRegs i)) u (namingRegs i) = true) :
    issueWord s u w x = .done (waitForRegs s u (namingRegs i)) := by
  simp only [issueWord, h, ha, if_true]

variable {first : State} (hf : waitForRegs s u (namingRegs i) = first) (ha : awaits first u (namingRegs i) = false)
  {names : List RegName} (hn : regsOf i (waveOf first u).ty (meetsWide first (waveOf first u) i) = names)
include hf ha hn

/-- An instruction that names a watched register breaks its window (R220). -/
theorem issueWord_broken {t : Trap} (hb : brokenWindow (waveOf first u) names = some t) :
    issueWord s u w x = .done (takeTrap first u t (replayOf t.cause) false) := by
  subst hf hn
  simp only [issueWord, h, ha, hb, Bool.false_eq_true, if_false]

variable (hb : brokenWindow (waveOf first u) names = none)
include hb

/-- A register that an instruction names is still owed (R87). -/
theorem issueWord_owed (ho : awaits (waitForRegs first u names) u names = true) : issueWord s u w x = .done (waitForRegs first u names) := by
  subst hf hn
  simp only [issueWord, h, ha, hb, ho, Bool.false_eq_true, if_false, if_true]

/-- Every window counts one place, and the instruction runs (R219, R220). -/
theorem issueWord_runs (ho : awaits (waitForRegs first u names) u names = false) :
    issueWord s u w x = .run i (setWave (waitForRegs first u names) u (countWindows (waveOf (waitForRegs first u names) u))) := by
  subst hf hn
  simp only [issueWord, h, ha, hb, ho, Bool.false_eq_true, if_false]

end

/-- Settles O57: by what the word decodes to. -/
theorem issueChecks : Obligations.IssueChecks := by
  unfold Obligations.IssueChecks
  intro s u w x
  refine ⟨fun h => issueWord_error (t := ⟨1, 0, x.toNat, 0#32⟩) ?op, fun h => issueWord_error (t := ⟨2, 0, x.toNat, 0#32⟩) ?enc,
    fun i h => ⟨fun hwf => ?illFormed, fun hwf hw hp win r hwin hr => ?window⟩⟩
  case op => simp only [decodeFor, h]
  case enc => simp only [decodeFor, h]
  case illFormed => exact issueWord_error (decodeFor_illFormed h hwf)
  case window =>
    have hv : waveOf s u = w := waveOf_of_lookup hw
    refine issueWord_broken (decodeFor_ok h hwf) (waitForRegs_none hw hp) (awaits_none hw hp) rfl ?_
    rw [hv]
    exact brokenWindow_one hwin hr

/-! ### The turn and its step -/

/-- A wave with nothing pending fetches its next instruction. -/
theorem turnOf_fetches {s : State} {u : Nat} {w : Wave} (hw : lookup s.waves u = some w) (hd : w.stepDone = none) (hp : w.preempt = none)
    (hs : w.stall = none) : turnOf s u = fetchTurn s u w := by
  simp only [turnOf, hw, hd, hp, hs, heldBack, ite_self]

theorem fetchTurn_fetched {s : State} {w : Wave} {p : Place} (u : Nat) (hp : translate s (.core (coreNo s w)) w.ctag w.pc.toNat 2 false = .ok p) :
    fetchTurn s u w = issueWord (fetchLine s (coreNo s w) w.ctag p).1 u w
      (BitVec.ofNat 32 (fieldOf (fetchLine s (coreNo s w) w.ctag p).2 (p.key % 128) 4)) := by
  simp only [fetchTurn, fetchWord, askerOf, hp]

theorem turnOf_fetched {s : State} {u : Nat} {w : Wave} {p : Place} (hw : lookup s.waves u = some w) (hd : w.stepDone = none)
    (hp : w.preempt = none) (hs : w.stall = none) (hpl : translate s (.core (coreNo s w)) w.ctag w.pc.toNat 2 false = .ok p) :
    turnOf s u = issueWord (fetchLine s (coreNo s w) w.ctag p).1 u w
      (BitVec.ofNat 32 (fieldOf (fetchLine s (coreNo s w) w.ctag p).2 (p.key % 128) 4)) :=
  (turnOf_fetches hw hd hp hs).trans (fetchTurn_fetched u hpl)

theorem waveStep_done {s t : State} (h : turnOf s s.cur = .done t) : waveStep s = .next t := by
  simp only [waveStep, h]

section
variable {s t : State} {i : Instr} (h : turnOf s s.cur = .run i t)
include h

theorem waveStep_next {r : State} (hr : exec i t = .next r) : waveStep s = .next (afterIssue r s.cur (waveOf s s.cur)) := by
  simp only [waveStep, h, hr]

theorem waveStep_fault {r : Fault} (hr : exec i t = .fault r) : waveStep s = .fault r := by
  simp only [waveStep, h, hr]

theorem waveStep_refused {r : Refusal} (hr : exec i t = .refused r) : waveStep s = .refused r := by
  simp only [waveStep, h, hr]

end

/-- The current wave has its turn when no timer is due, the agenda is empty and the device does not come first (log 3). -/
theorem step_turn {s : State} (ht : nextTime s = none) (ha : s.agenda = []) (hd : s.devTurn = false) (hc : curReady s = true) :
    step s = endStep true (waveStep { s with devTurn := true }) := by
  simp only [step, ht, ha, freeStep, hd, hc, Bool.not_false, Bool.and_self, if_true]

/-! ### A line that the instruction cache does not hold -/

theorem fetchLine_fills {s : State} {c ctag : Nat} {p : Place}
    (h : ∀ t k b, lookup (coreOf s c).icache (lineOf p.key) = some (t, k, b) → t ≠ ctag ∨ (isHostKey p.key = false ∧ k ≠ p.kid)) :
    fetchLine s c ctag p = fillCode s c ctag p := by
  unfold fetchLine
  split
  next t k b hl =>
    refine if_neg fun hc => ?_
    obtain ⟨ht, hk⟩ := Bool.and_eq_true_iff.1 hc
    obtain hne | ⟨hh, hne⟩ := h t k b hl
    · exact hne (of_decide_eq_true ht)
    · exact hne (by simpa [hh] using hk)
  · rfl

/-- Four bytes are one word, the first of them its low byte (R10). -/
theorem wordOfBytes_physBytes (s : State) (k : Nat) : wordOfBytes (physBytes s k 4) = BitVec.ofNat 32 (natOf (physBytes s k 4)) := by
  simp only [wordOfBytes, physBytes, natOf, List.getD_cons_zero, List.getD_cons_succ]
  congr 1
  omega

/-- A fill takes the line as memory holds it (R112). -/
theorem fillCode_word {s : State} {c ctag : Nat} {p : Place} (h4 : p.key % 4 = 0) (hk : UnderKey s p.kid (lineOf p.key * 128) 128) :
    BitVec.ofNat 32 (fieldOf (fillCode s c ctag p).2 (p.key % 128) 4) = wordOfBytes (physBytes s p.key 4) := by
  have hb : (fillCode s c ctag p).2 = physBytes s (lineOf p.key * 128) 128 :=
    (sliceRead_bytes s (some c) p.kid _ 128 hk).2
  have hp : lineOf p.key * 128 + p.key % 128 = p.key := by unfold lineOf; omega
  rw [hb, fieldOf_physBytes s (by omega), hp, wordOfBytes_physBytes]

/-- Settles O56: the step is the current wave's turn, and the turn is what its fetched word does. -/
theorem stepRunsDecoded : Obligations.StepRunsDecoded := by
  unfold Obligations.StepRunsDecoded
  intro s w p i hw htime hagenda hdev hready hstep hpre hstall z hp f x
  have hstepS : step s = endStep true (waveStep z) := step_turn htime hagenda hdev hready
  have hturn : turnOf z z.cur = issueWord f.1 z.cur w x := turnOf_fetched (s := z) (u := z.cur) (p := p) hw hstep hpre hstall hp
  have done {t : State} (h : issueWord f.1 z.cur w x = .done t) : step s = .next (tick true t) := by
    rw [hstepS, waveStep_done (hturn.trans h)]
    rfl
  constructor
  · intro hdec hwf hwfIn first v names
    have hd : decodeFor w x = .ok i := decodeFor_ok hdec (by rw [hwf, hwfIn]; rfl)
    refine ⟨fun ha => done (issueWord_unnamed hd ha), fun ha hb => ⟨fun ho => done (issueWord_owed hd rfl ha rfl hb ho), fun ho => ?_⟩⟩
    have hrun := hturn.trans (issueWord_runs hd rfl ha rfl hb ho)
    refine ⟨fun r hr => ?_, fun r hr => ?_, fun r hr => ?_⟩
    · rw [hstepS, waveStep_next hrun hr, waveOf_of_lookup (show lookup z.waves z.cur = some w from hw)]
      rfl
    · rw [hstepS, waveStep_fault hrun hr]
      rfl
    · rw [hstepS, waveStep_refused hrun hr]
      rfl
  · intro hcache h4 hk
    show BitVec.ofNat 32 (fieldOf (fetchLine z (coreNo z w) w.ctag p).2 _ 4) = _
    rw [fetchLine_fills hcache, fillCode_word h4 hk]

end Sys2Proof
